-- ==== Sys2Proof/Word.lean ====
section
/-!
DEFINITION. The word types of the device and their plainest arithmetic: bytes, 32-bit words, bit fields read as
numbers, signed readings and saturation. Bit 0 is the least significant bit (R4).
-/

namespace Sys2Proof

/-- A byte of memory, of a frame or of a section payload. -/
abbrev Byte := BitVec 8

/-- A 32-bit word: a register, an LDM word, a lane. -/
abbrev Word := BitVec 32

/-- A double word: an LPM instruction, a 64-bit counter. -/
abbrev DWord := BitVec 64

/-- FIELD[lo + width - 1 : lo] of a number (R4). -/
def bits (x lo width : Nat) : Nat := x / 2 ^ lo % 2 ^ width

/-- FIELD[n] of a number. -/
def bit (x n : Nat) : Bool := x / 2 ^ n % 2 == 1

/-- The two's complement reading of the low `w` bits of `x`. -/
def signed (w x : Nat) : Int :=
  if x % 2 ^ w < 2 ^ (w - 1) then (x % 2 ^ w : Nat) else (x % 2 ^ w : Nat) - (2 : Int) ^ w

/-- The `w`-bit two's complement code of an integer. -/
def unsigned (w : Nat) (x : Int) : Nat := (x % (2 : Int) ^ w).toNat

/-- An integer held between two bounds. -/
def clampInt (lo hi x : Int) : Int := max lo (min hi x)

/-- A natural number held between two bounds. -/
def clampNat (lo hi x : Nat) : Nat := max lo (min hi x)

/-- The signed 32-bit reading saturated (pu32 and the counters that saturate). -/
def satI32 (x : Int) : Int := clampInt (-2147483648) 2147483647 x

/-- A word from an integer, modulo 2^32. -/
def wordOfInt (x : Int) : Word := BitVec.ofInt 32 x

/-- A word from a natural number, modulo 2^32. -/
def word (x : Nat) : Word := BitVec.ofNat 32 x

/-- A 0 or 1 from a flag. -/
def b2n (b : Bool) : Nat := if b then 1 else 0

/-- A word with one bit given. -/
def bitWord (n : Nat) (b : Bool) : Word := if b then word (2 ^ n) else 0

/-- The little-endian number that a list of bytes spells (R5). -/
def leNat : List Byte → Nat
  | [] => 0
  | b :: bs => b.toNat + 256 * leNat bs

/-- `n` bytes of a number, least significant first (R5). -/
def leBytes : Nat → Nat → List Byte
  | 0, _ => []
  | n + 1, x => BitVec.ofNat 8 (x % 256) :: leBytes n (x / 256)

/-- The big-endian number of a list of bytes: the order of the external standards that R5 leaves as they are. -/
def beNat (bs : List Byte) : Nat := leNat bs.reverse

/-- `n` bytes of a number, most significant first. -/
def beBytes (n x : Nat) : List Byte := (leBytes n x).reverse

/-- `n` bytes of a list from an offset, with zero bytes beyond its end. -/
def slice (bs : List Byte) (off n : Nat) : List Byte := (List.range n).map fun i => bs.getD (off + i) 0

/-- True when a value ahead of the reference by less than half the modulus: R14's modular comparison. -/
def aheadMod (modulus ref x : Nat) : Bool :=
  let d := (x + modulus - ref % modulus) % modulus
  decide (0 < d ∧ d < modulus / 2)

end Sys2Proof
end

