-- ==== Sys2Proof/Syntax.lean ====
section
/-!
DEFINITION. The commands of the block, one constructor for each row of the table, with the operands that the outside
world brings: a word, a frame, a measured value, the instance (context, group, leg, channel) that the event concerns.
The table's rows carry no bits, so a command is known by its name and operands alone.
-/

namespace Sys2Proof

/-- The fields of a Loop Engine instruction word below its opcode (Table 5.1, R103). -/
structure LeWord where
  d : BitVec 5
  a : BitVec 5
  b : BitVec 5
  c : BitVec 5
  s : Bool
  n : Bool
  v : Bool
  p : Bool
  imm : Word
  deriving DecidableEq, Repr

/-- What ECC found while a Loop Engine instruction was carried out (R109): nothing it could not correct, an error in
the fetched word, or an error in the data read. -/
inductive Ecc where
  | clean | fetch | data
  deriving DecidableEq, Repr

/-- One output of a sigma-delta filter (R199 to R201). A metering output: the value of the gain-1 path, or of the one path
that runs, and of the gain-16 path, and how many overloads each path's modulator has reported since the last output. A
tracking output: its value and the overloads since the last one. -/
inductive SdmSample where
  | metering (lo hi : BitVec 28) (ovlLo ovlHi : Nat)
  | tracking (value : BitVec 28) (ovl : Nat)
  deriving DecidableEq, Repr

/-- What a shadow measurement shows of the input (R210): beyond the threshold on the active side, beyond the release
level on the safe side, or inside the hysteresis band. -/
inductive Relation where
  | active | safe | band
  deriving DecidableEq, Repr

/-- The three angle words of Table 3.1. -/
inductive AngleName where
  | measured | scheduling | generated
  deriving DecidableEq, Repr

/-- A Trestle frame (Table 15.1) without its CRC: TYPE, SRC and DST rank, hops, the ring it travels (true for B), whether
it was wrapped on the way, EPOCH, ACCD, FLG and its 18 payload bytes. -/
structure TrsFrame where
  type : Nat
  src : Nat
  dst : Nat
  hops : Nat
  ringB : Bool
  wrapped : Bool
  epoch : Nat
  accd : Nat
  flg : Nat
  payload : List Byte
  deriving DecidableEq, Repr

/-- A frame received by a MAC: its bytes without the FCS, whether the FCS is good, and how many ns ago the first bit after
its start-of-frame delimiter stood at the balls (R311, R312). -/
structure EthFrame where
  mac : Nat
  bytes : List Byte
  good : Bool
  age : Nat
  deriving DecidableEq, Repr

/-- The fields of a Monitor instruction (R330) beside its opcode, and whether reading it, or a data word that it reads,
found an error that ECC cannot correct (Table 14.5). -/
structure MonWord where
  d : BitVec 4
  a : BitVec 4
  b : BitVec 4
  imm : BitVec 15
  ecc : Bool
  deriving DecidableEq, Repr

/-- What a handover and takeover message says (R371): a handover at the reload of a period index, or whether its sender is
FIT. -/
inductive HswMsg where
  | handover (pidx : Nat)
  | fit (ok : Bool)
  deriving DecidableEq, Repr

/-- What THM reads (R406): its four sensors in 1/256 °C and the device's power in mW. -/
structure ThmSample where
  sensors : List Int
  pwr : Nat
  deriving DecidableEq, Repr

/-- The three PLLs. -/
inductive Pll where
  | sys | ptc | eth
  deriving DecidableEq, Repr

/-- A request that a REQUEST frame has brought, its length and CRC checked (Table 19.1): the CMD byte, the tag, LEN, RANK,
ADDR, the role prefix and the write data. -/
structure HostReq where
  cmd : Byte
  tag : BitVec 6
  len : BitVec 10
  rank : BitVec 6
  addr : Word
  role : Word
  data : List Word
  deriving DecidableEq, Repr

/-- The balls that the device drives (Table 20.2). -/
inductive Ball where
  | pwm (n : Fin 48) | gpio (n : Fin 16) | fan (c : Fin 2) (k : Fin 6)
  | dckOpen | genA | genB | rlyA | rlyB | pairHbOut | pairActOut | irqA | irqB | huLoadEn | pllLockA | shfResetN
  | shfCsN | shfSck | shfIo (n : Fin 8) | hstIo (n : Fin 4) | eth (mac : Fin 2) (k : Fin 6) | trs (k : Fin 4)
  deriving DecidableEq, Repr

/-- The commands (spec/opcode_table.json). The docstring of a constructor is its row's summary. -/
inductive Instr where
  /-- RELEASE (R374). All supplies and HU_FAST are above their thresholds and RESET_N is released for 1 µs, so the device leaves reset and the RC oscillator starts. -/
  | release
  /-- TIER0_GUARD (R378). 50 µs after release the device enters Tier 0 Guard and the PLL band searches begin. -/
  | tier0Guard
  /-- PLL_BOOT_LOCK (R378). All three PLLs lock at boot, SYSCLK moves to the SYS PLL and the host interface starts to answer. -/
  | pllBootLock
  /-- BOOT_ROM_DONE (R378). The boot ROM steps complete and the device enters Tier 1 Watch. -/
  | bootRomDone (lanes retried : BitVec 18) (aErr bErr : Bool) (table : Option Nat)
  /-- BOOT_IMAGE_COMMIT (R378). The selected image has been decoded and is committed at boot. -/
  | bootImageCommit
  /-- MPP_SAMPLE_DONE (R380). The 16 samples of MPP_SET taken over 1 ms are complete and step k is chosen. -/
  | mppSampleDone (steps : List (BitVec 4))
  /-- BROWNOUT_RESET (R374). A supply stays below its brownout threshold for 1 µs and the device resets. -/
  | brownoutReset (store : Bool)
  /-- RESET_N_ASSERT (R375). The filtered RESET_N goes low and the device enters reset. -/
  | resetNAssert
  /-- RESET_N_RELEASE (R375). The filtered RESET_N goes high. -/
  | resetNRelease (heldMs : Nat)
  /-- RESET_LONG (R375). RESET_N has been held asserted for more than 1 s, so RESET_LONG is set. -/
  | resetLong
  /-- SOFTWARE_RESET (R376). SYS_CMD RESET with the correct KEY requests a software reset. -/
  | softwareReset (key : BitVec 16)
  /-- RESET_ENTRY (R437). A deferred or ordered reset takes effect once the emergency save or the group actions complete, and the PWM balls then go Z. -/
  | resetEntry
  /-- LOAD (R37). IMG_CMD LOAD starts reading, checking and decoding the image at IMG_SRC into staging. -/
  | load
  /-- LOAD_COMPLETE (R37). The LOAD finishes: the image is staged, or it is refused with a reason. -/
  | loadComplete
  /-- COMMIT_AT (R41). IMG_CMD COMMIT_AT arms a commit at the programmed angle, or refuses it. -/
  | commitAt
  /-- COMMIT_NOW (R40). IMG_CMD COMMIT_NOW applies all staged sections at the next SYSCLK edge after its checks. -/
  | commitNow
  /-- CANCEL (R41). IMG_CMD CANCEL withdraws a pending commit and leaves the image staged. -/
  | cancel
  /-- DISCARD (R41). IMG_CMD DISCARD empties the staging sides. -/
  | discard
  /-- COMMIT_INSTANT (R40). The scheduling angle reaches the commit angle and IMG runs its checks and applies everything or nothing. -/
  | commitInstant
  /-- BURN (R45). IMG_CAB_CMD BURN with the KEY starts burning the Cabinet, or is refused. -/
  | burn (key : BitVec 16) (vddOk : Bool)
  /-- BURN_COMPLETE (R45). The burn, CRC burn and read-back complete and BURNED or VERIFY_FAIL is set. -/
  | burnComplete (back : BitVec 1024)
  /-- LOCK (R46). IMG_CAB_CMD LOCK burns the LOCK field after a verified BURN. -/
  | lock (key : BitVec 16)
  /-- IMG_NOTE_READ (R47). Reading IMG_NOTE returns the head of the clamp note queue and removes it. -/
  | imgNoteRead
  /-- ANG_UPDATE (R48). Every 10 µs ANG updates the angle, frequency, sequences and validity from the newest tracking outputs. -/
  | angUpdate
  /-- TRACKING_VALID (R49). After 100 consecutive passing updates, tracking becomes valid again. -/
  | trackingValid
  /-- ANG_SRC_WRITE (R54). A write to ANG_SRC.REQ selects the angle source, which takes effect at the next update. -/
  | angSrcWrite (w : Word)
  /-- GEN_STALE (R55). Neither generated-angle word has been written for 2 ms while GEN is in force, so GEN_STALE is set. -/
  | genStale
  /-- MASTER_MISS (R56). MASTER_MISS consecutive angle words are missed, so MLOSS is set and the member falls back or coasts. -/
  | masterMiss
  /-- ANG_SNAPSHOT_READ (R71). A read of an angle _FR register snapshots its cycle registers. -/
  | angSnapshotRead (which : AngleName)
  /-- EVT_ENTRY_FIRE (R65). An armed entry comes due, and EVT dispatches it in class and index order up to 4 actions per edge. -/
  | evtEntryFire (due : List Nat)
  /-- EVT_DEFERRED_DISPATCH (R67). Actions deferred beyond 4 per edge go out on following edges before newly due ones. -/
  | evtDeferredDispatch
  /-- BUILTIN_STROBE (R262). Until a SCHED section is in force, the built-in 1/256-turn metering strobe fires. -/
  | builtinStrobe
  /-- ARM_ABS (R69). EVT_HOST_CMD ARM_ABS arms a host-controlled entry at an absolute time, or refuses it. -/
  | armAbs (n : Nat) (t : BitVec 96)
  /-- ARM_REL (R69). EVT_HOST_CMD ARM_REL arms a host-controlled entry relative to its timebase reference. -/
  | armRel (n : Nat)
  /-- DISARM (R69). EVT_HOST_CMD DISARM withdraws a host-controlled entry. -/
  | disarm (n : Nat)
  /-- EVT_IRQ_SRC_READ (R70). Reading EVT_IRQ_SRC returns and removes the head of the HOST_IRQ queue. -/
  | evtIrqSrcRead
  /-- CONTEXT_SWITCH (R86). The 4-cycle hand-over completes and the incoming context issues its first instruction with its start words latched. -/
  | contextSwitch
  /-- DEADLINE_MISS (R90). A start's budget expires before END and MISS_ACT is applied. -/
  | deadlineMiss (n : Nat) (waiting : Bool)
  /-- WAIT_DATA_ARRIVED (R87). The data a waiting context awaits arrives and the context becomes READY again. -/
  | waitDataArrived (n : Nat)
  /-- JTAG_HALT (R89). JTAG halts the Loop Engine and the groups go SAFE with cause HALT. -/
  | jtagHalt
  /-- JTAG_RELEASE (R89). JTAG releases the Loop Engine, dispatch resumes and halted groups return to STOPPED. -/
  | jtagRelease
  /-- LANE_SELFTEST_START (R73). Every 600 s a new run-time self-test pass over all lanes begins. -/
  | laneSelftestStart
  /-- SELFTEST_CHUNK (R73). A 64-cycle self-test chunk completes in idle slots. -/
  | selftestChunk (failed : Bool)
  /-- LANE_REMAP_APPLY (R74). At the next idle slot the new lane mapping takes effect. -/
  | laneRemapApply
  /-- LTEST_LATE (R73). A self-test pass has not completed 600 s after it began. -/
  | ltestLate
  /-- CTX_ENABLE (R102). LE_CTX_CMD ENABLE makes a DISABLED context IDLE. -/
  | ctxEnable (epoch : BitVec 16)
  /-- CTX_DISABLE (R102). LE_CTX_CMD DISABLE disables a context according to its state. -/
  | ctxDisable (epoch : BitVec 16)
  /-- CTX_CLEAR_FAULT (R102). LE_CTX_CMD CLEAR_FAULT returns a FAULT context to IDLE. -/
  | ctxClearFault (epoch : BitVec 16)
  /-- LE_CYC_READ (R101). A read of LE_CYC_LO snapshots LE_CYC_HI. -/
  | leCycRead
  /-- NOP (R111). Does nothing. -/
  | leNop (w : LeWord) (ecc : Ecc)
  /-- END (R113). Waits for retirement, discards unsealed staging and CE state, and ends the run. -/
  | leEnd (w : LeWord) (ecc : Ecc)
  /-- YIELD (R112). Hands the lanes to an equal-priority READY context. -/
  | leYield (w : LeWord) (ecc : Ecc)
  /-- BR (R111). Unconditional relative branch. -/
  | leBr (w : LeWord) (ecc : Ecc)
  /-- BEQZ (R111). Branch when a scalar is zero. -/
  | leBeqz (w : LeWord) (ecc : Ecc)
  /-- BNEZ (R111). Branch when a scalar is not zero. -/
  | leBnez (w : LeWord) (ecc : Ecc)
  /-- BLTZ (R111). Branch when a scalar is negative. -/
  | leBltz (w : LeWord) (ecc : Ecc)
  /-- BGEZ (R111). Branch when a scalar is not negative. -/
  | leBgez (w : LeWord) (ecc : Ecc)
  /-- DBNZ (R111). Decrement a scalar and branch while it is not zero. -/
  | leDbnz (w : LeWord) (ecc : Ecc)
  /-- BPANY (R111). Branch when any bit of a predicate is set. -/
  | leBpany (w : LeWord) (ecc : Ecc)
  /-- BPALL (R111). Branch when all 16 bits of a predicate are set. -/
  | leBpall (w : LeWord) (ecc : Ecc)
  /-- JAL (R111). Store the return index and branch. -/
  | leJal (w : LeWord) (ecc : Ecc)
  /-- JR (R111). Jump to the index held in a scalar. -/
  | leJr (w : LeWord) (ecc : Ecc)
  /-- ADD (R114). Integer or fixed-point addition. -/
  | leAdd (w : LeWord) (ecc : Ecc)
  /-- SUB (R114). Integer or fixed-point subtraction. -/
  | leSub (w : LeWord) (ecc : Ecc)
  /-- NEG (R114). Negation. -/
  | leNeg (w : LeWord) (ecc : Ecc)
  /-- ABS (R114). Absolute value. -/
  | leAbs (w : LeWord) (ecc : Ecc)
  /-- MIN (R114). Signed minimum. -/
  | leMin (w : LeWord) (ecc : Ecc)
  /-- MAX (R114). Signed maximum. -/
  | leMax (w : LeWord) (ecc : Ecc)
  /-- CLAMP (R114). Clamp a value between two bounds. -/
  | leClamp (w : LeWord) (ecc : Ecc)
  /-- MUL (R114). Exact product shifted, rounded and fitted. -/
  | leMul (w : LeWord) (ecc : Ecc)
  /-- ADDI (R114). Add a signed immediate. -/
  | leAddi (w : LeWord) (ecc : Ecc)
  /-- AND (R114). Bitwise AND. -/
  | leAnd (w : LeWord) (ecc : Ecc)
  /-- OR (R114). Bitwise OR. -/
  | leOr (w : LeWord) (ecc : Ecc)
  /-- XOR (R114). Bitwise XOR. -/
  | leXor (w : LeWord) (ecc : Ecc)
  /-- NOT (R114). Bitwise NOT. -/
  | leNot (w : LeWord) (ecc : Ecc)
  /-- SHL (R114). Shift left. -/
  | leShl (w : LeWord) (ecc : Ecc)
  /-- SHR (R114). Logical shift right. -/
  | leShr (w : LeWord) (ecc : Ecc)
  /-- SRA (R114). Arithmetic shift right with rounding. -/
  | leSra (w : LeWord) (ecc : Ecc)
  /-- MAC (R115). Accumulate a product. -/
  | leMac (w : LeWord) (ecc : Ecc)
  /-- MSU (R115). Subtract a product from an accumulator. -/
  | leMsu (w : LeWord) (ecc : Ecc)
  /-- ACCSET (R115). Set an accumulator from a shifted value. -/
  | leAccset (w : LeWord) (ecc : Ecc)
  /-- ACCRD (R115). Read an accumulator shifted, rounded and fitted. -/
  | leAccrd (w : LeWord) (ecc : Ecc)
  /-- CMPEQ (R116). Signed equality compare. -/
  | leCmpeq (w : LeWord) (ecc : Ecc)
  /-- CMPLT (R116). Signed less-than compare. -/
  | leCmplt (w : LeWord) (ecc : Ecc)
  /-- CMPLE (R116). Signed less-or-equal compare. -/
  | leCmple (w : LeWord) (ecc : Ecc)
  /-- CMPLTU (R116). Unsigned less-than compare. -/
  | leCmpltu (w : LeWord) (ecc : Ecc)
  /-- FCMPEQ (R116). Binary32 equality compare. -/
  | leFcmpeq (w : LeWord) (ecc : Ecc)
  /-- FCMPLT (R116). Binary32 less-than compare. -/
  | leFcmplt (w : LeWord) (ecc : Ecc)
  /-- FCMPLE (R116). Binary32 less-or-equal compare. -/
  | leFcmple (w : LeWord) (ecc : Ecc)
  /-- PAND (R116). Predicate AND. -/
  | lePand (w : LeWord) (ecc : Ecc)
  /-- POR (R116). Predicate OR. -/
  | lePor (w : LeWord) (ecc : Ecc)
  /-- PXOR (R116). Predicate XOR. -/
  | lePxor (w : LeWord) (ecc : Ecc)
  /-- PNOT (R116). Predicate NOT. -/
  | lePnot (w : LeWord) (ecc : Ecc)
  /-- PSET (R116). Set a predicate from an immediate. -/
  | lePset (w : LeWord) (ecc : Ecc)
  /-- PTOS (R116). Copy a predicate into a scalar. -/
  | lePtos (w : LeWord) (ecc : Ecc)
  /-- STOP (R116). Set a predicate from a scalar. -/
  | leStop (w : LeWord) (ecc : Ecc)
  /-- SEL (R116). Select between two sources by predicate or scalar. -/
  | leSel (w : LeWord) (ecc : Ecc)
  /-- FADD (R117). Binary32 addition. -/
  | leFadd (w : LeWord) (ecc : Ecc)
  /-- FSUB (R117). Binary32 subtraction. -/
  | leFsub (w : LeWord) (ecc : Ecc)
  /-- FMUL (R117). Binary32 multiplication. -/
  | leFmul (w : LeWord) (ecc : Ecc)
  /-- FMA (R117). Fused binary32 multiply-add, rounded once. -/
  | leFma (w : LeWord) (ecc : Ecc)
  /-- FMIN (R117). Binary32 minimum. -/
  | leFmin (w : LeWord) (ecc : Ecc)
  /-- FMAX (R117). Binary32 maximum. -/
  | leFmax (w : LeWord) (ecc : Ecc)
  /-- FABS (R117). Clear the sign bit. -/
  | leFabs (w : LeWord) (ecc : Ecc)
  /-- FNEG (R117). Invert the sign bit. -/
  | leFneg (w : LeWord) (ecc : Ecc)
  /-- FCVTF (R117). Convert fixed-point to binary32. -/
  | leFcvtf (w : LeWord) (ecc : Ecc)
  /-- FCVTX (R117). Convert binary32 to fixed-point. -/
  | leFcvtx (w : LeWord) (ecc : Ecc)
  /-- LD (R118). Load from LDM or LCM. -/
  | leLd (w : LeWord) (ecc : Ecc)
  /-- ST (R119). Store to LDM inside the write window. -/
  | leSt (w : LeWord) (ecc : Ecc)
  /-- LI (R119). Load an immediate. -/
  | leLi (w : LeWord) (ecc : Ecc)
  /-- MOV (R119). Move a register. -/
  | leMov (w : LeWord) (ecc : Ecc)
  /-- VEXT (R119). Extract a vector lane into a scalar. -/
  | leVext (w : LeWord) (ecc : Ecc)
  /-- VINS (R119). Insert a scalar into a vector lane. -/
  | leVins (w : LeWord) (ecc : Ecc)
  /-- RSUM (R119). Sum the taking-part lanes of a vector. -/
  | leRsum (w : LeWord) (ecc : Ecc)
  /-- VIDX (R119). Write each lane's index. -/
  | leVidx (w : LeWord) (ecc : Ecc)
  /-- GETF (R120). Read the live sticky flags after retirement. -/
  | leGetf (w : LeWord) (ecc : Ecc)
  /-- CLRF (R120). Clear selected live sticky flags. -/
  | leClrf (w : LeWord) (ecc : Ecc)
  /-- CLARKE (R122). Clarke transform. -/
  | leClarke (w : LeWord) (ecc : Ecc)
  /-- SINCOS (R122). Sine and cosine of a turn32 angle. -/
  | leSincos (w : LeWord) (ecc : Ecc)
  /-- PARK (R122). Park transform. -/
  | lePark (w : LeWord) (ecc : Ecc)
  /-- IPARK (R122). Inverse Park transform. -/
  | leIpark (w : LeWord) (ecc : Ecc)
  /-- ATAN2 (R122). Angle of a vector as turn32. -/
  | leAtan2 (w : LeWord) (ecc : Ecc)
  /-- SQRT (R122). Binary32 square root. -/
  | leSqrt (w : LeWord) (ecc : Ecc)
  /-- RECIP (R122). Binary32 reciprocal. -/
  | leRecip (w : LeWord) (ecc : Ecc)
  /-- PISTEP (R123). Clamped PI controller step with anti-windup. -/
  | lePistep (w : LeWord) (ecc : Ecc)
  /-- PIBUMP (R124). Reinitialise a PI integrator for bumpless transfer. -/
  | lePibump (w : LeWord) (ecc : Ecc)
  /-- BQSTEP (R125). Transposed direct-form-II biquad step. -/
  | leBqstep (w : LeWord) (ecc : Ecc)
  /-- RDRES (R126). Read I/O words, optionally waiting for a write in progress. -/
  | leRdres (w : LeWord) (ecc : Ecc) (remaining : Nat)
  /-- STAGE (R127). Write leg-group staging words. -/
  | leStage (w : LeWord) (ecc : Ecc)
  /-- IOST (R127). Write generated-angle, lifetime or sticky-flag I/O words. -/
  | leIost (w : LeWord) (ecc : Ecc)
  /-- COMMIT (R128). Seal the staging blocks of the masked groups on one edge. -/
  | leCommit (w : LeWord) (ecc : Ecc)
  /-- TRC (R129). Write a kind-0 trace record. -/
  | leTrc (w : LeWord) (ecc : Ecc)
  /-- SIG (R129). Request a start of another context. -/
  | leSig (w : LeWord) (ecc : Ecc)
  /-- CANDSET (R130). Configure the context's candidate evaluation. -/
  | leCandset (w : LeWord) (ecc : Ecc)
  /-- CANDEVAL (R131). Submit a candidate evaluation to the CE. -/
  | leCandeval (w : LeWord) (ecc : Ecc) (remaining : Nat)
  /-- CANDSEL (R132). Wait for the evaluation and return the selected candidate, staging it if WRT is set. -/
  | leCandsel (w : LeWord) (ecc : Ecc) (remaining : Nat)
  /-- CE_SERVICE_START (R88). The CE begins serving the next queued evaluation by priority. -/
  | ceServiceStart
  /-- CE_EVALUATION_END (R143). An evaluation ends and its result words update together. -/
  | ceEvaluationEnd
  /-- PLB_CLEAR (R154). PLB_CMD CLEAR resets a context's bucket, ACT bit and fallback. -/
  | plbClear (epoch : BitVec 16)
  /-- SETPOINT_UPDATE (R156). Every 100 µs each enabled set-point channel maps, filters and slew-limits its raw value. -/
  | setpointUpdate (code : BitVec 12)
  /-- SETP_P_EDGE (R155). A rising edge on SETP_P completes a period measurement. -/
  | setpPEdge (rising : Bool) (since : Nat)
  /-- SETPOINT_LOS (R157). The raw value has stayed outside its window for LOS_TIME, so loss of signal is set. -/
  | setpointLos (pulse : Bool)
  /-- SETPOINT_RECOVER (R157). The raw value has stayed in window for RECOVER, so loss of signal clears. -/
  | setpointRecover (pulse : Bool)
  /-- GROUP_START (R178). PWM_Gn_CTL START arms a leg group, or refuses it. -/
  | groupStart (g : Nat)
  /-- PWM_START (R178). PWM_START arms several groups on one edge. -/
  | pwmStart (mask : BitVec 8)
  /-- GROUP_STOP (R179). PWM_Gn_CTL STOP moves a group to STOPPED, through the ordered sequence where enabled. -/
  | groupStop (g : Nat)
  /-- PWM_STOP (R179). PWM_STOP stops several groups on one edge. -/
  | pwmStop (mask : BitVec 8)
  /-- GROUP_START_POINT (R178). An ARMED group reaches its start point and begins running at period index 0. -/
  | groupStartPoint (g : Nat)
  /-- RELOAD (R175). A carrier period ends and the reload applies the newest eligible seal and begins the next period. -/
  | reload (g : Nat)
  /-- PWM_CMT_REQUEST (R175). A write of 1 to PWM_Gn_CMT requests the next reload in EVENT mode. -/
  | pwmCmtRequest (g : Nat)
  /-- SHOOT_BLOCK (R177). Both outputs of a fused pair stand on, are forced off and counted, tripping above SHOOT_MAX. -/
  | shootBlock (o : Nat)
  /-- PTC_HOP (R180). A requested PTC hop begins at a boundary of PTC_GROUP and running groups freeze. -/
  | ptcHop
  /-- PTC_HOP_RESUME (R180). The PLL locks at the new point and the frozen groups resume. -/
  | ptcHopResume (ns : Nat)
  /-- EVENT_CHANNEL_FIRE (R182). A group's count reaches an event channel's count and the channel drives its pin. -/
  | eventChannelFire (g : Nat) (ch : Nat)
  /-- MARK_FRAME (R183). A member receives an alignment mark and measures its ALIGN_REF boundary against it. -/
  | markFrame (f : TrsFrame) (err : Int)
  /-- ALIGN_PHASE_STEP (R183). Every 64 PTC cycles the member steps the PTC phase toward alignment. -/
  | alignPhaseStep
  /-- ALIGN_LOSS (R183). Marks are missing for 8 consecutive periods, so ALIGN_OK clears and ALIGN_LOSS is set. -/
  | alignLoss
  /-- PWM_CNT_READ (R185). A read of PWM_Gn_CNT snapshots PWM_Gn_PIDX. -/
  | pwmCntRead (g : Nat)
  /-- SAR_SLOT_RESULT (R187). A SAR conversion completes and its result word is written. -/
  | sarSlotResult (c : Nat) (nV : Int)
  /-- ADC_CALIBRATION_DONE (R195). Calibration of all five converters completes and CAL_DONE is set. -/
  | adcCalibrationDone
  /-- CAL_COEFF_APPLY (R195). At the next angle zero new calibration coefficients take effect. -/
  | calCoeffApply (mask : BitVec 5)
  /-- SDM_CALIBRATION_DONE (R201). Sigma-delta path calibration completes and SDM_STAT.CAL_DONE is set. -/
  | sdmCalibrationDone
  /-- REFERENCE_CHECK (R196). Every 1 ms an idle converter checks its references and may be marked failed. -/
  | referenceCheck (p : Nat) (vref vdda agnd : BitVec 16) (done : Bool)
  /-- REFCHK_LATE (R196). A converter has completed no check for 10 ms. -/
  | refchkLate (p : Nat)
  /-- SWAP (R197). ADC_CMD SWAP arms a substitution by ADC E, or is refused. -/
  | swap (c : Nat)
  /-- RESTORE (R197). ADC_CMD RESTORE arms the return of a logical converter, or is refused. -/
  | restore (c : Nat)
  /-- SWAP_APPLY (R197). At the next angle zero the armed swap updates ADC_MAP. -/
  | swapApply
  /-- RESTORE_APPLY (R197). At the next angle zero the armed restore updates ADC_MAP. -/
  | restoreApply
  /-- SDM_OUTPUT (R199). A sigma-delta filter delivers an output. -/
  | sdmOutput (k : Nat) (x : SdmSample)
  /-- SDM_CTL_WRITE (R203). A write to SDM_CHk_CTL is applied at the next output or refused. -/
  | sdmCtlWrite (k : Nat) (w : Word)
  /-- MTR_RESAMPLE (R202). An interpolated stream resample becomes available after its strobe. -/
  | mtrResample (stream : Bool)
  /-- COMPARATOR_RAW_CHANGE (R205). A comparator's raw output changes state. -/
  | comparatorRawChange (n : Nat) (nV vddaNv : Int)
  /-- COMPARATOR_FILTERED_CHANGE (R205). The raw state has held for the filter time, so the filtered output changes and reaches TRP and DEST. -/
  | comparatorFilteredChange (n : Nat)
  /-- TRIP_SOURCE_RELEASE_PROOF (R208). A start-held trip source's input has stayed safe for 10 µs, so it releases. -/
  | tripSourceReleaseProof (n : Nat)
  /-- SHADOW_MOVE (R210). Every 100 ms a spare comparator moves to shadow the next assigned comparator. -/
  | shadowMove (p : Nat)
  /-- SHADOW_DISAGREE (R210). A spare and its shadowed comparator disagree for more than 1 µs and a measurement starts. -/
  | shadowDisagree (p : Nat)
  /-- SHADOW_MEASUREMENT (R210). The input and threshold conversion completes and the contradicting comparator is marked failed. -/
  | shadowMeasurement (p : Nat) (rel : Relation)
  /-- TRIP_SOURCE_ACTIVE (R216). A trip source becomes active and the strongest action moves its groups to TRIPPED. -/
  | tripSourceActive (src : Nat)
  /-- TRIP_SOURCE_RELEASE (R219). A trip source releases, and groups tripped only by non-latching rows enter STOPPED. -/
  | tripSourceRelease (src : Nat)
  /-- ORDERED_DELAY_EXPIRY (R217). The NPC_SEQ delay ends and the inner outputs go to SAFE_LVL. -/
  | orderedDelayExpiry (g : Nat)
  /-- TRP_CLR (R220). TRP_CLR clears the latches of masked groups whose sources are all inactive. -/
  | trpClr (mask : BitVec 8)
  /-- DCK_RELEASE (R221). TRP_CMD DCK_RELEASE deasserts DCK_OPEN, or is refused. -/
  | dckRelease
  /-- LEG_CLEAR (R225). TRP_CMD LEG_CLEAR returns a latched leg, or is refused. -/
  | legClear (l : Nat)
  /-- FLT_N_CHANGE (R222). A FLT_N pin changes level. -/
  | fltNChange (l : Nat) (high : Bool)
  /-- FLT_FILTER_PASS (R222). The pin has held its level for the filter time and the filtered state changes, subject to blanking. -/
  | fltFilterPass (l : Nat) (high : Bool)
  /-- FLT_BLANK_CLOSE (R222). A blanking window closes with the pin still asserted and the FLT_N source becomes active. -/
  | fltBlankClose (l : Nat)
  /-- TRIP_IN_CHANGE (R439). A TRIP_IN pin change passes its 100 ns filter. -/
  | tripInChange (n : Nat) (high : Bool)
  /-- AUTO_CLEAR (R225). AC_WAIT after the FLT_N source releases, the leg takes its staged waveform again. -/
  | autoClear (l : Nat)
  /-- TRY_COUNT_RESET (R225). AC_QUIET seconds pass without a response and the try count returns to 0. -/
  | tryCountReset (l : Nat)
  /-- DIAG_TEST_LEG (R226). GDS_DIAG_CMD requests an off-state test of one leg. -/
  | diagTestLeg (l : Nat)
  /-- DIAG_TEST_ALL (R226). GDS_DIAG_CMD requests a test of every leg of every STOPPED group. -/
  | diagTestAll
  /-- DIAG_PERIODIC (R226). Every DIAG_PER ms a STOPPED group's leg is tested automatically. -/
  | diagPeriodic (l : Nat)
  /-- DIAG_SECOND_CONVERSION (R226). 100 µs after the test current starts, V1 is converted and the test is judged. -/
  | diagSecondConversion (v : BitVec 16)
  /-- DIAG_NO_SLOT (R226). No idle slot appears within 1 ms and the test ends with result 5. -/
  | diagNoSlot
  /-- CHP_CLEAR (R232). CHP_CMD CLEAR clears a chopper fault when its group is STOPPED. -/
  | chpClear
  /-- DCOV2_STOP_STEP (R233). DCOV2_GAP after the previous one, the next DC_OV2 group is stopped. -/
  | dcov2StopStep
  /-- DC_OV3_TRANSITION (R234). The last-resort comparator changes state after its filter or release proof. -/
  | dcOv3Transition (nV vddaNv : Int)
  /-- GRD_UPDATE (R239). Every 1 ms GRD computes V_min, V_max and moves the ride-through states. -/
  | grdUpdate
  /-- RIDE_TIMER_STOP (R241). A quantity has stayed in band for TREC, so its timer stops. -/
  | rideTimerStop (frequency : Bool)
  /-- RT_TAIL_EXPIRY (R243). RT_TAIL after the return to NORMAL, RT clears. -/
  | rtTailExpiry
  /-- RT_MAX_EXPIRY (R243). RT_MAX after it was set, RT clears. -/
  | rtMaxExpiry
  /-- THOLD_EXPIRY (R258). THOLD after RT clears, the islanding hold ends and held windows decide. -/
  | tholdExpiry
  /-- LIMITING_CLEAR (R247). The current has stayed below 0.95 × ILIM for 1 ms and LIMITING clears. -/
  | limitingClear
  /-- GRD_GF (R248). GRD_CMD GF requests the transfer to grid forming, or is refused. -/
  | grdGf
  /-- GF_TRANSFER_TIMEOUT (R248). The transfer has not completed 2 ms after its request and fails. -/
  | gfTransferTimeout
  /-- GRD_GFL (R249). GRD_CMD GFL requests the transfer back to grid following. -/
  | grdGfl
  /-- GFL_TRANSFER (R249). Tracking has been valid for 20 grid cycles, so the source returns to LOCAL. -/
  | gflTransfer
  /-- GRD_CEASE (R259). GRD_CMD CEASE moves GRD to CEASED. -/
  | grdCease
  /-- GRD_RESUME (R260). GRD_CMD RESUME with RECON_OK returns to NORMAL, or is refused. -/
  | grdResume
  /-- RECON_OK (R260). Reconnection conditions have held for TRECON and RECON_OK is set. -/
  | reconOk
  /-- PASSIVE_WINDOW_DECISION (R250). A passive window condition has held for its time. -/
  | passiveWindowDecision (window : Nat)
  /-- CHIP_APPLY (R252). At each angle zero ISL applies the current chip. -/
  | chipApply
  /-- AGGREGATION_WINDOW_END (R270). Every NAGG-th complete cycle MTR updates RMS values and writes the harmonic buffer. -/
  | aggregationWindowEnd
  /-- PMU_REPORT (R272). A synchrophasor record is written to the ring and the MTR interrupt is raised. -/
  | pmuReport
  /-- SNAP (R266). MTR_CMD SNAP copies all accumulators and wall time into the snapshot registers. -/
  | snap
  /-- SAVE (R275). MTR_CMD SAVE writes a command record. -/
  | save
  /-- CLEAR_ACC (R281). MTR_CMD CLEAR_ACC zeroes the accumulators with the KEY, or is refused. -/
  | clearAcc (key : BitVec 16)
  /-- PERIODIC_SAVE (R275). Every SAVE_INT seconds MTR writes a periodic record. -/
  | periodicSave
  /-- SAVE_WRITE_DONE (R274). A save slot write completes and is read back. -/
  | saveWriteDone (ok : Bool)
  /-- EMERGENCY_SAVE_DONE (R276). The emergency record is complete with CLEAN written. -/
  | emergencySaveDone (ok : Bool)
  /-- MTR_ACC_READ (R266). A read of a _LO snapshot register snapshots its _HI half. -/
  | mtrAccRead (r : Nat)
  /-- REC_SAMPLE (R282). A unit takes a sample at every DIV-th event of its sample clock. -/
  | recSample (n : Nat)
  /-- REC_TRIGGER (R284). A trigger source fires for a unit, starting a Drawer or counting a retrigger or miss. -/
  | recTrigger (n kind index : Nat)
  /-- REC_CMD_TRIGGER (R284). REC_CMD TRIGGER triggers the masked units. -/
  | recCmdTrigger (mask : BitVec 4)
  /-- REC_ARM (R285). REC_CMD ARM arms the masked units. -/
  | recArm (mask : BitVec 4)
  /-- REC_DISARM (R285). REC_CMD DISARM disarms the masked units. -/
  | recDisarm (mask : BitVec 4)
  /-- DRAWER_SEAL (R285). The last post-trigger sample is taken and the Drawer is sealed and queued for the Shelf. -/
  | drawerSeal (n : Nat)
  /-- REC_REARM (R285). The next buffer holds PRE samples, so the unit re-arms. -/
  | recRearm (n : Nat)
  /-- XTRIG_FRAME (R289). A cross-trigger frame reaches RING_IN units. -/
  | xtrigFrame (f : TrsFrame)
  /-- DRAWER_STORED (R287). A Drawer's Shelf write completes and STORED is updated. -/
  | drawerStored (n : Nat)
  /-- SHF_RECORD_BEGIN (R294). A waiting record's bucket holds its length, so its write begins. -/
  | shfRecordBegin
  /-- SHF_PAGE_DONE (R293). A page program completes and is read back. -/
  | shfPageDone (boot ok : Bool)
  /-- SHF_ERASE_DONE (R292). A sector erase completes. -/
  | shfEraseDone (ok : Bool)
  /-- WEAR_LEVEL_MOVE (R292). SHF moves the coldest sector when erase counts differ by more than 2,000. -/
  | wearLevelMove
  /-- LOC (R291). SHF_CMD LOC locates a record of a stream and sequence. -/
  | loc (stream : Nat)
  /-- APPEND (R291). SHF_CMD APPEND queues a host buffer as a HOST stream record. -/
  | append
  /-- ETH_FRAME_RECEIVE (R312). A received frame is classified and delivered or dropped. -/
  | ethFrameReceive (f : EthFrame)
  /-- FOLLOW_UP_TIMEOUT (R307). No Follow_Up arrives within one Sync interval and the Sync is discarded. -/
  | followUpTimeout (slot : Nat)
  /-- PTP_MASTER_LOSS (R305). Announce or Sync timeouts mark the slot's master lost. -/
  | ptpMasterLoss (slot : Nat)
  /-- PDELAY_REQ_SEND (R305). Every 1 s a Pdelay_Req is sent on each MAC carrying a slot. -/
  | pdelayReqSend (mac : Nat)
  /-- RESYNC (R303). TIM_CMD RESYNC returns TIM to FREE. -/
  | resync
  /-- SWITCH (R308). TIM_CMD SWITCH moves to the named source without stepping. -/
  | switch (slot : Nat)
  /-- TIM_HOLD (R308). TIM_CMD HOLD forces HOLDOVER. -/
  | timHold
  /-- ETH_LINK_CHANGE (R308). A MAC's link goes up or down. -/
  | ethLinkChange (mac : Nat) (link : BitVec 4)
  /-- HOLDOVER_UPDATE (R309). Every second in HOLDOVER the temperature correction and error estimate update. -/
  | holdoverUpdate
  /-- REVERT_SWITCH (R308). The preferred source has held a qualified master for REVERT seconds and TIM switches back. -/
  | revertSwitch
  /-- TXQ_DOORBELL (R314). A write to ETH_TXQ_DB announces new READY descriptors. -/
  | txqDoorbell (mask : BitVec 8)
  /-- TIMED_LAUNCH (R315). A TIMED or EVT frame's launch time is reached and it starts, late or dropped as needed. -/
  | timedLaunch (q : Nat)
  /-- IMMEDIATE_TRANSMIT (R316). The MAC allows and an IMMEDIATE or safety frame starts. -/
  | immediateTransmit (mac : Nat)
  /-- FRAME_LAUNCHED (R314). A frame leaves and its descriptor gets RESULT and stamp. -/
  | frameLaunched (mac : Nat)
  /-- TIME_TRIGGER_ARM (R317). A write of ARM to TIM_TTn_CTL arms a time trigger, or is refused. -/
  | timeTriggerArm (n : Nat) (w : Word)
  /-- TIME_TRIGGER_FIRE (R317). Wall time reaches an armed trigger and its action runs. -/
  | timeTriggerFire (n : Nat)
  /-- TIM_NS_READ (R300). A read of TIM_NS snapshots the seconds registers. -/
  | timNsRead
  /-- MONITOR_TICK (R327). At each tick edge the Monitor snapshots inputs and resumes from WAIT. -/
  | monitorTick (rb : BitVec 6) (parity : Bool)
  /-- SPLIT_COMPLETE (R325). HOVER ticks after the hand-over began, each core drives its own channel. -/
  | splitComplete
  /-- LOCKSTEP_SWEEP (R324). Every 1 ms the sweep compares the full state of both cores. -/
  | lockstepSweep
  /-- CLOCK_CHECK (R335). Every 1 ms the RC oscillator is checked against the reference. -/
  | clockCheck (ppm : Int)
  /-- ADCM_CONVERSION (R328). ADC M converts one channel at its slot in the tick. -/
  | adcmConversion (k : Nat) (nanovolts : Int)
  /-- OFF_PULSE_TEST_START (R336). An active disconnection output is driven to its safe level for a test. -/
  | offPulseTestStart (j : Nat)
  /-- OFF_PULSE_DROP_CHECK (R336). OPT_LAT into the test the readback must show the safe level. -/
  | offPulseDropCheck (j : Nat) (active : Bool)
  /-- OFF_PULSE_RETURN (R336). OPT_W into the test the output returns to its commanded level. -/
  | offPulseReturn (j : Nat)
  /-- OFF_PULSE_RETURN_CHECK (R336). OPT_LAT after the return the readback must show the active level. -/
  | offPulseReturnCheck (j : Nat) (active : Bool)
  /-- CONTACT_MISMATCH (R337). A relay mirror contact differs from its command for longer than RLY_T. -/
  | contactMismatch (j : Nat)
  /-- SAFE_CHANNEL_TIMEOUT (R340). No frame has been delivered within TOUT, so the channel times out and re-enters SYNC. -/
  | safeChannelTimeout (k : Nat)
  /-- SAF_CONFIRM (R347). A write to SAF_CONFIRM begins a confirmation. -/
  | safConfirm (w : Word)
  /-- SAF_CONFIRM_INV (R347). A write to SAF_CONFIRM_INV completes a confirmation and writes the slot, or refuses it. -/
  | safConfirmInv (w : Word)
  /-- MON_NOP (R330). Monitor no-operation. -/
  | monNop (core : Nat) (w : MonWord)
  /-- MON_ADD (R330). Monitor addition. -/
  | monAdd (core : Nat) (w : MonWord)
  /-- MON_SUB (R330). Monitor subtraction. -/
  | monSub (core : Nat) (w : MonWord)
  /-- MON_AND (R330). Monitor bitwise AND. -/
  | monAnd (core : Nat) (w : MonWord)
  /-- MON_OR (R330). Monitor bitwise OR. -/
  | monOr (core : Nat) (w : MonWord)
  /-- MON_XOR (R330). Monitor bitwise XOR. -/
  | monXor (core : Nat) (w : MonWord)
  /-- MON_ADDI (R330). Monitor add immediate. -/
  | monAddi (core : Nat) (w : MonWord)
  /-- MON_SHL (R330). Monitor shift left. -/
  | monShl (core : Nat) (w : MonWord)
  /-- MON_SHR (R330). Monitor logical shift right. -/
  | monShr (core : Nat) (w : MonWord)
  /-- MON_SRA (R330). Monitor arithmetic shift right. -/
  | monSra (core : Nat) (w : MonWord)
  /-- MON_LI (R330). Monitor load immediate. -/
  | monLi (core : Nat) (w : MonWord)
  /-- MON_ABSD (R330). Monitor saturating absolute difference. -/
  | monAbsd (core : Nat) (w : MonWord)
  /-- MON_CMPEQ (R330). Monitor equality compare. -/
  | monCmpeq (core : Nat) (w : MonWord)
  /-- MON_CMPLT (R330). Monitor signed less-than. -/
  | monCmplt (core : Nat) (w : MonWord)
  /-- MON_CMPLTU (R330). Monitor unsigned less-than. -/
  | monCmpltu (core : Nat) (w : MonWord)
  /-- MON_LD (R330). Monitor data load. -/
  | monLd (core : Nat) (w : MonWord)
  /-- MON_ST (R330). Monitor data store. -/
  | monSt (core : Nat) (w : MonWord)
  /-- MON_BR (R330). Monitor branch. -/
  | monBr (core : Nat) (w : MonWord)
  /-- MON_BEQZ (R330). Monitor branch if zero. -/
  | monBeqz (core : Nat) (w : MonWord)
  /-- MON_BNEZ (R330). Monitor branch if not zero. -/
  | monBnez (core : Nat) (w : MonWord)
  /-- MON_JAL (R330). Monitor jump and link. -/
  | monJal (core : Nat) (w : MonWord)
  /-- MON_JR (R330). Monitor jump to register. -/
  | monJr (core : Nat) (w : MonWord)
  /-- MON_IN (R327). Read a word of the tick's input snapshot. -/
  | monIn (core : Nat) (w : MonWord)
  /-- MON_OUT_GEN (R332). OUT to GEN_A or GEN_B enables or disables a gate-drive path. -/
  | monOutGen (core : Nat) (w : MonWord)
  /-- MON_OUT_RLY (R332). OUT to RLY_A or RLY_B closes or opens a relay. -/
  | monOutRly (core : Nat) (w : MonWord)
  /-- MON_OUT_MON_OFF (R332). OUT to MON_OFF demands or withdraws disconnection through TRP. -/
  | monOutMonOff (core : Nat) (w : MonWord)
  /-- MON_OUT_USER (R331). OUT to port 0x05 publishes a word in MON_USER_A or MON_USER_B. -/
  | monOutUser (core : Nat) (w : MonWord)
  /-- MON_OUT_SPLIT (R325). OUT to port 0x06 requests the split of the core pair. -/
  | monOutSplit (core : Nat) (w : MonWord)
  /-- MON_OUT_STL_DATA (R341). OUT to port 0x10 + 2k stages DATA[31:0] of a safety frame. -/
  | monOutStlData (core : Nat) (w : MonWord)
  /-- MON_OUT_STL_SEND (R341). OUT to port 0x11 + 2k stages DATA[63:32] and sends a KIND 2 safety frame. -/
  | monOutStlSend (core : Nat) (w : MonWord)
  /-- MON_PUB (R329). Write a word into the core's exchange buffer. -/
  | monPub (core : Nat) (w : MonWord)
  /-- MON_XCHG (R329). Read a word of the partner's exchange buffer. -/
  | monXchg (core : Nat) (w : MonWord)
  /-- MON_WAIT (R331). Suspend the core until the next tick edge. -/
  | monWait (core : Nat) (w : MonWord)
  /-- MON_SAFE (R335). Raise a channel fault with a program code. -/
  | monSafe (core : Nat) (w : MonWord)
  /-- TRESTLE_LINK_DOWN (R351). A receiver sees no comma for 2 µs or 8 CRC failures in 64 frames and declares its link down. -/
  | trestleLinkDown (ringB : Bool)
  /-- LINK_WRAP (R351). The devices beside a dead link wrap the ring. -/
  | linkWrap (ringB : Bool)
  /-- LINK_UNWRAP (R351). A link clean for 10 ms with a delay exchange comes up and the wrap is removed. -/
  | linkUnwrap (ringB : Bool)
  /-- ENUMERATE (R352). TRS_CMD ENUMERATE makes this device root and assigns ranks. -/
  | enumerate
  /-- ENUMERATION_DONE (R352). Enumeration completes with ranks assigned or ENUM_FAIL. -/
  | enumerationDone (rank found : Nat) (ok : Bool)
  /-- TRESTLE_FRAME_FORWARD (R354). A frame not addressed to this device alone is forwarded with ACCD and hop count updated. -/
  | trestleFrameForward (f : TrsFrame) (good : Bool)
  /-- ANGLE_FRAME (R56). A member receives the master's angle word and corrects its angles. -/
  | angleFrame (f : TrsFrame)
  /-- ANGLE_SEND (R353). Every 1 µs the angle master sends an ANGLE frame. -/
  | angleSend
  /-- TIME_FRAME (R357). A member takes wall time from the time master's TIME frame. -/
  | timeFrame (f : TrsFrame)
  /-- TIME_SEND (R353). Every 1 ms the time master sends a TIME frame. -/
  | timeSend
  /-- ROLE_FRAME (R359). A ROLE frame updates the role table if its epoch is ahead. -/
  | roleFrame (f : TrsFrame)
  /-- HSW_FRAME (R371). A pair device receives a handover or takeover message. -/
  | hswFrame (f : TrsFrame) (msg : HswMsg)
  /-- MIRROR_FRAME (R367). The standby receives part of a mirror record. -/
  | mirrorFrame (f : TrsFrame)
  /-- HREQ_FRAME (R427). A device receives a remote host request and executes it. -/
  | hreqFrame (f : TrsFrame)
  /-- HRSP_FRAME (R427). The root receives the answer to a remote host request. -/
  | hrspFrame (f : TrsFrame)
  /-- HDATA_FRAME (R427). A device receives data words of a remote host transaction. -/
  | hdataFrame (f : TrsFrame)
  /-- DLY_FRAME (R356). A DLY request is returned, or a returned one updates the link delay: its round trip and its
  turnaround time, in 2^-6 ns. -/
  | dlyFrame (ringB : Bool) (back : Option (Nat × Nat))
  /-- DLY_SEND (R356). Every 1 ms a device sends a DLY request on each transmitter. -/
  | dlySend (ringB : Bool)
  /-- ROLE_ASSIGN (R359). TRS_ROLE_CMD assigns a role to a new holder under the current epoch, or is refused. -/
  | roleAssign (role holder : Nat) (epoch : BitVec 16)
  /-- PAIR_ARM (R364). PAIR_CMD ARM starts pair duty. -/
  | pairArm
  /-- ARM_ACTIVE_TIMEOUT (R364). 50 µs after ARM a PRIMARY device becomes active or standby. -/
  | armActiveTimeout
  /-- PEER_ABSENT_TIMEOUT (R364). 500 µs after ARM with no heartbeat a non-primary device becomes active. -/
  | peerAbsentTimeout
  /-- PAIR_ACT_IN_CHANGE (R364). PAIR_ACT_IN changes level; `primary` says whether the partner carries PRIMARY. -/
  | pairActInChange (level primary : Bool)
  /-- HEARTBEAT_LOSS (R363). PAIR_HB_IN shows no edge for 4 µs. -/
  | heartbeatLoss
  /-- TAKEOVER_DRIVE (R370). At the next reload of a PAIR_GROUPS group the new active's outputs drive. -/
  | takeoverDrive (g : Nat)
  /-- PAIR_HANDOVER (R371). PAIR_CMD HANDOVER requests an orderly exchange, or is refused. -/
  | pairHandover (epoch : BitVec 16)
  /-- HANDOVER_SWITCH (R371). At the named reload the active goes Z and the standby drives. -/
  | handoverSwitch
  /-- PAIR_TAKE (R369). PAIR_CMD TAKE makes a standby take over. -/
  | pairTake
  /-- PAIR_REJOIN (R360). PAIR_CMD REJOIN returns a deposed device to pair duty as standby. -/
  | pairRejoin
  /-- MIRROR_APPLY (R367). The standby applies a complete newer record at its reload once no listed context runs. -/
  | mirrorApply (fresh : List Nat)
  /-- PEER_HELD (R372). 1 s after a takeover with no heartbeat, PEER_HELD is set. -/
  | peerHeld
  /-- SYS_LOCK_LOSS (R383). The SYS PLL loses lock and SYSCLK moves to the RC oscillator with Table 16.3 effects. -/
  | sysLockLoss
  /-- PTC_LOCK_LOSS (R383). The PTC PLL loses lock and groups go SAFE. -/
  | ptcLockLoss
  /-- ETH_LOCK_LOSS (R383). The ETH PLL loses lock, the MACs and Trestle stop and TIM enters HOLDOVER. -/
  | ethLockLoss
  /-- REFERENCE_LOSS (R383). The 25 MHz reference shows no edge for 200 ns and all PLLs count as lost. -/
  | referenceLoss
  /-- PLL_LOCK_RETURN (R383). A lost PLL locks again. -/
  | pllLockReturn (pll : Pll)
  /-- PLL_SEARCH (R383). Every 1 ms while a PLL is lost CLK starts a new search. -/
  | pllSearch
  /-- BAND_LEARNING_DONE (R382). CLK has learned every operating point and returns to PTC_INIT. -/
  | bandLearningDone
  /-- POWER_FAIL_WARNING (R385). HU raises the power-fail warning and the Table 16.5 sequence starts: the voltages in µV that
  VIN_SENSE has not exceeded for PF_FILT and HU_FAST for 1 µs. -/
  | powerFailWarning (vinUv fastUv : Nat)
  /-- POWER_FAIL_WITHDRAW (R385). HU withdraws the warning and stopped work resumes: the voltages in µV above which VIN_SENSE
  has stayed for PF_REC and that HU_FAST has now. -/
  | powerFailWithdraw (vinUv fastUv : Nat)
  /-- HU_FAST_SAMPLE (R385). Every 10 µs HU measures HU_FAST. -/
  | huFastSample (mv : Nat)
  /-- HU_BULK_CONVERSION (R385). Every 100 µs HU converts HU_BULK and computes the stored energy. -/
  | huBulkConversion (code : BitVec 10)
  /-- GRANT_REQUEST (R387). A write to HU_GRANT_REQ asks for a transmission grant. -/
  | grantRequest (mJ : BitVec 24)
  /-- GRANT_DONE (R387). A write to HU_GRANT_REQ with DONE ends the grant. -/
  | grantDone
  /-- GRANT_EXPIRY (R387). A grant ends EXPIRED after GRANT_T. -/
  | grantExpiry
  /-- DIEID_READ (R392). A read of SYS_DIEID_LO snapshots SYS_DIEID_HI. -/
  | dieidRead
  /-- LIF_STEP (R394). Every 1 ms LIF evaluates loss and junction temperature of each enabled position. -/
  | lifStep
  /-- LIFE_RECORD (R398). Every LIFE_INT seconds LIF queues a LIFE record. -/
  | lifeRecord
  /-- LIF_WRITE (R398). LIF_CMD WRITE queues a LIFE record. -/
  | lifWrite
  /-- LIF_CLEAR (R399). LIF_CMD CLEAR with the KEY zeroes a position's history, or is refused. -/
  | lifClear (p : Nat) (key : BitVec 16)
  /-- ECC_CORRECTED (R404). A corrected ECC error updates the row tracker and may start a remap. -/
  | eccCorrected (bank row : Nat)
  /-- ROW_REMAP_DONE (R404). A row copy to a spare completes and the remap is stored. -/
  | rowRemapDone (bank row : Nat) (failed : Option Nat)
  /-- ROW_TRACK_EXPIRY (R404). A tracked row has had no corrected error for 24 h and leaves the tracker. -/
  | rowTrackExpiry (bank row : Nat)
  /-- LIF_SPLOG_READ (R403). Reading LIF_SPLOG returns and removes the head of the spare log queue. -/
  | lifSplogRead
  /-- THM_UPDATE (R406). Every 1 ms THM reads its sensors, forms TDIE and TPRED and sets the pause level. -/
  | thmUpdate (x : ThmSample)
  /-- PAUSE_TOGGLE (R407). At level 1 background work pauses or resumes every 10 ms. -/
  | pauseToggle
  /-- RC_TRIM (R408). Every 10 ms THM trims the RC oscillator. -/
  | rcTrim
  /-- REF_COMP_UPDATE (R408). Every 100 ms THM computes new temperature-compensated gains. -/
  | refCompUpdate
  /-- COMP_GAIN_APPLY (R408). At the next angle zero the compensated gains take effect. -/
  | compGainApply
  /-- FAN_START (R415). FAN_Cn_CMD START begins a start attempt and resets the retry count. -/
  | fanStart (c : Nat)
  /-- FAN_STOP (R420). FAN_Cn_CMD STOP turns the outputs off and enters STOPPED. -/
  | fanStop (c : Nat)
  /-- FAN_SET_WRITE (R416). A write to FAN_Cn_SET sets the target, turning outputs off at 0 or restarting from 0. -/
  | fanSetWrite (c : Nat) (v : Word)
  /-- OBSERVE_END (R412). The 50 ms observation ends and the channel catches, brakes or aligns. -/
  | observeEnd (c : Nat)
  /-- BRAKE_PHASE_END (R413). A 200 ms braking phase ends and an observation follows. -/
  | brakePhaseEnd (c : Nat)
  /-- BRAKE_MAX_EXPIRY (R413). Braking has lasted BRAKE_MAX and the attempt fails. -/
  | brakeMaxExpiry (c : Nat)
  /-- ALIGN_END (R414). ALIGN_T ends and the open-loop ramp begins. -/
  | alignEnd (c : Nat)
  /-- RAMP_TIMEOUT (R414). 500 ms after the ramp's end without six consistent crossings, the attempt fails. -/
  | rampTimeout (c : Nat)
  /-- BEMF_CROSSING (R410). A back-EMF zero crossing is detected and used for speed, commutation or handoff. -/
  | bemfCrossing (c : Nat) (phase : Nat) (rising : Bool) (dt : Nat)
  /-- RETRY_WAIT_EXPIRY (R415). RETRY_WAIT ends and a new attempt starts from OBSERVE. -/
  | retryWaitExpiry (c : Nat)
  /-- RETRY_COUNT_RESET (R415). Ten seconds in RUN return the retry count to 0. -/
  | retryCountReset (c : Nat)
  /-- FAN_PI_STEP (R416). Every 1 ms the speed PI step computes the duty. -/
  | fanPiStep (c : Nat)
  /-- STALL_CROSSING_TIMEOUT (R417). No crossing arrives within twice the last interval and a stall is declared. -/
  | stallCrossingTimeout (c : Nat)
  /-- STALL_SPEED_TIMEOUT (R417). Speed has stayed below STALL_RPM for STALL_T and a stall is declared. -/
  | stallSpeedTimeout (c : Nat)
  /-- READ (R425). A READ request reads LEN words after its frame and range checks and queues a response. -/
  | read (q : HostReq)
  /-- WRITE (R425). A WRITE request writes LEN words after its frame and range checks and queues a response. -/
  | write (q : HostReq)
  /-- DOORBELL (R426). A DOORBELL request checks the context and epoch and queues a start. -/
  | doorbell (q : HostReq)
  /-- REQUEST_FRAME_ERROR (R422). A REQUEST frame fails its length or CRC check, executes nothing and gets a TAG 0xFF response. -/
  | requestFrameError (crc : Bool) (tag : Byte)
  /-- FETCH (R424). A FETCH frame clocks out the oldest completed response, or NONE. -/
  | fetch (bytes : Nat)
  /-- UNKNOWN_FRAME (R421). A frame with another first byte is ignored and counted. -/
  | unknownFrame
  /-- REMOTE_TIMEOUT (R427). No HRSP arrives within 500 µs and the request returns TIMEOUT. -/
  | remoteTimeout (tag : BitVec 6)
  /-- UNREACH_TIMEOUT (R427). A request to an absent rank returns UNREACH within 100 µs. -/
  | unreachTimeout (tag : BitVec 6)
  /-- SHF_RESET_PULSE_END (R440). After 10 µs low the device drives SHF_RESET_N high. -/
  | shfResetPulseEnd
  /-- JTAG_BYPASS (R441). JTAG BYPASS instruction. -/
  | jtagBypass
  /-- JTAG_IDCODE (R441). JTAG IDCODE instruction returns 0xA964_0A6B. -/
  | jtagIdcode
  /-- JTAG_SAMPLE_PRELOAD (R441). JTAG SAMPLE/PRELOAD instruction. -/
  | jtagSamplePreload (load : List (Ball × Bool))
  /-- JTAG_EXTEST (R441). JTAG EXTEST, executed as BYPASS while locked or a group runs. -/
  | jtagExtest
  /-- TRST_N_ASSERT (R376). TRST_N resets the JTAG logic only. -/
  | trstNAssert
  /-- READ_CLEAR (R7). A read of an RC register returns its value and clears it. -/
  | readClear (addr : Word)
  /-- REGISTER_WRITE (R7). A write to a register without a row of its own acts by its access type. -/
  | registerWrite (addr value : Word)
  /-- RESERVED_OPCODE (R110). A Loop Engine context issues an instruction word whose opcode is reserved, which raises ILLEGAL and sends the context to FAULT. -/
  | reservedOpcode (w : LeWord) (ecc : Ecc)
  /-- PWM_EDGE (R172). A leg reaches a programmed edge position within the period and its outputs commutate under dead time and the minimum-pulse rule, opening blanking windows. -/
  | pwmEdge (l : Nat)
  /-- HEARTBEAT_RETURN (R363). Edges reappear on PAIR_HB_IN, so the partner's heartbeat is present again and HB_OK sets. -/
  | heartbeatReturn
  /-- REFERENCE_RETURN (R383). The 25 MHz reference shows edges again after a loss, so REF_OK sets and PLL searches may resume. -/
  | referenceReturn
  /-- VDD_AON_LOSS (R376). Both HU_FAST and VDD_IO33 are lost, so the always-on domain is cleared and the next reset has cause power-on. -/
  | vddAonLoss
  /-- TRESTLE_FRAME_SEND (R355). A Trestle transmitter finishes a frame and starts the next waiting frame in the priority order of Table 15.2, or sends idle commas. -/
  | trestleFrameSend (ringB : Bool)
  /-- DIAG_FIRST_CONVERSION (R226). The V0 conversion of an off-state test completes and the test current is switched onto the AIN ball. -/
  | diagFirstConversion (v : BitVec 16)
  /-- OPEN_LOOP_COMMUTATION (R414). During RAMP the fan drive advances to the next six-step vector at the open-loop commutation rate. -/
  | openLoopCommutation (c : Nat) (dt : Nat)
  deriving DecidableEq, Repr

end Sys2Proof
end

