-- ==== Sys2Proof/Decode.lean ====
section
/-!
DEFINITION. The command that a word spells. No row of the table gives its command any bits (every row's list of fields is
empty), so no table word spells a command: commands come to the block as events with operands. The instruction words of
the two programs that the device holds, the Loop Engine's (R103, R110) and the Monitor's (R330), do have encodings: they
are read here into the commands that issue them, and written back.
-/

namespace Sys2Proof

/-- The command that a word of `nbits` bits spells: none, since the table gives no row any bits. -/
def decodeTableWord (_nbits _w : Nat) : Option Instr := none

/-! ### Loop Engine instruction words (Table 5.1, Table 5.3) -/

/-- The fields below the opcode. -/
def leFields (x : BitVec 64) : LeWord :=
  { d := x.extractLsb' 51 5, a := x.extractLsb' 46 5, b := x.extractLsb' 41 5, c := x.extractLsb' 36 5
    s := x.getLsbD 35, n := x.getLsbD 34, v := x.getLsbD 33, p := x.getLsbD 32, imm := x.extractLsb' 0 32 }

/-- The word of an opcode and its fields. -/
def leBits (op : Byte) (w : LeWord) : BitVec 64 :=
  op ++ w.d ++ w.a ++ w.b ++ w.c ++ BitVec.ofBool w.s ++ BitVec.ofBool w.n ++ BitVec.ofBool w.v ++ BitVec.ofBool w.p ++ w.imm

/-- The opcodes of Table 5.3; every other code is reserved (R110). -/
def leOpcodes : List Byte :=
  [
    0x00, 0x01, 0x02, 0x03, 0x04, 0x05, 0x06, 0x07, 0x08, 0x09, 0x0A, 0x0B, 0x0C, 0x10, 0x11, 0x12, 0x13, 0x14,
    0x15, 0x16, 0x17, 0x18, 0x19, 0x1A, 0x1B, 0x1C, 0x20, 0x21, 0x22, 0x23, 0x24, 0x25, 0x26, 0x30, 0x31, 0x32,
    0x33, 0x34, 0x35, 0x36, 0x37, 0x38, 0x39, 0x3A, 0x3B, 0x3C, 0x3D, 0x3E, 0x40, 0x41, 0x42, 0x43, 0x44, 0x45,
    0x46, 0x47, 0x48, 0x4A, 0x50, 0x51, 0x54, 0x55, 0x56, 0x57, 0x58, 0x59, 0x5A, 0x5B, 0x60, 0x61, 0x62, 0x63,
    0x64, 0x65, 0x66, 0x68, 0x69, 0x6A, 0x70, 0x71, 0x72, 0x80, 0x81, 0x82, 0x83, 0x84, 0x85]

/-- The opcode and fields of a Loop Engine instruction. -/
def leParts (i : Instr) : Option (Byte × LeWord) :=
  match i with
  | .leNop w _ => some (0x00, w)
  | .leEnd w _ => some (0x01, w)
  | .leYield w _ => some (0x02, w)
  | .leBr w _ => some (0x03, w)
  | .leBeqz w _ => some (0x04, w)
  | .leBnez w _ => some (0x05, w)
  | .leBltz w _ => some (0x06, w)
  | .leBgez w _ => some (0x07, w)
  | .leDbnz w _ => some (0x08, w)
  | .leBpany w _ => some (0x09, w)
  | .leBpall w _ => some (0x0A, w)
  | .leJal w _ => some (0x0B, w)
  | .leJr w _ => some (0x0C, w)
  | .leAdd w _ => some (0x10, w)
  | .leSub w _ => some (0x11, w)
  | .leNeg w _ => some (0x12, w)
  | .leAbs w _ => some (0x13, w)
  | .leMin w _ => some (0x14, w)
  | .leMax w _ => some (0x15, w)
  | .leClamp w _ => some (0x16, w)
  | .leMul w _ => some (0x17, w)
  | .leMac w _ => some (0x18, w)
  | .leMsu w _ => some (0x19, w)
  | .leAccset w _ => some (0x1A, w)
  | .leAccrd w _ => some (0x1B, w)
  | .leAddi w _ => some (0x1C, w)
  | .leAnd w _ => some (0x20, w)
  | .leOr w _ => some (0x21, w)
  | .leXor w _ => some (0x22, w)
  | .leNot w _ => some (0x23, w)
  | .leShl w _ => some (0x24, w)
  | .leShr w _ => some (0x25, w)
  | .leSra w _ => some (0x26, w)
  | .leCmpeq w _ => some (0x30, w)
  | .leCmplt w _ => some (0x31, w)
  | .leCmple w _ => some (0x32, w)
  | .leCmpltu w _ => some (0x33, w)
  | .leFcmpeq w _ => some (0x34, w)
  | .leFcmplt w _ => some (0x35, w)
  | .leFcmple w _ => some (0x36, w)
  | .lePand w _ => some (0x37, w)
  | .lePor w _ => some (0x38, w)
  | .lePxor w _ => some (0x39, w)
  | .lePnot w _ => some (0x3A, w)
  | .lePset w _ => some (0x3B, w)
  | .leSel w _ => some (0x3C, w)
  | .lePtos w _ => some (0x3D, w)
  | .leStop w _ => some (0x3E, w)
  | .leFadd w _ => some (0x40, w)
  | .leFsub w _ => some (0x41, w)
  | .leFmul w _ => some (0x42, w)
  | .leFma w _ => some (0x43, w)
  | .leFmin w _ => some (0x44, w)
  | .leFmax w _ => some (0x45, w)
  | .leFabs w _ => some (0x46, w)
  | .leFneg w _ => some (0x47, w)
  | .leFcvtf w _ => some (0x48, w)
  | .leFcvtx w _ => some (0x4A, w)
  | .leLd w _ => some (0x50, w)
  | .leSt w _ => some (0x51, w)
  | .leLi w _ => some (0x54, w)
  | .leMov w _ => some (0x55, w)
  | .leVext w _ => some (0x56, w)
  | .leVins w _ => some (0x57, w)
  | .leRsum w _ => some (0x58, w)
  | .leVidx w _ => some (0x59, w)
  | .leGetf w _ => some (0x5A, w)
  | .leClrf w _ => some (0x5B, w)
  | .leClarke w _ => some (0x60, w)
  | .lePark w _ => some (0x61, w)
  | .leIpark w _ => some (0x62, w)
  | .leSincos w _ => some (0x63, w)
  | .leAtan2 w _ => some (0x64, w)
  | .leSqrt w _ => some (0x65, w)
  | .leRecip w _ => some (0x66, w)
  | .lePistep w _ => some (0x68, w)
  | .lePibump w _ => some (0x69, w)
  | .leBqstep w _ => some (0x6A, w)
  | .leCandset w _ => some (0x70, w)
  | .leCandeval w _ _ => some (0x71, w)
  | .leCandsel w _ _ => some (0x72, w)
  | .leRdres w _ _ => some (0x80, w)
  | .leStage w _ => some (0x81, w)
  | .leIost w _ => some (0x82, w)
  | .leCommit w _ => some (0x83, w)
  | .leTrc w _ => some (0x84, w)
  | .leSig w _ => some (0x85, w)
  | _ => none

/-- True when the word issues the instruction: it is the word of the instruction's opcode and fields, or its opcode is
reserved and the command says so (R110). -/
def leSpells (x : BitVec 64) (i : Instr) : Bool :=
  match i with
  | .reservedOpcode w _ => !leOpcodes.contains (x.extractLsb' 56 8) && leFields x == w
  | i =>
    match leParts i with
    | some (op, w) => x == leBits op w
    | none => false

/-! ### Monitor instruction words (R330, Table 14.3) -/

/-- The fields below the opcode. -/
def monFields (x : Word) (ecc : Bool) : MonWord :=
  { d := x.extractLsb' 23 4, a := x.extractLsb' 19 4, b := x.extractLsb' 15 4, imm := x.extractLsb' 0 15, ecc := ecc }

/-- The word of an opcode and its fields. -/
def monBits (op : BitVec 5) (w : MonWord) : Word := op ++ w.d ++ w.a ++ w.b ++ w.imm

/-- A port of a safe transfer channel (Table 14.4). -/
def stlPort (w : MonWord) : Bool := decide (0x10 ≤ w.imm.toNat) && decide (w.imm.toNat ≤ 0x17)

/-- The opcode and fields of a Monitor instruction; an OUT is the row of its port (Table 14.4). -/
def monParts (i : Instr) : Option (BitVec 5 × MonWord) :=
  match i with
  | .monNop _ w => some (0x00, w)
  | .monAdd _ w => some (0x01, w)
  | .monSub _ w => some (0x02, w)
  | .monAnd _ w => some (0x03, w)
  | .monOr _ w => some (0x04, w)
  | .monXor _ w => some (0x05, w)
  | .monAddi _ w => some (0x06, w)
  | .monShl _ w => some (0x07, w)
  | .monShr _ w => some (0x08, w)
  | .monSra _ w => some (0x09, w)
  | .monLi _ w => some (0x0A, w)
  | .monAbsd _ w => some (0x0B, w)
  | .monCmpeq _ w => some (0x0C, w)
  | .monCmplt _ w => some (0x0D, w)
  | .monCmpltu _ w => some (0x0E, w)
  | .monLd _ w => some (0x0F, w)
  | .monSt _ w => some (0x10, w)
  | .monBr _ w => some (0x11, w)
  | .monBeqz _ w => some (0x12, w)
  | .monBnez _ w => some (0x13, w)
  | .monJal _ w => some (0x14, w)
  | .monJr _ w => some (0x15, w)
  | .monIn _ w => some (0x16, w)
  | .monOutGen _ w => if w.imm.toNat < 2 then some (0x17, w) else none
  | .monOutRly _ w => if w.imm.toNat = 2 ∨ w.imm.toNat = 3 then some (0x17, w) else none
  | .monOutMonOff _ w => if w.imm.toNat = 4 then some (0x17, w) else none
  | .monOutUser _ w => if w.imm.toNat = 5 then some (0x17, w) else none
  | .monOutSplit _ w => if w.imm.toNat = 6 then some (0x17, w) else none
  | .monOutStlData _ w => if stlPort w && w.imm.toNat % 2 == 0 then some (0x17, w) else none
  | .monOutStlSend _ w => if stlPort w && w.imm.toNat % 2 == 1 then some (0x17, w) else none
  | .monPub _ w => some (0x18, w)
  | .monXchg _ w => some (0x19, w)
  | .monWait _ w => some (0x1A, w)
  | .monSafe _ w => some (0x1B, w)
  | _ => none

/-- True when the word issues the instruction. -/
def monSpells (x : Word) (i : Instr) : Bool :=
  match monParts i with
  | some (op, w) => x == monBits op w
  | none => false

end Sys2Proof
end

