-- ==== Sys2Proof/Machine/Float.lean ====
section
/-!
DEFINITION. The binary32 arithmetic of R98 and R117, written over exact dyadic numbers and one rounding, and the
exactly rounded functions of R122 (SINCOS, ATAN2, SQRT, RECIP, CLARKE). A result is a word and the sticky flags it
sets, laid out as I/O word 0x3C5: [0] SAT, [1] FOVF, [2] FINV, [3] FDIV, [4] FUNF.
-/

namespace Sys2Proof.Machine

/-- The sticky flag masks of I/O word 0x3C5 (Table 4.8). -/
def flagSat : Word := 1
def flagFovf : Word := 2
def flagFinv : Word := 4
def flagFdiv : Word := 8
def flagFunf : Word := 16

/-- The one NaN result of R98. -/
def qnan : Word := 0x7FC00000

/-- What a binary32 word stands for. -/
inductive FVal where
  | nan (signalling : Bool)
  | inf (neg : Bool)
  | fin (neg : Bool) (m : Nat) (e : Int)   -- ± m × 2^e
  deriving DecidableEq, Repr

/-- Reads a word; a subnormal reads as a zero of its sign and sets FUNF (R98). -/
def fDecode (w : Word) : FVal × Word :=
  let x := w.toNat
  let neg := bit x 31
  let ex := bits x 23 8
  let fr := bits x 0 23
  if ex = 255 then
    if fr = 0 then (.inf neg, 0) else (.nan (!bit x 22), 0)
  else if ex = 0 then (.fin neg 0 0, if fr = 0 then 0 else flagFunf)
  else (.fin neg (fr + 2 ^ 23) ((ex : Int) - 150), 0)

/-- A word from its sign, exponent field and fraction. -/
def fPack (neg : Bool) (ex fr : Nat) : Word := word (b2n neg * 2 ^ 31 + ex * 2 ^ 23 + fr)

/-- A zero, an infinity of a sign. -/
def fZero (neg : Bool) : Word := fPack neg 0 0
def fInf (neg : Bool) : Word := fPack neg 255 0

/-- Rounds ± (m + a part below 1 when `sticky`) × 2^e to nearest, ties to even, in 24 bits, flushing what stays
subnormal and overflowing to infinity (R98, R117). A sticky part needs `m` of at least 26 bits. -/
def fRound (neg : Bool) (m : Nat) (e : Int) (sticky : Bool) : Word × Word :=
  if m = 0 then (fZero neg, if sticky then flagFunf else 0)
  else
    let len := Nat.log2 m + 1
    let sh := len - 24
    let q0 := if len ≤ 24 then m * 2 ^ (24 - len) else m / 2 ^ sh
    let rem := if len ≤ 24 then 0 else m % 2 ^ sh
    let half := if len ≤ 24 then 1 else 2 ^ (sh - 1)
    let up := decide (rem > half) || (decide (rem = half) && (sticky || q0 % 2 == 1))
    let q1 := if up then q0 + 1 else q0
    let e1 : Int := e + (len : Int) - 24
    let q := if q1 = 2 ^ 24 then 2 ^ 23 else q1
    let e2 : Int := if q1 = 2 ^ 24 then e1 + 1 else e1
    let ex : Int := e2 + 150
    if ex ≥ 255 then (fInf neg, flagFovf)
    else if ex ≤ 0 then (fZero neg, flagFunf)
    else (fPack neg ex.toNat (q - 2 ^ 23), 0)

/-- The signed exact number of a finite value at a common exponent `e0` no larger than its own. -/
def fScaled (neg : Bool) (m : Nat) (e e0 : Int) : Int :=
  let v : Int := (m * 2 ^ (e - e0).toNat : Nat)
  if neg then -v else v

/-- Rounds an exact signed number times 2^e; an exact zero takes the sign given. -/
def fRoundInt (v : Int) (e : Int) (zeroNeg : Bool) : Word × Word :=
  if v = 0 then (fZero zeroNeg, 0) else fRound (decide (v < 0)) v.natAbs e false

/-- The flag of a signalling operand. -/
def fSig : FVal → Word
  | .nan true => flagFinv
  | _ => 0

/-- The sum of two values, exact and rounded once; a zero sum is +0 unless both are −0. -/
def fAddVal (a b : FVal) : Word × Word :=
  match a, b with
  | .nan s, _ => (qnan, (if s then flagFinv else 0) ||| fSig b)
  | _, .nan s => (qnan, if s then flagFinv else 0)
  | .inf s, .inf t => if s = t then (fInf s, 0) else (qnan, flagFinv)
  | .inf s, _ => (fInf s, 0)
  | _, .inf t => (fInf t, 0)
  | .fin s m e, .fin t n f =>
    let e0 := min e f
    fRoundInt (fScaled s m e e0 + fScaled t n f e0) e0 (if m = 0 ∧ n = 0 then s && t else false)

def FVal.neg : FVal → FVal
  | .nan s => .nan s
  | .inf s => .inf (!s)
  | .fin s m e => .fin (!s) m e

/-- The exact product of two values, or none where it is invalid (0 × ∞). -/
def fMulVal (a b : FVal) : Option FVal :=
  match a, b with
  | .nan s, .nan t => some (.nan (s || t))
  | .nan s, _ => some (.nan s)
  | _, .nan s => some (.nan s)
  | .inf s, .inf t => some (.inf (s != t))
  | .inf s, .fin t n _ => if n = 0 then none else some (.inf (s != t))
  | .fin s m _, .inf t => if m = 0 then none else some (.inf (s != t))
  | .fin s m e, .fin t n f => some (.fin (s != t) (m * n) (e + f))

/-- A value delivered: rounded once. -/
def fDeliver : FVal → Word × Word
  | .nan s => (qnan, if s then flagFinv else 0)
  | .inf s => (fInf s, 0)
  | .fin s m e => fRound s m e false

/-- FADD (Table 5.9). -/
def fAdd (a b : Word) : Word × Word :=
  let (x, fx) := fDecode a
  let (y, fy) := fDecode b
  let (r, f) := fAddVal x y
  (r, fx ||| fy ||| f)

/-- FSUB (Table 5.9). -/
def fSub (a b : Word) : Word × Word :=
  let (x, fx) := fDecode a
  let (y, fy) := fDecode b
  let (r, f) := fAddVal x y.neg
  (r, fx ||| fy ||| f)

/-- FMUL (Table 5.9). -/
def fMul (a b : Word) : Word × Word :=
  let (x, fx) := fDecode a
  let (y, fy) := fDecode b
  let (r, f) := match fMulVal x y with
    | none => (qnan, flagFinv)
    | some v => fDeliver v
  (r, fx ||| fy ||| f)

/-- FMA: a × b + c rounded once (Table 5.9). -/
def fFma (a b c : Word) : Word × Word :=
  let (x, fx) := fDecode a
  let (y, fy) := fDecode b
  let (z, fz) := fDecode c
  let (r, f) := match fMulVal x y with
    | none => (qnan, flagFinv)
    | some v => fAddVal v z
  (r, fx ||| fy ||| fz ||| f)

/-- The quotient of two values rounded to nearest, ties to even; a finite value by zero sets FDIV (R117). -/
def fDivVal (a b : FVal) : Word × Word :=
  match a, b with
  | .nan s, _ => (qnan, (if s then flagFinv else 0) ||| fSig b)
  | _, .nan s => (qnan, if s then flagFinv else 0)
  | .inf _, .inf _ => (qnan, flagFinv)
  | .inf s, .fin t _ _ => (fInf (s != t), 0)
  | .fin s _ _, .inf t => (fZero (s != t), 0)
  | .fin s m e, .fin t n f =>
    if n = 0 then (if m = 0 then (qnan, flagFinv) else (fInf (s != t), flagFdiv))
    else if m = 0 then (fZero (s != t), 0)
    else fRound (s != t) (m * 2 ^ 60 / n) (e - f - 60) (m * 2 ^ 60 % n != 0)

def fDiv (a b : Word) : Word × Word :=
  let (x, fx) := fDecode a
  let (y, fy) := fDecode b
  let (r, f) := fDivVal x y
  (r, fx ||| fy ||| f)

/-- The word of 1.0. -/
def fOne : Word := 0x3F800000

/-- RECIP: 1 / a, correctly rounded (R122). -/
def fRecip (a : Word) : Word × Word := fDiv fOne a

/-- The integer square root by binary digits: the bits of the root from `n` down. -/
def isqrtFrom : Nat → Nat → Nat → Nat
  | 0, _, r => r
  | n + 1, x, r => let r' := r + 2 ^ n; isqrtFrom n x (if r' * r' ≤ x then r' else r)

/-- The largest r with r × r ≤ x. -/
def isqrt (x : Nat) : Nat := isqrtFrom (Nat.log2 x / 2 + 1) x 0

/-- SQRT: correctly rounded; below −0 the quiet NaN and FINV, √−0 = −0 (R122). -/
def fSqrt (a : Word) : Word × Word :=
  let (x, fx) := fDecode a
  let (r, f) : Word × Word := match x with
    | .nan s => (qnan, if s then flagFinv else 0)
    | .inf s => if s then (qnan, flagFinv) else (fInf false, 0)
    | .fin s m e =>
      if m = 0 then (fZero s, 0)
      else if s then (qnan, flagFinv)
      else
        let k : Nat := if e % 2 = 0 then 60 else 61
        let m' := m * 2 ^ k
        let root := isqrt m'
        fRound false root ((e - k) / 2) (root * root != m')
  (r, fx ||| f)

/-- The order of two numbers that are no NaN: −1, 0 or 1. -/
def fOrder (a b : FVal) : Int :=
  match a, b with
  | .inf s, .inf t => if s = t then 0 else if s then -1 else 1
  | .inf s, _ => if s then -1 else 1
  | _, .inf t => if t then 1 else -1
  | .fin s m e, .fin t n f =>
    let e0 := min e f
    let d := fScaled s m e e0 - fScaled t n f e0
    if d < 0 then -1 else if d = 0 then 0 else 1
  | _, _ => 0

def FVal.isNan : FVal → Bool
  | .nan _ => true
  | _ => false

def FVal.isNeg : FVal → Bool
  | .nan _ => false
  | .inf s => s
  | .fin s _ _ => s

/-- A flushed operand as a word. -/
def fFlushed (w : Word) : Word :=
  match (fDecode w).1 with
  | .fin s 0 _ => fZero s
  | _ => w

/-- FMIN and FMAX (Table 5.9): one NaN gives the other operand, two the quiet NaN; −0 counts as less than +0; a
signalling NaN sets FINV. -/
def fMinMax (wantMax : Bool) (a b : Word) : Word × Word :=
  let (x, fx) := fDecode a
  let (y, fy) := fDecode b
  let fl := fx ||| fy ||| fSig x ||| fSig y
  if x.isNan && y.isNan then (qnan, fl)
  else if x.isNan then (fFlushed b, fl)
  else if y.isNan then (fFlushed a, fl)
  else
    let o := fOrder x y
    let aLess := if o = 0 then x.isNeg && !y.isNeg else decide (o < 0)
    let bLess := if o = 0 then y.isNeg && !x.isNeg else decide (o > 0)
    let pickA := if wantMax then !aLess else !bLess
    (if pickA then fFlushed a else fFlushed b, fl)

/-- FABS and FNEG act on the sign bit alone (R98). -/
def fAbs (a : Word) : Word := a &&& 0x7FFFFFFF
def fNeg (a : Word) : Word := a ^^^ 0x80000000

/-- The compares of Table 5.8 on binary32: a NaN operand gives 0 and sets no flag (R116); a flushed subnormal operand
sets FUNF (R98). DEDUCED (log 7). -/
def fCmp (test : Int → Bool) (a b : Word) : Bool × Word :=
  let (x, fx) := fDecode a
  let (y, fy) := fDecode b
  if x.isNan || y.isNan then (false, 0) else (test (fOrder x y), fx ||| fy)

/-- FCVTF: a × 2^−k of a signed word, rounded to nearest even (Table 5.9). -/
def fFromInt (v : Int) (k : Nat) : Word × Word := fRoundInt v (-(k : Int)) false

/-- R108's rounding of num / 2^k: floor, or floor of the value plus one half. -/
def roundShift (nearest : Bool) (num : Int) (k : Nat) : Int :=
  if nearest then (2 * num + 2 ^ k) / 2 ^ (k + 1) else num / 2 ^ k

/-- R108's fitting: clamped with SAT, or the low 32 bits. -/
def fit32 (saturate : Bool) (x : Int) : Word × Word :=
  if saturate then
    (wordOfInt (satI32 x), if satI32 x = x then 0 else flagSat)
  else (wordOfInt x, 0)

/-- FCVTX: a × 2^k to a signed word per R108 with saturation; a NaN gives 0 and sets FINV (Table 5.9). -/
def fToInt (nearest : Bool) (a : Word) (k : Nat) : Word × Word :=
  let (x, fx) := fDecode a
  match x with
  | .nan _ => (0, flagFinv)
  | .inf s => (if s then 0x80000000 else 0x7FFFFFFF, flagSat)
  | .fin s m e =>
    let v : Int := if s then -(m : Int) else m
    let sh := e + k
    let r := if sh ≥ 0 then v * 2 ^ sh.toNat else roundShift nearest v (-sh).toNat
    let (w, f) := fit32 true r
    (w, fx ||| f)

/-- A binary32 word as an exact fraction, numerator over 2^149; a NaN or infinity gives none. -/
def fToRat (a : Word) : Option Int :=
  match (fDecode a).1 with
  | .fin s m e => some (fScaled s m e (-149))
  | _ => none

/-- The binary32 nearest to num / den, ties to even (den positive). -/
def fOfRat (num den : Int) : Word :=
  if num = 0 ∨ den ≤ 0 then 0
  else
    let n := num.natAbs
    let d := den.toNat
    let k : Nat := 64 + Nat.log2 d
    (fRound (decide (num < 0)) (n * 2 ^ k / d) (-(k : Int)) (n * 2 ^ k % d != 0)).1

/-! ### Fixed-point functions of R122, with 192 fraction bits -/

/-- Fraction bits of the working precision: the exact functions have no rounding ties but at exact values, and no
32-bit input comes within 2^−100 of one. -/
def fxBits : Nat := 192

/-- π with 192 fraction bits. -/
def fxPi : Nat := 19720096697726538562396133364228268891463450865190089732560

/-- sin and cos of x (0 ≤ x ≤ π/4) by their series: the terms x^n/n!, from term number `n` on. -/
def fxSinCosFrom : Nat → Nat → Int → Nat → Int → Int → Int × Int
  | 0, _, _, _, s, c => (s, c)
  | fuel + 1, x, t, n, s, c =>
    -- t is the term x^n / n!, of which n mod 4 says where it goes
    let c' := if n % 4 = 0 then c + t else if n % 4 = 2 then c - t else c
    let s' := if n % 4 = 1 then s + t else if n % 4 = 3 then s - t else s
    fxSinCosFrom fuel x (t * x / 2 ^ fxBits / (n + 1)) (n + 1) s' c'

/-- sin and cos of an angle of at most one eighth of a turn, `u` in 1/2^32 of a turn. -/
def fxOctant (u : Nat) : Int × Int :=
  fxSinCosFrom 48 (2 * fxPi * u / 2 ^ 32) (2 ^ fxBits) 0 0 0

/-- Round to nearest, ties away from zero, of x / 2^k. -/
def roundAway (x : Int) (k : Nat) : Int :=
  if x ≥ 0 then (2 * x + 2 ^ k) / 2 ^ (k + 1) else -((2 * (-x) + 2 ^ k) / 2 ^ (k + 1))

/-- sin and cos of a turn32 angle, Q1.31, rounded to nearest with ties away from zero and clamped (R122). -/
def sinCos (theta : Word) : Word × Word :=
  let t := theta.toNat
  let oct := t / 2 ^ 29
  let r := t % 2 ^ 29
  let (s, c) := fxOctant (if oct % 2 = 0 then r else 2 ^ 29 - r)
  let (s1, c1) := if oct % 4 = 0 ∨ oct % 4 = 3 then (s, c) else (c, s)
  let sinV := if oct < 4 then s1 else -s1
  let cosV := if oct < 2 ∨ oct ≥ 6 then c1 else -c1
  let q := fun v => wordOfInt (min 2147483647 (roundAway v (fxBits - 31)))
  (q sinV, q cosV)

/-- The series x − x³/3 + x⁵/5 − … of the arc tangent, from the power p = x^n on. -/
def fxAtanFrom : Nat → Nat → Nat → Nat → Int → Int
  | 0, _, _, _, acc => acc
  | fuel + 1, x2, p, n, acc =>
    fxAtanFrom fuel x2 (p * x2 / 2 ^ fxBits) (n + 2)
      (if n % 4 = 1 then acc + (p / n : Nat) else acc - (p / n : Nat))

/-- tan(φ/2) from tan φ = x ≥ 0: (√(1 + x²) − 1) / x. -/
def fxHalfTan (x : Nat) : Nat :=
  if x = 0 then 0
  else (isqrt (2 ^ (2 * fxBits) + x * x) - 2 ^ fxBits) * 2 ^ fxBits / x

/-- The angle of (x, y) for 0 ≤ y ≤ x, x > 0, as turns with 192 fraction bits: the tangent halved three times. -/
def fxAtanTurns (y x : Nat) : Nat :=
  let t := fxHalfTan (fxHalfTan (fxHalfTan (y * 2 ^ fxBits / x)))
  let a := fxAtanFrom 48 (t * t / 2 ^ fxBits) t 1 0
  (8 * a).toNat * 2 ^ fxBits / (2 * fxPi)

/-- ATAN2: the angle of (x, y) as turn32, rounded to nearest, ties away from zero, modulo one turn (R122). -/
def atan2 (y x : Word) : Word :=
  let yi := y.toInt
  let xi := x.toInt
  if yi = 0 ∧ xi = 0 then 0
  else
    let ay := yi.natAbs
    let ax := xi.natAbs
    let first : Int := if ay ≤ ax then fxAtanTurns ay ax else (2 ^ (fxBits - 2) : Int) - fxAtanTurns ax ay
    let upper : Int := if xi ≥ 0 then first else (2 ^ (fxBits - 1) : Int) - first
    let full : Int := if yi ≥ 0 then upper else -upper
    wordOfInt (roundAway full (fxBits - 32))

/-- floor(k / √3), exactly. -/
def floorDivRoot3 (k : Int) : Int :=
  if k ≥ 0 then (isqrt (k.natAbs * k.natAbs / 3) : Nat) else -((isqrt (k.natAbs * k.natAbs / 3) : Nat) + 1 : Int)

/-- k / √3 rounded per R108. -/
def divRoot3 (nearest : Bool) (k : Int) : Int :=
  if nearest then (floorDivRoot3 (2 * k) + 1) / 2 else floorDivRoot3 k

/-- num / 3 rounded per R108. -/
def divThree (nearest : Bool) (num : Int) : Int := if nearest then (2 * num + 3) / 6 else num / 3

end Sys2Proof.Machine
end

