-- ==== Sys2Proof/Machine/SMap.lean ====
section
/-!
DEFINITION. The one sparse store of the model: a list of key and value pairs in canonical form, its keys strictly
rising and no entry equal to what an unlisted key reads as. Memory, the register words and every indexed group of
state are such a list, so that equal contents are equal data.
-/

namespace Sys2Proof.Machine

/-- A sparse map from numbers: key and value pairs. -/
abbrev SMap (α : Type) := List (Nat × α)

/-- The value at a key; `d` says what an unlisted key reads as. -/
def SMap.get {α : Type} (d : Nat → α) : SMap α → Nat → α
  | [], k => d k
  | (j, v) :: m, k => if k = j then v else SMap.get d m k

/-- The map with an entry at its place among the rising keys. -/
def SMap.put {α : Type} : SMap α → Nat → α → SMap α
  | [], k, v => [(k, v)]
  | (j, w) :: m, k, v =>
    if k = j then (k, v) :: m else if k < j then (k, v) :: (j, w) :: m else (j, w) :: SMap.put m k v

/-- The map with the value at one key replaced, in canonical form: what the unlisted key reads as is no entry. -/
def SMap.set {α : Type} [DecidableEq α] (d : Nat → α) (m : SMap α) (k : Nat) (v : α) : SMap α :=
  if v = d k then m.filter fun p => p.1 != k else SMap.put m k v

/-- Every key of the map is at least the bound, the keys rise and no entry is a default. -/
def SMap.wfFrom {α : Type} [DecidableEq α] (d : Nat → α) : Nat → SMap α → Bool
  | _, [] => true
  | lo, (j, v) :: m => decide (lo ≤ j) && decide (v ≠ d j) && SMap.wfFrom d (j + 1) m

/-- The canonical form. -/
def SMap.wf {α : Type} [DecidableEq α] (d : Nat → α) (m : SMap α) : Bool := SMap.wfFrom d 0 m

end Sys2Proof.Machine
end

