-- ==== Sys2Proof/Machine/LeTypes.lean ====
section
/-!
DEFINITION. The state of the Loop Engine and of the units that serve its contexts: the Candidate Evaluator, the Gain
Scheduler, the Plausibility Checker and the set-point inputs (chapters 4, 5 and 6).
-/

namespace Sys2Proof.Machine

/-! ### Loop Engine (chapters 4 to 6) -/

/-- Context states of Table 4.1; the code is the constructor's number. -/
inductive CtxSt where
  | disabled | idle | ready | running | preempted | waiting | fault
  deriving DecidableEq, Repr

/-- A context descriptor as Table 4.3 gives it. -/
structure Desc where
  prio : Nat := 0
  flags : Nat := 0
  entry : Nat := 0
  initEntry : Nat := 0xFFFF
  budget : Nat := 0
  adcTrig : Nat := 0
  stageGroups : Nat := 0
  ceQuota : Nat := 0
  bank : Nat := 0
  waitRel : Nat := 0
  wBase : Nat := 0
  wLen : Nat := 0
  deriving DecidableEq, Repr

/-- A CANDSET configuration (R130). -/
structure CandCfg where
  nslot : Nat
  group : Nat
  h2 : Bool
  modulated : Bool
  wrt : Bool
  model : Nat
  deriving DecidableEq, Repr

/-- A start request recorded under R84: its SYSCLK time, its reason (Table 4.8), its doorbell argument and whether its
budget has expired already. -/
structure StartReq where
  time : Nat := 0
  reason : Nat := 0
  arg : Word := 0
  missed : Bool := false
  deriving DecidableEq, Repr

/-- What became of the staging write of an evaluation (R152). -/
inductive EvalUse where
  | unused | staged | sealed | late | applied | spoiled
  deriving DecidableEq, Repr

/-- A stored prediction of the Plausibility Checker: the vector, its group and its fate. -/
structure Prediction where
  group : Nat
  x : List Word
  use : EvalUse
  words : Nat := 0        -- staging words that its result took, from word 0 on
  deriving DecidableEq, Repr

/-- One evaluation handed to the Candidate Evaluator (R131): everything it captures at its CANDEVAL. -/
structure EvalReq where
  ctx : Nat
  prio : Nat
  cfg : CandCfg
  x : List Word
  r : List Word
  d : List Word
  state0 : Word            -- the switching state latched at the start (R135)
  bankBase : Nat           -- LCM byte base of the latched bank
  issued : Nat             -- LE_CYC at issue
  discarded : Bool         -- its result is not to be read (R113, R131)
  cand : List Byte         -- the CAND payload in force for the run
  deriving DecidableEq, Repr

/-- The result of a context's last evaluation, for CANDSEL (R132, R141, R142). -/
structure EvalResult where
  cfg : CandCfg
  index : Word
  code : Word
  cost : Word
  index2 : Word
  code2 : Word
  delta : Word
  valid : Bool
  deriving DecidableEq, Repr

/-- One Loop Engine context: its registers (R76), its state and start requests (R84), what it latched at its start
(R17, R96) and its counters. -/
structure Ctx where
  st : CtxSt := .disabled
  pend : Option StartReq := none
  disPend : Bool := false
  begun : Bool := false
  clearDue : Bool := false        -- its registers clear at the END of the run in progress (R77)
  epoch : Nat := 0
  req : StartReq := {}
  initNext : Bool := false        -- the next start is the first after a clearing (R77)
  pc : Nat := 0
  s : SMap Word := []             -- s0–s31
  v : SMap Word := []             -- v0–v7, lane i of vn at 16 n + i
  acc : SMap (BitVec 80) := []    -- acc0–acc3, lane i at 16 n + i
  p : SMap (BitVec 16) := []      -- p0–p3
  flags : Word := 0               -- live sticky flags, as I/O word 0x3C5
  latched : SMap Word := []       -- I/O words latched at the start, by word address
  snap : SMap Word := []          -- snapshots of the live angle words (R96)
  desc : Desc := {}               -- the descriptor in force for the run
  codeWords : Nat := 0            -- length of the code block in force for the run
  codeAt : Nat := 0               -- its LPM index
  bankLen : Nat := 0              -- words of its bank
  bank : Nat := 0                 -- bank ID in force
  bankBase : Nat := 0             -- its LCM byte base
  hasBank : Bool := false
  cand : List Byte := []          -- the CAND payload in force for the run (R138)
  state0 : SMap Word := []        -- switching state per group latched at the start (R135)
  candset : Option CandCfg := none
  evalIssued : Bool := false      -- a CANDEVAL has been issued in this run
  evalRes : Option EvalResult := none
  ceWords : SMap Word := []       -- result words 0x340–0x35F (R144)
  excCode : Nat := 0
  excPc : Nat := 0
  cntStart : Nat := 0
  cntOvr : Nat := 0
  cntMiss : Nat := 0
  cntStale : Nat := 0
  maxLat : Nat := 0
  maxExe : Nat := 0
  ovrSince : Nat := 0             -- overruns since the last start (I/O word 0x3C6)
  exe : Nat := 0                  -- cycles holding the lanes in this run, up to the last hand-over
  heldFrom : Nat := 0             -- LE_CYC when it last took the lanes
  tripped : Nat := 0              -- groups that tripped since its start (R145)
  relWait : Bool := false         -- it released the lanes for a wait (R87)
  -- Gain scheduling (R148 to R151)
  region : Option Nat := none
  prevRegion : Nat := 0
  regionStarts : Nat := 0
  noMatch : Bool := false
  -- Plausibility (R152 to R154)
  bucket : Nat := 0
  preds : List Prediction := []   -- newest first, at most two
  cntCmp : Nat := 0
  cntSkip : Nat := 0
  cntNan : Nat := 0
  cntHold : Nat := 0
  deriving DecidableEq, Repr

/-- The Loop Engine as a whole. -/
structure Le where
  ctx : SMap Ctx := []
  running : Nat := 0              -- the context holding the lanes, 0 when none
  queue : List Nat := []          -- READY and PREEMPTED contexts, first to run first among equal priorities
  run : Bool := false             -- LE_STAT.RUN
  halted : Bool := false
  stopped : Bool := false
  cyc : Nat := 0                  -- LE_CYC (64 bits)
  cycHi : Word := 0               -- snapshot of LE_CYC_HI (R101)
  failed : Nat := 0               -- LE_LANE.FAILED mask of physical lanes
  mapped : Nat := 0               -- the FAILED mask the lane mapping follows
  retry : Nat := 0                -- LE_LANE.RETRY_CNT
  testLane : Option (Nat × Nat) := none   -- self-test pass in progress: lane and chunks done
  testAgain : Bool := false       -- the lane is on its repeat (R74)
  passes : Nat := 0               -- completed passes
  traceFull : Nat := 0            -- stopped trace units (bit n)
  trcBuf : SMap (List (List Byte)) := []  -- records that wait for the ring, by trace unit (R100)
  codeBase : Nat := 0             -- LPM index of the code block in force
  coefBase : Nat := 0             -- LCM word index of the first bank in force
  deriving DecidableEq, Repr

/-- The Candidate Evaluator (R88, R143). -/
structure Ce where
  queue : List EvalReq := []
  service : Option EvalReq := none
  deriving DecidableEq, Repr

/-- The Gain Scheduler's pending operating-point hop (R150). -/
structure Gs where
  hop : Option Nat := none
  deriving DecidableEq, Repr

/-- One set-point channel (R155 to R157): raw binary32, filtered pu32, output pu32. -/
structure SptCh where
  raw : Word := 0
  y : Int := 0
  out : Int := 0
  los : Bool := false
  slewing : Bool := false
  deriving DecidableEq, Repr

/-- The set-point inputs. -/
structure Spt where
  a : SptCh := {}
  p : SptCh := {}
  level : Bool := false          -- SETP_P level
  period : Nat := 0              -- last complete period, 2.5 ns steps; 0 before one is complete
  high : Nat := 0                -- its high time
  rose : Bool := false           -- a rising edge has begun a period
  highNow : Nat := 0             -- high time of the period in progress
  quiet : Nat := 0               -- 100 µs updates since the last rising edge
  deriving DecidableEq, Repr

end Sys2Proof.Machine
end

