-- ==== Sys2Proof/Machine/LeAlu.lean ====
section
/-!
DEFINITION. The operand forms of a Loop Engine instruction word (R104, R105, R107) and what the register instructions
compute from a context's registers alone (R108, R114 to R117, R119, R121 to R125). Every result is formed from the
registers as they stood before the instruction.
-/

namespace Sys2Proof.Machine

/-- What a vector bit or a modifier bit may be (R105). -/
inductive Mod where
  | opt | one | zero
  deriving DecidableEq, Repr

/-- The register classes of Table 5.2 as the fields use them. -/
inductive Cls where
  | unused    -- the row does not name the field
  | src       -- data, source
  | dst       -- data, destination
  | scalar    -- a scalar register in either form
  | vdst      -- v0–v7 in either form
  | acc       -- acc0–acc3
  | pred      -- p0–p3
  | cmpDst    -- a predicate in vector form, a scalar in scalar form
  | selC      -- the same, as a source
  | pairDst   -- an even data destination, of which the next register is written too
  | sPair     -- an even scalar pair
  deriving DecidableEq, Repr

/-- The permitted form of one instruction: its modifier columns and its field classes. -/
structure Form where
  v : Mod := .opt
  s : Mod := .zero
  n : Mod := .zero
  p : Bool := false
  d : Cls := .unused
  a : Cls := .unused
  b : Cls := .unused
  c : Cls := .unused
  bad : Bool := false       -- a value of IMM that the instruction's rule makes ILLEGAL
  deriving DecidableEq, Repr

def Mod.allows (m : Mod) (x : Bool) : Bool :=
  match m with
  | .opt => true
  | .one => x
  | .zero => !x

/-- True when a field value is one that Table 5.2 accepts. DESIGN CHOICE (log 43): a field that the row does not name may hold
any value; and field A that a vector form writes sA takes s0 to s31. -/
def Cls.allows (k : Cls) (vec : Bool) (f : BitVec 5) : Bool :=
  let n := f.toNat
  match k with
  | .unused => true
  | .src => !vec || decide (n < 8) || decide (16 ≤ n)
  | .dst => !vec || decide (n < 8)
  | .scalar => true
  | .vdst => decide (n < 8)
  | .acc => decide (n < 4)
  | .pred => decide (n < 4)
  | .cmpDst => !vec || decide (n < 4)
  | .selC => !vec || decide (n < 4)
  | .pairDst => decide (n % 2 = 0) && (!vec || decide (n < 8))
  | .sPair => decide (n % 2 = 0)

/-- True when the word has a permitted form (R104, R105); any other raises ILLEGAL. -/
def Form.legal (f : Form) (w : LeWord) : Bool :=
  !f.bad && f.v.allows w.v && f.s.allows w.s && f.n.allows w.n && (!w.p || (f.p && w.v))
    && f.d.allows w.v w.d && f.a.allows w.v w.a && f.b.allows w.v w.b && f.c.allows w.v w.c

/-- Default of an unlisted register: zero (R77). -/
def zeroWord : Nat → Word := fun _ => 0
def zeroAcc : Nat → BitVec 80 := fun _ => 0
def zeroPred : Nat → BitVec 16 := fun _ => 0

/-- Scalar, vector lane, accumulator lane and predicate reads. -/
def Ctx.sReg (c : Ctx) (n : Nat) : Word := SMap.get zeroWord c.s n
def Ctx.vReg (c : Ctx) (n i : Nat) : Word := SMap.get zeroWord c.v (16 * n + i)
def Ctx.accReg (c : Ctx) (n i : Nat) : BitVec 80 := SMap.get zeroAcc c.acc (16 * n + i)
def Ctx.pReg (c : Ctx) (n : Nat) : BitVec 16 := SMap.get zeroPred c.p n

/-- Register writes. -/
def Ctx.setS (c : Ctx) (n : Nat) (x : Word) : Ctx := { c with s := SMap.set zeroWord c.s n x }
def Ctx.setV (c : Ctx) (n i : Nat) (x : Word) : Ctx := { c with v := SMap.set zeroWord c.v (16 * n + i) x }
def Ctx.setAcc (c : Ctx) (n i : Nat) (x : BitVec 80) : Ctx := { c with acc := SMap.set zeroAcc c.acc (16 * n + i) x }
def Ctx.setP (c : Ctx) (n : Nat) (x : BitVec 16) : Ctx := { c with p := SMap.set zeroPred c.p n x }
def Ctx.addFlags (c : Ctx) (f : Word) : Ctx := { c with flags := c.flags ||| f }

/-- A data source of lane `i`: in vector form fields 16 to 31 broadcast s0 to s15 (Table 5.2). -/
def Ctx.src (c : Ctx) (w : LeWord) (f : BitVec 5) (i : Nat) : Word :=
  if w.v then (if f.toNat < 8 then c.vReg f.toNat i else c.sReg (f.toNat - 16)) else c.sReg f.toNat

/-- A data destination of lane `i`. -/
def Ctx.setDst (c : Ctx) (w : LeWord) (n i : Nat) (x : Word) : Ctx := if w.v then c.setV n i x else c.setS n x

/-- The lanes of the form: 16, or lane 0 alone. -/
def leLanes (w : LeWord) : List Nat := if w.v then List.range 16 else [0]

/-- True when lane `i` takes part (R107). -/
def Ctx.takes (c : Ctx) (w : LeWord) (i : Nat) : Bool := !w.p || (c.pReg 0).getLsbD i

/-- The lanes that take part. -/
def Ctx.taking (c : Ctx) (w : LeWord) : List Nat := (leLanes w).filter (c.takes w)

/-- The shift field imm[5:0]. -/
def leSh6 (w : LeWord) : Nat := bits w.imm.toNat 0 6
def leSh5 (w : LeWord) : Nat := bits w.imm.toNat 0 5

/-- Writes one result and its flags for every lane that takes part; `f` reads the registers before the instruction. -/
def Ctx.mapLanes (c : Ctx) (w : LeWord) (f : Nat → Word × Word) : Ctx :=
  (c.taking w).foldl (fun c' i => (c'.setDst w w.d.toNat i (f i).1).addFlags (f i).2) c

/-- The same for a pair of results, written to registers D and D + 1. -/
def Ctx.mapPair (c : Ctx) (w : LeWord) (f : Nat → (Word × Word) × Word) : Ctx :=
  (c.taking w).foldl
    (fun c' i => ((c'.setDst w w.d.toNat i (f i).1.1).setDst w (w.d.toNat + 1) i (f i).1.2).addFlags (f i).2) c

/-- An instruction of one or two data sources without flags. -/
def Ctx.mapPlain (c : Ctx) (w : LeWord) (f : Word → Word → Word) : Ctx :=
  c.mapLanes w fun i => (f (c.src w w.a i) (c.src w w.b i), 0)

/-- A fixed-point instruction: the exact result over 2^k, rounded and fitted (R108). -/
def Ctx.mapFixed (c : Ctx) (w : LeWord) (k : Nat) (f : Int → Int → Int) : Ctx :=
  c.mapLanes w fun i => fit32 w.s (roundShift w.n (f (c.src w w.a i).toInt (c.src w w.b i).toInt) k)

/-- A compare: a predicate bit per lane, or 1 or 0 to a scalar (R116). -/
def Ctx.compare (c : Ctx) (w : LeWord) (f : Word → Word → Bool × Word) : Ctx :=
  if w.v then
    (c.taking w).foldl (fun c' i =>
      let r := f (c.src w w.a i) (c.src w w.b i)
      (c'.setP w.d.toNat (BitVec.ofNat 16
        ((c'.pReg w.d.toNat).toNat - b2n ((c'.pReg w.d.toNat).getLsbD i) * 2 ^ i + b2n r.1 * 2 ^ i))).addFlags r.2) c
  else
    let r := f (c.sReg w.a.toNat) (c.sReg w.b.toNat)
    (c.setS w.d.toNat (word (b2n r.1))).addFlags r.2

/-- The 80-bit fit of an accumulator: it saturates at its range and sets SAT, whatever the modifier (R98, R115). -/
def fitAcc (x : Int) : BitVec 80 × Word :=
  let y := clampInt (-(2 ^ 79)) (2 ^ 79 - 1) x
  (BitVec.ofInt 80 y, if y = x then 0 else flagSat)

/-- An accumulator instruction: the new value of accD for every lane that takes part; lane 0 in scalar form (R115). -/
def Ctx.mapAcc (c : Ctx) (w : LeWord) (f : Int → Int → Int → Int) : Ctx :=
  (c.taking w).foldl (fun c' i =>
    let r := fitAcc (f (c.accReg w.d.toNat i).toInt (c.src w w.a i).toInt (c.src w w.b i).toInt)
    (c'.setAcc w.d.toNat i r.1).addFlags r.2) c

/-- ACCRD: d = accA / 2^imm[5:0], rounded and fitted (Table 5.7). -/
def Ctx.accRead (c : Ctx) (w : LeWord) : Ctx :=
  c.mapLanes w fun i => fit32 w.s (roundShift w.n (c.accReg w.a.toNat i).toInt (leSh6 w))

/-- SEL (Table 5.8). -/
def Ctx.select (c : Ctx) (w : LeWord) : Ctx :=
  c.mapLanes w fun i =>
    let pick := if w.v then (c.pReg w.c.toNat).getLsbD i else c.sReg w.c.toNat != 0
    (if pick then c.src w w.a i else c.src w w.b i, 0)

/-- RSUM: the exact sum of the lanes that take part, fitted (Table 5.10). -/
def Ctx.laneSum (c : Ctx) (w : LeWord) : Ctx :=
  let r := fit32 w.s ((c.taking w).foldl (fun t i => t + (c.src w w.a i).toInt) 0)
  (c.setS w.d.toNat r.1).addFlags r.2

/-- CLARKE, exact and rounded once (R122). -/
def clarke (w : LeWord) (a b c : Int) : (Word × Word) × Word :=
  let mode1 := w.imm.getLsbD 0
  let al := fit32 w.s (if mode1 then a else divThree w.n (2 * a - b - c))
  let be := fit32 w.s (divRoot3 w.n (if mode1 then a + 2 * b else b - c))
  ((al.1, be.1), al.2 ||| be.2)

/-- PARK and IPARK: products of the SINCOS values summed exactly and rounded once with a shift of 31 (R122). -/
def park (inverse : Bool) (w : LeWord) (x y : Int) (theta : Word) : (Word × Word) × Word :=
  let sc := sinCos theta
  let sn := sc.1.toInt
  let cs := sc.2.toInt
  let u := if inverse then x * cs - y * sn else x * cs + y * sn
  let v := if inverse then x * sn + y * cs else y * cs - x * sn
  let ru := fit32 w.s (roundShift w.n u 31)
  let rv := fit32 w.s (roundShift w.n v 31)
  ((ru.1, rv.1), ru.2 ||| rv.2)

/-- The LCM word offset imm[13:0] of a coefficient block. -/
def leCoef (w : LeWord) : Nat := bits w.imm.toNat 0 14

/-- The LCM word offset of coefficient `k` for lane `i`: consecutive words, or blocks of 16 in vector form (R123). -/
def leCoefAt (w : LeWord) (k i : Nat) : Nat := if w.v then leCoef w + 16 * k + i else leCoef w + k

/-- PISTEP (R123): the output, the integrator and the flags, from kp, ki, umin, umax, e and i. -/
def piStep (nearest : Bool) (kp ki umin umax e i : Int) : (Word × Word) × Word :=
  let p := roundShift nearest (kp * e) 28
  let ir := i + roundShift nearest (ki * e) 28
  let lo := umin - p
  let hi := umax - p
  let i' := fit32 true (min (max ir lo) hi)
  let u := fit32 true (p + i'.1.toInt)
  ((u.1, i'.1), u.2 ||| i'.2)

/-- PIBUMP (R124). -/
def piBump (nearest : Bool) (kp u0 e : Int) : Word × Word := fit32 true (u0 - roundShift nearest (kp * e) 28)

/-- BQSTEP (R125): output, z1, z2 and the flags. -/
def bqStep (nearest : Bool) (b0 b1 b2 a1 a2 x z1 z2 : Int) : Word × Word × Word × Word :=
  let y := fit32 true (z1 + roundShift nearest (b0 * x) 28)
  let yi := y.1.toInt
  let n1 := fit32 true (z2 + roundShift nearest (b1 * x - a1 * yi) 28)
  let n2 := fit32 true (roundShift nearest (b2 * x - a2 * yi) 28)
  (y.1, n1.1, n2.1, y.2 ||| n1.2 ||| n2.2)

end Sys2Proof.Machine
end

