-- ==== Sys2Proof/Config.lean ====
section
/-!
DEFINITION. What an implementation of the block fixes and the manual leaves open: free values without a body, so that
nothing proved about the model rests on a number chosen here. Each is named in the assumption log.
-/

namespace Sys2Proof.Config

/-- The k-th value that the manual leaves open, as a word. UNVERIFIED by design: any value (log 4). -/
opaque freeValue : Nat → Word

/-- Whether a result whose rounding the manual does not state is rounded up: of the site that forms it, the numerator
and the denominator (log 5). -/
opaque roundUp : Nat → Int → Int → Bool

/-- Where IMG places a code block in free LPM, as an instruction index, and a set of banks in free LCM, as a word
index: of the generation and the number of words (R79, R81; log 6). -/
opaque placeCode : Nat → Nat → Nat
opaque placeBanks : Nat → Nat → Nat

/-- The die identifier (R392; log 8). -/
opaque dieId : DWord

/-- The decay exp(−1 ms / TAU) of a Foster stage, formed in binary32 from TAU in seconds in a rounding that the manual
does not state (R394; log 5). -/
opaque fosterDecay : Word → Word

/-- One step of a first-order filter whose discrete form the manual does not state: of the time constant and the step
between updates in units of 10 µs, the value held and the new input (log 14). -/
opaque lowPass : Nat → Nat → Int → Int → Int

/-- The peak phase current, in counts, that GRD computes from the three phase currents of one update (R247; log 15). -/
opaque peakCurrent : Int → Int → Int → Nat

/-- The tracking loop of ANG, of whose two stages the manual states the kind and the bandwidth alone (R48; log 42): what the
loop holds after an update, of BW in Hz, whether the inputs are SAR codes, what it held, and each channel's value with its
age in 2.5 ns; and what it then delivers: 0 the positive-sequence angle of the channels as connected, corrected for age and
group delay, 1 the frequency (Hz × 2^24), 2 and 3 the sequence magnitudes in 1/65,536 counts of the R198 scale, 4 the
negative-sequence voltage angle as connected. -/
opaque trackNext : Nat → Bool → Nat → List (Int × Nat) → Nat
opaque trackOut : Nat → Nat → Nat

/-- The fundamental phasor of a channel over a window (R271; log 17), real then imaginary, in 2^-149 of its unit: of the class
(false P, true M), the reporting instant in ns, the frequency tracked there, FNOM, and the samples with their wall times. -/
opaque phasor : Bool → Nat → Nat → Nat → List (Nat × Int) → Int × Int

/-- The phase of entry `i` of a harmonic table relative to the fundamental of VA, from the sums of the two transforms over
the cycles of the window (R270; log 17). -/
opaque harmonicPhase : Nat → Int × Int → Int × Int → Word

/-- Which of several equal candidates an implementation takes: of the site and their number (log 19). -/
opaque pick : Nat → Nat → Nat

/-- The servo of TIM, a PI loop of which the manual states the bandwidth alone (R307; log 20): the new frequency term, of
SERVO_BW in mHz, the term held and the offset in 2^-16 ns; and the phase term before its clamp, of SERVO_BW and the
offset. Both in 1/256 ppb. -/
opaque servoFreq : Nat → Int → Int → Int
opaque servoPhase : Nat → Int → Int

/-- The voltage in µV that a code of HU's 10-bit converter stands for, over 0 V to 3.0 V (R385; log 33). -/
opaque bulkUv : BitVec 10 → Nat

/-- The word that a register reads where the spec states none (R310 in FREE, the level of a ball that nothing drives): of
its address and the time (log 4). -/
opaque openReg : Nat → Nat → Word

/-- VDD_IO33 lies in its recommended range at a time (R45; log 34). -/
opaque vddIo33Ok : Nat → Bool

end Sys2Proof.Config
end

