-- ==== Sys2Proof/Machine/Regs.lean ====
section
/-!
DEFINITION. The register map: the address of every register (Table 19.4 and the map of each chapter) and, for each
register that is not simply read-only or write-only, its access masks and its reset value (R7, R9). A register absent
from the table ignores writes and its word is what the model stores or derives for it.
-/

namespace Sys2Proof.Machine

/-- One row of the register table: `count` registers from `addr`, `stride` apart. `rw` and `w1c` are the writable and
the write-1-to-clear bits; `rc` says that a read clears; `reset` is the word after reset. -/
structure RegRow where
  addr : Nat
  count : Nat
  stride : Nat
  rw : Nat
  w1c : Nat
  rc : Bool
  reset : Nat
  deriving DecidableEq, Repr

def rIMG_STAT : Nat := 0x29000
def rIMG_GEN : Nat := 0x29004
def rIMG_CMD : Nat := 0x29008
def rIMG_SRC : Nat := 0x2900C
def rIMG_CMT_ANG_FR : Nat := 0x29010
def rIMG_CMT_ANG_CYL : Nat := 0x29014
def rIMG_CMT_ANG_CYH : Nat := 0x29018
def rIMG_REJ : Nat := 0x2901C
def rIMG_NOTE : Nat := 0x29020
def rIMG_CAB_DATA (n : Nat) : Nat := 0x29100 + 4 * n
def rIMG_CAB_CMD : Nat := 0x29180
def rIMG_CAB_STAT : Nat := 0x29184
def rIMG_CAB_FUSE (n : Nat) : Nat := 0x29200 + 4 * n
def rANG_STAT : Nat := 0x10000
def rANG_SRC : Nat := 0x10004
def rANG_MEAS_FR : Nat := 0x10010
def rANG_MEAS_CYL : Nat := 0x10014
def rANG_MEAS_CYH : Nat := 0x10018
def rANG_SCH_FR : Nat := 0x10020
def rANG_SCH_CYL : Nat := 0x10024
def rANG_SCH_CYH : Nat := 0x10028
def rANG_GEN_FR : Nat := 0x10030
def rANG_GEN_CYL : Nat := 0x10034
def rANG_GEN_CYH : Nat := 0x10038
def rANG_FREQ : Nat := 0x10040
def rANG_ROCOF : Nat := 0x10044
def rANG_VPOS : Nat := 0x10048
def rANG_VNEG : Nat := 0x1004C
def rANG_ERR : Nat := 0x10050
def rANG_JUMP : Nat := 0x10054
def rANG_JUMP_CNT : Nat := 0x10058
def rANG_COAST_MS : Nat := 0x1005C
def rEVT_STAT : Nat := 0x11000
def rEVT_CNT_LATE : Nat := 0x11004
def rEVT_CNT_BURST : Nat := 0x11008
def rEVT_HOST_IDX : Nat := 0x1100C
def rEVT_HOST_T0 : Nat := 0x11010
def rEVT_HOST_T1 : Nat := 0x11014
def rEVT_HOST_T2 : Nat := 0x11018
def rEVT_HOST_CMD : Nat := 0x1101C
def rEVT_PEND0 : Nat := 0x11020
def rEVT_PEND1 : Nat := 0x11024
def rEVT_PEND2 : Nat := 0x11028
def rEVT_PEND3 : Nat := 0x1102C
def rEVT_PEND4 : Nat := 0x11030
def rEVT_PEND5 : Nat := 0x11034
def rEVT_PEND6 : Nat := 0x11038
def rEVT_PEND7 : Nat := 0x1103C
def rEVT_IRQ_SRC : Nat := 0x11040
def rLE_STAT : Nat := 0x12000
def rLE_LANE : Nat := 0x12004
def rLE_LTEST : Nat := 0x12008
def rLE_CYC_LO : Nat := 0x12010
def rLE_CYC_HI : Nat := 0x12014
def rLE_DMISS_LO : Nat := 0x12020
def rLE_DMISS_HI : Nat := 0x12024
def rLE_FAULT_LO : Nat := 0x12028
def rLE_FAULT_HI : Nat := 0x1202C
def rLE_CTX_SEL : Nat := 0x12040
def rLE_CTX_CMD : Nat := 0x12044
def rLE_CTX_STATE : Nat := 0x12048
def rLE_CTX_EXC : Nat := 0x1204C
def rLE_CTX_CNT_START : Nat := 0x12050
def rLE_CTX_CNT_OVR : Nat := 0x12054
def rLE_CTX_CNT_MISS : Nat := 0x12058
def rLE_CTX_CNT_STALE : Nat := 0x1205C
def rLE_CTX_MAXLAT : Nat := 0x12060
def rLE_CTX_MAXEXE : Nat := 0x12064
def rLE_CTX_EPOCH : Nat := 0x12068
def rLE_TRC_WP0 : Nat := 0x12080
def rLE_TRC_WP1 : Nat := 0x12088
def rLE_TRC_WP2 : Nat := 0x12090
def rLE_TRC_WP3 : Nat := 0x12098
def rLE_TRC_DROP0 : Nat := 0x12084
def rLE_TRC_DROP1 : Nat := 0x1208C
def rLE_TRC_DROP2 : Nat := 0x12094
def rLE_TRC_DROP3 : Nat := 0x1209C
def rCE_STAT : Nat := 0x13000
def rCE_CNT_EVAL : Nat := 0x13004
def rCE_CNT_NOSTATE : Nat := 0x13008
def rCE_CNT_MODEL : Nat := 0x1300C
def rCE_CNT_NONE : Nat := 0x13010
def rCE_MAXWAIT : Nat := 0x13014
def rCE_ACTIVE : Nat := 0x13018
def rCE_MERR : Nat := 0x1301C
def rGS_STAT : Nat := 0x14000
def rGS_CTX_SEL : Nat := 0x14004
def rGS_REGION : Nat := 0x14008
def rGS_CNT_SWITCH : Nat := 0x1400C
def rGS_CNT_NOMATCH : Nat := 0x14010
def rGS_CNT_BUMP : Nat := 0x14014
def rPLB_STAT : Nat := 0x15000
def rPLB_CTX_SEL : Nat := 0x15004
def rPLB_CMD : Nat := 0x15008
def rPLB_BUCKET : Nat := 0x1500C
def rPLB_WARN_LO : Nat := 0x15010
def rPLB_WARN_HI : Nat := 0x15014
def rPLB_ACT_LO : Nat := 0x15018
def rPLB_ACT_HI : Nat := 0x1501C
def rPLB_CNT_CMP : Nat := 0x15020
def rPLB_CNT_SKIP : Nat := 0x15024
def rPLB_CNT_NAN : Nat := 0x15028
def rPLB_CNT_HOLD : Nat := 0x1502C
def rSPT_STAT : Nat := 0x16000
def rSPT_A_RAW : Nat := 0x16004
def rSPT_A_VAL : Nat := 0x16008
def rSPT_P_RAW : Nat := 0x1600C
def rSPT_P_VAL : Nat := 0x16010
def rSPT_CNT_LOS_A : Nat := 0x16014
def rSPT_CNT_LOS_P : Nat := 0x16018
def rPWM_STAT : Nat := 0x17000
def rPWM_START : Nat := 0x17004
def rPWM_STOP : Nat := 0x17008
def rPWM_ALIGN_ERR : Nat := 0x1700C
def rPWM_PHSTEP_CNT : Nat := 0x17010
def rPWM_OUT_LO : Nat := 0x17014
def rPWM_OUT_HI : Nat := 0x17018
def rPWM_Gn_CTL (n : Nat) : Nat := 0x17100 + 0x40 * n
def rPWM_Gn_STAT (n : Nat) : Nat := 0x17104 + 0x40 * n
def rPWM_Gn_CMT (n : Nat) : Nat := 0x17108 + 0x40 * n
def rPWM_Gn_CNT (n : Nat) : Nat := 0x1710C + 0x40 * n
def rPWM_Gn_PIDX (n : Nat) : Nat := 0x17110 + 0x40 * n
def rPWM_Gn_PER (n : Nat) : Nat := 0x17114 + 0x40 * n
def rPWM_Gn_CODE (n : Nat) : Nat := 0x17118 + 0x40 * n
def rPWM_Gn_CNT_LATE (n : Nat) : Nat := 0x1711C + 0x40 * n
def rPWM_Gn_CNT_SHOOT (n : Nat) : Nat := 0x17120 + 0x40 * n
def rPWM_Gn_CNT_MINP (n : Nat) : Nat := 0x17124 + 0x40 * n
def rPWM_Gn_CNT_QUIET (n : Nat) : Nat := 0x17128 + 0x40 * n
def rPWM_Gn_CNT_BOOT (n : Nat) : Nat := 0x1712C + 0x40 * n
def rADC_STAT : Nat := 0x18000
def rADC_MAP : Nat := 0x18004
def rADC_CMD : Nat := 0x18008
def rADC_FAILED : Nat := 0x1800C
def rADC_XCHK : Nat := 0x18010
def rADC_CNT_OVR : Nat := 0x18014
def rADC_CNT_XCHK : Nat := 0x18018
def rADC_CNT_REF : Nat := 0x1801C
def rSDM_STAT : Nat := 0x19000
def rSDM_CH0_CTL : Nat := 0x19004
def rSDM_CH1_CTL : Nat := 0x19008
def rSDM_CH2_CTL : Nat := 0x1900C
def rSDM_CH3_CTL : Nat := 0x19010
def rSDM_CH4_CTL : Nat := 0x19014
def rSDM_CH5_CTL : Nat := 0x19018
def rSDM_CH6_CTL : Nat := 0x1901C
def rSDM_CNT_OVL : Nat := 0x19020
def rSDM_CNT_SETTLE : Nat := 0x19024
def rCMP_STAT : Nat := 0x1A000
def rCMP_STATE : Nat := 0x1A004
def rCMP_UNDET : Nat := 0x1A008
def rCMP_SPARE : Nat := 0x1A00C
def rCMP_RBFAIL : Nat := 0x1A010
def rCMP_CNT_BLANK : Nat := 0x1A014
def rCMP_CNT_RB : Nat := 0x1A018
def rCMP_CNT_SHADOW : Nat := 0x1A01C
def rTRP_STAT : Nat := 0x1B000
def rTRP_CLR : Nat := 0x1B004
def rTRP_CMD : Nat := 0x1B008
def rTRP_REFUSED : Nat := 0x1B00C
def rTRP_SRC0 : Nat := 0x1B010
def rTRP_SRC1 : Nat := 0x1B014
def rTRP_SRC2 : Nat := 0x1B018
def rTRP_SRC3 : Nat := 0x1B01C
def rTRP_LATCHED : Nat := 0x1B020
def rTRP_LEGFREE : Nat := 0x1B024
def rTRP_LEGLATCH : Nat := 0x1B028
def rTRP_DCK : Nat := 0x1B02C
def rTRP_G0_CAUSE : Nat := 0x1B040
def rTRP_G1_CAUSE : Nat := 0x1B044
def rTRP_G2_CAUSE : Nat := 0x1B048
def rTRP_G3_CAUSE : Nat := 0x1B04C
def rTRP_G4_CAUSE : Nat := 0x1B050
def rTRP_G5_CAUSE : Nat := 0x1B054
def rTRP_G6_CAUSE : Nat := 0x1B058
def rTRP_G7_CAUSE : Nat := 0x1B05C
def rTRP_CNT_CLR_REF : Nat := 0x1B060
def rTRP_CNT_DT_SUPP : Nat := 0x1B064
def rGDS_STAT : Nat := 0x1C000
def rGDS_FLT : Nat := 0x1C004
def rGDS_DIAGFAIL : Nat := 0x1C008
def rGDS_DIAG_CMD : Nat := 0x1C00C
def rGDS_DIAG_LEG : Nat := 0x1C010
def rGDS_DIAG_V : Nat := 0x1C014
def rGDS_CNT_FLT : Nat := 0x1C020
def rGDS_CNT_BLANK : Nat := 0x1C024
def rGDS_CNT_AC : Nat := 0x1C028
def rCHP_STAT : Nat := 0x1D000
def rCHP_DUTY : Nat := 0x1D004
def rCHP_CMD : Nat := 0x1D008
def rCHP_VI : Nat := 0x1D00C
def rCHP_CNT_PULSE : Nat := 0x1D010
def rCHP_CNT_OPEN : Nat := 0x1D014
def rCHP_CNT_SHORT : Nat := 0x1D018
def rCHP_CNT_DCOV2 : Nat := 0x1D01C
def rGRD_STAT : Nat := 0x1E000
def rGRD_CMD : Nat := 0x1E004
def rGRD_PSET : Nat := 0x1E008
def rGRD_QSET : Nat := 0x1E00C
def rGRD_ESET : Nat := 0x1E010
def rGRD_PLIM : Nat := 0x1E014
def rGRD_VMIN : Nat := 0x1E018
def rGRD_VMAX : Nat := 0x1E01C
def rGRD_TV : Nat := 0x1E020
def rGRD_TF : Nat := 0x1E024
def rGRD_P : Nat := 0x1E028
def rGRD_Q : Nat := 0x1E02C
def rGRD_RECON_MS : Nat := 0x1E030
def rGRD_CAUSE : Nat := 0x1E034
def rGRD_CNT_RIDE : Nat := 0x1E038
def rGRD_CNT_CEASE : Nat := 0x1E03C
def rGRD_CNT_RESTOP : Nat := 0x1E040
def rGRD_CNT_GFXFER : Nat := 0x1E044
def rISL_STAT : Nat := 0x1F000
def rISL_ZEST : Nat := 0x1F004
def rISL_CHIP : Nat := 0x1F008
def rISL_PASSIVE : Nat := 0x1F00C
def rISL_CNT_ISLAND : Nat := 0x1F010
def rISL_CNT_DEGR : Nat := 0x1F014
def rISL_CNT_HOLD : Nat := 0x1F018
def rMTR_STAT : Nat := 0x20000
def rMTR_CMD : Nat := 0x20004
def rMTR_SNAP_SEQ : Nat := 0x20008
def rMTR_SNAP_NS : Nat := 0x2000C
def rMTR_SNAP_SEC_LO : Nat := 0x20010
def rMTR_SNAP_SEC_HI : Nat := 0x20014
def rMTR_UNC_LO : Nat := 0x20018
def rMTR_UNC_HI : Nat := 0x2001C
def rMTR_GAP_MS : Nat := 0x20020
def rMTR_UNCAL_S : Nat := 0x20024
def rMTR_NVM : Nat := 0x20028
def rMTR_PMU_WP : Nat := 0x2002C
def rMTR_HARM : Nat := 0x20030
def rMTR_CNT_BADCYC : Nat := 0x20034
def rMTR_CNT_SAVE : Nat := 0x20038
def rMTR_CNT_CLEAR : Nat := 0x2003C
def rMTR_ACC (n : Nat) : Nat := 0x20040 + 8 * n
def rMTR_DV (n : Nat) : Nat := 0x20120 + 4 * n
def rMTR_VRMS_A : Nat := 0x20190
def rMTR_VRMS_B : Nat := 0x20194
def rMTR_VRMS_C : Nat := 0x20198
def rMTR_IRMS_A : Nat := 0x2019C
def rMTR_IRMS_B : Nat := 0x201A0
def rMTR_IRMS_C : Nat := 0x201A4
def rMTR_VAUX : Nat := 0x201A8
def rMTR_THD_VA : Nat := 0x201AC
def rMTR_THD_VB : Nat := 0x201B0
def rMTR_THD_VC : Nat := 0x201B4
def rMTR_THD_IA : Nat := 0x201B8
def rMTR_THD_IB : Nat := 0x201BC
def rMTR_THD_IC : Nat := 0x201C0
def rMTR_PF : Nat := 0x201C4
def rREC_STAT : Nat := 0x21000
def rREC_CMD : Nat := 0x21004
def rREC_LOST : Nat := 0x21008
def rREC_Un_STAT (n : Nat) : Nat := 0x21040 + 0x20 * n
def rREC_Un_CAPIDX (n : Nat) : Nat := 0x21044 + 0x20 * n
def rREC_Un_STORED (n : Nat) : Nat := 0x21048 + 0x20 * n
def rREC_Un_DEADT (n : Nat) : Nat := 0x2104C + 0x20 * n
def rREC_Un_DEADMAX (n : Nat) : Nat := 0x21050 + 0x20 * n
def rREC_Un_CNT_MISS (n : Nat) : Nat := 0x21054 + 0x20 * n
def rSHF_STAT : Nat := 0x22000
def rSHF_CMD : Nat := 0x22004
def rSHF_LOC_REQ : Nat := 0x22008
def rSHF_LOC_RES : Nat := 0x2200C
def rSHF_APP_SRC : Nat := 0x22010
def rSHF_APP_LEN : Nat := 0x22014
def rSHF_SIZE : Nat := 0x22018
def rSHF_SPARE : Nat := 0x2201C
def rSHF_EC_MIN : Nat := 0x22020
def rSHF_EC_MAX : Nat := 0x22024
def rSHF_PAUSE_MS : Nat := 0x22028
def rSHF_CNT_DROP : Nat := 0x2202C
def rSHF_CNT_EVDROP : Nat := 0x22030
def rSHF_CNT_BAD : Nat := 0x22034
def rSHF_S0_SEQ : Nat := 0x22040
def rSHF_S1_SEQ : Nat := 0x22044
def rSHF_S2_SEQ : Nat := 0x22048
def rSHF_S3_SEQ : Nat := 0x2204C
def rSHF_S4_SEQ : Nat := 0x22050
def rTIM_STAT : Nat := 0x23000
def rTIM_CMD : Nat := 0x23004
def rTIM_NS : Nat := 0x23008
def rTIM_SEC_LO : Nat := 0x2300C
def rTIM_SEC_HI : Nat := 0x23010
def rTIM_ADJ : Nat := 0x23014
def rTIM_OFFSET : Nat := 0x23018
def rTIM_MPD : Nat := 0x2301C
def rTIM_ERR_EST : Nat := 0x23020
def rTIM_S0_STAT : Nat := 0x23024
def rTIM_S1_STAT : Nat := 0x23028
def rTIM_S0_GM_LO : Nat := 0x23030
def rTIM_S0_GM_HI : Nat := 0x23034
def rTIM_S1_GM_LO : Nat := 0x23038
def rTIM_S1_GM_HI : Nat := 0x2303C
def rTIM_UTC : Nat := 0x23040
def rTIM_HOLD_S : Nat := 0x23044
def rTIM_CNT_SWITCH : Nat := 0x23048
def rTIM_CNT_OUTLIER : Nat := 0x2304C
def rTIM_CNT_FMDROP : Nat := 0x23050
def rTIM_CNT_STEP : Nat := 0x23054
def rTIM_TTn_SEC_LO (n : Nat) : Nat := 0x23080 + 0x10 * n
def rTIM_TTn_SEC_HI (n : Nat) : Nat := 0x23084 + 0x10 * n
def rTIM_TTn_NS (n : Nat) : Nat := 0x23088 + 0x10 * n
def rTIM_TTn_CTL (n : Nat) : Nat := 0x2308C + 0x10 * n
def rETH_STAT : Nat := 0x24000
def rETH_M0_CTL : Nat := 0x24004
def rETH_M1_CTL : Nat := 0x24008
def rETH_M0_LINK : Nat := 0x2400C
def rETH_M1_LINK : Nat := 0x24010
def rETH_RX_WP : Nat := 0x24014
def rETH_RX_RP : Nat := 0x24018
def rETH_TXQ_DB : Nat := 0x2401C
def rETH_Q0_RP : Nat := 0x24020
def rETH_Q1_RP : Nat := 0x24024
def rETH_Q2_RP : Nat := 0x24028
def rETH_Q3_RP : Nat := 0x2402C
def rETH_Q4_RP : Nat := 0x24030
def rETH_Q5_RP : Nat := 0x24034
def rETH_Q6_RP : Nat := 0x24038
def rETH_Q7_RP : Nat := 0x2403C
def rETH_CNT_RX0 : Nat := 0x24040
def rETH_CNT_RX1 : Nat := 0x24044
def rETH_CNT_RXDROP : Nat := 0x24048
def rETH_CNT_FILT : Nat := 0x2404C
def rETH_CNT_CRC : Nat := 0x24050
def rETH_CNT_LATE : Nat := 0x24054
def rETH_CNT_SAF : Nat := 0x24058
def rETH_CNT_PTP : Nat := 0x2405C
def rMON_STAT : Nat := 0x25000
def rMON_FAULT_A : Nat := 0x25004
def rMON_FAULT_B : Nat := 0x25008
def rMON_OUT : Nat := 0x2500C
def rMON_OPT : Nat := 0x25010
def rMON_USER_A : Nat := 0x25014
def rMON_USER_B : Nat := 0x25018
def rMON_TICK_MAX : Nat := 0x2501C
def rMON_CNT_LATENT : Nat := 0x25020
def rMON_CNT_XOUT : Nat := 0x25024
def rMON_CNT_OPTFAIL : Nat := 0x25028
def rSAF_STAT : Nat := 0x26000
def rSAF_CHECK : Nat := 0x26004
def rSAF_COMM : Nat := 0x26008
def rSAF_CONFIRM : Nat := 0x2600C
def rSAF_CONFIRM_INV : Nat := 0x26010
def rSAF_CH0_STAT : Nat := 0x26014
def rSAF_CH1_STAT : Nat := 0x26018
def rSAF_CH2_STAT : Nat := 0x2601C
def rSAF_CH3_STAT : Nat := 0x26020
def rSAF_CNT_REJ : Nat := 0x26024
def rSAF_CNT_TOUT : Nat := 0x26028
def rTRS_STAT : Nat := 0x27000
def rTRS_CMD : Nat := 0x27004
def rTRS_ENUM : Nat := 0x27008
def rTRS_RANK : Nat := 0x2700C
def rTRS_ROLE_CMD : Nat := 0x27010
def rTRS_DLY_A : Nat := 0x27014
def rTRS_DLY_B : Nat := 0x27018
def rTRS_ACCD : Nat := 0x2701C
def rTRS_ROLE0 : Nat := 0x27020
def rTRS_ROLE1 : Nat := 0x27024
def rTRS_ROLE2 : Nat := 0x27028
def rTRS_ROLE3 : Nat := 0x2702C
def rTRS_ROLE4 : Nat := 0x27030
def rTRS_ROLE5 : Nat := 0x27034
def rTRS_ROLE6 : Nat := 0x27038
def rTRS_ROLE7 : Nat := 0x2703C
def rTRS_CNT_CRC : Nat := 0x27040
def rTRS_CNT_STALE : Nat := 0x27044
def rTRS_CNT_WRAP : Nat := 0x27048
def rTRS_CNT_DROP : Nat := 0x2704C
def rPAIR_STAT : Nat := 0x28000
def rPAIR_CMD : Nat := 0x28004
def rPAIR_GEN_TX : Nat := 0x28008
def rPAIR_GEN_RX : Nat := 0x2800C
def rPAIR_LAST_SW : Nat := 0x28010
def rPAIR_CNT_SWITCH : Nat := 0x28014
def rPAIR_CNT_MISMATCH : Nat := 0x28018
def rPAIR_CNT_LATENT : Nat := 0x2801C
def rPAIR_CNT_GAP : Nat := 0x28020
def rPAIR_CNT_DUAL : Nat := 0x28024
def rSYS_ID : Nat := 0x0
def rSYS_STAT : Nat := 0x4
def rSYS_RST : Nat := 0x8
def rSYS_CMD : Nat := 0xC
def rSYS_DIEID_LO : Nat := 0x10
def rSYS_DIEID_HI : Nat := 0x14
def rSYS_MPP : Nat := 0x18
def rCLK_STAT : Nat := 0x1000
def rCLK_PTC : Nat := 0x1004
def rCLK_LEARNED : Nat := 0x1008
def rCLK_HOP_LAST : Nat := 0x100C
def rCLK_CNT_HOP : Nat := 0x1010
def rCLK_CNT_SYSLOSS : Nat := 0x1014
def rCLK_CNT_PTCLOSS : Nat := 0x1018
def rCLK_CNT_ETHLOSS : Nat := 0x101C
def rHU_STAT : Nat := 0x2A000
def rHU_FAST_MV : Nat := 0x2A004
def rHU_BULK_V : Nat := 0x2A008
def rHU_EAVAIL : Nat := 0x2A00C
def rHU_GRANT_REQ : Nat := 0x2A010
def rHU_GRANT : Nat := 0x2A014
def rHU_PF_LAST : Nat := 0x2A018
def rHU_CNT_PF : Nat := 0x2A01C
def rHU_CNT_ABORT : Nat := 0x2A020
def rLIF_STAT : Nat := 0x2B000
def rLIF_CMD : Nat := 0x2B004
def rLIF_GAP : Nat := 0x2B008
def rLIF_SAT : Nat := 0x2B00C
def rLIF_RSEQ : Nat := 0x2B010
def rLIF_CNT_RFOVF : Nat := 0x2B014
def rLIF_SPSTAT : Nat := 0x2B018
def rLIF_SPLOG : Nat := 0x2B01C
def rLIF_Pn_TJ (n : Nat) : Nat := 0x2B040 + 0x20 * n
def rLIF_Pn_PLOSS (n : Nat) : Nat := 0x2B044 + 0x20 * n
def rLIF_Pn_DMG_LO (n : Nat) : Nat := 0x2B048 + 0x20 * n
def rLIF_Pn_DMG_HI (n : Nat) : Nat := 0x2B04C + 0x20 * n
def rLIF_Pn_TJMAX (n : Nat) : Nat := 0x2B050 + 0x20 * n
def rLIF_Pn_GAP_MS (n : Nat) : Nat := 0x2B054 + 0x20 * n
def rTHM_STAT : Nat := 0x2C000
def rTHM_TDIE : Nat := 0x2C004
def rTHM_TPRED : Nat := 0x2C008
def rTHM_PWR : Nat := 0x2C00C
def rTHM_TMAX : Nat := 0x2C010
def rTHM_CNT_PAUSE_MS : Nat := 0x2C014
def rTHM_RC_TRIM : Nat := 0x2C018
def rFAN_STAT : Nat := 0x2D000
def rFAN_Cn_CMD (n : Nat) : Nat := 0x2D040 + 0x20 * n
def rFAN_Cn_SET (n : Nat) : Nat := 0x2D044 + 0x20 * n
def rFAN_Cn_STATE (n : Nat) : Nat := 0x2D048 + 0x20 * n
def rFAN_Cn_SPEED (n : Nat) : Nat := 0x2D04C + 0x20 * n
def rFAN_Cn_DUTY (n : Nat) : Nat := 0x2D050 + 0x20 * n
def rFAN_Cn_CNT_STALL (n : Nat) : Nat := 0x2D054 + 0x20 * n
def rFAN_Cn_CNT_START (n : Nat) : Nat := 0x2D058 + 0x20 * n
def rHST_STAT : Nat := 0x2E000
def rHST_IRQ_SRC : Nat := 0x2E004
def rHST_IRQ_MASK_A : Nat := 0x2E008
def rHST_IRQ_MASK_B : Nat := 0x2E00C
def rHST_OUTST : Nat := 0x2E010
def rHST_CNT_CRC : Nat := 0x2E014
def rHST_CNT_FRAME : Nat := 0x2E018
def rHST_CNT_REUSE : Nat := 0x2E01C
def rHST_CNT_TOUT : Nat := 0x2E020
def rHST_CNT_LATE : Nat := 0x2E024

/-- Rows of the register table, part 0. -/
def regRows0 : List RegRow :=
  [ ⟨0x29000, 1, 0x0, 0x0, 0x78C, false, 0x0⟩   -- IMG_STAT
  , ⟨0x2900C, 3, 0x4, 0xFFFFFFFF, 0x0, false, 0x0⟩   -- IMG_SRC-IMG_CMT_ANG_CYL
  , ⟨0x29018, 1, 0x0, 0xFFFF, 0x0, false, 0x0⟩   -- IMG_CMT_ANG_CYH
  , ⟨0x29020, 1, 0x0, 0x0, 0x0, true, 0x0⟩   -- IMG_NOTE
  , ⟨0x29100, 31, 0x4, 0xFFFFFFFF, 0x0, false, 0x0⟩   -- IMG_CAB_DATA00-IMG_CAB_DATA30
  , ⟨0x10000, 1, 0x0, 0x0, 0x864, false, 0x0⟩   -- ANG_STAT
  , ⟨0x10004, 1, 0x0, 0x3, 0x0, false, 0x0⟩   -- ANG_SRC
  , ⟨0x11000, 1, 0x0, 0x0, 0xF7, false, 0x0⟩   -- EVT_STAT
  , ⟨0x11004, 2, 0x4, 0x0, 0x0, true, 0x0⟩   -- EVT_CNT_LATE-EVT_CNT_BURST
  , ⟨0x1100C, 1, 0x0, 0xFF, 0x0, false, 0x0⟩   -- EVT_HOST_IDX
  , ⟨0x11010, 3, 0x4, 0xFFFFFFFF, 0x0, false, 0x0⟩   -- EVT_HOST_T0-EVT_HOST_T2
  , ⟨0x11040, 1, 0x0, 0x0, 0x0, true, 0x0⟩   -- EVT_IRQ_SRC
  , ⟨0x12000, 1, 0x0, 0x0, 0x3F8, false, 0x0⟩   -- LE_STAT
  , ⟨0x12020, 1, 0x0, 0x0, 0xFFFFFFFE, false, 0x0⟩   -- LE_DMISS_LO
  , ⟨0x12024, 1, 0x0, 0x0, 0xFFFFFFFF, false, 0x0⟩   -- LE_DMISS_HI
  , ⟨0x12040, 1, 0x0, 0x3F, 0x0, false, 0x0⟩   -- LE_CTX_SEL
  , ⟨0x12050, 6, 0x4, 0x0, 0x0, true, 0x0⟩   -- LE_CTX_CNT_START-LE_CTX_MAXEXE
  , ⟨0x12084, 4, 0x8, 0x0, 0x0, true, 0x0⟩   -- LE_TRC_DROP0-LE_TRC_DROP3
  , ⟨0x13000, 1, 0x0, 0x0, 0xF, false, 0x0⟩   -- CE_STAT
  , ⟨0x13004, 5, 0x4, 0x0, 0x0, true, 0x0⟩   -- CE_CNT_EVAL-CE_MAXWAIT
  ]

/-- Rows of the register table, part 1. -/
def regRows1 : List RegRow :=
  [ ⟨0x14000, 1, 0x0, 0x0, 0x30, false, 0x0⟩   -- GS_STAT
  , ⟨0x14004, 1, 0x0, 0x3F, 0x0, false, 0x0⟩   -- GS_CTX_SEL
  , ⟨0x1400C, 3, 0x4, 0x0, 0x0, true, 0x0⟩   -- GS_CNT_SWITCH-GS_CNT_BUMP
  , ⟨0x15000, 1, 0x0, 0x0, 0x5, false, 0x0⟩   -- PLB_STAT
  , ⟨0x15004, 1, 0x0, 0x3F, 0x0, false, 0x0⟩   -- PLB_CTX_SEL
  , ⟨0x15010, 1, 0x0, 0x0, 0xFFFFFFFE, false, 0x0⟩   -- PLB_WARN_LO
  , ⟨0x15014, 1, 0x0, 0x0, 0xFFFFFFFF, false, 0x0⟩   -- PLB_WARN_HI
  , ⟨0x15020, 4, 0x4, 0x0, 0x0, true, 0x0⟩   -- PLB_CNT_CMP-PLB_CNT_HOLD
  , ⟨0x16000, 1, 0x0, 0x0, 0xC, false, 0x0⟩   -- SPT_STAT
  , ⟨0x16014, 2, 0x4, 0x0, 0x0, true, 0x0⟩   -- SPT_CNT_LOS_A-SPT_CNT_LOS_P
  , ⟨0x17000, 1, 0x0, 0x0, 0x20, false, 0x0⟩   -- PWM_STAT
  , ⟨0x17010, 1, 0x0, 0x0, 0x0, true, 0x0⟩   -- PWM_PHSTEP_CNT
  , ⟨0x17104, 8, 0x40, 0x0, 0xF078F8, false, 0x0⟩   -- PWM_Gn_STAT
  , ⟨0x1711C, 8, 0x40, 0x0, 0x0, true, 0x0⟩   -- PWM_Gn_CNT_LATE
  , ⟨0x17120, 8, 0x40, 0x0, 0x0, true, 0x0⟩   -- PWM_Gn_CNT_SHOOT
  , ⟨0x17124, 8, 0x40, 0x0, 0x0, true, 0x0⟩   -- PWM_Gn_CNT_MINP
  , ⟨0x17128, 8, 0x40, 0x0, 0x0, true, 0x0⟩   -- PWM_Gn_CNT_QUIET
  , ⟨0x1712C, 8, 0x40, 0x0, 0x0, true, 0x0⟩   -- PWM_Gn_CNT_BOOT
  , ⟨0x18000, 1, 0x0, 0x0, 0x28F, false, 0x0⟩   -- ADC_STAT
  , ⟨0x18014, 3, 0x4, 0x0, 0x0, true, 0x0⟩   -- ADC_CNT_OVR-ADC_CNT_REF
  ]

/-- Rows of the register table, part 2. -/
def regRows2 : List RegRow :=
  [ ⟨0x19000, 1, 0x0, 0x0, 0x15, false, 0x0⟩   -- SDM_STAT
  , ⟨0x19004, 7, 0x4, 0x3F, 0x0, false, 0x0⟩   -- SDM_CH0_CTL-SDM_CH6_CTL
  , ⟨0x19020, 2, 0x4, 0x0, 0x0, true, 0x0⟩   -- SDM_CNT_OVL-SDM_CNT_SETTLE
  , ⟨0x1A000, 1, 0x0, 0x0, 0x2F, false, 0x0⟩   -- CMP_STAT
  , ⟨0x1A010, 1, 0x0, 0x0, 0x3FFFF, false, 0x0⟩   -- CMP_RBFAIL
  , ⟨0x1A014, 3, 0x4, 0x0, 0x0, true, 0x0⟩   -- CMP_CNT_BLANK-CMP_CNT_SHADOW
  , ⟨0x1B000, 1, 0x0, 0x0, 0x3F, false, 0x0⟩   -- TRP_STAT
  , ⟨0x1B00C, 1, 0x0, 0x0, 0xFF, false, 0x0⟩   -- TRP_REFUSED
  , ⟨0x1B060, 2, 0x4, 0x0, 0x0, true, 0x0⟩   -- TRP_CNT_CLR_REF-TRP_CNT_DT_SUPP
  , ⟨0x1C000, 1, 0x0, 0x0, 0x7, false, 0x0⟩   -- GDS_STAT
  , ⟨0x1C020, 3, 0x4, 0x0, 0x0, true, 0x0⟩   -- GDS_CNT_FLT-GDS_CNT_AC
  , ⟨0x1D000, 1, 0x0, 0x0, 0x300, false, 0x0⟩   -- CHP_STAT
  , ⟨0x1D010, 4, 0x4, 0x0, 0x0, true, 0x0⟩   -- CHP_CNT_PULSE-CHP_CNT_DCOV2
  , ⟨0x1E000, 1, 0x0, 0x0, 0xF00, false, 0x0⟩   -- GRD_STAT
  , ⟨0x1E008, 2, 0x4, 0xFFFFFFFF, 0x0, false, 0x0⟩   -- GRD_PSET-GRD_QSET
  , ⟨0x1E010, 1, 0x0, 0xFFFFFFFF, 0x0, false, 0x10000000⟩   -- GRD_ESET
  , ⟨0x1E014, 1, 0x0, 0xFFFFFFFF, 0x0, false, 0x7FFFFFFF⟩   -- GRD_PLIM
  , ⟨0x1E038, 4, 0x4, 0x0, 0x0, true, 0x0⟩   -- GRD_CNT_RIDE-GRD_CNT_GFXFER
  , ⟨0x1F000, 1, 0x0, 0x0, 0x60, false, 0x0⟩   -- ISL_STAT
  , ⟨0x1F010, 3, 0x4, 0x0, 0x0, true, 0x0⟩   -- ISL_CNT_ISLAND-ISL_CNT_HOLD
  ]

/-- Rows of the register table, part 3. -/
def regRows3 : List RegRow :=
  [ ⟨0x20000, 1, 0x0, 0x0, 0x1C3C, false, 0x0⟩   -- MTR_STAT
  , ⟨0x20034, 2, 0x4, 0x0, 0x0, true, 0x0⟩   -- MTR_CNT_BADCYC-MTR_CNT_SAVE
  , ⟨0x21000, 1, 0x0, 0x0, 0x1B, false, 0x0⟩   -- REC_STAT
  , ⟨0x21050, 4, 0x20, 0x0, 0x0, true, 0x0⟩   -- REC_Un_DEADMAX
  , ⟨0x21054, 4, 0x20, 0x0, 0x0, true, 0x0⟩   -- REC_Un_CNT_MISS
  , ⟨0x22000, 1, 0x0, 0x0, 0x3B2, false, 0x0⟩   -- SHF_STAT
  , ⟨0x22008, 1, 0x0, 0xFFFFFFFF, 0x0, false, 0x0⟩   -- SHF_LOC_REQ
  , ⟨0x22010, 1, 0x0, 0xFFFFF, 0x0, false, 0x0⟩   -- SHF_APP_SRC
  , ⟨0x22014, 1, 0x0, 0xFFFFFFFF, 0x0, false, 0x0⟩   -- SHF_APP_LEN
  , ⟨0x22028, 4, 0x4, 0x0, 0x0, true, 0x0⟩   -- SHF_PAUSE_MS-SHF_CNT_BAD
  , ⟨0x23000, 1, 0x0, 0x0, 0x1F80, false, 0x0⟩   -- TIM_STAT
  , ⟨0x23048, 4, 0x4, 0x0, 0x0, true, 0x0⟩   -- TIM_CNT_SWITCH-TIM_CNT_STEP
  , ⟨0x23080, 4, 0x10, 0xFFFFFFFF, 0x0, false, 0x0⟩   -- TIM_TTn_SEC_LO
  , ⟨0x23084, 4, 0x10, 0xFFFFFFFF, 0x0, false, 0x0⟩   -- TIM_TTn_SEC_HI
  , ⟨0x23088, 4, 0x10, 0xFFFFFFFF, 0x0, false, 0x0⟩   -- TIM_TTn_NS
  , ⟨0x2308C, 4, 0x10, 0xFF07, 0x0, false, 0x0⟩   -- TIM_TTn_CTL
  , ⟨0x24000, 1, 0x0, 0x0, 0x3C, false, 0x0⟩   -- ETH_STAT
  , ⟨0x24004, 2, 0x4, 0x7, 0x0, false, 0x4⟩   -- ETH_M0_CTL-ETH_M1_CTL
  , ⟨0x24018, 1, 0x0, 0xFF, 0x0, false, 0x0⟩   -- ETH_RX_RP
  , ⟨0x24040, 8, 0x4, 0x0, 0x0, true, 0x0⟩   -- ETH_CNT_RX0-ETH_CNT_PTP
  ]

/-- Rows of the register table, part 4. -/
def regRows4 : List RegRow :=
  [ ⟨0x25000, 1, 0x0, 0x0, 0x10, false, 0x0⟩   -- MON_STAT
  , ⟨0x2501C, 4, 0x4, 0x0, 0x0, true, 0x0⟩   -- MON_TICK_MAX-MON_CNT_OPTFAIL
  , ⟨0x26000, 1, 0x0, 0x0, 0x1C, false, 0x0⟩   -- SAF_STAT
  , ⟨0x26024, 2, 0x4, 0x0, 0x0, true, 0x0⟩   -- SAF_CNT_REJ-SAF_CNT_TOUT
  , ⟨0x27000, 1, 0x0, 0x0, 0xC2, false, 0x0⟩   -- TRS_STAT
  , ⟨0x27008, 1, 0x0, 0x3F, 0x0, false, 0x0⟩   -- TRS_ENUM
  , ⟨0x27040, 4, 0x4, 0x0, 0x0, true, 0x0⟩   -- TRS_CNT_CRC-TRS_CNT_DROP
  , ⟨0x28000, 1, 0x0, 0x0, 0x1FA0, false, 0x0⟩   -- PAIR_STAT
  , ⟨0x28014, 5, 0x4, 0x0, 0x0, true, 0x0⟩   -- PAIR_CNT_SWITCH-PAIR_CNT_DUAL
  , ⟨0x0, 1, 0x0, 0x0, 0x0, false, 0x9640A1⟩   -- SYS_ID
  , ⟨0x8, 1, 0x0, 0x0, 0x1, false, 0x0⟩   -- SYS_RST
  , ⟨0x1000, 1, 0x0, 0x0, 0x20, false, 0x0⟩   -- CLK_STAT
  , ⟨0x1010, 4, 0x4, 0x0, 0x0, true, 0x0⟩   -- CLK_CNT_HOP-CLK_CNT_ETHLOSS
  , ⟨0x2A000, 1, 0x0, 0x0, 0x42, false, 0x0⟩   -- HU_STAT
  , ⟨0x2A01C, 2, 0x4, 0x0, 0x0, true, 0x0⟩   -- HU_CNT_PF-HU_CNT_ABORT
  , ⟨0x2B000, 1, 0x0, 0x0, 0x1C, false, 0x0⟩   -- LIF_STAT
  , ⟨0x2B00C, 1, 0x0, 0x0, 0xFF, false, 0x0⟩   -- LIF_SAT
  , ⟨0x2B014, 1, 0x0, 0x0, 0x0, true, 0x0⟩   -- LIF_CNT_RFOVF
  , ⟨0x2B018, 1, 0x0, 0x0, 0x100, false, 0x0⟩   -- LIF_SPSTAT
  , ⟨0x2B01C, 1, 0x0, 0x0, 0x0, true, 0x0⟩   -- LIF_SPLOG
  ]

/-- Rows of the register table, part 5. -/
def regRows5 : List RegRow :=
  [ ⟨0x2B050, 8, 0x20, 0x0, 0x0, true, 0x0⟩   -- LIF_Pn_TJMAX
  , ⟨0x2B054, 8, 0x20, 0x0, 0x0, true, 0x0⟩   -- LIF_Pn_GAP_MS
  , ⟨0x2C000, 1, 0x0, 0x0, 0xC, false, 0x0⟩   -- THM_STAT
  , ⟨0x2C010, 2, 0x4, 0x0, 0x0, true, 0x0⟩   -- THM_TMAX-THM_CNT_PAUSE_MS
  , ⟨0x2D000, 1, 0x0, 0x0, 0x3, false, 0x0⟩   -- FAN_STAT
  , ⟨0x2D044, 2, 0x20, 0xFFFFFFFF, 0x0, false, 0x0⟩   -- FAN_Cn_SET
  , ⟨0x2D054, 2, 0x20, 0x0, 0x0, true, 0x0⟩   -- FAN_Cn_CNT_STALL
  , ⟨0x2D058, 2, 0x20, 0x0, 0x0, true, 0x0⟩   -- FAN_Cn_CNT_START
  , ⟨0x2E000, 1, 0x0, 0x0, 0xF, false, 0x0⟩   -- HST_STAT
  , ⟨0x2E004, 1, 0x0, 0x0, 0xFFE, false, 0x0⟩   -- HST_IRQ_SRC
  , ⟨0x2E008, 2, 0x4, 0xFFF, 0x0, false, 0x0⟩   -- HST_IRQ_MASK_A-HST_IRQ_MASK_B
  , ⟨0x2E014, 5, 0x4, 0x0, 0x0, true, 0x0⟩   -- HST_CNT_CRC-HST_CNT_LATE
  ]

/-- The register table. -/
def regTable : List RegRow :=
  regRows0 ++ regRows1 ++ regRows2 ++ regRows3 ++ regRows4 ++ regRows5

/-- True when a row covers an address. -/
def RegRow.covers (r : RegRow) (a : Nat) : Bool :=
  if r.count = 1 then a == r.addr
  else decide (r.addr ≤ a) && decide ((a - r.addr) % r.stride = 0) && decide ((a - r.addr) / r.stride < r.count)

/-- The row of an address; a register without one takes no write and reads 0 after reset. -/
def regRow (a : Nat) : RegRow := (regTable.find? (fun r => r.covers a)).getD ⟨a, 1, 0, 0, 0, false, 0⟩

/-- The word of a register after reset: what an unlisted register word reads as; the
read-only bits of a status register are no part of the stored word. -/
def regReset (a : Nat) : Word := word (regRow a).reset

end Sys2Proof.Machine
end

