-- ==== Sys2Proof/Machine/BlockTypes.lean ====
section
/-!
DEFINITION. The state of the blocks around the Loop Engine, one structure a block, as plain data (chapters 2, 3 and 7
to 20). A block's registers that software reads and writes as words stand in the register store of State; the
structures hold what the blocks keep besides.
-/

namespace Sys2Proof.Machine

/-! ### Power stage (chapters 7 and 9) -/

/-- Group states of Table 7.7; the code is the constructor's number. -/
inductive GSt where
  | stopped | armed | running | frozen | tripped | safe
  deriving DecidableEq, Repr

/-- How an output is driven: at its SAFE_LVL, at its off level or at its on level. -/
inductive Drive where
  | safeLvl | off | on
  deriving DecidableEq, Repr

/-- The level of a ball. -/
inductive Lvl where
  | z | low | high
  deriving DecidableEq, Repr

/-- One switching of one output, at a position in sixteenths of a count from the period's start. -/
structure Edge where
  pos : Int
  out : Nat
  on : Bool
  deriving DecidableEq, Repr

/-- A change in a leg's waveform: at a position in sixteenths, the pairs that take a value, or FREE. -/
structure WaveEv where
  pos : Int
  pairs : List (Nat × Bool)
  free : Bool
  deriving DecidableEq, Repr

/-- A pair whose run spans a reload under a decision already taken (R171): the pair, its bit and the position in the
next period up to which the decision holds. -/
structure Held where
  pair : Nat
  bit : Bool
  until16 : Int
  deriving DecidableEq, Repr

/-- One run of a pair: from a position, at a value; none while the leg is FREE. -/
abbrev Run := Int × Option Bool

/-- A pair through the period in progress: its value at the start and the runs that follow. -/
structure PairRuns where
  pair : Nat
  start : Option Bool
  runs : List Run
  deriving DecidableEq, Repr

/-- One leg: the waveform in progress, and its leg-local and gate-driver state. A leg state is the set of complementary
pairs whose upper switch conducts (a bit mask), or none for FREE. -/
structure Leg where
  now : Option Nat := none             -- the leg state in force
  edges : List Edge := []              -- output switchings still to come in the period
  tail : List WaveEv := []             -- changes that the leg's PHASE moved into the next period
  held : List Held := []
  carry : SMap Int := []                -- width that the quiet window carried over, per pair (R170)
  topRun : Nat := 0                    -- consecutive periods at the highest level (R173)
  endState : Option Nat := none        -- the state at count P − 1 of the period in progress (R176)
  badCode : Bool := false              -- the code gave the leg a reserved level (R169)
  runs : List PairRuns := []           -- the period in progress, pair by pair
  -- gate-driver fault input (R222)
  pin : Bool := false                  -- the FLT_N pin is low
  pinAt : Nat := 0                     -- SYSCLK time of its last change
  filtered : Bool := false             -- the filtered pin is asserted
  blanking : Bool := false             -- a blanking window is open
  ignored : Bool := false              -- an assertion began inside the window
  -- leg-local response (R223 to R225)
  freed : Bool := false                -- held FREE by a leg-local response
  latched : Bool := false
  tries : Nat := 0
  clearDue : Bool := false             -- an automatic clear is pending
  ready : Bool := false                -- it modulates again from the next reload
  respAt : Option Nat := none          -- LE_CYC of its last response
  deriving DecidableEq, Repr

/-- One leg group. -/
structure Group where
  st : GSt := .stopped
  cause : Nat := 0
  stage : SMap Word := []              -- the staging block being written
  sealedStage : SMap Word := []        -- the staging block at the last seal
  newSeal : Option (List Word) := none -- the newest seal not yet applied
  lateSeal : Option (List Word) := none    -- the newest one that landed inside the reload window (R175)
  block : Option (List Word) := none   -- the block in force
  cmtReq : Bool := false
  stopAt : Option Nat := none          -- SYSCLK time of the last STOP (R181)
  tripAt : Option Nat := none          -- SYSCLK time of the trip that the group stands under (R236)
  tripWas : List (Nat × Drive) := []   -- its outputs just before that trip
  fcar : Nat := 0                      -- FCAR in force, mHz
  per : Nat := 0                       -- P
  freePer : Nat := 0                   -- the last P begun outside HOLD (R167)
  pidx : Nat := 0
  pidxSnap : Word := 0
  cntU : Nat := 0                      -- carrier count in units of 1/2,000,000 count
  rot : Nat := 0                       -- rotation of FC legs (R169)
  shoot : Nat := 0                     -- SHOOT_BLOCK count of the period
  resume : Bool := false               -- the period in which the group resumed from a hop (R180)
  half : Bool := false
  lockFree : Bool := false
  lockLag : Bool := false
  act : Nat := 0                       -- the strongest action that acts on it: 0 none, 1 SAFE, 2 ORDERED, 3 SAFE + DCK_OPEN
  seqRun : Bool := false               -- an ordered sequence waits for its delay (R217)
  latches : List (Nat × Nat) := []     -- latched sources with their actions (R219)
  pulses : List (Nat × Nat) := []      -- non-latching sources that tripped it and are still active
  evPin : Nat := 0                     -- event channels fired in this period (bit n)
  crossing : Bool := false             -- the seal in lateSeal lands after the window, in the next period (R24)
  marked : Bool := false               -- an alignment mark has come since it was armed (R178)
  armedAt : Nat := 0                   -- model time at which it was armed
  startAngle : Int := 0                -- where an ANGLE group starts, in 1 / NCAR of an angle unit
  tripHop : Bool := false              -- tripped while FROZEN: TRIPPED when the hop ends (R181)
  deriving DecidableEq, Repr

/-- The PWM block. -/
structure Pwm where
  group : SMap Group := []
  leg : SMap Leg := []
  out : SMap Drive := []
  alignErr : Int := 0                  -- femtoseconds
  alignAct : Bool := false
  alignOk : Bool := false
  marksMissed : Nat := 0
  markPidx : Nat := 0                  -- period index of the last mark
  edgeAt : SMap Nat := []              -- SYSCLK time + 1 of an output's last edge at its ball; 0 none
  deriving DecidableEq, Repr

/-- An off-state test in progress (R226): its leg, V0 once converted, and whether the whole set is being tested. -/
structure DiagTest where
  leg : Nat
  v0 : Option Int := none
  deriving DecidableEq, Repr

/-- The trip matrix and gate-drive supervision. -/
structure Trp where
  active : BitVec 128 := 0             -- active sources by code (Table 9.1)
  dckOpen : Bool := false
  dcov3 : Bool := true                 -- the last-resort comparator
  test : Option DiagTest := none
  testQueue : List Nat := []
  diagLast : Nat := 0                  -- GDS_DIAG_LEG
  diagV : Nat := 0                     -- GDS_DIAG_V
  diagFail : Nat := 0                  -- GDS_DIAGFAIL mask
  deriving DecidableEq, Repr

/-- Chopper fault kinds (Table 9.13). -/
inductive ChpKind where
  | none | openCircuit | shortCurrent | shortDroop
  deriving DecidableEq, Repr

/-- The dump chopper (R230 to R233). -/
structure Chp where
  active : Bool := false
  duty : Nat := 0                      -- Q1.31
  invalidPeriods : Nat := 0
  kind : ChpKind := .none
  openRun : Nat := 0
  shortRun : Nat := 0
  qualified : Bool := false            -- a qualifying sample fell in the period
  lastV : Int := 0
  lastI : Int := 0
  pulseFrom : Int := 0                 -- the pulse of the period, in sixteenths
  pulseTo : Int := 0
  droop : List (Nat × Int) := []       -- V readings of the droop window with their LE_CYC, newest first
  dcov2 : Option Nat := none           -- index of the next group of the DC_OV2 sequence
  deriving DecidableEq, Repr

/-! ### Image and Cabinet (chapter 2) -/

/-- One section of a staged image: type, group mask, generation and payload. -/
structure StagedSec where
  type : Nat
  mask : Nat
  gen : Nat
  payload : List Byte
  deriving DecidableEq, Repr

/-- A staged image (R37): its generation, PARTIAL, the expected safety check value, its sections, and where its code and
banks will go. -/
structure Staged where
  gen : Nat
  part : Bool
  safetyCheck : Word
  secs : List StagedSec
  codeAt : Nat := 0                    -- LPM index of its code block
  coefAt : Nat := 0                    -- LCM word index of its first bank
  deriving DecidableEq, Repr

/-- IMG (R30 to R47). -/
structure Img where
  staged : Option Staged := none
  loading : Option Nat := none         -- the address that a LOAD in progress reads
  pend : Option Nat := none            -- the angle word of an armed commit
  structPend : Nat := 0                -- groups of the structural sections of a pending commit
  gen : Nat := 0                       -- IMG_GEN
  secGen : SMap Nat := []              -- generation of each section in force
  safetyCheck : Word := 0              -- SAFETY_CHECK of the image in force
  copy : Nat := 0                      -- the copy loaded at boot
  bootDue : Bool := false              -- the copy loaded waits for its commit
  noImage : Bool := false
  aRes : Nat := 0
  bRes : Nat := 0
  rej : Word := 0                      -- IMG_REJ
  notes : List Word := []              -- IMG_NOTE
  burning : Bool := false              -- a burn is in progress
  burned : Bool := false
  verifyFail : Bool := false
  cabRefusal : Nat := 0
  deriving DecidableEq, Repr

/-! ### Clocks, reset and start-up (chapter 16) -/

/-- CLK (R381 to R383): the PTC operating point in force, the locks and what is learned. -/
structure Clk where
  t : Nat := 0                         -- SYSCLK time since reset, in 2.5 ns
  op : Nat := 0
  ndiv : Nat := 32
  rdiv : Nat := 1
  sysLock : Bool := false
  ptcLock : Bool := false
  ethLock : Bool := false
  refOk : Bool := false
  fallback : Bool := true
  learning : Bool := false
  learned : List (Nat × Int) := []     -- operating points with a stored band code and its temperature, in 1/256 °C
  hopLast : Nat := 0
  hopTo : Option Nat := none           -- the operating point of a hop in progress
  search : Nat := 0                    -- PLLs whose band search is in progress: 0 SYS, 1 PTC, 2 ETH
  deriving DecidableEq, Repr

/-! ### Converters and comparators (chapter 8) -/

/-- One physical SAR converter, A to E as 0 to 4. -/
structure PhysConv where
  prevRange : Nat := 0                 -- range of its last sequence conversion (R190)
  failed : Bool := false
  refFails : Nat := 0                  -- consecutive failing checks
  calibrated : Bool := false           -- coefficients have taken effect
  swapMark : Bool := false             -- its next conversion is the first after a swap or restore
  deriving DecidableEq, Repr

/-- A sequence in progress on a logical converter. -/
structure SeqRun where
  seq : Nat
  slot : Nat                           -- the slot being converted
  inj : Bool
  tag : Nat                            -- the start that it belongs to (R194)
  forced : Bool := false               -- a lead-in runs whatever SETTLE (R190)
  since : Nat := 0                     -- SYSCLK time at which the conversion in progress began
  deriving DecidableEq, Repr

/-- One logical SAR converter, A to D as 0 to 3 (Table 8.3). -/
structure Conv where
  run : Option SeqRun := none
  suspended : Option SeqRun := none    -- a regular sequence that an injected one interrupted
  heldReg : Option (Nat × Nat) := none -- a held regular start: sequence and tag
  heldInj : Option (Nat × Nat) := none
  oldPhys : Option Nat := none         -- the converter that completes the conversion in progress across a swap
  deriving DecidableEq, Repr

/-- One cross-check pair (R194). -/
structure XPair where
  fails : Nat := 0
  passes : Nat := 0
  deriving DecidableEq, Repr

/-- The SAR converters. -/
structure Adc where
  phys : SMap PhysConv := []
  conv : SMap Conv := []
  map : SMap Nat := []                 -- logical converter to physical; unlisted: its own
  results : SMap Word := []            -- result words, 64 c + index
  tags : SMap Nat := []                -- the start that wrote each word
  starts : Nat := 0                    -- start actions so far
  trig : SMap Nat := []                -- converters that have completed a context's ADC_TRIG sequence
  last : SMap Word := []               -- by channel code, the result word written last
  xpair : SMap XPair := []
  armed : Option (Nat × Bool) := none  -- a swap (false) or restore (true) waiting for angle zero
  vdda : Option Int := none            -- VDDA / 2 code of the last reference check
  calRun : Bool := false               -- calibration runs (R195)
  deriving DecidableEq, Repr

/-- An interpolated stream value (R202): the value, the reason of the latest invalid output among the four (0 where all
are valid), OVR, and the path of the centre output. -/
structure Resample where
  value : Int := 0
  reason : Nat := 1
  ovr : Bool := false
  hg : Bool := false
  deriving DecidableEq, Repr

/-- One metering output of a sigma-delta channel: its SYSCLK time, value, REASON, OVR and HG. -/
structure SdmRec where
  time : Nat
  value : Int
  reason : Nat
  ovr : Bool
  hg : Bool
  deriving DecidableEq, Repr

/-- The tracking filter of a channel (R199): its newest output, when it came, and how many outputs are still invalid
after a restart, a return of the clock or an overload. -/
structure Tracking where
  value : Int := 0
  time : Option Nat := none
  valid : Bool := false
  hold : Nat := 3
  deriving DecidableEq, Repr

/-- One sigma-delta channel (R198 to R204). -/
structure SdmCh where
  ctl : Word := 0                      -- settings in force, as SDM_CHk_CTL
  ctlNew : Option Word := none         -- settings that the next output applies
  phase : Int := 0
  hold : Nat := 0                      -- outputs still invalid after a restart or a return of the clock
  ovlLo : Nat := 0                     -- outputs whose window still holds an overload of the gain-1 path, or of the one that runs
  ovlHi : Nat := 0                     -- the same of the gain-16 path
  trk : Tracking := {}                 -- the tracking filter, channels 0 to 3
  holdReason : Nat := 0
  count : Nat := 0                     -- outputs modulo 256
  strobes : Nat := 0
  w0 : Word := 0x20000000              -- words +0 to +3
  w1 : Word := 0
  w2 : Word := 0x20000000
  w3 : Word := 0
  hist : List SdmRec := []             -- the latest outputs, newest first (R202, R239)
  deriving DecidableEq, Repr

/-- The sigma-delta channels. -/
structure Sdm where
  ch : SMap SdmCh := []
  clkLost : Bool := false
  deriving DecidableEq, Repr

/-- One logical comparator (R205 to R208). -/
structure Cmp where
  raw : Bool := false
  rawAt : Nat := 0                     -- SYSCLK time of its last change
  out : Bool := false                  -- the filtered output
  undet : Bool := true
  startHeld : Bool := false
  phys : Option Nat := none            -- a spare that serves it; none: its own
  dead : Bool := false                 -- failed with no spare (R210)
  deriving DecidableEq, Repr

/-- One spare comparator's shadow (R210): its target, the disagreement under measurement and the inconclusive tries. -/
structure Shadow where
  target : Option Nat := none
  measuring : Bool := false
  tries : Nat := 0
  deriving DecidableEq, Repr

/-- The comparators. -/
structure Cmps where
  cmp : SMap Cmp := []
  shadow : SMap Shadow := []           -- by physical comparator
  failed : Nat := 0                    -- physical comparators marked failed
  deriving DecidableEq, Repr

/-! ### Grid angle and event scheduler (chapter 3) -/

/-- ANG (R48 to R59). Angles are kept in units of 2^-16 turn32, so that the scheduling accumulator has its 16 fraction
bits (R52): 2^48 units a turn, 2^96 before the cycle count wraps. Frequencies are Hz × 2^24. -/
structure Ang where
  live : Bool := false                 -- the timebase runs: Tier 1 or above (R58)
  sch : Nat := 0                       -- scheduling angle
  meas : Nat := 0                      -- measured angle, its turn fraction
  gen : Nat := 0                       -- generated angle
  mas : Nat := 0                       -- the Trestle master's corrected scheduling angle
  masMeas : Nat := 0                   -- its measured angle
  freq : Nat := 0                      -- ANG_FREQ
  rocof : Word := 0
  vpos : Nat := 0
  vneg : Nat := 0
  thNeg : Word := 0                    -- negative-sequence voltage angle
  genFreq : Nat := 0
  masFreq : Nat := 0
  masOk : Bool := false                -- angle words arrive and are not missed
  masAt : Nat := 0                     -- SYSCLK time of the last angle word
  masFlags : Nat := 0                  -- the master's flags in it (R56)
  src : Nat := 3                       -- source in force: 0 LOCAL, 1 GEN, 2 TRS, 3 coasting
  valid : Bool := false
  pass : Nat := 0                      -- consecutive passing updates
  req : Nat := 0                       -- the REQ that the last update took (R54)
  known : Bool := false                -- a valid source has appeared (R58)
  lastFreq : Nat := 0                  -- the frequency of the last valid update of the source in force (R57)
  seen : Bool := false                 -- tracking has been valid (R59)
  validAt : Nat := 0                   -- scheduling angle at which it became valid last
  tracked : Nat := 0                   -- the frequency tracked at the last update with channels
  trkTh : Nat := 0                     -- the angle tracked there, advanced since, valid or not
  loop : Nat := 0                      -- what the tracking loop holds between updates (R48)
  hist : List (Nat × Nat × Nat) := []  -- valid updates in the ROCOF window, newest first: scheduling angle, SYSCLK time, frequency (R50)
  inRange : Bool := false              -- the tracked frequency lay in 40 to 72 Hz
  vlow : Bool := false
  sarFb : Bool := false
  fnom : Nat := 0x32000000             -- FNOM while no SCHED section is in force (R59)
  above : Bool := false                -- |e| exceeds JTHR
  jump : Int := 0                      -- ANG_JUMP
  coast : Nat := 0                     -- updates in the current or last coast
  updAt : Nat := 0                     -- SYSCLK time of the last update
  snapMeas : Nat := 0                  -- cycle counts snapshot by the _FR reads (R71)
  snapSch : Nat := 0
  snapGen : Nat := 0
  zeroWall : Nat := 0                  -- wall time (ns) of the last zero of the scheduling angle
  deriving DecidableEq, Repr

/-- One schedule entry's arming (R64): its due time in its timebase, the firings left (0 unlimited), whether ARM_ABS
armed it, and whether a wall-time step crossed it (R68). -/
structure EvtEntry where
  armed : Bool := false
  due : Nat := 0
  left : Nat := 0
  absolute : Bool := false
  crossed : Bool := false
  deriving DecidableEq, Repr

/-- EVT. -/
structure Evt where
  entry : SMap EvtEntry := []
  deferred : List (Nat × Nat) := []    -- entries whose dispatch waits, in order, with the due times they fired on (R67)
  irqs : List (Nat × Nat) := []        -- HOST_IRQ queue: code, entry (R70)
  lines : Nat := 0                     -- the lines that its entries assert (bit k)
  deriving DecidableEq, Repr

/-! ### Grid support and islanding detection (chapter 10) -/

/-- One complete grid cycle of the correlation window (R253): the chip applied (true for +1), and the means of ANG_VPOS
and of the own reactive current, in 2^-60 pu. -/
structure IslCycle where
  chip : Bool
  v : Int
  i : Int
  deriving DecidableEq, Repr

/-- GRD (R237 to R249, R259, R260). Values in pu are pu32 unless a line says otherwise. -/
structure Grd where
  st : Nat := 0                        -- Table 10.2
  rt : Bool := false
  rtBlocked : Bool := false            -- RT_MAX ended the window; no new one before NORMAL
  gf : Bool := false                   -- MODE
  xfer : Bool := false
  phNew : Bool := false
  delta : Word := 0                    -- Δ of R248
  fromIsland : Bool := false           -- an island decision requested the transfer
  waitGfl : Bool := false              -- a transfer back waits (R249)
  limiting : Bool := false
  reconOk : Bool := false
  reconMs : Nat := 0
  cause : Nat := 0
  vmin : Int := 0
  vmax : Int := 0
  tv : Option Nat := none              -- ms since the start; none when stopped
  tf : Option Nat := none
  p : Int := 0
  q : Int := 0
  iq : Int := 0
  i2 : Int := 0
  thI2 : Word := 0
  idMax : Int := 0
  qvv : Int := 0
  pfw : Int := 2147483647
  ramp : Nat := 214748364700000        -- the ramp in 10^-5 pu32
  w : Int := 0                         -- ω in 2^-64 pu
  e : Int := 0
  peak : Int := 0                      -- peak phase current
  deriving DecidableEq, Repr

/-- ISL (R250 to R258). -/
structure Isl where
  island : Bool := false
  degraded : Bool := false
  tail : Bool := false                 -- THOLD runs
  passive : Nat := 0                   -- conditions present, bits as ISL_PASSIVE
  since : SMap Nat := []               -- ms for which each window's condition has held
  decided : Nat := 0                   -- sources that have decided while their condition lasts: the windows, 6 the perturbation
  inj : Bool := false
  chipIdx : Nat := 0
  chipPos : Bool := false
  window : List IslCycle := []         -- newest first
  sumV : Int := 0                      -- the cycle in progress
  sumI : Int := 0
  nSum : Nat := 0
  zValid : Bool := false
  z : Int := 0
  zRun : Nat := 0                      -- consecutive valid updates with Z ≥ ZISL
  thFs : Int := 0
  deriving DecidableEq, Repr

/-! ### Time and network (chapter 13) -/

/-- A candidate master of a slot (R306): its port identity, the SYSCLK time of its last Announce and the interval it
names, whether it has qualified, what the dataset comparison ranks (priority1, clockClass, accuracy, variance,
priority2, grandmaster identity), stepsRemoved and the UTC fields of TIM_UTC. -/
structure PtpMaster where
  port : Nat
  lastAt : Nat
  interval : Nat
  qualified : Bool
  rank : List Nat
  steps : Nat
  utc : Word
  deriving DecidableEq, Repr

/-- One slot (R302, R305 to R307). Offsets and corrections are in 2^-16 ns, stamps in ns. -/
structure PtpSlot where
  cands : List PtpMaster := []
  best : Option Nat := none            -- port identity of the master followed
  fault : Bool := false
  offset : Int := 0
  pend : Option (Nat × Nat × Int) := none    -- a two-step Sync: sequence, t2 and its correction
  qualFrom : Option Nat := none        -- SYSCLK time since which a qualified master is held
  deriving DecidableEq, Repr

/-- Peer delay measurement on one MAC (R305). -/
structure PeerDelay where
  seq : Nat := 0
  t1 : Option Nat := none              -- stamp of the request in progress
  resp : Option (Nat × Nat × Int) := none    -- its Pdelay_Resp: t2, t4 and correction
  last : Option (Int × Nat) := none    -- t3 and t4 of the last exchange, t3 in 2^-16 ns
  delays : List Int := []              -- the last 8, newest first, in 2^-16 ns
  deriving DecidableEq, Repr

/-- TIM. Wall time is kept in units of 2^-32 ns since second 0, ADJ and the servo's frequency term in 1/256 ppb. -/
structure Tim where
  live : Bool := false                 -- wall time runs: Tier 1 or above (R299)
  wall : Nat := 0
  valid : Bool := false                -- I/O word 0x383 bit 0
  precise : Bool := false              -- the estimated error is at or below PREC_ERR
  domain : Nat := 0                    -- PTP domain in force
  st : Nat := 0                        -- Table 13.1
  src : Nat := 3                       -- 0, 1 slots, 2 TRESTLE, 3 none
  adj : Int := 0
  freq : Int := 0
  good : Nat := 0                      -- consecutive offsets of at most LOCK_THR
  outRun : Nat := 0
  slot : SMap PtpSlot := []
  peer : SMap PeerDelay := []          -- by MAC
  trsOk : Bool := false                -- the ring's time master is followed
  trsFrom : Option Nat := none         -- SYSCLK time since which it is
  trsOff : Int := 0
  trsErr : Nat := 0
  lastOff : Int := 0                   -- TIM_OFFSET, in 2^-16 ns
  hist : List (Nat × Int) := []        -- ADJ in LOCKED: from which SYSCLK time, newest first
  bins : SMap (Int × Nat) := []        -- learned ADJ and SYSCLK time in lock, by temperature bin
  learnAt : Nat := 0
  err0 : Nat := 0                      -- estimated error on entry to HOLDOVER, ns × 2^150
  base : Int := 0                      -- mean ADJ that HOLDOVER holds
  tEntry : Int := 0                    -- die temperature on entry, 1/256 °C
  holdS : Nat := 0
  rcS : Nat := 0                       -- of them, seconds without the reference (Table 16.3)
  snapSec : Nat := 0                   -- seconds snapshot by TIM_NS (R300)
  utc : Word := 0
  ttArmed : Nat := 0                   -- armed time triggers
  ttCrossed : Nat := 0                 -- those that a step passed
  deriving DecidableEq, Repr

/-- A frame that a MAC is sending: a PTP message, a safety frame, or that of a queue's descriptor at an address, with its
RESULT. -/
inductive TxJob where
  | ptp (bytes : List Byte)
  | safety (bytes : List Byte)
  | queue (q : Nat) (late : Bool) (desc : Nat)
  deriving DecidableEq, Repr

/-- One MAC: its link, the frame being sent with its launch stamp, and the frames of TIM and the Monitor that wait. -/
structure Mac where
  link : Nat := 0                      -- ETH_Mx_LINK
  tx : Option (TxJob × Nat) := none
  ptp : List (List Byte) := []
  safety : List (List Byte) := []
  deriving DecidableEq, Repr

/-- One transmit queue: its configuration in force, its next descriptor, whether the doorbell announced more, and the
launch times that ETH_LAUNCH actions have given (R314, R315). -/
structure TxQueue where
  base : Nat := 0
  n : Nat := 0
  cfg : Nat := 0
  rp : Nat := 0
  rung : Bool := false
  launches : List Nat := []
  deriving DecidableEq, Repr

/-- ETH. -/
structure Eth where
  mac : SMap Mac := []
  queue : SMap TxQueue := []
  rxWp : Nat := 0
  deriving DecidableEq, Repr

/-! ### Metering (chapter 11) -/

/-- A strobe whose resamples are still to come: its SYSCLK time (2.5 ns), wall time (ns), scheduling and measured angle
words, the scaling in force at the strobe, whether MTR has scaling, whether the power-fail warning had stopped it, and
whether its samples belong to the METER section now in force. -/
structure StrobeMark where
  t : Nat
  wall : Nat
  sch : Nat
  meas : Nat
  kch : List Word
  rated : Word
  runs : Bool
  halted : Bool
  fresh : Bool
  deriving DecidableEq, Repr

/-- What stood at a reporting instant of a synchrophasor (R271): whole second and number, time valid, ANG_STAT.VALID,
GRD_STAT.RT, ANG_FREQ and ANG_ROCOF. -/
structure PmuMark where
  sec : Nat
  m : Nat
  timeValid : Bool
  angValid : Bool
  rt : Bool
  freq : Nat
  rocof : Word
  deriving DecidableEq, Repr

/-- A stream-0 sample as the synchrophasors use it (R271): the wall time of its strobe edge, whether every resample was
valid, and the channels in volts or amperes over 2^149. -/
structure PmuSample where
  wall : Nat
  ok : Bool
  x : List Int
  deriving DecidableEq, Repr

/-- A save in progress (R274): the slot, the record's bytes 0x000 to 0x1FB, whether it is the emergency record, and
whether its slot has failed once. -/
structure SaveJob where
  slot : Nat
  record : List Byte
  emergency : Bool
  failed : Bool
  deriving DecidableEq, Repr

/-- One complete cycle's apparent energy per phase, and its duration. -/
structure CycleS where
  inc : List Int
  dt : Nat
  deriving DecidableEq, Repr

/-- MTR (R262 to R281). Energies are in 2^-24 µWh; voltages and currents are counts × KCH in 2^-149; SYSCLK times are
in 2.5 ns. -/
structure Mtr where
  scale : Option (List Word × Word) := none    -- KCH0 to KCH6 and P_RATED in force
  marks : List StrobeMark := []
  last : Option Nat := none            -- SYSCLK time of the last strobe processed
  hist : List (List (Option Int)) := []    -- phase voltages of the last 64 strobes, newest first
  prev : List Int := []                -- the increments of the last non-gap strobe: p a, b, c and q a, b, c
  forceGap : Bool := false             -- the next strobe ends a halt (R276)
  frozen : Bool := false               -- stopped by the power-fail warning
  acc : SMap Nat := []                 -- 0 to 27 the accumulators, 28 MTR_UNC; modulo 2^88
  gapT : Nat := 0                      -- gap time
  uncalT : Nat := 0                    -- uncalibrated time
  cyc : Option Nat := none             -- the cycle in progress
  cycN : Nat := 0
  cycOk : Bool := false
  cycT : Nat := 0
  cycP : Int := 0                      -- total active energy of the cycle
  cycX : List (List Int) := []         -- its samples, newest first
  lastS : Option CycleS := none
  winN : Nat := 0                      -- complete cycles of the aggregation window
  winAll : Nat := 0                    -- its cycles, complete or not
  winSq : List Nat := []               -- sums over the cycles, per channel, of the sums of squares
  winThd : List (Option Nat) := []     -- sums of THD², in 2^-96
  winMag : List Nat := []              -- sums of |X|², channel by channel, h = 1 to 63, in 2^-426
  winSum : List (Int × Int) := []      -- sums of X
  winP : Int := 0
  winS : Int := 0
  winPaused : Bool := false            -- the window began during a pause of THM
  snap : SMap Nat := []                -- the snapshot: 0 to 28 as `acc` in whole µWh, 29 seconds
  snapped : Bool := false
  snapUnit : Nat := 0                  -- DUNIT at the snapshot
  unit : Nat := 0                      -- DUNIT in force
  hi : SMap Word := []                 -- copies of the _HI halves, by the same numbers
  save : Option SaveJob := none
  newest : Option Nat := none          -- slot of the newest valid record
  bad : Nat := 0                       -- bad slots
  restore : Nat := 0
  nvmEmpty : Bool := false
  pmuWp : Nat := 0
  pmuMarks : List PmuMark := []        -- reporting instants whose report is still to come, oldest first
  pmuX : List PmuSample := []          -- the latest samples, newest first
  harmBuf : Bool := false
  harmN : Nat := 0
  deriving DecidableEq, Repr

/-! ### Recorder and Shelf (chapter 12) -/

/-- What one channel's raw values come to (R282, R283): how many valid ones, the last, their sum, sum of squares, least
and greatest in 2^-149, whether one was no number, and whether one was invalid. -/
structure ChanAcc where
  n : Nat := 0
  last : Word := 0
  sum : Int := 0
  sumSq : Nat := 0
  low : Int := 0
  high : Int := 0
  bad : Bool := false
  invalid : Bool := false
  deriving DecidableEq, Repr

/-- One sample: the SYSCLK time of its clock event, its channel words and state word, its raw values for the trailer, its
instants in the three timebases and the carrier's period index. -/
structure RecSample where
  time : Nat
  words : List Word
  state : BitVec 128
  accs : List ChanAcc
  wall : Nat
  sch : Nat
  meas : Nat
  pidx : Nat
  deriving DecidableEq, Repr

/-- A Drawer in capture: its trigger, its instant, the retriggers, the flags of the header and the POST samples asked. -/
structure Capture where
  kind : Nat
  index : Nat
  wall : Nat
  time : Nat                            -- its instant in SYSCLK time
  angle : Option Nat := none           -- the angle of the trigger sample that a cross-trigger asks for
  retrig : Nat := 0
  want : Nat
  extended : Bool := false
  partialPre : Bool := false
  ring : Bool := false
  late : Bool := false
  origin : Nat := 0
  flags : Nat := 0                     -- FLAGS [2:0] as they stand at index 0
  angSrc : Nat := 0
  deriving DecidableEq, Repr

/-- One recorder unit. -/
structure RecUnit where
  st : Nat := 0                        -- 0 disarmed, 1 refilling, 2 armed, 3 capturing, 4 waiting for a buffer
  entry : List Byte := []              -- its RECORDER entry in force
  base : Nat := 0                      -- where its buffers begin
  accs : List ChanAcc := []            -- raw values since the last sample
  raws : Nat := 0                      -- sample-clock events since the last sample
  evHeld : Nat := 0                    -- REC_TRIG pulses held until the next sample
  hits : Nat := 0                      -- sources, as in TRIGSEL, that have fired and not yet triggered
  patWas : Nat := 0                    -- pattern units that held on the last edge
  anaOff : Nat := 0                    -- analog units that have fired and not yet re-armed
  anaPrev : List (Option Int) := []    -- the last raw value of each analog unit's channel
  clkAt : Nat := 0                     -- the last clock event: SYSCLK time, wall time, scheduling and measured angle
  clkWall : Nat := 0
  clkSch : Nat := 0
  clkMeas : Nat := 0
  pre : List RecSample := []           -- newest first
  post : List RecSample := []          -- newest first
  cap : Option Capture := none
  buf : Nat := 0                       -- the current buffer
  full : Nat := 0                      -- buffers that await the Shelf
  capIdx : Nat := 0
  stored : Nat := 0
  missed : Nat := 0
  deadFrom : Option Nat := none        -- SYSCLK time of the last seal
  dead : Nat := 0                      -- last dead time, µs
  deriving DecidableEq, Repr

/-- A sealed Drawer on its way to the Shelf. -/
structure Drawer where
  unit : Nat
  buf : Nat
  addr : Nat
  len : Nat
  capIdx : Nat
  deriving DecidableEq, Repr

/-- REC. -/
structure Rec where
  unit : SMap RecUnit := []
  stopped : Bool := false              -- sampling stopped by the power-fail warning
  lost : List Nat := []                -- Drawers of each unit lost at the last power-down
  done : List Drawer := []             -- Shelf writes completed, their buffers still held
  marks : List StrobeMark := []        -- stream-1 strobes whose resamples are still to come
  deriving DecidableEq, Repr

/-- A record on the Shelf: its stream, sequence and start, and the sectors that hold a part of it. -/
structure ShfRecord where
  stream : Nat
  seq : Nat
  start : Nat
  sectors : List Nat
  deriving DecidableEq, Repr

/-- The record being written: what is left of it, where it goes on, and whether an operation is in progress. -/
structure ShfJob where
  stream : Nat
  seq : Nat
  left : List Byte
  start : Nat
  sectors : List Nat
  busy : Bool
  drawer : Option Drawer
  deriving DecidableEq, Repr

/-- One stream of POOL: its chain of sectors, oldest first, the next free offset in the last one, the sector sequence, the
newest record's sequence, and what its bucket lacks of DEPTH, in bytes × 400,000,000. -/
structure ShfStream where
  chain : List Nat := []
  next : Nat := 0
  sectorSeq : Nat := 0
  seq : Nat := 0
  lack : Nat := 0
  lackAt : Nat := 0
  shrink : Nat := 0                    -- sectors that retirement took from its QUOTA
  deriving DecidableEq, Repr

/-- SHF. The flash device itself (memory from 0x0100_0000) and what its DIR stream holds outlive a reset. -/
structure Shf where
  mb : Nat := 64                       -- size of the attached device
  unsupported : Bool := false
  stream : SMap ShfStream := []
  erase : SMap Nat := []               -- erase count of each sector
  retired : List Nat := []             -- sectors out of use
  remapped : List Nat := []            -- sectors that a spare serves
  sparesUsed : Nat := 0
  records : List ShfRecord := []
  job : Option ShfJob := none
  erasing : Option Nat := none         -- a sector being erased for the job
  life : List (List Byte) := []        -- LIFE records waiting
  drawers : List Drawer := []          -- Drawers waiting
  host : List (Nat × Nat) := []        -- HOST buffers waiting: address and length
  locRes : Word := 0
  stopped : Bool := false              -- no new work since the power-fail warning
  deriving DecidableEq, Repr

/-! ### Monitor and safe transfer layer (chapter 14) -/

/-- One core's checker of a safe transfer channel (R339, R340). -/
structure StlChan where
  sync : Bool := true
  ok : Bool := false
  timeout : Bool := false
  notime : Bool := false
  reason : Nat := 0
  delivered : Nat := 0
  since : Nat := 0                     -- SYSCLK time of the last delivery, or of leaving SYNC
  lastSeq : Nat := 0
  data0 : Word := 0
  data1 : Word := 0
  deriving DecidableEq, Repr

/-- What a Monitor instruction puts out (R323): a data-memory write, an OUT or PUB value; none for the rest. -/
inductive MonOut where
  | none
  | write (addr : Nat) (v : Word)
  | port (imm : Nat) (v : Word)
  | pub (imm : Nat) (v : Word)
  deriving DecidableEq, Repr

/-- One Monitor core. -/
structure MonCore where
  m : SMap Word := []                  -- m1 to m15
  pc : Nat := 0
  data : SMap Word := []
  used : SMap Bool := []               -- used bits: 0 to 15 registers, 16 + i data words
  marked : SMap Bool := []             -- latent differences (R324), by the same numbers
  run : Bool := false                  -- an image program runs
  waiting : Bool := false
  fault : Option (Nat × Nat × Nat) := none    -- cause, SAFE code, pc: the core has halted
  cycles : Nat := 0                    -- since the tick edge
  ticks : Nat := 0
  snap : SMap Word := []               -- the input snapshot, by address of Table 14.2
  buf : SMap Word := []                -- exchange words published in this tick
  vis : SMap Word := []                -- those that stood at the last tick edge
  user : Word := 0
  off : Bool := true                   -- demands disconnection
  stage : SMap Word := []              -- staged DATA[31:0] by channel
  txCount : SMap Nat := []
  chan : SMap StlChan := []
  deriving DecidableEq, Repr

/-- The Monitor. Outputs are in the order GEN_A, GEN_B, RLY_A, RLY_B. -/
structure Mon where
  mode : Nat := 0                      -- 0 default program, 1 lockstep, 2 HANDOVER, 3 SPLIT
  a : MonCore := {}
  b : MonCore := {}
  prog : List Byte := []               -- the MONITOR_PROG payload accepted
  lag : List (Nat × MonOut) := []      -- core A's program counters and outputs that core B has not matched yet
  splitReq : Bool := false
  sweepDue : Bool := false             -- a sweep waits until core B has caught up
  hover : Nat := 0
  waitOut : List (Nat × Bool) := []    -- commands away from the safe level that wait for the end of the hand-over
  accepted : Bool := false
  startDue : Bool := false             -- the accepted program starts at the next tick
  out : Nat := 0                       -- commanded outputs
  rb : Nat := 0                        -- readbacks, as input word 0x080
  adcm : SMap Word := []               -- conversions since the tick edge
  test : SMap Nat := []                -- off-pulse test of each output: 1 driven safe, 2 returned
  forced : Nat := 0                    -- outputs driven safe by a test
  failed : Nat := 0                    -- tests in progress that have failed
  optRes : Nat := 0                    -- results, two bits an output
  optCount : Nat := 0
  mismatch : Nat := 0                  -- relay contact mismatches
  relayAt : SMap Nat := []             -- SYSCLK time of the last change of command, by relay
  check : Word := 0                    -- SAF_CHECK
  confirmed : Bool := false
  confirmAt : Option Nat := none       -- SYSCLK time of a first confirmation write
  deriving DecidableEq, Repr

/-! ### Trestle and redundant pairs (chapter 15) -/

/-- A role table entry (R358). -/
structure RoleEntry where
  holder : Nat := 0
  assigned : Bool := false
  epoch : Nat := 0
  deriving DecidableEq, Repr

/-- TRS. Delays are in 2^-6 ns. -/
structure Trs where
  rank : Nat := 0                      -- TRS_RANK
  found : Nat := 0                     -- devices found, less 1
  enumDone : Bool := false
  enumEver : Bool := false             -- an ENUMERATE has completed since reset
  root : Bool := false                 -- ENUMERATE was written here
  linkA : Bool := false
  linkB : Bool := false
  wrapA : Bool := false
  wrapB : Bool := false
  role : SMap RoleEntry := []
  dlyA : List Int := []                -- round trip less turnaround of the last 16 exchanges, newest first
  dlyB : List Int := []
  accd : Nat := 0                      -- path delay from the ANGLE holder
  out : List TrsFrame := []            -- frames waiting for the transmitters
  deriving DecidableEq, Repr

/-- PAIR (R363 to R372). -/
structure Pair where
  role : Nat := 0                      -- 0 off, 1 waiting, 2 standby, 3 active
  zGroups : Nat := 0                   -- paired groups whose outputs are held high-impedance
  driving : Nat := 0                   -- paired groups that drive since the takeover
  actOut : Bool := false
  actIn : Bool := false
  peerPrimary : Bool := false          -- the partner carries PRIMARY, as the last change of PAIR_ACT_IN says
  hbOk : Bool := false
  hbSeen : Bool := false               -- a heartbeat has appeared since ARM
  lost : Bool := false                 -- the heartbeat is lost
  deposed : Bool := false              -- REJOIN is needed
  trigAt : Option Nat := none          -- SYSCLK time of the trigger of a takeover not yet driven
  tookOver : Bool := false             -- active since a takeover
  cause : Nat := 0
  lastSw : Nat := 0                    -- PAIR_LAST_SW
  handover : Option Nat := none        -- period index of the reload that a handover names
  partnerFit : Bool := false           -- as the partner reports
  genTx : Nat := 0
  genRx : Option Nat := none           -- GEN of the last record applied
  reloads : Nat := 0                   -- reloads of PAIR_GROUP
  age : Nat := 0                       -- reloads since the last record was applied
  capture : Option (List Byte × List Nat) := none -- header of a record, and the listed contexts still in the run of its reload
  rx : SMap (List Byte) := []          -- the record arriving, by offset
  whole : Option (List Byte) := none   -- a complete record not yet applied
  accAt : List (Nat × List Nat) := []  -- own accumulators at the last reloads, by period index
  mmRun : Nat := 0
  okRun : Nat := 0
  unfit : Bool := false
  dispatches : Nat := 0                -- EVT dispatches since reset
  deriving DecidableEq, Repr

/-! ### Lifetime, spares (chapter 17) -/

/-- One position of LIF (R394 to R397). Temperatures of reversals are exact, over 2^149. -/
structure LifPos where
  fresh : Bool := false
  held : Nat := 0                      -- steps since the last fresh one
  gap : Bool := false
  z : List Word := [0, 0, 0, 0]        -- Foster state, binary32
  tj : Option Word := none             -- Tj of the previous step
  loss : Word := 0
  dir : Option Bool := none            -- true while Tj rises
  hi : Int := 0                        -- the extremes that Tj has not yet left by HYST
  lo : Int := 0
  stack : List Int := []               -- reversals, newest first
  dmg : Nat := 0                       -- damage accumulator, 1.0 = 2^48
  dmgHi : Word := 0                    -- copy of its upper half (R101)
  tjMax : Option Word := none          -- largest Tj since the last read
  tjRec : Option Word := none          -- largest Tj since the last record
  gapRec : Nat := 0                    -- gap milliseconds since the last record
  deriving DecidableEq, Repr

/-- LIF. -/
structure Lif where
  inp : SMap Word := []                -- I/O words 0x3A0 to 0x3BF, by address
  pos : SMap LifPos := []
  rseq : Nat := 0                      -- RSEQ of the last record queued
  restore : Bool := false
  matrices : Option (List Byte) := none    -- those of the record found at boot, until RF_BASE is known
  track : SMap (List (Nat × Nat)) := []    -- rows tracked in each SRAM macro, with their errors (R404)
  remap : SMap (List Nat) := []        -- rows that spares of each macro serve
  deriving DecidableEq, Repr

/-- THM (R406 to R408). Temperatures are in 1/256 °C. -/
structure Thm where
  level : Nat := 0
  paused : Bool := false               -- background work pauses now (R407)
  tdie : Int := 6400                   -- TDIE
  tpred : Int := 6400
  rate : Int := 0                      -- the filtered rate of rise, per second
  pwr : Nat := 0                       -- mW
  tmax : Option Int := none            -- largest TDIE since the last read
  sensOk : Nat := 15
  rcTrim : Word := 0                   -- ppm
  gain : Word := 0                     -- the compensation in effect, as a free value
  gainNew : Option Word := none        -- compensation that waits for the next angle zero
  deriving DecidableEq, Repr

/-! ### Start-up, reset and hold-up (chapter 16) -/

/-- SYS (R374 to R380, R392) with the always-on domain. -/
structure Sys where
  shfRstLow : Bool := false            -- SHF_RESET_N is low after release (R440)
  guard : Bool := false                -- Tier 0 Guard has begun
  pllBoot : Bool := false              -- the three PLLs have locked since release
  romDone : Bool := false              -- the boot ROM steps are complete
  bootRefused : Bool := false          -- the image selected at boot was refused by the Monitor
  mppK : Nat := 0                      -- the step of MPP_SET (R380)
  mppAmbig : Bool := false
  mppDone : Bool := false
  dieHi : Word := 0                    -- SYS_DIEID_HI as last snapshotted
  resetN : Bool := false               -- RESET_N is asserted, filtered
  pendingReset : Option Nat := none    -- the cause of a reset that waits for RESET_ENTRY
  cause : Nat := 0                     -- the always-on domain: SYS_RST
  long : Bool := false
  heldMs : Nat := 0
  aonLost : Bool := true               -- VDD_AON was lost since the last reset
  deriving DecidableEq, Repr

/-- HU (R385 to R388). -/
structure Hu where
  pf : Bool := false                   -- a power-fail warning is in force
  srcVin : Bool := false
  srcFast : Bool := false
  pfAt : Nat := 0                      -- SYSCLK time of the last warning
  pfLast : Nat := 0                    -- duration of the last warning, µs
  fastMv : Nat := 0
  bulkUv : Nat := 0                    -- HU_BULK as last converted, µV
  cut : Bool := true                   -- V_bulk fell below VCUT and has not risen to 1.05 × VCUT since
  grant : Nat := 0                     -- HU_GRANT: 0 none, 1 GRANTED, 2 REFUSED, 3 DONE, 4 EXPIRED, 5 ABORTED
  mJ : Nat := 0                        -- energy of the last request
  held : Bool := false                 -- a grant is in force
  deriving DecidableEq, Repr

/-! ### Fans (chapter 18) -/

/-- A fan channel (R410 to R417). Crossings are numbered 0 to 5 in forward order; intervals are in nanoseconds. -/
structure FanCh where
  st : Nat := 0                        -- Table 18.1
  start : List Byte := []              -- the entry whose start parameters this attempt uses
  braking : Bool := false              -- BRAKE with the low sides on
  bwd : Bool := false                  -- backward at the last observation
  retries : Nat := 0
  seen : List (Nat × Nat) := []        -- crossings of the observation: position and interval
  last : Option Nat := none            -- position of the last crossing
  lastDt : Nat := 0                    -- the last interval
  comDt : Nat := 0                     -- the interval of open-loop commutation
  inOrder : Nat := 0                   -- consistent crossings in RAMP so far
  vec : Nat := 0                       -- the six-step vector
  driven : Bool := false               -- RUN drives its outputs
  caught : Bool := false               -- a catch waits for the next crossing to commutate
  speed : Nat := 0
  duty : Nat := 0
  integ : Int := 0                     -- ∫ e dt in rpm × ms
  pfOff : Bool := false                -- turned off by a power-fail warning
  deriving DecidableEq, Repr

/-! ### The host interface (chapter 19) and JTAG (chapter 20) -/

/-- A response that waits for its FETCH (Table 19.2). -/
structure HostResp where
  status : Nat
  tag : Nat
  rank : Nat
  detail : Nat
  words : List Word := []
  deriving DecidableEq, Repr

/-- A request that the root has carried into the ring, and what has come back of it. -/
structure Remote where
  req : HostReq
  rank : Nat                           -- the target
  there : Bool                         -- the ring holds it
  head : Option (Nat × Nat × Nat) := none  -- STATUS, DETAIL and data words of its HRSP
  words : List (Nat × Word) := []      -- read data by index
  deriving DecidableEq, Repr

/-- A remote request whose write data are still arriving. -/
structure Inbound where
  src : Nat
  req : HostReq
  words : List (Nat × Word) := []
  deriving DecidableEq, Repr

/-- HST (R421 to R431). -/
structure Hst where
  tags : List Nat := []                -- outstanding tags (R423)
  queue : List HostResp := []          -- completed responses, oldest first
  remote : List Remote := []
  inbound : List Inbound := []
  out : List Byte := []                -- what the last FETCH clocked out
  data : Word := 0                     -- the word that the last READ_CLEAR returned
  deriving DecidableEq, Repr

/-- The instructions of the JTAG port (R441). -/
inductive JtagIr where
  | idcode | bypass | samplePreload | extest
  deriving DecidableEq, Repr

/-- JTAG: the instruction in force, what the data register holds, and the boundary cells as preloaded and as sampled. -/
structure Jtag where
  ir : JtagIr := .idcode
  dr : Word := 0xA9640A6B
  preload : List (Ball × Bool) := []
  sample : List (Ball × Lvl) := []
  deriving DecidableEq, Repr
/-! ### Pins (chapter 20) -/

/-- Pins that software or a schedule drives: the GPIO output levels. -/
structure Pins where
  gpio : BitVec 16 := 0                -- levels of the GPIO balls
  gpioOut : BitVec 16 := 0             -- balls that are outputs (R438)
  deriving DecidableEq, Repr

end Sys2Proof.Machine
end

