-- ==== Sys2Proof/Machine/State.lean ====
section
/-!
DEFINITION. The state of the block, as plain data: the queue of commands, the register words, memory, the configuration
in force and one structure for each unit of the device.
-/

namespace Sys2Proof.Machine

/-- The reasons for which the block could stop with a fault. The spec gives every command an effect in every state, so
no meaning raises one; the type has one name because a stop must have one. -/
inductive Fault where
  /-- Raised by no command. Safe: a stop that never comes proves nothing false. -/
  | none
  deriving DecidableEq, Repr

/-- The reasons for which a command is refused. -/
inductive Refusal where
  /-- A command whose meaning is not written: raised by its arm of `exec` alone. Safe: nothing is claimed of it. -/
  | notModelled (mnemonic : String)
  deriving DecidableEq, Repr

/-- The state of the device. -/
structure State where
  pending : List Instr := []
  free : Nat := 0                      -- the model's own: how many free values have been taken
  regs : SMap Word := []
  mem : List Host.Cell := []
  cfg : SMap (Option (List Byte)) := []     -- payload of each section in force, by section type
  fuses : BitVec 1024 := 0             -- the Cabinet's fuses as burned
  cab : BitVec 1024 := 0               -- the Cabinet as read at boot
  cabRes : Nat := 1                    -- the first failing Cabinet check (R44)
  tier : Nat := 0                      -- service tier (R379)
  inReset : Bool := true
  clk : Clk := {}
  le : Le := {}
  ce : Ce := {}
  gs : Gs := {}
  spt : Spt := {}
  pwm : Pwm := {}
  trp : Trp := {}
  chp : Chp := {}
  adc : Adc := {}
  sdm : Sdm := {}
  cmps : Cmps := {}
  ang : Ang := {}
  evt : Evt := {}
  grd : Grd := {}
  isl : Isl := {}
  lif : Lif := {}
  thm : Thm := {}
  mtr : Mtr := {}
  recd : Rec := {}
  shf : Shf := {}
  trs : Trs := {}
  pair : Pair := {}
  mon : Mon := {}
  tim : Tim := {}
  eth : Eth := {}
  pins : Pins := {}
  img : Img := {}
  sys : Sys := {}
  hu : Hu := {}
  host : Hst := {}
  jtag : Jtag := {}
  fan : SMap FanCh := []               -- fan channels 0 and 1
  spareLog : List Word := []           -- the spare log queue behind LIF_SPLOG (R403)
  evq : List (List Byte) := []         -- EVENT records waiting for the Shelf (R294)
  deriving DecidableEq, Repr

/-- The state right after reset: no command waits, every field at the value that the spec gives for reset or that the
assumption log names (log 3). -/
def State.reset : State := {}

end Sys2Proof.Machine
end

