-- ==== Sys2Proof/Machine/Ops.lean ====
section
/-!
DEFINITION. The named operations that every unit uses: register words, bits and counters, memory, the configuration in
force, the Cabinet fields, interrupts and free values.
-/

namespace Sys2Proof.Machine

/-- What a meaning answers. -/
abbrev Out := Host.Outcome State Fault Refusal

/-! ### Register words -/

/-- The stored word of a register. -/
def State.reg (s : State) (a : Nat) : Word := SMap.get regReset s.regs a

/-- Stores a register word. -/
def State.setReg (s : State) (a : Nat) (v : Word) : State := { s with regs := SMap.set regReset s.regs a v }

/-- Sets, clears or gives one bit of a register. -/
def State.setBit (s : State) (a n : Nat) : State := s.setReg a (s.reg a ||| word (2 ^ n))
def State.clrBit (s : State) (a n : Nat) : State := s.setReg a (s.reg a &&& ~~~ word (2 ^ n))
def State.putBit (s : State) (a n : Nat) (b : Bool) : State := if b then s.setBit a n else s.clrBit a n

/-- FIELD[n] of a stored register word. -/
def State.regBit (s : State) (a n : Nat) : Bool := (s.reg a).getLsbD n

/-- Counts in a register, saturating at 0xFFFF_FFFF. -/
def State.count (s : State) (a n : Nat) : State := s.setReg a (word (min 0xFFFFFFFF ((s.reg a).toNat + n)))

/-- Counts one. -/
def State.inc (s : State) (a : Nat) : State := s.count a 1

/-- Keeps the larger of the stored word and a value. -/
def State.maxReg (s : State) (a n : Nat) : State := s.setReg a (word (min 0xFFFFFFFF (max (s.reg a).toNat n)))

/-- Counts with saturation in a number that the structured state keeps. -/
def satInc (n : Nat) : Nat := min 0xFFFFFFFF (n + 1)

/-- Sets an interrupt source of Table 19.5. -/
def State.irq (s : State) (n : Nat) : State := s.setBit rHST_IRQ_SRC n

/-- Takes the next free value (log 4). -/
def State.takeFree (s : State) : Word × State := (Config.freeValue s.free, { s with free := s.free + 1 })

/-- The next `k` free values (log 4). -/
def State.takeFrees (s : State) (k : Nat) : List Word × State :=
  ((List.range k).map fun i => Config.freeValue (s.free + i), { s with free := s.free + k })

/-! ### Memory (Table 1.7) -/

/-- What a byte that nothing has written reads as: erased flash reads 0xFF (R459), the RAMs read 0 (R94; log 2). -/
def memReset (a : Nat) : Byte :=
  if 0x00400000 ≤ a ∧ a < 0x00440000 ∨ 0x01000000 ≤ a then 0xFF else 0

/-- Memory as it stands in canonical form. -/
abbrev Memory.wf (m : List Host.Cell) : Bool := SMap.wf memReset m

/-- One byte of memory. -/
def State.byte (s : State) (a : Nat) : Byte := SMap.get memReset s.mem a

/-- Writes one byte. -/
def State.setByte (s : State) (a : Nat) (v : Byte) : State := { s with mem := SMap.set memReset s.mem a v }

/-- Writes consecutive bytes, the first at the lowest address. -/
def State.setBytes (s : State) (a : Nat) : List Byte → State
  | [] => s
  | b :: bs => (s.setByte a b).setBytes (a + 1) bs

/-- Reads consecutive bytes. -/
def State.bytes (s : State) (a n : Nat) : List Byte := (List.range n).map fun i => s.byte (a + i)

/-- A 32-bit word of memory, least significant byte first (R5). -/
def State.memWord (s : State) (a : Nat) : Word := word (leNat (s.bytes a 4))

/-- Writes a 32-bit word. -/
def State.setMemWord (s : State) (a : Nat) (v : Word) : State := s.setBytes a (leBytes 4 v.toNat)

/-- The bases of the memories (Table 1.7). -/
def lpmBase : Nat := 0x00100000
def ldmBase : Nat := 0x00140000
def lcmBase : Nat := 0x00180000
def sramBase : Nat := 0x00200000
def sramEnd : Nat := 0x00380000
def nvmBase : Nat := 0x00400000
def shelfBase : Nat := 0x01000000

/-- An LDM word by its word index. -/
def State.ldm (s : State) (i : Nat) : Word := s.memWord (ldmBase + 4 * (i % 65536))

/-- An LCM word by its byte address, modulo the space (R118). -/
def State.lcm (s : State) (a : Nat) : Word := s.memWord (lcmBase + a % 65536)

/-! ### The configuration in force -/

/-- The payload of a section in force; an absent section reads as no bytes. -/
def State.sec (s : State) (t : Nat) : List Byte := (SMap.get (fun _ => none) s.cfg t).getD []

/-- True when a section of the type is in force. -/
def State.hasSec (s : State) (t : Nat) : Bool := (SMap.get (fun _ => none) s.cfg t).isSome

/-- A little-endian field of `n` bytes of a payload. -/
def field (p : List Byte) (off n : Nat) : Nat := leNat (slice p off n)

/-- A signed little-endian field. -/
def sfield (p : List Byte) (off n : Nat) : Int := signed (8 * n) (field p off n)

/-- Section types (Table 2.3). -/
def secTopology : Nat := 0x01
def secLegs : Nat := 0x02
def secAnalog : Nat := 0x03
def secTrip : Nat := 0x04
def secSched : Nat := 0x05
def secLoopProg : Nat := 0x06
def secLoopCoef : Nat := 0x07
def secRegions : Nat := 0x08
def secCand : Nat := 0x09
def secMonProg : Nat := 0x0A
def secSafety : Nat := 0x0B
def secMeter : Nat := 0x0C
def secRecorder : Nat := 0x0D
def secNetwork : Nat := 0x0E
def secHoldup : Nat := 0x0F
def secFans : Nat := 0x10
def secLifetime : Nat := 0x11

/-! ### The Cabinet (Table 2.5) -/

/-- A fused field of `w` bits from bit `lo` of the Cabinet as read at boot. -/
def State.fuse (s : State) (lo w : Nat) : Nat := bits s.cab.toNat lo w

/-- One step of CRC-32C (reflected polynomial 0x82F63B78) over the bits of a byte. -/
def crc32cBits : Nat → Nat → Nat
  | 0, c => c
  | n + 1, c => crc32cBits n (if c % 2 = 1 then (c / 2) ^^^ 0x82F63B78 else c / 2)

def crc32cFrom : Nat → List Byte → Nat
  | c, [] => c
  | c, b :: bs => crc32cFrom (crc32cBits 8 (c ^^^ b.toNat)) bs

/-- CRC-32C: initial value and final XOR all ones. -/
def crc32c (bs : List Byte) : Nat := crc32cFrom 0xFFFFFFFF bs ^^^ 0xFFFFFFFF

/-- CRC-16/CCITT-FALSE (R422). -/
def crc16Bits : Nat → Nat → Nat
  | 0, c => c
  | n + 1, c => crc16Bits n (if c / 32768 % 2 = 1 then (c * 2 % 65536) ^^^ 0x1021 else c * 2 % 65536)

def crc16From : Nat → List Byte → Nat
  | c, [] => c
  | c, b :: bs => crc16From (crc16Bits 8 (c ^^^ (b.toNat * 256))) bs

def crc16 (bs : List Byte) : Nat := crc16From 0xFFFF bs

/-- The fused pairing of an output: the partner, or none. -/
def fusePair (c : BitVec 1024) (o : Nat) : Option Nat :=
  let v := bits c.toNat (8 + 6 * o) 6
  if v = 0 then none else some (v - 1)

/-- The PAIR field is symmetric: no output names itself, a value above 48 or a partner that does not name it back. -/
def pairsSymmetric (c : BitVec 1024) : Bool :=
  (List.range 48).all fun o =>
    match fusePair c o with
    | none => true
    | some k => decide (k < 48) && (k != o) && (fusePair c k == some o)

/-- The first failing check of R44: 0 valid, 1 CRC, 2 CAB_VER, 3 pairing. -/
def cabResult (c : BitVec 1024) : Nat :=
  if crc32c (leBytes 124 (c.toNat % 2 ^ 992)) ≠ bits c.toNat 992 32 then 1
  else if bits c.toNat 0 8 ≠ 1 then 2
  else if !pairsSymmetric c then 3
  else 0

/-- A valid Cabinet (R44). -/
def State.cabValid (s : State) : Bool := s.cabRes == 0

/-- The fused SAFE_LVL of an output: 0 and 3 high-impedance, 1 low, 2 high. -/
def State.safeLvl (s : State) (o : Nat) : Nat := s.fuse (296 + 2 * o) 2
def State.outerFuse (s : State) (o : Nat) : Bool := s.fuse (392 + o) 1 == 1
def State.dtFloor (s : State) (g : Nat) : Nat := 8 * s.fuse (440 + 10 * g) 10
def State.minpFloor (s : State) (g : Nat) : Nat := 20 * s.fuse (520 + 8 * g) 8
def State.carMaxFuse (s : State) (g : Nat) : Nat := min 250 (s.fuse (584 + 8 * g) 8)
def State.shootFuse (s : State) (g : Nat) : Nat := s.fuse (648 + 4 * g) 4
def State.npcSeq (s : State) (g : Nat) : Bool := s.cabValid && s.fuse (884 + 9 * g) 1 == 1
def State.npcDelay (s : State) (g : Nat) : Nat := 50 * s.fuse (885 + 9 * g) 8
/-- LOCK is burned (R46). -/
def State.cabLocked (s : State) : Bool := bits s.fuses.toNat 975 2 != 0

/-- A fused trip row in force: its source, group mask and action (R43); reserved sources and empty rows are none. -/
def State.fusedRow (s : State) (i : Nat) : Option (Nat × Nat × Nat) :=
  let r := s.fuse (680 + 17 * i) 17
  let act := bits r 14 3
  if !s.cabValid || act = 0 || decide (bits r 0 6 > 0x33) then none
  else some (bits r 0 6, bits r 6 8, if act > 3 then 1 else act)

/-- A number of a range. -/
def within (lo x hi : Nat) : Bool := decide (lo ≤ x) && decide (x ≤ hi)

/-! ### Rounding the manual leaves open -/

/-- num / den rounded in the direction that the site leaves open; exact quotients are exact (log 5). -/
def divOpen (site : Nat) (num den : Int) : Int :=
  num / den + (if num % den ≠ 0 ∧ Config.roundUp site num den then 1 else 0)

/-- num / den rounded to nearest, ties up. -/
def divNearest (num den : Int) : Int := (2 * num + den) / (2 * den)

end Sys2Proof.Machine
end

