-- ==== Sys2Proof/Machine/Legs.lean ====
section
/-!
DEFINITION. What TOPOLOGY and LEGS say of groups, legs and outputs, with the clamps of the Cabinet (R47, R160 to R165),
and how the level of a ball follows from how its output is driven (R161, R177).
-/

namespace Sys2Proof.Machine

/-! ### TOPOLOGY (Table 7.3) -/

def State.topo (s : State) (g off n : Nat) : Nat := field (s.sec secTopology) (8 + 32 * g + off) n

/-- MODE: 0 unused, 1 DUTY, 2 AB, 3 STATE, 4 DUAL. -/
def State.grpMode (s : State) (g : Nat) : Nat := s.topo g 0 1
def State.grpSaw (s : State) (g : Nat) : Bool := bit (s.topo g 2 1) 0
/-- SYNC: 0 FREE, 1 ANGLE, 2 TRESTLE. -/
def State.grpSync (s : State) (g : Nat) : Nat := bits (s.topo g 2 1) 1 2
def State.grpEvent (s : State) (g : Nat) : Bool := bit (s.topo g 2 1) 3
def State.grpHopFree (s : State) (g : Nat) : Bool := bit (s.topo g 2 1) 4
def State.grpFcar (s : State) (g : Nat) : Nat := s.topo g 4 4
def State.grpNcar (s : State) (g : Nat) : Nat := s.topo g 8 2
def State.grpOffset (s : State) (g : Nat) : Nat := s.topo g 12 4
def State.grpQdef (s : State) (g : Nat) : Nat := s.topo g 16 4
def State.grpEvcfg (s : State) (g ch : Nat) : Nat := bits (s.topo g 20 4) (16 * ch) 16
def State.grpEvdef (s : State) (g ch : Nat) : Nat := s.topo g (24 + 4 * ch) 4
def State.alignRef (s : State) : Nat := field (s.sec secTopology) 0 1

/-! ### LEGS (Table 7.2) -/

def State.nLeg (s : State) : Nat := field (s.sec secLegs) 0 1

/-- The offset of the leg entry of leg `l`, if LEGS names the leg. -/
def State.legAt (s : State) (l : Nat) : Option Nat :=
  ((List.range s.nLeg).map fun i => 0xE8 + 16 * i).find? fun o => field (s.sec secLegs) o 1 == l

def State.legField (s : State) (l off n : Nat) : Nat :=
  match s.legAt l with
  | some o => field (s.sec secLegs) (o + off) n
  | none => 0

def State.legGroup (s : State) (l : Nat) : Option Nat := (s.legAt l).map fun o => field (s.sec secLegs) (o + 1) 1
def State.legType (s : State) (l : Nat) : Nat := s.legField l 2 1
def State.legSlot (s : State) (l : Nat) : Nat := s.legField l 3 1
def State.legPhase (s : State) (l : Nat) : Nat := s.legField l 12 2

/-- The output of a position of a leg. -/
def State.legOut (s : State) (l pos : Nat) : Option Nat :=
  if (s.legAt l).isNone then none
  else if s.legField l (4 + pos) 1 = 0xFF then none else some (s.legField l (4 + pos) 1)

/-- The legs of a group. -/
def State.groupLegs (s : State) (g : Nat) : List Nat := (List.range 24).filter fun l => s.legGroup l == some g

/-- Every output that a leg names. -/
def State.legOuts (s : State) (l : Nat) : List Nat := (List.range 8).filterMap fun p => s.legOut l p

/-- Every output of a group's legs. -/
def State.groupOuts (s : State) (g : Nat) : List Nat := (s.groupLegs g).flatMap s.legOuts

/-- Leg types of Table 7.1. -/
def tyHB2 : Nat := 1
def tyNPC3 : Nat := 2
def tyTT3 : Nat := 3
def tyFC3 : Nat := 4
def tyFC5 : Nat := 5
def tySW : Nat := 6
def tyCHP : Nat := 7

/-- Levels of a leg type (NLVL). -/
def nLevels (ty : Nat) : Nat := if ty = tyFC5 then 5 else if ty = tyNPC3 ∨ ty = tyTT3 ∨ ty = tyFC3 then 3 else 2

/-- Complementary pairs of a leg type; a single switch counts as one pair without a lower output. -/
def nPairs (ty : Nat) : Nat := if ty = tyFC5 then 4 else if ty = tyNPC3 ∨ ty = tyTT3 ∨ ty = tyFC3 then 2 else 1

def isFC (ty : Nat) : Bool := ty == tyFC3 || ty == tyFC5

/-- A type without complementary pairs. -/
def isSingle (ty : Nat) : Bool := ty == tySW || ty == tyCHP

/-- The positions of pair `c`: upper and lower (Table 7.1). -/
def upperPos (c : Nat) : Nat := c
def lowerPos (ty c : Nat) : Nat := if ty = tyHB2 then 1 else if ty = tyFC5 then 4 + c else 2 + c

/-- The output of a pair that conducts at a value, if it has one. -/
def State.pairOut (s : State) (l c : Nat) (upper : Bool) : Option Nat :=
  let ty := s.legType l
  if upper then s.legOut l (upperPos c) else if isSingle ty then none else s.legOut l (lowerPos ty c)

/-- The pairs of a type that are up at a level; `rot` is the rotation of an FC leg (Table 7.1, R169). -/
def levelPairs (ty rot k : Nat) : Nat :=
  if isFC ty then
    ((List.range k).map fun i => 2 ^ ((rot + i) % nPairs ty)).foldl (· + ·) 0
  else if ty = tyNPC3 ∨ ty = tyTT3 then (if k = 0 then 0 else if k = 1 then 2 else 3)
  else k

/-- The level of a leg state: how many pairs are up. -/
def stateLevel (ty : Nat) (st : Nat) : Nat := ((List.range (nPairs ty)).filter fun c => bit st c).length

/-! ### Effective values (R47, R162) -/

/-- A time in ns in sixteenths of a PTC cycle, rounded up: ns × 16 × 25 MHz × NDIV / RDIV. -/
def State.ns16 (s : State) (ns : Nat) : Int := ((2 * ns * s.clk.ndiv + 5 * s.clk.rdiv - 1) / (5 * s.clk.rdiv) : Nat)

def State.grpTiming (s : State) (g off n : Nat) : Nat := field (s.sec secLegs) (8 + 16 * g + off) n
def State.deadTime (s : State) (g : Nat) : Int := s.ns16 (max (s.grpTiming g 0 2) (s.dtFloor g))
def State.minPulse (s : State) (g : Nat) : Int := s.ns16 (max (s.grpTiming g 2 2) (s.minpFloor g))
def State.minpStretch (s : State) (g : Nat) : Bool := s.grpTiming g 4 1 == 1
def State.shootMax (s : State) (g : Nat) : Nat := min (s.grpTiming g 5 1) (s.shootFuse g)
def State.bootN (s : State) (g : Nat) : Nat := s.grpTiming g 6 2
def State.bootW (s : State) (g : Nat) : Int := s.ns16 (s.grpTiming g 8 2)
/-- Effective CAR_MAX in mHz. -/
def State.carMax (s : State) (g : Nat) : Nat := s.carMaxFuse g * 1000000

/-- P of a free-running carrier at a frequency in mHz, rounded to nearest, and whether the division is exact (R165). -/
def State.freeP (s : State) (f : Nat) : Nat × Bool :=
  let num := 25000000000 * s.clk.ndiv
  let den := s.clk.rdiv * f
  if den = 0 then (0, true) else ((2 * num + den) / (2 * den), num % den == 0)

/-! ### Groups, legs and outputs in State -/

def Group.zero : Nat → Group := fun _ => {}
def Leg.zero : Nat → Leg := fun _ => {}
def Drive.zero : Nat → Drive := fun _ => .safeLvl

def State.grp (s : State) (g : Nat) : Group := SMap.get Group.zero s.pwm.group g
def State.leg (s : State) (l : Nat) : Leg := SMap.get Leg.zero s.pwm.leg l
def State.drive (s : State) (o : Nat) : Drive := SMap.get Drive.zero s.pwm.out o

def State.setGrp (s : State) (g : Nat) (x : Group) : State :=
  { s with pwm := { s.pwm with group := SMap.set Group.zero s.pwm.group g x } }
def State.setLeg (s : State) (l : Nat) (x : Leg) : State :=
  { s with pwm := { s.pwm with leg := SMap.set Leg.zero s.pwm.leg l x } }

/-- Applies a change to each of a list of outputs, legs or groups in turn. -/
def State.each (s : State) (l : List Nat) (f : State → Nat → State) : State := l.foldl f s

/-! ### Balls -/

/-- The POL bit of an output in LEGS, used where SAFE_LVL is high-impedance (R161). -/
def State.polLow (s : State) (o : Nat) : Bool := bit (field (s.sec secLegs) (0x88 + 2 * o) 2) 2

/-- True when an output's on level is low (R161). -/
def State.activeLow (s : State) (o : Nat) : Bool :=
  if s.safeLvl o = 1 then false else if s.safeLvl o = 2 then true else s.polLow o

/-- Both outputs of a fused pair are commanded on (R177). -/
def State.overlap (s : State) (o : Nat) : Bool :=
  s.drive o == .on &&
    (match fusePair s.cab o with
     | some k => s.drive k == .on
     | none => false)

/-- A redundant pair holds an output high-impedance, below the interlock and the trip override (R365). -/
def State.pairHolds (s : State) (o : Nat) : Bool :=
  (List.range 8).any fun g => bit s.pair.zGroups g && (s.groupOuts g).contains o

/-- The level at which the output stage drives an output, after the interlock of R177. -/
def State.outLvl (s : State) (o : Nat) : Lvl :=
  if s.inReset || !s.cabValid || s.pairHolds o then .z
  else match s.drive o with
    | .safeLvl => if s.safeLvl o = 1 then .low else if s.safeLvl o = 2 then .high else .z
    | .off => if s.activeLow o then .high else .low
    | .on => if s.overlap o then (if s.activeLow o then .high else .low) else (if s.activeLow o then .low else .high)

/-- Notes an edge at the ball of an output whose level has changed since `old` (R206). -/
def State.noteEdge (s old : State) (o : Nat) : State :=
  if s.outLvl o = old.outLvl o then s
  else { s with pwm := { s.pwm with edgeAt := SMap.set (fun _ => 0) s.pwm.edgeAt o (s.clk.t + 1) } }

/-- Drives an output; its level, and that of the partner that the interlock of R177 ties to it, may change at the ball. -/
def State.setDrive (s : State) (o : Nat) (x : Drive) : State :=
  let t := { s with pwm := { s.pwm with out := SMap.set Drive.zero s.pwm.out o x } }
  let t := t.noteEdge s o
  match fusePair s.cab o with
  | some k => t.noteEdge s k
  | none => t

/-- An output of the leg made an edge at its ball less than `units` ago. -/
def State.legEdged (s : State) (l units : Nat) : Bool :=
  (s.legOuts l).any fun o =>
    let t := SMap.get (fun _ => 0) s.pwm.edgeAt o
    t != 0 && decide (s.clk.t + 1 < t + units)

end Sys2Proof.Machine
end

