-- ==== Sys2Proof/Machine/Base.lean ====
section
/-!
DEFINITION. Contexts in State, the marks that a group leaves on their predictions (R152), and the schedule entries that
a carrier's stop and start concern (R64, R68, R69).
-/

namespace Sys2Proof.Machine

/-! ### Contexts in State -/

def Ctx.zero : Nat → Ctx := fun _ => {}

def State.ctx (s : State) (n : Nat) : Ctx := SMap.get Ctx.zero s.le.ctx n
def State.setCtx (s : State) (n : Nat) (c : Ctx) : State :=
  { s with le := { s.le with ctx := SMap.set Ctx.zero s.le.ctx n c } }

/-- The context numbers (R76). -/
def ctxIds : List Nat := (List.range 63).map (· + 1)

/-- Marks the predictions of an evaluation of a group (R152). -/
def Ctx.markPreds (c : Ctx) (g : Nat) (old new : EvalUse) : Ctx :=
  { c with preds := c.preds.map fun p => if p.group = g ∧ p.use = old then { p with use := new } else p }

/-- The same for every context. -/
def State.markAll (s : State) (g : Nat) (old new : EvalUse) : State :=
  s.each ctxIds fun s n =>
    if (s.ctx n).preds.isEmpty then s else s.setCtx n ((s.ctx n).markPreds g old new)

/-- A trip of a group reaches a context: no prediction not yet applied is compared, nor one of an evaluation that this run
still makes (R145, R152). -/
def Ctx.spoil (c : Ctx) (g : Nat) : Ctx :=
  { c with
    tripped := c.tripped ||| 2 ^ g
    preds := c.preds.map fun p => if p.group = g ∧ p.use ≠ .applied then { p with use := .spoiled } else p }

/-- The same for every context. -/
def State.spoilPreds (s : State) (g : Nat) : State :=
  s.each ctxIds fun s n =>
    if (s.ctx n).preds.isEmpty && !(s.ctx n).begun then s else s.setCtx n ((s.ctx n).spoil g)

/-! ### Schedule entries (Tables 3.4, 3.5) -/

def EvtEntry.zero : Nat → EvtEntry := fun _ => {}
def State.evtEntry (s : State) (i : Nat) : EvtEntry := SMap.get EvtEntry.zero s.evt.entry i
def State.setEvtEntry (s : State) (i : Nat) (x : EvtEntry) : State :=
  { s with evt := { s.evt with entry := SMap.set EvtEntry.zero s.evt.entry i x } }

def State.entryField (s : State) (i off n : Nat) : Nat := field (s.sec secSched) (0x28 + 32 * i + off) n
def State.nEntries (s : State) : Nat := if s.hasSec secSched then min 256 (field (s.sec secSched) 0x20 2) else 0

/-- The timebase of an entry: 0 angle, 1 carrier, 2 wall time. -/
def State.entryTb (s : State) (i : Nat) : Nat := bits (s.entryField i 0 4) 0 2
def State.entryGroup (s : State) (i : Nat) : Nat := bits (s.entryField i 0 4) 2 3
def State.entryPeriodic (s : State) (i : Nat) : Bool := bit (s.entryField i 0 4) 5
def State.entryEnable (s : State) (i : Nat) : Bool := bit (s.entryField i 0 4) 6
def State.entryHost (s : State) (i : Nat) : Bool := bit (s.entryField i 0 4) 7
def State.entryAction (s : State) (i : Nat) : Nat := bits (s.entryField i 0 4) 8 4
def State.entryArg (s : State) (i : Nat) : Nat := s.entryField i 4 4
def State.entryPeriod (s : State) (i : Nat) : Nat := s.entryField i 0x14 8
def State.entryCount (s : State) (i : Nat) : Nat := s.entryField i 0x1C 4

/-- A TIME of 12 bytes as a due time of its timebase: an 80-bit angle; a carrier's period index × 2^24 + count; wall
time in nanoseconds. -/
def timeOf (tb t : Nat) : Nat :=
  if tb = 0 then bits t 32 48 * 2 ^ 32 + bits t 0 32
  else if tb = 1 then bits t 32 32 * 2 ^ 24 + bits t 0 24
  else bits t 32 64 * 1000000000 + bits t 0 32

/-- The nanoseconds after which the 64-bit seconds count of wall time wraps (R299). -/
def wallMod : Nat := 2 ^ 64 * 1000000000

/-- Wall time in nanoseconds. -/
def State.wallNs (s : State) : Nat := s.tim.wall / 2 ^ 32

/-- The period index of a group's first carrier period that begins at least 3 PTC cycles ahead (R64). -/
def State.nextPidx (s : State) (g : Nat) : Nat :=
  let x := s.grp g
  if x.per < x.cntU / 2000000 + 3 then (x.pidx + 2) % 2 ^ 32 else (x.pidx + 1) % 2 ^ 32

/-- Arms an entry from its reference (R64). A carrier that a hop has paused goes on, so its next period is the reference; a
carrier entry of a group that does not run takes its reference at the restart (Table 3.7). -/
def State.armRel (s : State) (i : Nat) : State :=
  let tb := s.entryTb i
  let t := timeOf tb (s.entryField i 8 12)
  let left := if s.entryPeriodic i then s.entryCount i else 1
  let due :=
    if tb = 0 then ((s.ang.sch / 65536 / 2 ^ 32 + 1) * 2 ^ 32 + t) % 2 ^ 80
    else if tb = 1 then
      (if (s.grp (s.entryGroup i)).st == .running || (s.grp (s.entryGroup i)).st == .frozen then s.nextPidx (s.entryGroup i) * 2 ^ 24 + t else t) % 2 ^ 56
    else (s.wallNs / 1000000000 + 1) * 1000000000 + t
  s.setEvtEntry i { armed := true, due := due, left := left }

/-- The carrier entries of a group. -/
def State.carrierEntries (s : State) (g : Nat) : List Nat :=
  (List.range s.nEntries).filter fun i => s.entryTb i == 1 && s.entryGroup i == g && (s.evtEntry i).armed

/-- A group's carrier stops: its entries stay armed but those that ARM_ABS armed (R68). -/
def State.carrierStopped (s : State) (g : Nat) : State :=
  s.each (s.carrierEntries g) fun s i => if (s.evtEntry i).absolute then s.setEvtEntry i {} else s

/-- A group's carrier starts: its entries re-arm with the restart as the reference (R68). -/
def State.carrierStarted (s : State) (g : Nat) : State :=
  s.each (s.carrierEntries g) fun s i =>
    s.setEvtEntry i { s.evtEntry i with
      due := ((s.grp g).pidx * 2 ^ 24 + timeOf 1 (s.entryField i 8 12)) % 2 ^ 56
      left := if s.entryPeriodic i then s.entryCount i else 1 }

end Sys2Proof.Machine
end

