-- ==== Sys2Proof/Machine/Waveform.lean ====
section
/-!
DEFINITION. From the applied staging block to the output switchings of one period (R169 to R173): the waveform of each
leg by its mode, the delay by PHASE, the quiet window, the bootstrap refresh, the dead time and the minimum pulse.
Positions are sixteenths of a count from the period's start.
-/

namespace Sys2Proof.Machine

/-- Word `i` of a staging block. -/
def blockWord (b : List Word) (i : Nat) : Word := b.getD i 0

/-- num / 2^k of a period, to the nearest sixteenth, ties up (R169). -/
def part16 (p16 num : Int) (k : Nat) : Int := (2 * p16 * num + 2 ^ k) / 2 ^ (k + 1)

/-- What a leg's plan needs to know of its group and period. -/
structure PlanCtx where
  p16 : Int            -- the period, in sixteenths
  saw : Bool
  quiet : Bool         -- the quiet window is enabled
  qpost : Int          -- in sixteenths
  qpre : Int
  dt : Int
  minp : Int
  stretch : Bool
  rot : Nat
  deriving DecidableEq, Repr

/-- The interval in which a pair is at its centred value, for a fraction fn / 2^32 of the period, delayed by `d`
(R165, R169). -/
def centred (c : PlanCtx) (fn : Int) (d : Int) : Int × Int :=
  if c.saw then (d, part16 c.p16 fn 32 + d)
  else (part16 c.p16 (2 ^ 32 - fn) 33 + d, part16 c.p16 (2 ^ 32 + fn) 33 + d)

/-- The quiet window on a centred interval, with the width carried in from the period before: the interval, the width to
carry and whether it was clipped (R170). -/
def quietMove (c : PlanCtx) (ab : Int × Int) (carry : Int) : (Int × Int) × Int × Bool :=
  if !c.quiet || c.saw || (decide (ab.1 = ab.2) && decide (carry = 0)) then (ab, 0, false)
  else
    let a := ab.1 - carry / 2
    let b := ab.2 + (carry - carry / 2)
    let lo := c.qpost
    let hi := c.p16 - c.qpre
    if b - a > hi - lo then ((lo, hi), min (b - a - (hi - lo)) (c.qpre + c.qpost), true)
    else if a < lo then ((lo, b + (lo - a)), 0, false)
    else if b > hi then ((a - (b - hi), hi), 0, false)
    else ((a, b), 0, false)

/-- All pairs of a leg at the values of a mask. -/
def pairsOf (ty mask : Nat) : List (Nat × Bool) := (List.range (nPairs ty)).map fun c => (c, bit mask c)

/-- A change to the state of a code of a leg: FREE for 7, a reserved or absent level (R169). -/
def codeEv (ty rot : Nat) (pos : Int) (code : Nat) : WaveEv :=
  if code < nLevels ty then ⟨pos, pairsOf ty (levelPairs ty rot code), false⟩ else ⟨pos, [], true⟩

/-- True when a code gives a leg a reserved or absent level (R169). -/
def badLevel (ty code : Nat) : Bool := code != 7 && decide (nLevels ty ≤ code)

/-- The centred interval of one pair as changes: `rest` outside, the other value inside. -/
def intervalEvs (pair : Nat) (rest : Bool) (d : Int) (ab : Int × Int) : List WaveEv :=
  if ab.1 = ab.2 then [⟨d, [(pair, rest)], false⟩]
  else [⟨min d ab.1, [(pair, rest)], false⟩, ⟨ab.1, [(pair, !rest)], false⟩, ⟨ab.2, [(pair, rest)], false⟩]

/-- The DUTY waveform of a leg from m in Q1.31 (Table 7.5), with the quiet window applied: the changes, what each
pair carries over and how often the window clipped. -/
def dutyEvs (c : PlanCtx) (ty : Nat) (carry : SMap Int) (m : Int) (d : Int) : List WaveEv × SMap Int × Nat :=
  let zero : Nat → Int := fun _ => 0
  -- the one interval of a 3-level leg carries under pair 0, whichever pair makes it
  let one := fun (pair : Nat) (rest : Bool) (fn : Int) (dd : Int) =>
    let q := quietMove c (centred c fn dd) (SMap.get zero carry (if isFC ty then pair else 0))
    (intervalEvs pair rest dd q.1, q.2.1, q.2.2)
  if isFC ty then
    (List.range (nPairs ty)).foldl (fun acc p =>
      let r := one p false (m + 2 ^ 31) (d + part16 c.p16 ((p : Int) * 2 ^ 32 / (nPairs ty : Int)) 32)
      (acc.1 ++ r.1, SMap.set zero acc.2.1 p r.2.1, acc.2.2 + b2n r.2.2)) ([], [], 0)
  else if ty = tyNPC3 ∨ ty = tyTT3 then
    if m ≥ 0 then
      let r := one 0 false (2 * m) d
      (⟨d, [(1, true)], false⟩ :: r.1, SMap.set zero [] 0 r.2.1, b2n r.2.2)
    else
      let r := one 1 true (-(2 * m)) d
      (⟨d, [(0, false)], false⟩ :: r.1, SMap.set zero [] 0 r.2.1, b2n r.2.2)
  else
    let r := one 0 false (m + 2 ^ 31) d
    (r.1, SMap.set zero [] 0 r.2.1, b2n r.2.2)

/-- The references of AB mode, in Q1.31, each clamped, and whether a clamp acted (Table 7.5). √3/2 × β is formed as
floor(√(3 β² / 4)) with β's sign: DESIGN CHOICE (log 9). -/
def abRefs (al be : Int) (noZero : Bool) : List Int × Bool :=
  let r : Int := (isqrt (3 * be.natAbs * be.natAbs / 4) : Nat)
  let h : Int := if be ≥ 0 then r else -r
  let va := al
  let vb := -(al / 2) + h
  let vc := -(al / 2) - h
  let z : Int := if noZero then 0 else -((max va (max vb vc) + min va (min vb vc)) / 2)
  let cl := fun v : Int => clampInt (-(2 ^ 31)) (2 ^ 31 - 1) v
  let raw := [va + z, vb + z, vc + z]
  (raw.map cl, raw.any fun v => cl v != v)

/-- The code field of a leg's slot in a state code (R134). -/
def codeField (w : Word) (slot : Nat) : Nat := bits w.toNat (3 * slot) 3

/-- The DUAL waveform of a leg from two codes and δ in Q1.31 (Table 7.5), with the quiet window on its centred state. -/
def dualEvs (c : PlanCtx) (ty : Nat) (carry : SMap Int) (sel sec : Nat) (delta : Int) (order : Bool) (d : Int) :
    List WaveEv × SMap Int × Nat :=
  let zero : Nat → Int := fun _ => 0
  -- ORDER 1: the centred state of a TRI carrier, or the first of a SAW carrier, is the second code, each code keeping
  -- its share of the period (R142). DEDUCED (log 10)
  let fn := 2 * (if order then 2 ^ 31 - delta else delta)
  let inner := if order then sec else sel
  let outer := if order then sel else sec
  let q := quietMove c (centred c fn d) (SMap.get zero carry 0)
  let ab := q.1
  let evs :=
    if ab.1 = ab.2 then [codeEv ty c.rot d outer]
    else [codeEv ty c.rot (min d ab.1) outer, codeEv ty c.rot ab.1 inner, codeEv ty c.rot ab.2 outer]
  (evs, SMap.set zero [] 0 q.2.1, b2n q.2.2)

/-- Inserts a change in order of position, after the changes at the same position. -/
def insertEv (e : WaveEv) : List WaveEv → List WaveEv
  | [] => [e]
  | x :: xs => if e.pos < x.pos then e :: x :: xs else x :: insertEv e xs

def sortEvs (l : List WaveEv) : List WaveEv := l.foldl (fun acc e => insertEv e acc) []

/-- The leg state after a change. -/
def applyEv (st : Option Nat) (e : WaveEv) : Option Nat :=
  if e.free then none
  else some (e.pairs.foldl (fun m p => m - b2n (bit m p.1) * 2 ^ p.1 + b2n p.2 * 2 ^ p.1) (st.getD 0))

/-- The leg states in time order from the changes; an NPC3 leg takes level O between P and N for its dead time and
minimum pulse (R160). -/
def statesFrom (ty : Nat) (gap : Int) : Option Nat → List WaveEv → List (Int × Option Nat)
  | _, [] => []
  | st, e :: es =>
    let st' := applyEv st e
    if st' = st then statesFrom ty gap st es
    else if ty = tyNPC3 ∧ ((st = some 3 ∧ st' = some 0) ∨ (st = some 0 ∧ st' = some 3)) then
      (e.pos, some 2) :: (e.pos + gap, st') :: statesFrom ty gap st' es
    else (e.pos, st') :: statesFrom ty gap st' es

/-- The runs of a pair in a leg's states. -/
def pairRuns (c : Nat) : Option Bool → List (Int × Option Nat) → List Run
  | _, [] => []
  | v, (p, st) :: r =>
    let v' := st.map fun m => bit m c
    if v' = v then pairRuns c v r else (p, v') :: pairRuns c v' r

/-- What a run's start decides under the minimum-pulse rule (R171). `prev` is the run before (start, value), `cur` the
run, `next` what follows. The result is the settled runs, how many acts there were and the decision to hold beyond the
period; a run that is kept holds until its pulse has reached MINP. DEDUCED (log 10). -/
def minPulse (c : PlanCtx) (hasOut : Bool → Bool) (dt : Int) :
    Nat → Run → List Run → List Run × Nat × List (Bool × Int)
  | 0, prev, rest => (prev :: rest, 0, [])
  | _ + 1, prev, [] => ([prev], 0, [])
  | fuel + 1, prev, cur :: rest =>
    let fin := match rest with
      | [] => 2 * c.p16 + c.minp + dt
      | n :: _ => n.1
    let len := fin - cur.1
    let short := match cur.2 with
      | none => false
      | some v => hasOut v && (decide (len < c.minp + dt) || decide (len ≤ dt)) && decide (cur.1 < c.p16)
    if !short then
      let r := minPulse c hasOut dt fuel cur rest
      let till := cur.1 + c.minp + dt - c.p16
      let kept : List (Bool × Int) := match cur.2 with
        | none => []
        | some v => if hasOut v && decide (cur.1 < c.p16) && decide (0 < till) then [(v, till)] else []
      (prev :: r.1, r.2.1, kept ++ r.2.2)
    else
      let v := cur.2.getD false
      -- the nearest limits of a stretch: the edge before and the pulse that the neighbours must keep
      let room := c.minp + dt
      let loLim := max 0 (if prev.2.isSome then prev.1 + room else cur.1)
      let hiLim := match rest with
        | n :: n2 :: _ => if n.2.isSome then n2.1 - room else n.1
        | _ => fin + room
      let need := room - len
      let leftMax := max 0 (cur.1 - loLim)
      let rightMax := max 0 (hiLim - fin)
      let left := min (need / 2) leftMax
      let right := min (need - left) rightMax
      let left' := min (need - right) leftMax
      if c.stretch && decide (len > dt) && decide (left' + right ≥ need) then
        let cur' : Run := (cur.1 - left', cur.2)
        let rest' := match rest with
          | [] => []
          | n :: r => (n.1 + right, n.2) :: r
        let r := minPulse c hasOut dt fuel cur' rest'
        (prev :: r.1, r.2.1 + 1, (if fin + right > c.p16 then [(v, fin + right - c.p16)] else []) ++ r.2.2)
      else
        -- DROP: the run before goes on through it
        let keep := prev.2.getD v
        let rest' := match rest with
          | [] => []
          | n :: r => if n.2 = prev.2 then r else n :: r
        let r := minPulse c hasOut dt fuel prev rest'
        (r.1, r.2.1 + 1, (if fin > c.p16 && prev.2.isSome then [(keep, fin - c.p16)] else []) ++ r.2.2)

/-- The switchings of a pair's outputs: off at the change, on one dead time later (R172), unless the pair changes again
first. -/
def runEdges (outOf : Bool → Option Nat) (dt : Int) : Option Bool → List Run → List Edge
  | _, [] => []
  | v, (p, v') :: r =>
    let off := match v with
      | some b => (outOf b).toList.map fun o => ⟨p, o, false⟩
      | none => []
    let on := match v' with
      | some b =>
        if (match r with
          | (q, _) :: _ => decide (q ≤ p + dt)
          | [] => false) then []
        else (outOf b).toList.map fun o => ⟨p + dt, o, true⟩
      | none => []
    off ++ on ++ runEdges outOf dt v' r

/-- The value of a pair at a position. -/
def runAt (x : Int) : Option Bool → List Run → Option Bool
  | v, [] => v
  | v, (p, v') :: r => if p ≤ x then runAt x v' r else v

def insertEdge (e : Edge) : List Edge → List Edge
  | [] => [e]
  | x :: xs => if e.pos < x.pos then e :: x :: xs else x :: insertEdge e xs

def sortEdges (l : List Edge) : List Edge := l.foldl (fun acc e => insertEdge e acc) []

/-- The plan of one leg for one period. -/
structure LegPlan where
  edges : List Edge          -- switchings in the period, and those that its changes make later
  endState : Option Nat      -- the leg state at count P − 1
  last : Option Nat          -- the leg state at the period's end
  held : List Held
  runs : List PairRuns       -- the period, pair by pair
  acts : Nat                 -- minimum-pulse acts
  atTop : Bool               -- at its highest level through the whole period
  deriving DecidableEq, Repr

/-- The value of a pair at a position of the period. -/
def PairRuns.at (r : PairRuns) (x : Int) : Option Bool := runAt x r.start r.runs

/-- The leg state at a position of the period, from its pairs; none while FREE. -/
def stateOfRuns (rs : List PairRuns) (x : Int) : Option Nat :=
  if rs.any (fun r => (r.at x).isNone) then none
  else some ((rs.map fun r => b2n ((r.at x).getD false) * 2 ^ r.pair).foldl (· + ·) 0)

/-- Holds a pair at a decided value up to a position: the changes of the pair before it move to it. -/
def applyHeld (runs : List Run) (v0 : Option Bool) (h : Bool) (until16 : Int) : List Run :=
  let after := runAt until16 v0 runs
  let later := runs.filter fun r => decide (r.1 > until16)
  let first : List Run := if v0 = some h then [] else [(0, some h)]
  first ++ (if after = some h then later else (until16, after) :: later)

/-- The plan from the state in force, the changes of this period and those that the block in force would give in the
next (R171). -/
def planLeg (c : PlanCtx) (s : State) (l : Nat) (now : Option Nat) (held : List Held)
    (evs evsNext : List WaveEv) : LegPlan :=
  let ty := s.legType l
  let dt := if isSingle ty then 0 else c.dt
  let next := evsNext.map fun e => { e with pos := e.pos + c.p16 }
  let states := statesFrom ty (c.dt + c.minp) now (sortEvs (evs ++ next))
  let per := (List.range (nPairs ty)).map fun p =>
    let v0 := now.map fun m => bit m p
    let raw := pairRuns p v0 states
    let runs := match held.find? (fun h => h.pair == p) with
      | some h => applyHeld raw v0 h.bit h.until16
      | none => raw
    let mp := minPulse c (fun b => (s.pairOut l p b).isSome) dt (2 * runs.length + 2) (-(2 * c.p16) - c.minp - dt, v0) runs
    let settled := mp.1.drop 1
    let inPer := settled.filter fun r => decide (r.1 < c.p16)
    (p, v0, inPer, mp.2.1, mp.2.2)
  let edges := sortEdges (per.flatMap fun q => runEdges (s.pairOut l q.1) dt q.2.1 q.2.2.1)
  let rs : List PairRuns := per.map fun q => { pair := q.1, start := q.2.1, runs := q.2.2.1 }
  let top := levelPairs ty c.rot (nLevels ty - 1)
  { edges := edges
    endState := stateOfRuns rs (c.p16 - 16)
    last := stateOfRuns rs (c.p16 - 1)
    held := per.flatMap fun q => (q.2.2.2.2.take 1).map fun d => ⟨q.1, d.1, d.2⟩
    runs := rs
    acts := (per.map fun q => q.2.2.2.1).foldl (· + ·) 0
    atTop := (now == some top) && per.all fun q => q.2.2.1.isEmpty }

end Sys2Proof.Machine
end

