-- ==== Sys2Proof/Machine/PowerOps.lean ====
section
/-!
DEFINITION. The shared operations of the power stage: stopping groups, the safe and ordered shutdowns (R179, R217,
R218), the trip matrix that combines sources and rows (R214 to R221) and the leg-local response (R223, R224).
-/

namespace Sys2Proof.Machine

/-! ### Outputs and stops -/

/-- Takes a leg out of modulation: no switching pending, its state FREE. -/
def State.quietLeg (s : State) (l : Nat) : State :=
  s.setLeg l { s.leg l with
    now := none, edges := [], tail := [], held := [], carry := [], endState := none, topRun := 0, runs := [] }

/-- Every output of a group stands at its SAFE_LVL. -/
def State.groupSafe (s : State) (g : Nat) : State :=
  let s := s.each (s.groupOuts g) fun s o => s.setDrive o .safeLvl
  s.each (s.groupLegs g) State.quietLeg

/-- The first stage of an ordered sequence on some outputs: the outer ones that do not yet stand at SAFE_LVL go to
their off level, the inner ones stay as they are, and one that is off stays off (R217). -/
def State.outerOff (s : State) (outs : List Nat) : State :=
  s.each outs fun s o => if s.outerFuse o && s.drive o != .safeLvl then s.setDrive o .off else s

/-- Starts the ordered sequence of a group; its second stage is ORDERED_DELAY_EXPIRY. -/
def State.groupOrdered (s : State) (g : Nat) : State :=
  let s := s.outerOff (s.groupOuts g)
  let s := s.each (s.groupLegs g) State.quietLeg
  if (s.groupOuts g).all fun o => s.drive o == .safeLvl then s
  else s.setGrp g { s.grp g with seqRun := true }

/-- Shuts a group down: ordered where NPC_SEQ enables it, else straight to SAFE_LVL (R179). -/
def State.groupDown (s : State) (g : Nat) : State := if s.npcSeq g then s.groupOrdered g else s.groupSafe g

/-- A state of a group that STOP and the losses of R179 move. -/
def GSt.live (g : GSt) : Bool := g == .armed || g == .running || g == .frozen

/-- TRIPPED, or FROZEN under a trip that the end of the hop shows (R181). -/
def Group.isTripped (x : Group) : Bool := x.st == .tripped || x.tripHop

/-- A refused START leaves its reason (Table 7.11). -/
def State.noteRefuse (s : State) (g r : Nat) : State :=
  let v := s.reg (rPWM_Gn_STAT g)
  s.setReg (rPWM_Gn_STAT g) ((v &&& ~~~ word (15 * 2 ^ 20)) ||| word (r * 2 ^ 20))

/-- STOP (R179): the group goes to STOPPED; a group that is TRIPPED or SAFE is left as it is. A START on the same edge is
refused with NOT_STOPPED (R181). -/
def State.groupStop (s : State) (g cause : Nat) : State :=
  let x := s.grp g
  if x.st.live && !x.tripHop then
    let s := s.setGrp g { x with st := .stopped, cause := cause, cmtReq := false, stopAt := some s.clk.t }
    let s := if x.st == .armed && x.armedAt == s.clk.t then s.noteRefuse g 8 else s
    (s.carrierStopped g).groupDown g
  else s.setGrp g { x with stopAt := some s.clk.t }

/-- The halt and clock losses of R179: every group that is not TRIPPED (for a halt, nor STOPPED) enters SAFE; one that is
SAFE already takes the new cause. -/
def State.groupLoss (s : State) (g cause : Nat) (keepStopped : Bool) : State :=
  let x := s.grp g
  if x.isTripped || (keepStopped && x.st == .stopped) then s
  else if x.st == .safe then s.setGrp g { x with cause := cause }
  else
    let was := x.st.live
    let s := s.setGrp g { x with st := .safe, cause := cause, cmtReq := false }
    if was then (s.carrierStopped g).groupDown g else s

/-- The return from a halt or a loss: SAFE groups with the cause return to STOPPED (R179). -/
def State.groupReturn (s : State) (g cause : Nat) : State :=
  let x := s.grp g
  if x.st == .safe && x.cause = cause then s.setGrp g { x with st := .stopped } else s

/-- What a lock that is still lost asks of a group that another cause has given back. -/
def State.groupLossAgain (s : State) (g : Nat) : State :=
  let s := if s.clk.ptcLock then s else s.groupLoss g 4 false
  if s.clk.sysLock then s else s.groupLoss g 5 false

/-! ### Trip rows in force -/

/-- The group action of Gn: ORDERED where NPC_SEQ[0] is burned, SAFE otherwise (R215). -/
def State.groupAction (s : State) (g : Nat) : Nat := if s.npcSeq g then 2 else 1

def State.tripRows (s : State) : List (Nat × Nat × Nat) :=
  (List.range (field (s.sec secTrip) 0 1)).map fun i =>
    let o := 0x1C0 + 4 * i
    (field (s.sec secTrip) o 1, field (s.sec secTrip) (o + 1) 1, field (s.sec secTrip) (o + 2) 1)

/-- The groups that SAFETY_PARAMS names for MON_OFF (Table 14.9): byte `offGroups` of the section in force. -/
def monOffGroupsAt : Nat := 0x04

/-- The built-in action of a source on a group: 0 none, 1 SAFE, 2 ORDERED, 3 SAFE plus DCK_OPEN (Table 9.1). MON_OFF and
DC_OV3 act once the Cabinet is valid (R44); the DCK_OPEN of DC_OV3 goes beside its group action (`opensDck`). -/
def State.builtin (s : State) (src g : Nat) : Nat :=
  if src = 0x33 then (if s.cabValid then s.groupAction g else 0)
  else if src = 0x32 then
    (if s.cabValid && bit (field (s.sec secSafety) monOffGroupsAt 1) g then s.groupAction g else 0)
  else if (0x40 ≤ src ∧ src < 0x48) ∧ src - 0x40 = g then s.groupAction g
  else if (0x48 ≤ src ∧ src < 0x50) ∧ src - 0x48 = g then s.groupAction g
  else if (0x50 ≤ src ∧ src < 0x58) ∧ src - 0x50 = g then s.groupAction g
  else if (0x70 ≤ src ∧ src < 0x78) ∧ src - 0x70 = g then s.groupAction g
  else 0

/-- ORDERED on a group without NPC_SEQ acts as SAFE (R216). -/
def State.actOn (s : State) (g act : Nat) : Nat := if act = 2 && !s.npcSeq g then 1 else act

/-- The rank of an action (R216): SAFE plus DCK_OPEN above ORDERED above SAFE. -/
def actRank (a : Nat) : Nat := a

/-- The fused rows' action of a source on a group. -/
def State.fusedAction (s : State) (src g : Nat) : Nat :=
  ((List.range 12).filterMap s.fusedRow).foldl
    (fun a r => if r.1 = src && bit r.2.1 g then max a (s.actOn g r.2.2) else a) 0

/-- The image rows' action of a source on a group, and whether it latches. -/
def State.imageAction (s : State) (src g : Nat) : Nat × Bool :=
  s.tripRows.foldl
    (fun a r => if r.1 = src && bit r.2.1 g then
      (max a.1 (s.actOn g (bits r.2.2 0 2)), a.2 || bit r.2.2 2) else a) (0, false)

/-- The action of a source on a group, and whether it latches: fused rows and built-in actions always do (R215, R219). -/
def State.sourceAction (s : State) (src g : Nat) : Nat × Bool :=
  let hard := max (s.fusedAction src g) (s.builtin src g)
  let img := s.imageAction src g
  (max hard img.1, hard != 0 || img.2)

/-- The source asserts DCK_OPEN through the group: by an action SAFE plus DCK_OPEN, or as DC_OV3 (R214, R221). -/
def State.opensDck (s : State) (src g : Nat) : Bool := (s.sourceAction src g).1 == 3 || (src == 0x33 && s.cabValid)

/-- True when a fused or image row in force names a source. -/
def State.rowed (s : State) (src : Nat) : Bool :=
  ((List.range 12).filterMap s.fusedRow).any (fun r => r.1 == src) || s.tripRows.any fun r => r.1 == src

/-- True while a source is active. -/
def State.srcActive (s : State) (src : Nat) : Bool := s.trp.active.getLsbD src

/-! ### Tripping -/

/-- The pending on-edges of dead-time intervals in progress: their pair's outgoing switch is already off (R218). -/
def pendingOn (dt pos : Int) (e : Edge) : Bool := e.on && decide (e.pos - dt ≤ pos)

/-- The carrier position of a group in sixteenths. -/
def Group.pos16 (x : Group) : Int := (x.cntU / 125000 : Nat)

/-- DCK_OPEN is held by an active or latched source whose action on some group is SAFE plus DCK_OPEN (R221). -/
def State.dckHeld (s : State) : Bool :=
  (List.range 8).any fun g =>
    (s.grp g).latches.any (fun l => l.2 == 3 || l.1 == 0x33) ||
      (List.range 128).any fun src => s.srcActive src && s.opensDck src g

/-- Of two sources on one edge TRP_Gn_CAUSE keeps the lower code, with the action that acts (R236). -/
def State.causeLower (s : State) (src g act : Nat) : State :=
  let cause := (s.reg (rTRP_G0_CAUSE + 4 * g)).toNat
  s.setReg (rTRP_G0_CAUSE + 4 * g) (word (min src (bits cause 0 8) + 256 * act + 65536 * bits cause 16 16))

/-- One trip action on a group (R216 to R219): the state, the outputs, the latch and the cause. -/
def State.tripGroup (s : State) (src g : Nat) : State :=
  let a := s.sourceAction src g
  if a.1 = 0 then s
  else
    let x := s.grp g
    let s := if s.opensDck src g && !s.trp.dckOpen then { s.setBit rTRP_STAT 2 with trp := { s.trp with dckOpen := true } } else s
    if x.isTripped then
      -- on a group already TRIPPED the stronger action applies to what does not yet stand at SAFE_LVL
      let x' := { x with
        act := max x.act a.1
        latches := if a.2 && !x.latches.contains (src, a.1) then x.latches ++ [(src, a.1)] else x.latches
        pulses := if a.2 || x.pulses.contains (src, a.1) then x.pulses else x.pulses ++ [(src, a.1)] }
      let s := s.setGrp g x'
      let same := x.tripAt == some s.clk.t
      let s := if same then s.causeLower src g x'.act else s
      if a.1 = 3 && x.seqRun || a.1 = 1 && x.seqRun && !same then (s.groupSafe g).setGrp g { x' with seqRun := false }
      else if a.1 = 2 && same && x.act = 1 then
        -- the ORDERED of the same edge is the stronger one: its sequence starts from the outputs as that edge found them
        (x.tripWas.foldl (fun s o => s.setDrive o.1 o.2) s).groupOrdered g
      else s
    else if x.st.live then
      let supp := ((s.groupLegs g).flatMap fun l => (s.leg l).edges.filter
        (pendingOn (if isSingle (s.legType l) then 0 else s.deadTime g) x.pos16)).length
      let cause := s.reg (rTRP_G0_CAUSE + 4 * g)
      let first := if x.act = 0 then src + 256 * a.1 else bits cause.toNat 0 16
      let trips := min 0xFFFF (bits cause.toNat 16 16 + 1)
      let s := s.setReg (rTRP_G0_CAUSE + 4 * g) (word (first + 65536 * trips))
      let s := (s.count rTRP_CNT_DT_SUPP supp).setBit rTRP_STAT 0
      let s := s.irq 3
      let s := s.setGrp g { s.grp g with
        st := if x.st == .frozen then .frozen else .tripped, tripHop := x.st == .frozen
        cause := 2, act := a.1, cmtReq := false, tripAt := some s.clk.t
        tripWas := (s.groupOuts g).map fun o => (o, s.drive o)
        latches := if a.2 then [(src, a.1)] else [], pulses := if a.2 then [] else [(src, a.1)] }
      let s := (s.spoilPreds g).carrierStopped g
      if a.1 = 2 then s.groupOrdered g else s.groupSafe g
    else s

/-- A source becomes active: every group takes its action (R216). -/
def State.sourceOn (s : State) (src : Nat) : State :=
  let s := { s with trp := { s.trp with active := s.trp.active ||| BitVec.ofNat 128 (2 ^ src) } }
  s.each (List.range 8) fun s g => s.tripGroup src g

/-- A group whose trips have all gone enters STOPPED (R219). -/
def State.groupUntrip (s : State) (g : Nat) : State :=
  let x := s.grp g
  if x.st == .tripped && x.latches.isEmpty && x.pulses.isEmpty then
    let s := s.setGrp g { x with st := .stopped, act := 0 }
    if x.seqRun then s else s.groupSafe g
  else s

/-- A source releases: groups tripped only by non-latching sources that have all released enter STOPPED (R219). -/
def State.sourceOff (s : State) (src : Nat) : State :=
  let s := { s with trp := { s.trp with active := s.trp.active &&& ~~~ BitVec.ofNat 128 (2 ^ src) } }
  s.each (List.range 8) fun s g =>
    let x := s.grp g
    (s.setGrp g { x with pulses := x.pulses.filter fun p => p.1 != src }).groupUntrip g

/-- A source that pulses: it acts and counts as inactive again (R220). -/
def State.sourcePulse (s : State) (src : Nat) : State := (s.sourceOn src).sourceOff src

/-- Gives a source a level. -/
def State.putSource (s : State) (src : Nat) (on : Bool) : State :=
  if on = s.srcActive src then s else if on then s.sourceOn src else s.sourceOff src

/-- True while any source that acts on the group is active. -/
def State.actedOn (s : State) (g : Nat) : Bool :=
  (List.range 128).any fun src => s.srcActive src && (s.sourceAction src g).1 != 0

/-! ### The leg-local response (R223 to R225) -/

def State.tripLeg (s : State) (l off n : Nat) : Nat := field (s.sec secTrip) (0x10 + 16 * l + off) n
def State.legLocalOn (s : State) (l : Nat) : Bool := bit (field (s.sec secTrip) 4 4) l
def State.acTries (s : State) (l : Nat) : Nat := bits (s.tripLeg l 2 1) 0 3

/-- The leg goes FREE, by the ordered sequence where its group's NPC_SEQ is burned; a second response in the group while
the first holds its leg or lies within TWIN raises TWO_LEG. -/
def State.legLocal (s : State) (l : Nat) : State :=
  match s.legGroup l with
  | none => s
  | some g =>
    let x := s.leg l
    let second := (s.groupLegs g).any fun k => (s.leg k).freed ||
      match (s.leg k).respAt with
      | some t => decide (s.le.cyc ≤ t + 400 * field (s.sec secTrip) 8 2)
      | none => false
    let latch := decide (x.tries ≥ s.acTries l)
    let running := (s.grp g).st == .running || (s.grp g).st == .frozen
    let s := if !running then s
      else if s.npcSeq g then s.outerOff (s.legOuts l)
      else s.each (s.legOuts l) fun s o => s.setDrive o .off
    let s := s.quietLeg l
    let s := s.setLeg l { s.leg l with freed := true, latched := latch, clearDue := false, ready := false, respAt := some s.le.cyc }
    let s := s.setBit rTRP_STAT 3
    let s := if latch then s.setBit rTRP_STAT 5 else s
    let s := if running && s.npcSeq g then s.setGrp g { s.grp g with seqRun := true } else s
    if second then (s.setBit rTRP_STAT 4).sourcePulse (0x70 + g) else s

/-- A FLT_N source becomes active: its rows act, or the leg-local response where no row names it (R223); a leg that waits for
its reload after a clear responds again. -/
def State.fltOn (s : State) (l : Nat) : State :=
  let src := 0x12 + l
  let s := (s.setBit rGDS_STAT 0).inc rGDS_CNT_FLT
  let s := s.sourceOn src
  if s.legLocalOn l && !s.rowed src && (!(s.leg l).freed || (s.leg l).ready) then s.legLocal l else s

/-- A FLT_N source releases: a leg-local response that is not latched has its automatic clear pending (R225). -/
def State.fltOff (s : State) (l : Nat) : State :=
  let s := s.sourceOff (0x12 + l)
  let x := s.leg l
  if x.freed && !x.latched then s.setLeg l { x with clearDue := true } else s

end Sys2Proof.Machine
end

