-- ==== Sys2Proof/Machine/GridBank.lean ====
section
/-!
DEFINITION. Coefficient banks, the GRID bank among them (R80, R237), and the STOPs that GRD issues while it has ceased
(R259).
-/

namespace Sys2Proof.Machine

/-- The entry of a bank: its index in the payload's entry list. -/
def bankIndex (p : List Byte) (id : Nat) : Option Nat :=
  (List.range (field p 0 2)).find? fun i => field p (8 + 8 * i) 2 == id

/-- The words of the banks before entry `i`. -/
def bankOffset (p : List Byte) (i : Nat) : Nat :=
  ((List.range i).map fun k => field p (8 + 8 * k + 4) 4).foldl (· + ·) 0

/-- A word of a bank of a LOOP_COEF payload; a bank that is absent reads as zero. -/
def bankWord (p : List Byte) (id i : Nat) : Word :=
  match bankIndex p id with
  | some k => word (field p (8 + 8 * field p 0 2 + 4 * (bankOffset p k + i)) 4)
  | none => 0

/-- WORDS of a bank. -/
def bankLenOf (p : List Byte) (id : Nat) : Nat :=
  match bankIndex p id with
  | some k => field p (8 + 8 * k + 4) 4
  | none => 0

/-- A word of the GRID bank, LOOP_COEF bank 1,023 (Table 10.1). -/
def State.gridWord (s : State) (i : Nat) : Word := bankWord (s.sec secLoopCoef) 1023 i

/-- A word of the TRESTLE bank, LOOP_COEF bank 1,022 (Table 15.4). -/
def State.trsBank (s : State) (i : Nat) : Nat := (bankWord (s.sec secLoopCoef) 1022 i).toNat
def State.trsBankOn (s : State) : Bool := s.hasSec secLoopCoef && (bankIndex (s.sec secLoopCoef) 1022).isSome

/-- GRD_STAT.ENABLED: the GRID bank is in force. -/
def State.gridOn (s : State) : Bool := s.hasSec secLoopCoef && (bankIndex (s.sec secLoopCoef) 1023).isSome

/-- FLAGS and GROUPS of the GRID bank. -/
def State.gridFlag (s : State) (n : Nat) : Bool := (s.gridWord 1).getLsbD n
def State.ceaseGroups (s : State) : Nat := bits (s.gridWord 2).toNat 0 8
def State.genContext (s : State) : Nat := bits (s.gridWord 2).toNat 8 6

/-- A group that becomes ARMED while GRD is in CEASED is stopped on that edge and counted (R259, R261). -/
def State.grdRestop (s : State) (g : Nat) : State :=
  if s.grd.st = 3 && s.gridOn && bit s.ceaseGroups g && (s.grp g).st == .armed then
    (s.groupStop g 1).inc rGRD_CNT_RESTOP
  else s

end Sys2Proof.Machine
end

