-- ==== Sys2Proof/Machine/PairOps.lean ====
section
/-!
DEFINITION. The settings of a redundant pair (Table 15.4), and the switchover trigger that several units raise (R369).
-/

namespace Sys2Proof.Machine

def State.setPair (s : State) (x : Pair) : State := { s with pair := x }

/-- FLAGS, PAIR, FOLLOW and LIMITS of the TRESTLE bank. -/
def State.pairOn (s : State) : Bool := bit (s.trsBank 1) 0
def State.pairPrimary (s : State) : Bool := bit (s.trsBank 1) 1
def State.pairAutoTake (s : State) : Bool := bit (s.trsBank 1) 2
def State.pairRole (s : State) : Nat := 4 + bits (s.trsBank 2) 0 2
def State.partnerRank (s : State) : Nat := bits (s.trsBank 2) 4 6
def State.pairGroup (s : State) : Nat := bits (s.trsBank 2) 12 3
def State.pairGroups (s : State) : Nat := bits (s.trsBank 2) 16 8
def State.mirDiv (s : State) : Nat := max 1 (bits (s.trsBank 2) 24 8)
def State.pairFollow (s : State) : List Nat := (List.range 4).filter fun r => bit (s.trsBank 3) r
def State.mmN (s : State) : Nat := bits (s.trsBank 4) 0 8
def State.mirMax (s : State) : Nat := bits (s.trsBank 4) 8 8

/-- A trigger of R369: PAIR_ACT_OUT is released; an active device's paired outputs go high-impedance and its pair duty
ends. The heartbeat follows from the device's health. -/
def State.pairTrigger (s : State) : State :=
  if !s.pairOn && s.pair.role = 0 then s
  else if s.pair.role = 3 then
    s.setPair { s.pair with
      actOut := false, role := 0, zGroups := s.pairGroups, driving := 0, trigAt := none, tookOver := false
      handover := none }
  else s.setPair { s.pair with actOut := false }

end Sys2Proof.Machine
end

