-- ==== Sys2Proof/Machine/LeCore.lean ====
section
/-!
DEFINITION. Contexts and how they start, stop and share the lanes (R76 to R91, R99, R100, R102): descriptors, start
requests, displacement, the end of a run, exceptions, deadline misses and trace records; and the staging blocks that a
context writes, seals and gives up (R127, R128).
-/

namespace Sys2Proof.Machine

/-! ### LOOP_PROG and LOOP_COEF (Tables 4.2, 4.3, R80) -/

def nCtx (p : List Byte) : Nat := field p 0 2
def codeWordsOf (p : List Byte) : Nat := field p 4 4
def hostWinBase (p : List Byte) : Nat := field p 8 4
def hostWinLen (p : List Byte) : Nat := field p 12 4

/-- The descriptor at index `i` of a LOOP_PROG payload. -/
def descAt (p : List Byte) (i : Nat) : Desc :=
  let o := 0x30 + 32 * i
  { prio := bits (field p (o + 1) 1) 0 3
    flags := field p (o + 2) 2
    entry := field p (o + 4) 2
    initEntry := field p (o + 6) 2
    budget := field p (o + 8) 4 % 2 ^ 24
    adcTrig := field p (o + 12) 2
    stageGroups := field p (o + 14) 1
    ceQuota := field p (o + 15) 1
    bank := field p (o + 16) 2
    waitRel := field p (o + 18) 2
    wBase := field p (o + 20) 4
    wLen := field p (o + 24) 4 }

/-- The descriptor that a LOOP_PROG payload gives a context. -/
def descOf (p : List Byte) (n : Nat) : Option Desc :=
  ((List.range (nCtx p)).find? fun i => field p (0x30 + 32 * i) 1 == n).map (descAt p)

/-- The descriptor in force of a context. -/
def State.desc (s : State) (n : Nat) : Option Desc := descOf (s.sec secLoopProg) n

def Desc.enable (d : Desc) : Bool := bit d.flags 0
def Desc.gen (d : Desc) : Bool := bit d.flags 1
def Desc.doorbell (d : Desc) : Bool := bit d.flags 2
def Desc.trace (d : Desc) : Bool := bit d.flags 3
def Desc.traceUnit (d : Desc) : Nat := bits d.flags 4 2
/-- MISS_ACT: 0 COUNT, 1 ABORT, 2 ABORT_TRIP. -/
def Desc.missAct (d : Desc) : Nat := bits d.flags 6 2
def Desc.excTrip (d : Desc) : Bool := bit d.flags 8

/-- The LCM byte base of a bank in force; none without the bank. -/
def State.bankBase (s : State) (id : Nat) : Option Nat :=
  let p := s.sec secLoopCoef
  if id = 0 || !s.hasSec secLoopCoef then none
  else (bankIndex p id).map fun i => 4 * (s.le.coefBase + bankOffset p i)

/-! ### Trace units (R99, R100) -/

def State.trcBase (s : State) (u : Nat) : Nat := field (s.sec secLoopProg) (0x10 + 8 * u) 4
def State.trcSize (s : State) (u : Nat) : Nat := field (s.sec secLoopProg) (0x14 + 8 * u) 2
def State.trcMode (s : State) (u : Nat) : Nat := field (s.sec secLoopProg) (0x16 + 8 * u) 1

/-- The records that wait in a unit's buffer, oldest first. -/
def State.trcBuf (s : State) (u : Nat) : List (List Byte) := SMap.get (fun _ => []) s.le.trcBuf u
def State.setTrcBuf (s : State) (u : Nat) (l : List (List Byte)) : State :=
  { s with le := { s.le with trcBuf := SMap.set (fun _ => []) s.le.trcBuf u l } }

/-- A record is dropped and counted. -/
def State.traceDrop (s : State) (u : Nat) : State := (s.inc (rLE_TRC_DROP0 + 8 * u)).setBit rLE_STAT 9

/-- Makes one 16-byte record: it enters the unit's 8-record buffer, or is dropped where the buffer, or a stopped ring, is
full (R100). -/
def State.traceUnit (s : State) (u kind ctx pc : Nat) (data : List Byte) : State :=
  if s.trcBase u = 0xFFFFFFFF || !s.hasSec secLoopProg then s
  else if bit s.le.traceFull u || decide (8 ≤ (s.trcBuf u).length) then s.traceDrop u
  else s.setTrcBuf u (s.trcBuf u ++ [leBytes 4 (s.le.cyc % 2 ^ 32) ++ leBytes 1 kind ++ leBytes 1 ctx ++
    leBytes 2 (pc % 2 ^ 14) ++ slice data 0 8])

/-- The oldest record of a unit's buffer goes to the ring; LE_TRC_WPn moves to the next slot, and a ring that does not wrap
stops when it is full (R99, R100). -/
def State.traceDrain (s : State) (u : Nat) : State :=
  match s.trcBuf u with
  | [] => s
  | x :: rest =>
    let s := s.setTrcBuf u rest
    if s.trcBase u = 0xFFFFFFFF || !s.hasSec secLoopProg then s
    else if bit s.le.traceFull u then s.traceDrop u
    else
      let wp := (s.reg (rLE_TRC_WP0 + 8 * u)).toNat
      let s := s.setBytes (sramBase + s.trcBase u + 16 * wp) x
      if wp + 1 < s.trcSize u then s.setReg (rLE_TRC_WP0 + 8 * u) (word (wp + 1))
      else if bit (s.trcMode u) 0 then s.setReg (rLE_TRC_WP0 + 8 * u) 0
      else
        let s := s.setReg (rLE_TRC_WP0 + 8 * u) (word ((wp + 1) % 2 ^ 15))
        { s with le := { s.le with traceFull := s.le.traceFull + 2 ^ u } }

/-- On an edge, each unit that holds records may write its oldest one. When it does so the spec does not say: a free value
decides (log 11). -/
def State.traceDrains (s : State) : State :=
  let held := (List.range 4).filter fun u => !(s.trcBuf u).isEmpty
  if held.isEmpty then s
  else
    let f := s.takeFree
    f.2.each (held.filter fun u => f.1.getLsbD u) State.traceDrain

/-- A LOOP_PROG commit that changes a unit's entry begins its ring anew. DESIGN CHOICE (log 43): the spec does not say what
becomes of LE_TRC_WPn. -/
def State.traceCommit (s : State) (old : List Byte) : State :=
  s.each ((List.range 4).filter fun u => slice old (0x10 + 8 * u) 8 != slice (s.sec secLoopProg) (0x10 + 8 * u) 8) fun s u =>
    let s := s.setReg (rLE_TRC_WP0 + 8 * u) 0
    { s with le := { s.le with traceFull := s.le.traceFull - (s.le.traceFull &&& 2 ^ u) } }

/-- A record of a context, made only while its TRACE is set; kinds 1 and 2 need MODE[1], kinds 3 and 4 MODE[2]. -/
def State.trace (s : State) (n kind : Nat) (data : List Byte) : State :=
  let c := s.ctx n
  let u := c.desc.traceUnit
  let wanted := if kind = 1 || kind = 2 then bit (s.trcMode u) 1 else if kind = 3 || kind = 4 then bit (s.trcMode u) 2 else true
  if c.desc.trace && wanted then s.traceUnit u kind n c.pc data else s

/-! ### Staging (R127, R128) -/

/-- A staging word of a group. -/
def Group.word (x : Group) (i : Nat) : Word := SMap.get zeroWord x.stage i

/-- Writes a staging word; words 13 to 31 ignore what is written (Table 7.6). -/
def State.stageWord (s : State) (g i : Nat) (v : Word) : State :=
  if i < 13 then s.setGrp g { s.grp g with stage := SMap.set zeroWord (s.grp g).stage i v } else s

/-- The staged values that are not sealed return to those of the last seal (R128). -/
def State.unstage (s : State) (g : Nat) : State := s.setGrp g { s.grp g with stage := (s.grp g).sealedStage }

/-- Seals a group's whole block; two seals before one reload leave the later (R128, R175). A seal lands 3 PTC cycles after
its edge: the next reload does not take one that lands at count P − 4 or later, and one that lands inside the window is late
(R24). -/
def State.sealGroup (s : State) (n g : Nat) : State :=
  let x := s.grp g
  let lands := x.cntU / 2000000 + 3
  let inWindow := x.st == .running && decide (x.per ≤ lands + 4)
  let block := some ((List.range 13).map x.word)
  let older := (s.ctx n).preds.any fun p => p.group == g && p.use == .staged
  let s := if older && !inWindow then s.setCtx n ((s.ctx n).markPreds g .sealed .spoiled) else s
  let s := s.setGrp g (if inWindow then { x with sealedStage := x.stage, lateSeal := block, crossing := decide (x.per ≤ lands) }
    else { x with sealedStage := x.stage, newSeal := block })
  let s := if inWindow && decide (lands < x.per) then (s.inc (rPWM_Gn_CNT_LATE g)).setBit (rPWM_Gn_STAT g) 3 else s
  s.setCtx n ((s.ctx n).markPreds g .staged (if inWindow then .late else .sealed))

/-- Discards the unsealed staging of every group of a context. -/
def State.unstageAll (s : State) (n : Nat) : State :=
  let m := (s.ctx n).desc.stageGroups
  s.each ((List.range 8).filter fun g => bit m g) fun s g =>
    (s.unstage g).setCtx n (((s.unstage g).ctx n).markPreds g .staged .spoiled)

/-! ### The lanes -/

/-- The bit of a context in a pair of LO and HI registers. -/
def State.setCtxBit (s : State) (rLo rHi n : Nat) : State := if n < 32 then s.setBit rLo n else s.setBit rHi (n - 32)

/-- The first context of the highest priority in the queue (R85). -/
def State.best (s : State) : Option Nat :=
  let prioOf := fun n => (s.ctx n).desc.prio
  s.le.queue.foldl (fun b n => match b with
    | none => some n
    | some m => if prioOf n > prioOf m then some n else b) none

/-- Puts a context at the back of the queue. -/
def State.enqueue (s : State) (n : Nat) : State := { s with le := { s.le with queue := s.le.queue ++ [n] } }
def State.dequeue (s : State) (n : Nat) : State := { s with le := { s.le with queue := s.le.queue.filter (· != n) } }

/-- True while contexts may issue: LE_STAT.RUN, not halted, not stopped. -/
def State.leOpen (s : State) : Bool := s.le.run && !s.le.halted && !s.le.stopped

/-- The running context leaves the lanes, its holding time counted (R90). -/
def State.dropLanes (s : State) : State :=
  let n := s.le.running
  if n = 0 then s
  else
    let c := s.ctx n
    let s := s.setCtx n { c with exe := c.exe + (s.le.cyc - c.heldFrom) }
    { s with le := { s.le with running := 0 } }

/-- A READY context of higher priority displaces the running one, which returns to the queue ahead of its own priority
(R85). -/
def State.displace (s : State) : State :=
  let r := s.le.running
  if r = 0 || !s.leOpen then s
  else match s.best with
    | none => s
    | some m =>
      if (s.ctx m).desc.prio > (s.ctx r).desc.prio then
        let s := s.trace r 3 []
        let s := s.dropLanes
        let s := s.setCtx r { s.ctx r with st := .preempted }
        { s with le := { s.le with queue := r :: s.le.queue } }
      else s

/-- An overrun (R84). -/
def State.overrun (s : State) (n : Nat) : State :=
  let c := s.ctx n
  (s.setCtx n { c with cntOvr := satInc c.cntOvr, ovrSince := min 0xFFFF (c.ovrSince + 1) }).setBit rLE_STAT 5

/-- A start request reaches a context (R84); true when it was an overrun. It is ignored while LE_STAT.RUN is clear (R379). `reason` is Table 4.8's: 0 EVT, 1 ADC,
2 doorbell, 3 SIG. -/
def State.request (s : State) (n reason : Nat) (arg : Word) : State × Bool :=
  let c := s.ctx n
  let q : StartReq := { time := s.le.cyc, reason := reason, arg := arg }
  if !s.le.run then (s, false) else
  match c.st with
  | .disabled => (s, false)
  | .fault => (s.overrun n, true)
  | .idle =>
    let d := (s.desc n).getD c.desc
    ((s.setCtx n { c with st := .ready, begun := false, req := q, desc := d }).enqueue n |>.displace, false)
  | _ =>
    if c.disPend then (s, false)
    else if c.pend.isSome || (c.st == .ready && !c.begun) then (s.overrun n, true)
    else (s.setCtx n { c with pend := some q }, false)

/-- A commit clearing (R77): the registers are zero, the next start is a first start, and GS has no current region. -/
def Ctx.wipe (c : Ctx) : Ctx :=
  { c with
    s := [], v := [], acc := [], p := [], pc := 0, flags := 0, initNext := true, region := none, clearDue := false }

/-- What follows a run: DISABLED under a waiting DISABLE, READY where a start is pending, else IDLE (R84, R102). -/
def State.afterRun (s : State) (n : Nat) : State :=
  let c := if (s.ctx n).clearDue then (s.ctx n).wipe else s.ctx n
  if c.disPend then s.setCtx n { c with st := .disabled, disPend := false, pend := none, begun := false }
  else match c.pend with
    | some q =>
      (s.setCtx n { c with st := .ready, begun := false, req := q, pend := none, desc := (s.desc n).getD c.desc }).enqueue n
    | none => s.setCtx n { c with st := .idle, begun := false }

/-- An evaluation of the context still in progress is read by nobody (R113). -/
def State.discardEvals (s : State) (n : Nat) : State :=
  { s with ce := { s.ce with
      queue := s.ce.queue.map fun e => if e.ctx = n then { e with discarded := true } else e
      service := s.ce.service.map fun e => if e.ctx = n then { e with discarded := true } else e } }

/-- The end of a run, by END or as if END had executed (R90, R113): unsealed staging goes, the CANDSET configuration is
cancelled, an evaluation in progress is discarded and the run's times are recorded. -/
def State.endRun (s : State) (n : Nat) : State :=
  let s := if s.le.running = n then s.dropLanes else s.dequeue n
  let s := s.trace n 2 []
  let s := s.unstageAll n
  let s := s.discardEvals n
  let c := s.ctx n
  let s := s.setCtx n { c with
    candset := none, evalIssued := false, relWait := false
    maxLat := min 0xFFFFFFFF (max c.maxLat (s.le.cyc - c.req.time))
    maxExe := min 0xFFFFFFFF (max c.maxExe c.exe) }
  (s.afterRun n).displace

/-- LE_FAULT becomes active for the groups of a context (R90, R91), or only pulses; where it is active it stays so. -/
def State.leFault (s : State) (groups : Nat) (pulse : Bool) : State :=
  s.each ((List.range 8).filter fun g => bit groups g && !s.srcActive (0x40 + g)) fun s g =>
    if pulse then s.sourcePulse (0x40 + g) else s.sourceOn (0x40 + g)

/-- The LE_FAULT sources that no longer hold: lanes exhausted, or a FAULT context with EXC_TRIP that names the group
(Table 9.1). -/
def State.leFaultRefresh (s : State) : State :=
  if s.le.stopped then s
  else s.each (List.range 8) fun s g =>
    let held := ctxIds.any fun n => (s.ctx n).st == .fault && (s.ctx n).desc.excTrip && bit (s.ctx n).desc.stageGroups g
    if s.srcActive (0x40 + g) && !held then s.sourceOff (0x40 + g) else s

/-- Exception codes of Table 4.5. -/
inductive Exc where
  | illegal | ldmWrite | align | roSpace | ioAddr | ioPerm | ecc | pcRange
  deriving DecidableEq, Repr

def Exc.code : Exc → Nat
  | .illegal => 1
  | .ldmWrite => 2
  | .align => 3
  | .roSpace => 4
  | .ioAddr => 5
  | .ioPerm => 6
  | .ecc => 7
  | .pcRange => 8

/-- An instruction raises an exception (R91): the context enters FAULT, unsealed staging and a pending start are
dropped, a waiting DISABLE lapses, and LE_FAULT acts where EXC_TRIP is set. A clearing that waited for the run's END takes
effect now that the run is over (R77). DESIGN CHOICE (log 43): LE_CTX_MAXLAT and LE_CTX_MAXEXE keep what they hold. -/
def State.raise (s : State) (n : Nat) (e : Exc) : State :=
  let s := s.trace n 5 [BitVec.ofNat 8 e.code]
  let s := s.dropLanes
  let s := s.unstageAll n
  let s := s.discardEvals n
  let c := s.ctx n
  let s := s.setCtx n { (if c.clearDue then c.wipe else c) with
    st := .fault, pend := none, disPend := false, begun := false, candset := none, evalIssued := false
    excCode := e.code, excPc := c.pc }
  let s := s.setBit rLE_STAT 4
  if c.desc.excTrip then s.leFault c.desc.stageGroups false else s

end Sys2Proof.Machine
end

