-- ==== Sys2Proof/Machine/Logs.lean ====
section
/-!
DEFINITION. The spare log and EVENT queues that several units enter (R294, R402, R403, R405).
-/

namespace Sys2Proof.Machine

/-! ### Spare log and EVENT queue -/

/-- Queues an EVENT record; with 64 waiting it is dropped and counted (R294). -/
def State.event (s : State) (payload : List Byte) : State :=
  if s.evq.length < 64 then { s with evq := s.evq ++ [payload] } else s.inc rSHF_CNT_EVDROP

/-- A bit of LIF_SPSTAT; a new one raises the LIF interrupt (R405). -/
def State.spstat (s : State) (n : Nat) : State :=
  if s.regBit rLIF_SPSTAT n then s else (s.setBit rLIF_SPSTAT n).irq 8

/-- One spare-log entry (R403): the queue of 16 behind LIF_SPLOG, and the EVENT stream. -/
def State.spareEntry (s : State) (cls act res detail used left : Nat) : State :=
  let s := if s.spareLog.length < 16 then
      { s with spareLog := s.spareLog ++ [word (cls + 256 * act + 65536 * (res % 2 ^ 15) + 2 ^ 31)] }
    else s.spstat 8
  s.event (leBytes 1 cls ++ leBytes 1 act ++ leBytes 2 res ++ leBytes 4 detail ++ leBytes 2 used ++ leBytes 2 left ++
    leBytes 4 0)

/-- A spare brought in (R402, R403). -/
def State.spareUsed (s : State) (cls res detail used left : Nat) : State :=
  (s.spstat 0).spareEntry cls 1 res detail used left

/-- A resource exhausted: its LIF_SPSTAT bit and its log entry (R402, R405). -/
def State.spareExhausted (s : State) (bitNo cls res detail used : Nat) : State :=
  (s.spstat bitNo).spareEntry cls 2 res detail used 0

end Sys2Proof.Machine
end

