-- ==== Sys2Proof/Machine/Chopper.lean ====
section
/-!
DEFINITION. The dump chopper (R230 to R233).
-/

namespace Sys2Proof.Machine

/-! ### The chopper block (Table 9.11) -/

def State.chpField (s : State) (off n : Nat) : Nat := field (s.sec secTrip) (0x190 + off) n
def State.chpSigned (s : State) (off : Nat) : Int := sfield (s.sec secTrip) (0x190 + off) 2

/-- CHP_LEG, while a TRIP section names one. -/
def State.chpLeg (s : State) : Option Nat :=
  if s.hasSec secTrip && s.chpField 0 1 != 0xFF then some (s.chpField 0 1) else none
def State.chpGroup (s : State) : Option Nat := s.chpLeg.bind s.legGroup

/-- A result word's place: 64 c + index, from VSRC or ISRC. -/
def srcWord (v : Nat) : Nat := 64 * bits v 6 2 + bits v 0 6

/-- The word that a SAR result slot holds; EMPTY before its first conversion (Table 8.5). -/
def emptyResult : Nat → Word := fun _ => word (2 ^ 17)
def State.result (s : State) (i : Nat) : Word := SMap.get emptyResult s.adc.results i

/-- The signed code and the VALID bit of a result word (Table 8.4). -/
def resCode (w : Word) : Int := signed 16 w.toNat
def resValid (w : Word) : Bool := w.getLsbD 16

/-- The chopper's output goes off and stays off: no switching of its leg is pending, and the leg reports level 0. -/
def State.chpOff (s : State) : State :=
  match s.chpLeg with
  | none => s
  | some l =>
    let s := match s.legOut l 0 with
      | some o => if s.drive o = Drive.on then s.setDrive o .off else s
      | none => s
    s.setLeg l { s.leg l with
      now := some 0, edges := [], tail := [], held := [], endState := some 0
      runs := [{ pair := 0, start := some false, runs := [] }] }

/-- A chopper fault is latched (R231, R232): the output goes off at once and CHP_FAULT becomes active. -/
def State.chpFault (s : State) (k : ChpKind) : State :=
  let s := { s with chp := { s.chp with kind := k, active := false, duty := 0, pulseFrom := 0, pulseTo := 0 } }
  (s.chpOff).sourceOn 0x3C

/-- True while the chopper drives its leg (R230): its group RUNNING and no fault latched. -/
def State.chpRuns (s : State) : Bool :=
  match s.chpGroup with
  | some g => (s.grp g).st == .running && s.chp.kind == .none
  | none => false

/-- The duty of an active chopper at code V: (V − V_OFF) / (V_FULL − V_OFF) clamped, Q1.31, 1.0 as 0x7FFF_FFFF. The
rounding is left open (log 5). -/
def chpDuty (v off full : Int) : Nat :=
  if full ≤ off then 0
  else (clampInt 0 (2 ^ 31 - 1) (divOpen 1 ((v - off) * 2 ^ 31) (full - off))).toNat

/-- The start of a period of the chopper's group: the newest VALID word at VSRC sets the activity and the duty; an
invalid word keeps the duty for at most 4 periods (R230). A pulse period that gave no qualifying sample is noted
(R231). -/
def State.chpPeriod (s : State) : State :=
  let s : State := if decide (s.chp.duty > 0) && !s.chp.qualified then s.setBit rCHP_STAT 8 else s
  let w := s.result (srcWord (s.chpField 2 2))
  let c := s.chp
  let s : State :=
    if resValid w then
      let v := resCode w
      let act := if v ≥ s.chpSigned 6 then true else if v < s.chpSigned 8 then false else c.active
      { s with chp := { c with
          active := act, invalidPeriods := 0, lastV := v, qualified := false
          duty := if act then chpDuty v (s.chpSigned 8) (s.chpSigned 10) else 0 } }
    else
      let n := c.invalidPeriods + 1
      let s := if n > 4 then s.setBit rCHP_STAT 9 else s
      { s with chp := { c with
          invalidPeriods := n, qualified := false, duty := if n > 4 then 0 else c.duty } }
  if s.chp.duty > 0 then s.inc rCHP_CNT_PULSE else s

/-- A sample of the chopper current, taken `at16` sixteenths into the period (R231, R232). -/
def State.chpCurrent (s : State) (i at16 : Int) : State :=
  if !s.chpRuns then s
  else
    let c := s.chp
    let nconf := s.chpField 0x12 1
    let iz := sfield (s.sec secTrip) (0x190 + 0x22) 2
    let vz := sfield (s.sec secTrip) (0x190 + 0x20) 2
    let s := { s with chp := { c with lastI := i } }
    if c.duty = 0 then
      if !bit (s.chpField 1 1) 0 then s
      else if i - iz > (s.chpField 0x0E 2 : Int) then
        let s := s.inc rCHP_CNT_SHORT
        let s := { s with chp := { s.chp with shortRun := c.shortRun + 1 } }
        if c.shortRun + 1 ≥ nconf then s.chpFault .shortCurrent else s
      else { s with chp := { s.chp with shortRun := 0 } }
    else if at16 ≥ c.pulseFrom + s.ns16 (s.chpField 0x10 2) && decide (at16 < c.pulseTo) then
      let s := { s with chp := { s.chp with qualified := true } }
      if (i - iz) * 4096 < (c.lastV - vz) * (s.chpField 0x0C 2 : Int) then
        let s := s.inc rCHP_CNT_OPEN
        let s := { s with chp := { s.chp with openRun := c.openRun + 1 } }
        if c.openRun + 1 ≥ nconf then s.chpFault .openCircuit else s
      else { s with chp := { s.chp with openRun := 0 } }
    else s

/-- A reading of V for the droop check: with the chopper off and the droop groups not RUNNING, a fall by more than
DROOP_V within DROOP_T latches the fault (R232). -/
def State.chpDroop (s : State) (v : Int) : State :=
  let off := decide (s.chp.duty = 0) || !s.chpRuns
  let idle := (List.range 8).all fun g => !bit (s.chpField 0x13 1) g || (s.grp g).st != .running
  if !bit (s.chpField 1 1) 1 || !off || !idle || s.chpLeg.isNone then { s with chp := { s.chp with droop := [] } }
  else
    let win := s.chpField 0x16 2 * 400000
    let kept := s.chp.droop.filter fun p => decide (s.le.cyc - p.1 ≤ win)
    if kept.any (fun p => decide (p.2 - v > (s.chpField 0x14 2 : Int))) && s.chp.kind == .none then
      let s := { s with chp := { s.chp with droop := [] } }
      (s.inc rCHP_CNT_SHORT).chpFault .shortDroop
    else { s with chp := { s.chp with droop := (s.le.cyc, v) :: kept } }

/-- The groups of DCOV2_ORDER, first to last (Table 9.11). -/
def State.dcov2List (s : State) : List Nat :=
  ((List.range 8).map fun k => bits (s.chpField 0x1C 4) (4 * k) 4).takeWhile (· != 15)

/-- The DC_OV2 sequence goes on: groups already stopped are passed over without a wait, the next one is stopped
(R233). -/
def State.dcov2Go (s : State) : Nat → State
  | 0 => { s with chp := { s.chp with dcov2 := none } }
  | fuel + 1 =>
    match s.chp.dcov2 with
    | none => s
    | some k =>
      match s.dcov2List[k]? with
      | none => { s with chp := { s.chp with dcov2 := none } }
      | some g =>
        let s' := { s with chp := { s.chp with dcov2 := if k + 1 < s.dcov2List.length then some (k + 1) else none } }
        if (s.grp g).st.live then s'.groupStop g 1 else s'.dcov2Go fuel

/-- DC_OV2 becomes active: the staged stop begins, or, while it runs, begins again with its next step (R233; DESIGN
CHOICE, log 46). -/
def State.dcov2Start (s : State) : State :=
  let run := s.chp.dcov2.isSome
  let s := s.inc rCHP_CNT_DCOV2
  let s := { s with chp := { s.chp with dcov2 := some 0 } }
  if run then s else s.dcov2Go 9

end Sys2Proof.Machine
end

