-- ==== Sys2Proof/Machine/Adc.lean ====
section
/-!
DEFINITION. The SAR converters (R186 to R197): sequences and their starts, result words, cross-checks, calibration,
reference checks, and ADC E standing in.
-/

namespace Sys2Proof.Machine

/-! ### State access -/

def Conv.zero : Nat → Conv := fun _ => {}
def PhysConv.zero : Nat → PhysConv := fun _ => {}
def XPair.zero : Nat → XPair := fun _ => {}

def State.conv (s : State) (c : Nat) : Conv := SMap.get Conv.zero s.adc.conv c
def State.setConv (s : State) (c : Nat) (x : Conv) : State :=
  { s with adc := { s.adc with conv := SMap.set Conv.zero s.adc.conv c x } }
def State.phys (s : State) (p : Nat) : PhysConv := SMap.get PhysConv.zero s.adc.phys p
def State.setPhys (s : State) (p : Nat) (x : PhysConv) : State :=
  { s with adc := { s.adc with phys := SMap.set PhysConv.zero s.adc.phys p x } }
def State.xpair (s : State) (i : Nat) : XPair := SMap.get XPair.zero s.adc.xpair i
def State.setXpair (s : State) (i : Nat) (x : XPair) : State :=
  { s with adc := { s.adc with xpair := SMap.set XPair.zero s.adc.xpair i x } }

/-- The physical converter serving a logical converter (ADC_MAP). -/
def State.adcMap (s : State) (c : Nat) : Nat := SMap.get (fun n => n) s.adc.map c
def State.setAdcMap (s : State) (c p : Nat) : State :=
  { s with adc := { s.adc with map := SMap.set (fun n => n) s.adc.map c p } }

/-- The logical converter that a physical one serves. -/
def State.servedBy (s : State) (p : Nat) : Option Nat := (List.range 4).find? fun c => s.adcMap c == p

/-- The start that wrote a result word last; 0 none. -/
def State.resTag (s : State) (i : Nat) : Nat := SMap.get (fun _ => 0) s.adc.tags i

/-- Writes a result word whole (R192). -/
def State.setResult (s : State) (i : Nat) (w : Word) : State :=
  { s with adc := { s.adc with results := SMap.set emptyResult s.adc.results i w } }
/-- Notes the newest word of a channel. -/
def State.setLast (s : State) (ch : Nat) (w : Word) : State :=
  { s with adc := { s.adc with last := SMap.set emptyResult s.adc.last ch w } }
def State.setResTag (s : State) (i t : Nat) : State :=
  { s with adc := { s.adc with tags := SMap.set (fun _ => 0) s.adc.tags i t } }

/-! ### The ANALOG section (Table 8.8) -/

def State.seqField (s : State) (c q off n : Nat) : Nat := field (s.sec secAnalog) (0x10 + 4 * (16 * c + q) + off) n
def State.seqCount (s : State) (c q : Nat) : Nat := s.seqField c q 2 1
def State.seqChain (s : State) (c q : Nat) : Option Nat :=
  let x := s.seqField c q 3 1
  if bit x 4 then some (bits x 0 4) else none
def State.seqSettle (s : State) (c q : Nat) : Bool := bit (s.seqField c q 3 1) 5
/-- Slot `k` of a sequence. -/
def State.slotAt (s : State) (c q k : Nat) : Nat := field (s.sec secAnalog) (0x218 + 2 * (s.seqField c q 0 2 + k)) 2
def slotChannel (x : Nat) : Nat := bits x 0 6
def slotRange (x : Nat) : Nat := bits x 6 2
def slotIndex (x : Nat) : Nat := bits x 8 6
def slotRbchk (x : Nat) : Bool := bit x 14

def State.pairField (s : State) (i off n : Nat) : Nat := field (s.sec secAnalog) (0x148 + 8 * i + off) n
def State.nXchk (s : State) : Nat := field (s.sec secAnalog) 2 1

/-! ### Starts, chains and completions (R187 to R190, Table 8.3) -/

/-- A dropped start (R188). -/
def State.adcDrop (s : State) : State := (s.inc rADC_CNT_OVR).setBit rADC_STAT 0

/-- A converter completes a sequence: the contexts whose ADC_TRIG names it mark the converter (R189). -/
def State.adcTrig (s : State) (c : Nat) (r : SeqRun) : State :=
  s.each ctxIds fun s n =>
    match s.desc n with
    | none => s
    | some d =>
      let t := d.adcTrig
      if bit t 9 && bit t c && bits t 4 4 == r.seq && bit t 8 == r.inj then
        { s with adc := { s.adc with trig := SMap.set (fun _ => 0) s.adc.trig n (SMap.get (fun _ => 0) s.adc.trig n ||| 2 ^ c) } }
      else s

/-- The contexts of which every converter of the mask has completed are requested, in ascending order (R83). -/
def State.adcRequests (s : State) : State :=
  s.each ctxIds fun s n =>
    match s.desc n with
    | none => s
    | some d =>
      let want := bits d.adcTrig 0 4
      if bit d.adcTrig 9 && want != 0 && SMap.get (fun _ => 0) s.adc.trig n &&& want == want then
        let s := { s with adc := { s.adc with trig := SMap.set (fun _ => 0) s.adc.trig n 0 } }
        (s.request n 1 0).1
      else s

/-- What a converter does next after its sequence ended (R188, R189): a held injected start first, then the chain
target or the interrupted sequence, then a held regular start. -/
def State.convNext (s : State) (c : Nat) (r : SeqRun) : State :=
  let x := s.conv c
  let resume : Option SeqRun :=
    if r.inj then x.suspended
    else (s.seqChain c r.seq).map fun q => { seq := q, slot := 0, inj := false, tag := r.tag }
  match x.heldInj with
  | some h => s.setConv c { x with
      run := some { seq := h.1, slot := 0, inj := true, tag := h.2, since := s.clk.t }, suspended := resume, heldInj := none }
  | none =>
    match resume with
    | some q => s.setConv c { x with run := some { q with since := s.clk.t }, suspended := none }
    | none =>
      match x.heldReg with
      | some h => s.setConv c { x with
          run := some { seq := h.1, slot := 0, inj := false, tag := h.2, since := s.clk.t }, suspended := none, heldReg := none }
      | none => s.setConv c { x with run := none, suspended := none }

/-- Ends every sequence of the converter that has no slot left; a sequence without slots completes on its start edge
(R187). The fuel bounds the chain. -/
def State.convSettle (s : State) (c : Nat) : Nat → State
  | 0 => s
  | fuel + 1 =>
    match (s.conv c).run with
    | none => s
    | some r =>
      if s.seqCount c r.seq ≤ r.slot then ((s.adcTrig c r).convNext c r).convSettle c fuel else s

/-- The range of the calibration, check or restore conversion that a start finds on the idle converter and abandons, if
any (R188, R190, R195, R196): when these run within the idle time is left open, so which one it is comes from a free value
(log 45). A calibration has any range; a check has range 0, a restore the range of the last sequence conversion. -/
def State.idleConv (s : State) (p : Nat) : Option Nat × State :=
  let f := s.takeFree
  let n := f.1.toNat % 4
  ((if n = 0 then none
    else if s.adc.calRun then some (n - 1)
    else if n = 1 then some 0
    else if n = 2 && (s.phys p).prevRange != 0 then some (s.phys p).prevRange
    else none), f.2)

/-- One start on one converter (Table 8.3). On an idle one it proceeds on the edge; an idle conversion of another range
than the first slot's, abandoned for it, makes a lead-in conversion run whatever SETTLE (R190). -/
def State.convStart (s : State) (c seq : Nat) (inj : Bool) (tag : Nat) : State :=
  let x := s.conv c
  match x.run with
  | none =>
    let (idle, s) := s.idleConv (s.adcMap c)
    let forced := match idle with
      | some r => r != slotRange (s.slotAt c seq 0)
      | none => false
    (s.setConv c { x with
      run := some { seq := seq, slot := 0, inj := inj, tag := tag, forced := forced, since := s.clk.t } }).convSettle c 64
  | some _ =>
    if inj then
      if x.heldInj.isSome then s.adcDrop else s.setConv c { x with heldInj := some (seq, tag) }
    else if x.heldReg.isSome then s.adcDrop else s.setConv c { x with heldReg := some (seq, tag) }

/-- A start action on every converter of its mask (R188); without the SYS PLL it is ignored (Table 16.3). -/
def State.adcStart (s : State) (mask seq : Nat) (inj : Bool) : State :=
  if s.clk.fallback then s else
  let s := { s with adc := { s.adc with starts := s.adc.starts + 1 } }
  s.each ((List.range 4).filter fun c => bit mask c) fun s c => s.convStart c seq inj s.adc.starts

/-! ### Cross-checks (R194) -/

/-- Sets or clears a pair's bit of ADC_XCHK with its trip source. -/
def State.setXchk (s : State) (i : Nat) (on : Bool) : State := (s.putBit rADC_XCHK i on).putSource (0x34 + i) on

/-- The check of pair `i` when the word `w` has been written. -/
def State.xcheck (s : State) (w i : Nat) : State :=
  let x := 64 * s.pairField i 0 1 + s.pairField i 1 1
  let y := 64 * s.pairField i 2 1 + s.pairField i 3 1
  if (w != x && w != y) || s.resTag x != s.resTag y || s.resTag x == 0 || !resValid (s.result x) || !resValid (s.result y) then s
  else
    let nfail := s.pairField i 6 1
    let p := s.xpair i
    if (resCode (s.result x) - resCode (s.result y)).natAbs > s.pairField i 4 2 then
      let s := s.setResult x (s.result x ||| word (2 ^ 21))
      let s := s.setResult y (s.result y ||| word (2 ^ 21))
      let s := (s.inc rADC_CNT_XCHK).setBit rADC_STAT 1
      let s := s.setXpair i { fails := p.fails + 1, passes := 0 }
      if p.fails + 1 = nfail then (s.setBit rADC_STAT 2).setXchk i true else s
    else
      let s := s.setXpair i { fails := 0, passes := p.passes + 1 }
      if p.passes + 1 ≥ nfail then s.setXchk i false else s

/-! ### Threshold readback (R209) -/

/-- The threshold code THR of a comparator. -/
def State.cmpThr (s : State) (n : Nat) : Nat := bits (field (s.sec secAnalog) (0x188 + 8 * n + 2) 2) 0 12

/-- The code expected of a threshold at a gain from the VDDA / 2 code measured last: round(32,768 G (V − 1.5) / 1.5)
with V = THR VDDA / 4096 (R186, R205). -/
def rbExpected (thr gain : Nat) (c2 : Int) : Int :=
  clampInt (-32768) 32767 (divNearest ((gain : Int) * ((thr : Int) * (32768 + c2) - 32768 * 2048)) 2048)

/-- The readback check of a slot. -/
def State.readback (s : State) (ch range : Nat) (code : Int) : State :=
  match s.adc.vdda with
  | none => s
  | some c2 =>
    if (code - rbExpected (s.cmpThr (ch - 32)) (2 ^ range) c2).natAbs > 35 then
      ((s.setBit rCMP_STAT 0).inc rCMP_CNT_RB).setBit rCMP_RBFAIL (ch - 32)
    else s

/-! ### Slot results (R187, R190, R192, R193) -/

/-- The word of Table 8.4. -/
def resultWord (code : BitVec 16) (reason : Nat) (ovr sub cal : Bool) (seqno ch : Nat) : Word :=
  word (code.toNat + b2n (reason = 0) * 2 ^ 16 + reason * 2 ^ 17 + b2n ovr * 2 ^ 20 + b2n sub * 2 ^ 22 + b2n cal * 2 ^ 23 +
    seqno % 4 * 2 ^ 24 + ch % 64 * 2 ^ 26)

/-- The chopper sees a word of its sources (R231, R232). -/
def State.chpSees (s : State) (w : Nat) : State :=
  match s.chpGroup with
  | none => s
  | some g =>
    let r := s.result w
    if !resValid r then s
    else
      let s := if w = srcWord (s.chpField 4 2) then s.chpCurrent (resCode r) ((s.grp g).pos16 - s.ns16 125) else s
      if w = srcWord (s.chpField 2 2) then s.chpDroop (resCode r) else s

/-- The code of R186 for a voltage in nV at a gain, before it is clipped. -/
def sarCode (gain : Nat) (nV : Int) : Int := divNearest (32768 * (gain : Int) * (nV - 1500000000)) 1500000000

/-- The reason of a conversion (Table 8.5): the failed converter first, then the swap, then the range. A SETTLE sequence,
and one whose start abandoned an idle conversion of another range, has a lead-in conversion before its first slot, which
takes the range change. -/
def State.convReason (s : State) (c p : Nat) (r : SeqRun) (range : Nat) : Nat :=
  let x := s.phys p
  if x.failed then 4
  else if x.swapMark then 3
  else if x.prevRange ≠ range ∧ !(r.slot = 0 && (r.forced || s.seqSettle c r.seq)) then 2
  else 0

/-- A conversion of the sequence in progress on a logical converter completes: the word, the checks that it runs and
what the converter does next. `nV` is the slot's channel voltage as the converter measures it, its errors included (R186);
a code that it clips sets OVR. -/
def State.slotResult (s : State) (c : Nat) (nV : Int) : State :=
  let x := s.conv c
  match x.run with
  | none => s
  | some r =>
    let slot := s.slotAt c r.seq r.slot
    let exact := sarCode (2 ^ slotRange slot) nV
    let code : BitVec 16 := BitVec.ofInt 16 (clampInt (-32768) 32767 exact)
    let ovr := decide (exact < -32768) || decide (32767 < exact)
    let p := x.oldPhys.getD (s.adcMap c)
    let reason := s.convReason c p r (slotRange slot)
    let w := 64 * c + slotIndex slot
    let res := resultWord code reason ovr (p == 4) (s.phys p).calibrated (bits (s.result w).toNat 24 2 + 1) (slotChannel slot)
    let s := ((s.setResult w res).setResTag w r.tag).setLast (slotChannel slot) res
    let s := s.setPhys p { s.phys p with prevRange := slotRange slot, swapMark := false }
    let s := if slotRbchk slot && reason == 0 then s.readback (slotChannel slot) (slotRange slot) code.toInt else s
    let s := s.each (List.range s.nXchk) fun s i => s.xcheck w i
    let s := s.chpSees w
    let r' := { r with slot := r.slot + 1, since := s.clk.t }
    let s := s.setConv c { s.conv c with run := some r', oldPhys := none }
    let x := s.conv c
    match x.heldInj with
    | some h =>
      if !r.inj && decide (r'.slot < s.seqCount c r.seq) then
        (s.setConv c { x with
          run := some { seq := h.1, slot := 0, inj := true, tag := h.2, since := s.clk.t }, suspended := some r', heldInj := none }).convSettle c 64
      else s.convSettle c 64
    | none => s.convSettle c 64

/-- SAR_SLOT_RESULT (R187, R192). -/
def execSarSlotResult (c : Nat) (nV : Int) (s : State) : Out := .next ((s.slotResult c nV).adcRequests)

/-! ### Calibration (R195) -/

/-- Calibration begins at the entry to Tier 2 and stops where the tier falls below 2. -/
def State.calibrate (s : State) (on : Bool) : State := { s with adc := { s.adc with calRun := on } }

/-- CAL_COEFF_APPLY (R195): the converters of the mask take the coefficients that this calibration has formed. -/
def execCalCoeffApply (mask : BitVec 5) (s : State) : Out :=
  .next (if s.adc.calRun || s.regBit rADC_STAT 8 then
    s.each ((List.range 5).filter fun p => mask.getLsbD p) fun s p => s.setPhys p { s.phys p with calibrated := true }
  else s)

/-! ### Reference checks and swaps (R196, R197) -/

/-- True while ADC E serves, or is armed for, a logical converter. -/
def State.eBusy (s : State) : Bool := (s.servedBy 4).isSome || s.adc.armed.isSome

/-- A converter is marked failed: a swap is armed where it serves a logical converter and ADC E is healthy and
unassigned; one that a swap is armed for already gets that swap; otherwise no spare is left. -/
def State.adcFail (s : State) (p : Nat) : State :=
  let s := (s.setPhys p { s.phys p with failed := true }).setBit rADC_STAT 3
  match s.servedBy p with
  | none => s
  | some c =>
    if p != 4 && !(s.phys 4).failed && s.adc.armed == some (c, false) then s
    else if p != 4 && !(s.phys 4).failed && !s.eBusy then { s with adc := { s.adc with armed := some (c, false) } }
    else (s.setBit rADC_STAT 6).spareExhausted 4 3 c p (b2n (s.servedBy 4).isSome)

/-- REFERENCE_CHECK (R196): an idle converter's VREF_CHK and AGND codes against the expected ones, and its VDDA / 2. A
converter whose sequence is in progress makes no check. -/
def execReferenceCheck (p : Nat) (vref vdda agnd : BitVec 16) (done : Bool) (s : State) : Out :=
  let busy := match s.servedBy p with
    | some c => (s.conv c).run.isSome
    | none => false
  .next (
    if busy || decide (4 < p) then s
    else if !done then
      let s := s.inc rADC_CNT_REF
      if (s.phys p).failed then s else s.adcFail p
    else
      let s := { s with adc := { s.adc with vdda := some vdda.toInt } }
      let bad := decide ((vref.toInt + 6554).natAbs > 328) || decide ((agnd.toInt + 32768).natAbs > 328)
      if bad then
        let n := (s.phys p).refFails + 1
        let s := (s.setPhys p { s.phys p with refFails := n }).inc rADC_CNT_REF
        if n ≥ 2 && !(s.phys p).failed then s.adcFail p else s
      else s.setPhys p { s.phys p with refFails := 0 })

/-- REFCHK_LATE (R196). -/
def execRefchkLate (p : Nat) (s : State) : Out := .next (if p < 5 then s.setBit rADC_STAT 7 else s)

/-- SWAP (R197). -/
def execSwap (c : Nat) (s : State) : Out :=
  .next (if s.eBusy || decide (4 ≤ c) then s.setBit rADC_STAT 9 else { s with adc := { s.adc with armed := some (c, false) } })

/-- RESTORE (R197): it withdraws a swap that is armed, or arms the return. -/
def execRestore (c : Nat) (s : State) : Out :=
  .next (
    if s.adc.armed = some (c, false) then { s with adc := { s.adc with armed := none } }
    else if s.servedBy 4 = some c then { s with adc := { s.adc with armed := some (c, true) } }
    else s.setBit rADC_STAT 9)

/-- The map changes at an angle zero: a conversion in progress completes on the old converter, one that begins on the same
edge runs on the new one (Table 8.10), and the new one's first conversion is invalid with reason SWAP (R197). -/
def State.adcMove (s : State) (c p : Nat) : State :=
  let x := s.conv c
  let under := match x.run with
    | some r => r.since != s.clk.t
    | none => false
  let s := s.setConv c { x with oldPhys := if under then some (x.oldPhys.getD (s.adcMap c)) else none }
  let s := { s.setAdcMap c p with adc := { (s.setAdcMap c p).adc with armed := none } }
  s.setPhys p { s.phys p with swapMark := true }

/-- SWAP_APPLY (R197). -/
def execSwapApply (s : State) : Out :=
  .next (match s.adc.armed with
    | some (c, false) => (s.adcMove c 4).spareUsed 3 c c 1 0
    | _ => s)

/-- RESTORE_APPLY (R197). The spec has no ACTION code for a return: its value is free (log 12). -/
def execRestoreApply (s : State) : Out :=
  .next (match s.adc.armed with
    | some (c, true) =>
      let f := (s.adcMove c c).takeFree
      f.2.spareEntry 3 (f.1.toNat % 256) c 4 0 1
    | _ => s)

/-! ### Commits and clock loss -/

/-- A commit of ANALOG (R191): sequences and held starts are abandoned, every word is EMPTY, and the pairs begin again;
a pair that the new section no longer defines releases its source. -/
def State.adcReconfigure (s : State) : State :=
  let s := { s with adc := { s.adc with conv := [], results := [], last := [], tags := [], trig := [], xpair := [] } }
  s.each ((List.range 8).filter fun i => decide (s.nXchk ≤ i)) fun s i => s.setXchk i false

/-- A SYS PLL loss abandons the sequences; each slot not yet written carries reason CLOCK (R193, R383). -/
def State.adcClockLoss (s : State) : State :=
  let cut := fun (s : State) (c : Nat) (r : SeqRun) =>
    s.each ((List.range (s.seqCount c r.seq - r.slot)).map (· + r.slot)) fun s k =>
      let w := 64 * c + slotIndex (s.slotAt c r.seq k)
      let v := (s.result w &&& ~~~ word (15 * 2 ^ 16)) ||| word (7 * 2 ^ 17)
      (s.setResult w v).setLast (slotChannel (s.slotAt c r.seq k)) v
  s.each (List.range 4) fun s c =>
    let x := s.conv c
    let s := match x.run with
      | some r => cut s c r
      | none => s
    let s := match x.suspended with
      | some r => cut s c r
      | none => s
    s.setConv c {}

end Sys2Proof.Machine
end

