-- ==== Sys2Proof/Machine/Sdm.lean ====
section
/-!
DEFINITION. The sigma-delta channels (R198 to R204): settings, filter outputs, path selection and stream resamples.
-/

namespace Sys2Proof.Machine

/-- The settings of a channel after reset (R203): channels 0 to 3 at gain 1, 4 to 6 in AUTO with GAIN 3, all at OSR 64
and enabled. -/
def sdmResetCtl (k : Nat) : Word := word (if k < 4 then 0x11 else 0x1D)
def SdmCh.zero : Nat → SdmCh := fun k => { ctl := sdmResetCtl k }

def State.sdmCh (s : State) (k : Nat) : SdmCh := SMap.get SdmCh.zero s.sdm.ch k
def State.setSdmCh (s : State) (k : Nat) (x : SdmCh) : State :=
  { s with sdm := { s.sdm with ch := SMap.set SdmCh.zero s.sdm.ch k x } }

/-- Fields of SDM_CHk_CTL. -/
def ctlEn (w : Word) : Bool := w.getLsbD 0
def ctlManual (w : Word) : Bool := w.getLsbD 1
def ctlGain (w : Word) : Nat := bits w.toNat 2 2
def ctlOsr (w : Word) : Nat := bits w.toNat 4 2

/-- The allowed combinations of R203; OSR code 3 names no ratio. -/
def sdmCtlOk (k : Nat) (w : Word) : Bool :=
  ctlOsr w != 3 &&
    (if k < 4 then ctlGain w != 3 && !ctlManual w else ctlManual w || ctlGain w == 3)

/-- SDM_CTL_WRITE (R203): the settings wait for the channel's next output, or the write is ignored. -/
def execSdmCtlWrite (k : Nat) (w : Word) (s : State) : Out :=
  .next (
    if 7 ≤ k then s
    else if sdmCtlOk k w then s.setSdmCh k { s.sdmCh k with ctlNew := some (w &&& 0x3F) }
    else s.setBit rSDM_STAT 4)

/-- A channel whose value comes from two paths (R201). -/
def sdmAuto (k : Nat) (ctl : Word) : Bool := decide (4 ≤ k) && !ctlManual ctl

/-- The status bits beside a value: OVR, HG, CAL, and a count in [15:8]. -/
def sdmStatus (ovr hg cal inWin : Bool) (n : Nat) : Word :=
  word (b2n ovr + 2 * b2n hg + 4 * b2n cal + 8 * b2n inWin + 256 * (n % 256))

/-- The latest outputs of a channel with one more, taken now: those of the last 2^24 SYSCLK edges, which hold half a
period of any frequency from 12 Hz up (R239). -/
def State.sdmHist (s : State) (k : Nat) (r : SdmRec) : List SdmRec :=
  r :: (s.sdmCh k).hist.filter fun e => decide (s.clk.t - e.time < 2 ^ 24)

/-- A change of GAIN, OSR, MANUAL or EN restarts the metering filters: 3 outputs are invalid with reason SETTLE, and no
overload from before lies in a window. A change of EN restarts the tracking filter too (R203). -/
def SdmCh.restart (c : SdmCh) (new : Word) : SdmCh :=
  { c with
    ctl := new, ctlNew := none, hold := 3, holdReason := 5, ovlLo := 0, ovlHi := 0
    trk := if ctlEn new = ctlEn c.ctl then c.trk else {} }

/-- OVR: the value stands at the full scale of its gain, 2^27 / G counts (R198, R200; its upper end, one count below, is
DEDUCED, log 45). -/
def sdmFull (gain : Nat) (v : Int) : Bool := decide ((gain : Int) * (v + 1) ≥ 2 ^ 27) || decide ((gain : Int) * v ≤ -2 ^ 27)

/-- The gain of the path used: GAIN of the one that runs, 1 or 16 in AUTO. -/
def sdmGain (k : Nat) (ctl : Word) (hg : Bool) : Nat :=
  if sdmAuto k ctl then (if hg then 16 else 1) else [1, 2, 4, 16].getD (ctlGain ctl) 1

/-- One metering output of an enabled channel (R199 to R201, R203, R204). Waiting settings take effect first. An overload
lies in the window of this output and the two that follow it; within a restart, the reason OVERLOAD goes before SETTLE and
CLOCK (DESIGN CHOICE, log 45). -/
def State.sdmMetering (s : State) (k : Nat) (lo hi : BitVec 28) (nLo nHi : Nat) : State :=
  let c := s.sdmCh k
  let new := c.ctlNew.getD c.ctl
  let restart := new != c.ctl
  let c := if restart then c.restart new else { c with ctlNew := none }
  let s := if restart then s.inc rSDM_CNT_SETTLE else s
  if !ctlEn new || s.sdm.clkLost then s.setSdmCh k c
  else
    let auto := sdmAuto k new
    let nHi := if auto then nHi else 0
    let inLo := if nLo > 0 then 3 else c.ovlLo
    let inHi := if nHi > 0 then 3 else c.ovlHi
    let hg := auto && decide (inHi = 0) && decide (hi.toInt.natAbs ≤ 7340032)
    let value := if hg then hi else lo
    let s := if nLo + nHi > 0 then (s.count rSDM_CNT_OVL (nLo + nHi)).setBit rSDM_STAT 0 else s
    let reason := if !hg && decide (inLo > 0) then 6 else if c.hold > 0 then c.holdReason else 0
    let full := reason == 0 && sdmFull (sdmGain k new hg) value.toInt
    let n := (c.count + 1) % 256
    s.setSdmCh k { c with
      hold := c.hold - 1, ovlLo := inLo - 1, ovlHi := inHi - 1, count := n
      hist := s.sdmHist k { time := s.clk.t, value := value.toInt, reason := reason, ovr := full, hg := hg }
      w0 := word (value.toNat + b2n (reason = 0) * 2 ^ 28 + reason * 2 ^ 29)
      w1 := sdmStatus full hg (s.regBit rSDM_STAT 3) (decide (inLo > 0) || decide (inHi > 0)) n }

/-- One tracking output of a channel 0 to 3 (R199): it runs with the channel, at OSR 32 whatever its CTL. -/
def State.sdmTracking (s : State) (k : Nat) (value : BitVec 28) (ovl : Nat) : State :=
  let c := s.sdmCh k
  if decide (3 < k) || !ctlEn c.ctl || s.sdm.clkLost then s
  else
    let hold := if ovl > 0 then 3 else c.trk.hold
    s.setSdmCh k { c with trk := {
      value := value.toInt, time := some s.clk.t, valid := decide (hold = 0), hold := hold - 1 } }

/-- SDM_OUTPUT. -/
def execSdmOutput (k : Nat) (x : SdmSample) (s : State) : Out :=
  .next (
    if 7 ≤ k then s
    else match x with
      | .metering lo hi nLo nHi => s.sdmMetering k lo hi nLo nHi
      | .tracking v n => s.sdmTracking k v n)

/-! ### Resamples (R202) -/

/-- OSR of the channel's settings. -/
def ctlRatio (w : Word) : Nat := if ctlOsr w = 0 then 32 else if ctlOsr w = 1 then 64 else 128

/-- The modulator clock's period and the PHASE step in units of 2.5 ns over 4,096: 39.0625 units, and a 64th of it. -/
def modClk : Int := 160000
def phaseStep64 : Int := 2500

/-- The 4-point Lagrange interpolation at the place `num` / `den` between the second and third of four equally spaced
values, given as six times its numerator. -/
def lagrange4 (a b c d num den : Int) : Int :=
  -a * num * (num - den) * (num - 2 * den) + 3 * b * (num + den) * (num - den) * (num - 2 * den) -
    3 * c * (num + den) * num * (num - 2 * den) + d * (num + den) * num * (num - den)

/-- The value that the channel's input had at the SYSCLK time `t`, less its PHASE trim (R202): the outputs are one period
of the filter apart, and each stands for the instant one group delay before it. One that is missing counts as EMPTY. The
rounding is left open (log 5), as is a value beyond 28 bits (log 45). -/
def State.resampleAt (s : State) (k t : Nat) : Resample × State :=
  let c := s.sdmCh k
  let per := modClk * ctlRatio c.ctl
  let newest := (c.hist.head?.map (·.time)).getD 0
  -- the place of the instant before the newest output, as time of outputs, in units / 4,096
  let back : Int := ((newest : Int) - t) * 4096 + c.phase * phaseStep64 - 3 * (ctlRatio c.ctl - 1 : Nat) * (modClk / 2)
  -- output `j` places before the newest is the last one not after the instant
  let j := -(-back / per)
  let at' := fun (i : Int) => if i < 0 then none else c.hist[i.toNat]?
  let four := [at' (j + 1), at' j, at' (j - 1), at' (j - 2)]
  let v := fun i => ((four.getD i none).map (·.value)).getD 0
  let reason := four.foldl (fun r x =>
    match x with
    | none => 1
    | some x => if x.reason != 0 then x.reason else r) 0
  let num := j * per - back
  let y := divOpen 115 (lagrange4 (v 0) (v 1) (v 2) (v 3) num per) (6 * per * per * per)
  let hg := ((four.getD 1 none).map (·.hg)).getD false
  let ovr := four.any fun x => (x.map (·.ovr)).getD false
  if y < -2 ^ 27 ∨ 2 ^ 27 ≤ y then
    ({ value := signed 28 (s.takeFree.1.toNat % 2 ^ 28), reason := reason, ovr := ovr && decide (reason = 0), hg := hg }, s.takeFree.2)
  else ({ value := y, reason := reason, ovr := ovr && decide (reason = 0), hg := hg }, s)

/-- The resamples of the channels 0 to `n` - 1 for a strobe; a channel that is not enabled delivers none. -/
def State.resamples (s : State) (t : Nat) : Nat → List Resample × State
  | 0 => ([], s)
  | k + 1 =>
    let (xs, s) := s.resamples t k
    if ctlEn (s.sdmCh k).ctl then
      let (x, s) := s.resampleAt k t
      (xs ++ [x], s)
    else (xs ++ [{}], s)

/-- A resample as word +2 of Table 8.7. -/
def resampleWord (r : Resample) : Word :=
  word (unsigned 28 r.value + b2n (r.reason = 0) * 2 ^ 28 + r.reason * 2 ^ 29)

/-- The stream-0 resample of an enabled channel becomes available (R202, R204). -/
def State.sdmResample (s : State) (k : Nat) (r : Resample) : State :=
  let c := s.sdmCh k
  let n := (c.strobes + 1) % 256
  if !ctlEn c.ctl then s
  else s.setSdmCh k { c with strobes := n, w2 := resampleWord r, w3 := sdmStatus r.ovr r.hg (s.regBit rSDM_STAT 3) false n }

/-- The channels as ANALOG in force sets them, applied at their next outputs; without the section, the reset settings
(R203). -/
def State.sdmReconfigure (s : State) : State :=
  s.each (List.range 7) fun s k =>
    let f := fun off n => field (s.sec secAnalog) (0x110 + 8 * k + off) n
    let ctl := if s.hasSec secAnalog then word (bits (f 0 1) 0 2 + 4 * bits (f 1 1) 0 2 + 16 * bits (f 2 1) 0 2)
      else sdmResetCtl k
    s.setSdmCh k { s.sdmCh k with ctlNew := some ctl, phase := signed 8 (f 3 1) }

/-- The SDM clock is lost with the SYS PLL, or returns: outputs carry reason CLOCK until then, plus 3 (Table 8.5). -/
def State.sdmClock (s : State) (lost : Bool) : State :=
  let s := { s with sdm := { s.sdm with clkLost := lost } }
  let s := if lost then s.setBit rSDM_STAT 2 else s
  s.each (List.range 7) fun s k =>
    let c := s.sdmCh k
    if lost then s.setSdmCh k { c with
      w0 := (c.w0 &&& 0x0FFFFFFF) ||| 0xE0000000, trk := {}
      hist := s.sdmHist k { time := s.clk.t, value := 0, reason := 7, ovr := false, hg := false } }
    else s.setSdmCh k { c with hold := 3, holdReason := 7, ovlLo := 0, ovlHi := 0 }

end Sys2Proof.Machine
end

