-- ==== Sys2Proof/Machine/Cmp.lean ====
section
/-!
DEFINITION. The comparators (R205 to R210): filtered outputs and their destinations, blanking, start-held trip sources,
the spares that shadow them and the substitution of a failed one.
-/

namespace Sys2Proof.Machine

def Cmp.zero : Nat → Cmp := fun _ => {}
def Shadow.zero : Nat → Shadow := fun _ => {}
def State.cmp (s : State) (n : Nat) : Cmp := SMap.get Cmp.zero s.cmps.cmp n
def State.setCmp (s : State) (n : Nat) (x : Cmp) : State :=
  { s with cmps := { s.cmps with cmp := SMap.set Cmp.zero s.cmps.cmp n x } }
def State.shadow (s : State) (p : Nat) : Shadow := SMap.get Shadow.zero s.cmps.shadow p
def State.setShadow (s : State) (p : Nat) (x : Shadow) : State :=
  { s with cmps := { s.cmps with shadow := SMap.set Shadow.zero s.cmps.shadow p x } }

/-- Fields of a comparator entry (Table 8.8). -/
def cmpEntry (p : List Byte) (n off len : Nat) : Nat := field p (0x188 + 8 * n + off) len
def State.cmpField (s : State) (n off len : Nat) : Nat := cmpEntry (s.sec secAnalog) n off len

/-- An assigned comparator: the section in force gives it a channel. -/
def State.cmpAssigned (s : State) (n : Nat) : Bool := s.hasSec secAnalog && s.cmpField n 0 1 != 0xFF

/-- Mode OFF. -/
def State.cmpOff (s : State) (n : Nat) : Bool := bits (s.cmpField n 1 1) 3 2 == 2

/-- A comparator whose threshold the section in force has set and which runs. -/
def State.cmpLive (s : State) (n : Nat) : Bool := s.cmpAssigned n && !s.cmpOff n

/-- A trip source (R208). -/
def State.cmpTrips (s : State) (n : Nat) : Bool := s.rowed n

/-- The physical comparator that serves a logical one. -/
def State.cmpPhys (s : State) (n : Nat) : Nat := (s.cmp n).phys.getD n

/-- A spare: not failed, and serving no assigned comparator (R210). -/
def State.cmpSpare (s : State) (p : Nat) : Bool :=
  decide (p < 18) && !bit s.cmps.failed p && (List.range 18).all fun n => !s.cmpAssigned n || s.cmpPhys n != p

/-- The spares that are left. -/
def State.cmpSpares (s : State) : Nat := ((List.range 18).filter s.cmpSpare).length

/-- Polarity LOW, the hysteresis in nV and the filter time in units of 2.5 ns (R205, Table 8.8). -/
def State.cmpLow (s : State) (n : Nat) : Bool := bit (s.cmpField n 1 1) 0
def State.cmpHyst (s : State) (n : Nat) : Int := [0, 10000000, 20000000, 40000000].getD (bits (s.cmpField n 1 1) 1 2) 0
def State.cmpFilter (s : State) (n : Nat) : Nat := [0, 8, 20, 40, 80].getD (bits (s.cmpField n 1 1) 5 3) 0

/-- How far the input lies beyond the threshold on the active side, in nV × 4,096, at the VDDA given; below minus the
hysteresis it lies beyond the release level. -/
def State.cmpBeyond (s : State) (n : Nat) (nV vddaNv : Int) : Int :=
  let d := nV * 4096 - (s.cmpThr n : Int) * vddaNv
  if s.cmpLow n then -d else d

/-- COMPARATOR_RAW_CHANGE (R205, R208): the input against the threshold and the release level. The first crossing that falls
beyond the release level resolves an undetermined output. -/
def execComparatorRawChange (n : Nat) (nV vddaNv : Int) (s : State) : Out :=
  let c := s.cmp n
  let d := s.cmpBeyond n nV vddaNv
  let safe := decide (d < -4096 * s.cmpHyst n)
  let raw := decide (0 < d) || (c.raw && !safe)
  .next (
    if 18 ≤ n || !s.cmpLive n then s
    else s.setCmp n { c with
      raw := raw, rawAt := if raw = c.raw then c.rawAt else s.clk.t, undet := c.undet && (!safe || c.dead) })

/-- The output of a comparator goes active at TRP; that of DC_OV2 starts its staged stop (R233). -/
def State.cmpActive (s : State) (n : Nat) (c : Cmp) : State :=
  let was := (s.cmp n).out
  let s := (s.setCmp n { c with out := true, undet := false }).sourceOn n
  if !was && s.hasSec secTrip && s.chpField 0x19 1 == n then s.dcov2Start else s

/-- The filtered output goes active: TRP and the destinations selected see it (R207). -/
def State.cmpOn (s : State) (n : Nat) : State :=
  let s := s.cmpActive n (s.cmp n)
  let dest := s.cmpField n 6 1
  let s := if bit dest 1 then s.irq 1 else s
  if bit dest 2 then (s.adcStart (bits (s.cmpField n 7 1) 0 4) (bits (s.cmpField n 7 1) 4 4) true).adcRequests else s

/-- A blanking window of the comparator's leg is open (R206). -/
def State.cmpBlanked (s : State) (n : Nat) : Bool :=
  decide (s.cmpField n 4 1 < 24) && s.legEdged (s.cmpField n 4 1) (8 * s.cmpField n 5 1)

/-- The raw output has held its state for the filter time, which is trimmed to ±15 % (R205). -/
def State.cmpSettled (s : State) (n : Nat) : Bool := decide ((s.clk.t - (s.cmp n).rawAt) * 100 ≥ 85 * s.cmpFilter n)

/-- COMPARATOR_FILTERED_CHANGE (R205 to R208): the filtered output follows the raw one; a transition to active inside a
blanking window is suppressed. A failed comparator without a spare does not change (R210). -/
def execComparatorFilteredChange (n : Nat) (s : State) : Out :=
  let c := s.cmp n
  .next (
    if decide (18 ≤ n) || !s.cmpLive n || c.dead || c.startHeld || c.raw == c.out || !s.cmpSettled n then s
    else if c.raw then
      if s.cmpBlanked n then (s.inc rCMP_CNT_BLANK).setBit rCMP_STAT 5 else s.cmpOn n
    else (s.setCmp n { c with out := false, undet := false }).sourceOff n)

/-- TRIP_SOURCE_RELEASE_PROOF (R208): the input has stayed on the safe side for 10 µs. A source that is unassigned or in mode
OFF is never released. -/
def execTripSourceReleaseProof (n : Nat) (s : State) : Out :=
  let c := s.cmp n
  .next (
    if n < 18 && c.startHeld && s.cmpLive n && !c.dead && !c.raw then
      (s.setCmp n { c with startHeld := false, out := false, undet := false }).sourceOff n
    else s)

/-- A comparator starts (R208): active and held where it is a trip source, else inactive and undetermined. -/
def State.cmpBegin (s : State) (n : Nat) : State :=
  if s.cmpTrips n then
    s.cmpActive n { s.cmp n with startHeld := true }
  else
    (s.setCmp n { s.cmp n with out := false, startHeld := false, undet := true }).sourceOff n

/-- A commit of ANALOG or TRIP: a comparator starts anew where its configuration changed, where it became a trip source,
or where one that is held stopped being one (R208). A failed one without a spare is held active while it is a trip source
and undetermined otherwise (R210). `old` is the state before the commit. -/
def State.cmpReconfigure (s old : State) : State :=
  s.each (List.range 18) fun s n =>
    let changed := s.cmpField n 0 8 != old.cmpField n 0 8 || s.hasSec secAnalog != old.hasSec secAnalog
    let became := s.cmpTrips n && !old.cmpTrips n
    let ceased := !s.cmpTrips n && (s.cmp n).startHeld
    if (s.cmp n).dead then
      (if s.cmpTrips n then (if (s.cmp n).out then s else s.cmpActive n (s.cmp n))
      else (s.setCmp n { s.cmp n with out := false, startHeld := false, undet := true }).sourceOff n)
    else if changed || became || ceased then s.cmpBegin n else s

/-! ### Spares (R210) -/

/-- The next assigned comparator after `n`, in rising order and round again. -/
def State.nextAssigned (s : State) (n : Option Nat) : Option Nat :=
  let from0 := match n with
    | some k => k + 1
    | none => 0
  ((List.range 18).map fun i => (from0 + i) % 18).find? fun k => s.cmpLive k && !(s.cmp k).dead

/-- SHADOW_MOVE. -/
def execShadowMove (p : Nat) (s : State) : Out :=
  .next (if s.cmpSpare p then s.setShadow p { target := s.nextAssigned (s.shadow p).target } else s)

/-- SHADOW_DISAGREE. -/
def execShadowDisagree (p : Nat) (s : State) : Out :=
  .next (
    if s.cmpSpare p && (s.shadow p).target.isSome && !(s.shadow p).measuring then
      ((s.inc rCMP_CNT_SHADOW).setBit rCMP_STAT 1).setShadow p { s.shadow p with measuring := true, tries := 0 }
    else s)

/-- The output of a comparator takes the state of the physical one that serves it from now on; a start-held source stays
held. -/
def State.cmpFollow (s : State) (n : Nat) : State :=
  let c := s.cmp n
  if c.startHeld || c.raw == c.out then s
  else if c.raw then s.cmpOn n
  else (s.setCmp n { c with out := false, undet := false }).sourceOff n

/-- The comparator serving `n` is marked failed: the spare `p` takes its place on one edge with the state that it
measured, or none is left. -/
def State.cmpReplace (s : State) (n p : Nat) (raw : Bool) : State :=
  let bad := s.cmpPhys n
  let s := { s with cmps := { s.cmps with failed := s.cmps.failed ||| 2 ^ bad } }
  if s.cmpSpare p then
    let s := (s.setCmp n { s.cmp n with phys := some p, raw := raw, rawAt := s.clk.t }).cmpFollow n
    let s := (s.setBit rCMP_STAT 3).setShadow p {}
    s.spareUsed 4 n bad ((List.range 18).filter fun k => (s.cmp k).phys.isSome).length s.cmpSpares
  else
    let s := (s.setBit rCMP_STAT 4).spareExhausted 5 4 n bad ((List.range 18).filter fun k => (s.cmp k).phys.isSome).length
    if s.cmpTrips n then s.cmpActive n { s.cmp n with dead := true }
    else s.setCmp n { s.cmp n with dead := true, undet := true }

/-- SHADOW_MEASUREMENT: the output that contradicts the measured relation is the failed one; a measurement inside the
hysteresis band is repeated up to 8 times. -/
def execShadowMeasurement (p : Nat) (rel : Relation) (s : State) : Out :=
  let x := s.shadow p
  .next (match x.target with
    | none => s
    | some n =>
      if !x.measuring then s
      else
        let decideFor := fun (raw : Bool) =>
          if (s.cmp n).raw = raw then
            ({ s with cmps := { s.cmps with failed := s.cmps.failed ||| 2 ^ p } }).setShadow p {}
          else s.cmpReplace n p raw
        match rel with
        | .active => decideFor true
        | .safe => decideFor false
        | .band =>
          if x.tries < 8 then s.setShadow p { x with tries := x.tries + 1 }
          else (s.setBit rCMP_STAT 2).setShadow p { target := s.nextAssigned (some n) })

/-- The words 0x140 to 0x142 (R207). -/
def State.cmpMask (s : State) (f : Cmp → Bool) : Word :=
  word (((List.range 18).map fun n => b2n (f (s.cmp n)) * 2 ^ n).foldl (· + ·) 0)

end Sys2Proof.Machine
end

