-- ==== Sys2Proof/Machine/Ang.lean ====
section
/-!
DEFINITION. The Grid Angle Unit (R48 to R59, R71, R461): settings, tracking, the source in force, the scheduling error
and how the angles advance on each SYSCLK edge.
-/

namespace Sys2Proof.Machine

/-! ### Settings (Table 3.4, R59) -/

def State.schedOr (s : State) (off n dflt : Nat) : Nat :=
  if s.hasSec secSched then field (s.sec secSched) off n else dflt

/-- AUTO_LOCAL of SCHED, or of the TRESTLE bank for a member (R56, Table 15.4). -/
def State.autoLocal (s : State) : Bool := bit (s.schedOr 0 1 0) 2 || bit (s.trsBank 1) 3
def State.inMode (s : State) : Nat := s.schedOr 1 1 0
def State.kmaxN (s : State) : Nat := s.schedOr 3 1 8
def State.fnom (s : State) : Nat := s.schedOr 4 4 s.ang.fnom
def State.vnom (s : State) : Word := word (s.schedOr 8 4 0x3E800000)
def State.jthr (s : State) : Nat := s.schedOr 0x0C 4 0x0E38E38E
def State.vmin (s : State) : Nat := s.schedOr 0x10 4 0x0199999A
def State.trackBw (s : State) : Nat := s.schedOr 2 1 20
def State.rocofWin (s : State) : Nat := s.schedOr 0x14 1 4
def State.sarFbOn (s : State) : Bool := bit (s.schedOr 0x16 2 0) 15
def State.sband (s : State) : Nat := s.schedOr 0x18 4 0x005B05B0
def State.masterMiss (s : State) : Nat := s.schedOr 0x1C 2 3

/-- R54: the source requested as the last update took it, the reserved code read as LOCAL. -/
def State.angReq (s : State) : Nat := if s.ang.req = 3 then 0 else s.ang.req

/-! ### Angles -/

def turnUnits : Nat := 2 ^ 48

/-- The signed turn32 reading of a difference of two angles in units. -/
def angDiff (a b : Nat) : Int := signed 32 ((a / 65536 + 2 ^ 80 - b / 65536 % 2 ^ 80) % 2 ^ 32)

/-- The 80-bit angle word of an accumulator (R11). -/
def angWord (a : Nat) : Nat := a / 65536 % 2 ^ 80

/-- ANG_ERR: the measured angle less the scheduling angle (Table 3.1). -/
def Ang.err (a : Ang) : Int := angDiff a.meas a.sch

/-- The measured angle word: the scheduling word plus ANG_ERR. -/
def Ang.measWord (a : Ang) : Nat := (((angWord a.sch : Int) + a.err) % 2 ^ 80).toNat

/-- e of R52: the angle of the source in force less the scheduling angle; 0 while coasting. -/
def Ang.e (a : Ang) : Int :=
  match a.src with
  | 0 => a.err
  | 1 => angDiff a.gen a.sch
  | 2 => angDiff a.mas a.sch
  | _ => 0

/-- The frequency at which the scheduling angle advances (R52, R57, R58). -/
def State.angFreq (s : State) : Nat :=
  match s.ang.src with
  | 0 => s.ang.freq
  | 1 => s.ang.genFreq
  | 2 => s.ang.masFreq
  | _ => if s.ang.known then s.ang.lastFreq else s.fnom

/-- The frequency at which the measured angle advances between updates; a coast takes both angles along (R57). -/
def State.measFreq (s : State) : Nat :=
  if s.ang.src = 3 then s.angFreq
  else if s.inMode = 2 && s.ang.src == 2 then s.ang.masFreq else if s.ang.seen then s.ang.freq else s.fnom

/-- HOLD: k is 0 (R52, R53). -/
def State.angHold (s : State) : Bool := decide (s.ang.e < -(s.jthr : Int))

/-- SLEW: |e| exceeds SBAND (R53). -/
def State.angSlew (s : State) : Bool := decide (s.ang.e.natAbs > s.sband)

/-- k of R52 as a numerator over 32 JTHR. -/
def slewK (e : Int) (jthr n : Nat) : Int :=
  if e < -(jthr : Int) then 0 else 32 * (jthr : Int) + (n : Int) * clampInt (-(jthr : Int)) (jthr : Int) e

/-- The advance of an angle on one edge of a clock of `hz`, in units: f × 2^32 / hz turn32 (R52). -/
def angStep (site freq hz : Nat) : Nat := (divOpen site ((freq : Int) * 2 ^ 24) hz).toNat

/-- One edge of SYSCLK at `hz`: every angle advances. -/
def State.angEdge (s : State) (hz : Nat) : State :=
  if !s.ang.live then s
  else
    let a := s.ang
    let k := slewK a.e s.jthr s.kmaxN
    let inc := (divOpen 2 ((s.angFreq : Int) * 2 ^ 24 * k) ((hz : Int) * 32 * (max 1 s.jthr : Nat))).toNat
    let sch := (a.sch + inc) % 2 ^ 96
    { s with ang := { a with
        sch := sch
        zeroWall := if sch / 2 ^ 48 = a.sch / 2 ^ 48 then a.zeroWall else s.tim.wall / 2 ^ 32
        meas := (a.meas + angStep 3 s.measFreq hz) % turnUnits
        trkTh := (a.trkTh + angStep 3 a.tracked hz) % turnUnits
        gen := (a.gen + angStep 3 a.genFreq hz) % 2 ^ 96
        mas := (a.mas + angStep 3 a.masFreq hz) % 2 ^ 96
        masMeas := (a.masMeas + angStep 3 a.masFreq hz) % turnUnits } }

/-! ### What follows from a new error or source -/

/-- PJUMP, ANG_JUMP and ANG_JUMP_CNT (R53). -/
def State.angJump (s : State) : State :=
  let e := s.ang.e
  let above := decide (e.natAbs > s.jthr)
  let was := s.regBit rANG_STAT 2
  let s := if above && !s.ang.above then (s.setBit rANG_STAT 2).inc rANG_JUMP_CNT else s
  let pj := s.regBit rANG_STAT 2
  let jump := if pj && (!was || decide (e.natAbs > s.ang.jump.natAbs)) then e else s.ang.jump
  { s with ang := { s.ang with above := above, jump := jump } }

/-- The source that the request, the tracking and the master give (R54, R56, R57); without the SYS PLL ANG coasts. DESIGN
CHOICE (log 42): the third case of R57, no voltage channel, concerns a device that follows its channels; GEN, or TRS with
a master, does not coast for want of them. -/
def State.angSource (s : State) : Nat :=
  if !s.clk.sysLock then 3
  else if s.angReq = 1 then 1
  else if s.angReq = 2 then
    (if s.ang.masOk then 2 else if s.autoLocal && s.ang.valid then 0 else 3)
  else if s.ang.valid then 0 else 3

/-- Puts the source in force; a coast begins its count anew. -/
def State.angSelect (s : State) : State :=
  let src := s.angSource
  let a := s.ang
  { s with ang := { a with
      src := src
      known := a.known || src != 3
      lastFreq := if src = 0 then a.freq else if src = 1 then a.genFreq else if src = 2 then a.masFreq else a.lastFreq
      coast := if src = 3 && a.src != 3 then 0 else a.coast } }

/-! ### Commands -/

/-- A magnitude in pu32 from 1/65,536 counts: counts over VNOM in volts, over √3 where the channels carry line-to-line
voltages (R461). The rounding is left open (log 5). -/
def State.angPu (s : State) (m : Nat) : Nat :=
  match fToRat s.vnom with
  | none => 0
  | some v =>
    if v ≤ 0 then 0
    else
      let den := v * 65536
      if s.inMode = 1 then
        let num2 : Nat := (m * 2 ^ 149) * (m * 2 ^ 149)
        let q := isqrt (num2 / (3 * (den.toNat * den.toNat)))
        if 3 * q * q * (den.toNat * den.toNat) ≠ num2 ∧ Config.roundUp 4 m den then q + 1 else q
      else (divOpen 4 ((m : Int) * 2 ^ 149) den).toNat

/-- The positive-sequence angle as a turn fraction in units, shifted by −30° for line-to-line channels (R461). -/
def State.angTheta (s : State) (theta : Word) : Nat :=
  let u := theta.toNat * 65536
  if s.inMode = 1 then (u + turnUnits - turnUnits / 12) % turnUnits else u

/-- The negative-sequence angle, shifted by +30° for line-to-line channels (R461): 2^32 / 12 turn32, left open. -/
def State.angThetaNeg (s : State) (theta : Word) : Word :=
  if s.inMode = 1 then theta + wordOfInt (divOpen 6 (2 ^ 32) 12) else theta

/-- ANG_ROCOF from the valid updates of the window (R50): the mean rate over ROCOF_WIN cycles of the scheduling angle is the
frequency's change over the window by its length (DEDUCED, log 42). Its rounding is left open (log 5). -/
def State.angRocof (s : State) : State :=
  let a := s.ang
  let hist := (a.sch, s.clk.t, a.freq) ::
    a.hist.filter fun h => decide ((a.sch + 2 ^ 96 - h.1) % 2 ^ 96 ≤ s.rocofWin * turnUnits)
  let rate := match hist.getLast? with
    | some h => if h.2.1 < s.clk.t then
        satI32 (divOpen 7 (((a.freq : Int) - h.2.2) * 400000000) ((s.clk.t : Int) - h.2.1))
      else a.rocof.toInt
    | none => a.rocof.toInt
  { s with ang := { a with hist := hist, rocof := wordOfInt rate } }

/-- The inputs of an update from the sigma-delta path: the newest tracking outputs of channels 0 to 2 with their ages, where
all three are enabled and valid (R48, R199, R203). -/
def State.sdInputs (s : State) : Option (List (Int × Nat)) :=
  let c := fun k => s.sdmCh k
  if (List.range 3).all fun k => ctlEn (c k).ctl && (c k).trk.valid then
    some ((List.range 3).map fun k => ((c k).trk.value, s.clk.t - (c k).trk.time.getD s.clk.t))
  else none

/-- The inputs from the SAR fallback: the newest result of each AIN channel that SAR_FB names, where all three are valid. -/
def State.sarInputs (s : State) : Option (List (Int × Nat)) :=
  let w := fun k => SMap.get emptyResult s.adc.last (bits (s.schedOr 0x16 2 0) (5 * k) 5)
  if s.sarFbOn && (List.range 3).all fun k => resValid (w k) then some ((List.range 3).map fun k => (resCode (w k), 0))
  else none

/-- The tracking part of an update (R48, R49, R57, R59). DESIGN CHOICE (log 42): while no channel is usable, ANG_VPOS, ANG_VNEG
and VLOW keep their last values, as ANG_FREQ and ANG_ROCOF do. -/
def State.angTrack (s : State) : State :=
  let none3 := s.inMode = 2
  let sd := if none3 then none else s.sdInputs
  let sar := !none3 && sd.isNone && s.sarInputs.isSome
  let inputs := if sar then s.sarInputs else sd
  let chan := inputs.isSome && s.clk.sysLock
  let a := s.ang
  let loop := if chan then Config.trackNext s.trackBw sar a.loop (inputs.getD []) else a.loop
  let out := fun i => Config.trackOut i loop
  let f := out 1 % 2 ^ 32
  let th := s.angTheta (word (out 0))
  let inR := decide (40 * 2 ^ 24 ≤ f ∧ f ≤ 72 * 2 ^ 24)
  let vpos := s.angPu (out 2)
  let vOk := decide (vpos ≥ s.vmin)
  let pass := chan && inR && vOk
  let s := if chan && a.inRange && !inR then s.setBit rANG_STAT 6 else s
  let a := { a with
    loop := loop
    sarFb := sar
    inRange := if chan then inR else a.inRange
    tracked := if chan then f else a.tracked
    trkTh := if chan then th else a.trkTh
    hist := if pass && a.valid then a.hist else []
    vlow := if chan then !vOk else a.vlow
    vpos := if chan then vpos else a.vpos
    vneg := if chan then s.angPu (out 3) else a.vneg
    thNeg := if chan then s.angThetaNeg (word (out 4)) else a.thNeg
    pass := if pass then a.pass + 1 else 0
    valid := a.valid && pass }
  if pass && a.valid then ({ s with ang := { a with meas := th, freq := f } } : State).angRocof
  else if none3 && a.masOk && s.angReq == 2 then { s with ang := { a with meas := a.masMeas, freq := a.masFreq } }
  else { s with ang := a }

/-- An update of ANG, its time having passed (R48). -/
def State.angUpdate (s : State) : State :=
  if !s.ang.live then s
  else
    let s := { s with ang := { s.ang with req := bits (s.reg rANG_SRC).toNat 0 2 } }
    let s := s.angTrack.angSelect
    let c := s.ang.coast + 1
    let s := if s.ang.src = 3 then
        { s.setReg rANG_COAST_MS (word (min 0xFFFFFFFF (c / 100))) with ang := { s.ang with coast := c } }
      else s
    s.angJump

/-- TRACKING_VALID (R49, R57, R59): after 100 passing updates; the measured angle takes the true value at once, and LOCAL
is in force again where it is requested. Before any SCHED commit the first one settles FNOM at the nearer of 50 Hz and
60 Hz. -/
def execTrackingValid (s : State) : Out :=
  .next (
    if s.ang.valid || decide (s.ang.pass < 100) then s
    else
      let a := s.ang
      let fnom := if a.seen || s.hasSec secSched then a.fnom else if a.tracked > 55 * 2 ^ 24 then 0x3C000000 else 0x32000000
      ({ s with ang := { a with
          valid := true, seen := true, validAt := a.sch, freq := a.tracked, meas := a.trkTh, fnom := fnom } } : State).angSelect.angJump)

/-- ANG_SRC_WRITE (R54): REQ takes effect at the next update. -/
def execAngSrcWrite (w : Word) (s : State) : Out := .next (s.setReg rANG_SRC (w &&& 3))

/-- GEN_STALE (R55): set only while GEN is the source in force. -/
def execGenStale (s : State) : Out := .next (if s.ang.src = 1 then s.setBit rANG_STAT 11 else s)

/-- MASTER_MISS (R56): MASTER_MISS angle words, one every 1 µs, have been missed since the last; the member falls back to
LOCAL or coasts. -/
def execMasterMiss (s : State) : Out :=
  .next (
    if s.ang.masOk && decide (s.ang.masAt + 400 * s.masterMiss ≤ s.clk.t) then
      let s := { s with ang := { s.ang with masOk := false } }
      (s.setBit rANG_STAT 5).angSelect.angJump
    else s)

/-- ANG_SNAPSHOT_READ (R71). -/
def execAngSnapshotRead (which : AngleName) (s : State) : Out :=
  let a := s.ang
  .next { s with ang := match which with
    | .measured => { a with snapMeas := a.measWord / 2 ^ 32 }
    | .scheduling => { a with snapSch := angWord a.sch / 2 ^ 32 }
    | .generated => { a with snapGen := angWord a.gen / 2 ^ 32 } }

/-- A write of the generated angle's frequency word, or of its phase increment (R55). -/
def State.genWriteFreq (s : State) (w : Word) : State := { s with ang := { s.ang with genFreq := w.toNat } }
def State.genWritePhase (s : State) (w : Word) : State :=
  ({ s with ang := { s.ang with gen := ((s.ang.gen : Int) + w.toInt * 65536 + 2 ^ 96).toNat % 2 ^ 96 } } : State).angJump

/-- A SCHED section comes into force: SRC[1:0] is the REQ that the next update takes (R59, R60, Table 3.10). -/
def State.angCommit (s : State) : State := s.setReg rANG_SRC (word (bits (s.schedOr 0 1 0) 0 2))

/-- The timebase starts at Tier 1 (R58): the scheduling angle at cycle 0, fraction 0, coasting at FNOM. -/
def State.angBegin (s : State) : State :=
  { s with ang := { s.ang with
      live := true, sch := 0, src := 3, known := false, seen := false, valid := false, pass := 0, hist := [], freq := 0x32000000
      fnom := 0x32000000, genFreq := 0x32000000 } }

/-- The derived bits of ANG_STAT (Table 3.11). -/
def State.angStat (s : State) : Nat :=
  b2n s.ang.valid + 2 * b2n (s.ang.src = 3) + 8 * b2n s.angSlew + 16 * b2n s.angHold + 128 * b2n s.ang.vlow +
    256 * s.ang.src + 1024 * b2n s.ang.sarFb

end Sys2Proof.Machine
end

