-- ==== Sys2Proof/Machine/Diag.lean ====
section
/-!
DEFINITION. Off-state diagnostics of the legs (R226, R227).
-/

namespace Sys2Proof.Machine

/-- The DIAG word of a leg entry (Table 9.3). -/
def State.diagWord (s : State) (l : Nat) : Nat := s.tripLeg l 6 2
def State.diagOn (s : State) (l : Nat) : Bool := s.hasSec secTrip && bit (s.diagWord l) 5
def State.diagLimit (s : State) (l k : Nat) : Int := sfield (s.sec secTrip) (0x10 + 16 * l + 8 + 2 * k) 2

/-- True while the leg may be tested: DIAG enabled and its group STOPPED. -/
def State.diagMay (s : State) (l : Nat) : Bool :=
  s.diagOn l && (match s.legGroup l with
    | some g => (s.grp g).st == .stopped
    | none => false)

/-- Starts the next waiting test; one leg is tested at a time. -/
def State.diagNext (s : State) : State :=
  if s.trp.test.isSome then s
  else match s.trp.testQueue.filter s.diagMay with
    | [] => { s with trp := { s.trp with testQueue := [] } }
    | l :: ls => { s with trp := { s.trp with test := some { leg := l }, testQueue := ls } }

/-- Asks for the test of some legs. -/
def State.diagAsk (s : State) (ls : List Nat) : State :=
  ({ s with trp := { s.trp with testQueue := s.trp.testQueue ++ ls.filter fun l => s.diagMay l && !s.trp.testQueue.contains l } }).diagNext

/-- The end of the test in progress with its result code: results 1 to 4 fail, 0 passes, 5 and 6 leave the source. -/
def State.diagEnd (s : State) (v1 : Int) (code : Nat) : State :=
  match s.trp.test with
  | none => s
  | some t =>
    let l := t.leg
    let s := { s with trp := { s.trp with
      test := none, diagLast := l + 32 * code
      diagV := unsigned 16 (t.v0.getD 0) + 65536 * unsigned 16 v1 } }
    let s :=
      if code = 0 then
        ({ s with trp := { s.trp with diagFail := s.trp.diagFail - b2n (bit s.trp.diagFail l) * 2 ^ l } }).sourceOff (0x58 + l)
      else if code < 5 then
        (({ s with trp := { s.trp with diagFail := s.trp.diagFail ||| 2 ^ l } }).setBit rGDS_STAT 2).sourceOn (0x58 + l)
      else s
    s.diagNext

/-- A START of the group ends a test in progress on it with result 6 (R227). -/
def State.diagAbort (s : State) (g : Nat) : State :=
  match s.trp.test with
  | some t => if s.legGroup t.leg == some g then s.diagEnd 0 6 else s
  | none => s

/-- The judgement of V0 and V1. -/
def State.diagJudge (s : State) (l : Nat) (v0 v1 : Int) : Nat :=
  if v0 < s.diagLimit l 0 then 1
  else if v0 > s.diagLimit l 1 then 2
  else if v1 - v0 < s.diagLimit l 2 then 3
  else if v1 - v0 > s.diagLimit l 3 then 4
  else 0

/-- DIAG_TEST_LEG, DIAG_TEST_ALL, DIAG_PERIODIC. -/
def execDiagTestLeg (l : Nat) (s : State) : Out := .next (s.diagAsk [l])
def execDiagTestAll (s : State) : Out := .next (s.diagAsk (List.range 24))
def execDiagPeriodic (l : Nat) (s : State) : Out :=
  .next (if field (s.sec secTrip) 0x0A 2 = 0 then s else s.diagAsk [l])

/-- DIAG_FIRST_CONVERSION: V0 is known, and the test current flows. -/
def execDiagFirstConversion (v : BitVec 16) (s : State) : Out :=
  .next (match s.trp.test with
    | some t => { s with trp := { s.trp with test := some { t with v0 := some v.toInt } } }
    | none => s)

/-- DIAG_SECOND_CONVERSION: V1 ends the test. -/
def execDiagSecondConversion (v : BitVec 16) (s : State) : Out :=
  .next (match s.trp.test with
    | some t =>
      match t.v0 with
      | some v0 => s.diagEnd v.toInt (s.diagJudge t.leg v0 v.toInt)
      | none => s
    | none => s)

/-- DIAG_NO_SLOT: result 5. -/
def execDiagNoSlot (s : State) : Out := .next (s.diagEnd 0 5)

end Sys2Proof.Machine
end

