-- ==== Sys2Proof/Machine/Pwm.lean ====
section
/-!
DEFINITION. Leg groups in operation (R165 to R183): start and stop, the carrier period, the reload that turns the block in
force into switchings, the interlock, event channels and carrier alignment.
-/

namespace Sys2Proof.Machine

/-! ### Carrier periods (R165 to R168) -/

/-- Below Tier 3 every group runs at half its carrier frequency (R168). -/
def State.tierHalf (s : State) : Bool := decide (s.tier < 3)

/-- The tracked frequency, FNOM before there is one. -/
def State.trackedFreq (s : State) : Nat := if s.ang.known then s.ang.freq else s.fnom

/-- What a period start gives a group: P, and the flags FRAC, LOCK_FREE and LOCK_LAG. -/
structure PeriodPlan where
  per : Nat
  frac : Bool
  lockFree : Bool
  lockLag : Bool
  outsideHold : Bool
  deriving DecidableEq, Repr

/-- P of a FREE or TRESTLE group, at half its frequency where `half` says so (R165, R168). -/
def State.planFree (s : State) (g : Nat) (half : Bool) : PeriodPlan :=
  let p := s.freeP (min (s.grp g).fcar (s.carMax g))
  { per := min 0xFFFFFF ((if half then 2 else 1) * p.1), frac := !p.2, lockFree := false, lockLag := false, outsideHold := true }

/-- NCAR, the scheduling angle and OFFSET of an ANGLE group; the last two in 1/NCAR of an angle unit (R166). -/
def State.gridNcar (s : State) (g : Nat) : Int := (max 1 (s.grpNcar g) : Nat)
def State.gridHere (s : State) (g : Nat) : Int := (s.ang.sch : Int) * s.gridNcar g
def State.gridOff (s : State) (g : Nat) : Int := (s.grpOffset g : Int) * 65536 * s.gridNcar g
/-- The step of the grid, or of the halved grid (R168). -/
def gridStep (half : Bool) : Int := 2 ^ 48 * (if half then 2 else 1)

/-- The grid point ahead of the present angle. -/
def State.gridNext (s : State) (g : Nat) (half : Bool) : Int :=
  s.gridOff g + ((s.gridHere g - s.gridOff g) / gridStep half + 1) * gridStep half

/-- Whether the period that begins runs at half frequency (R168): an ANGLE group takes up the halved grid at a boundary that
lies on it. -/
def State.nextHalf (s : State) (g : Nat) (first : Bool) : Bool :=
  if s.grpSync g = 1 && s.tierHalf && !(s.grp g).half && !first then
    divNearest (s.gridHere g - s.gridOff g) (gridStep false) % 2 == 0
  else s.tierHalf

/-- P of an ANGLE group that ends `dest` in 1/NCAR of an angle unit, where the period's part `num` / `den` is still to come
(R166, R167). -/
def State.planTo (s : State) (g : Nat) (half : Bool) (dest num den : Int) : PeriodPlan :=
  let x := s.grp g
  let mul : Int := if half then 2 else 1
  let ncar : Int := s.gridNcar g
  let here : Int := s.gridHere g
  let j : Int := (max 1 s.jthr : Nat)
  let k := if s.ang.src = 3 then 32 * j else slewK s.ang.e s.jthr s.kmaxN
  let clkNum : Int := 25000000 * (s.clk.ndiv : Int)
  let pfNum : Int := clkNum * 2 ^ 24 * mul
  let pfDen : Int := ncar * (s.clk.rdiv : Int) * (max 1 s.trackedFreq : Nat)
  let hold := decide (k ≤ 0)
  let raw : Int :=
    if hold then (if x.freePer = 0 then divNearest pfNum pfDen else (x.freePer : Int))
    else divNearest ((dest - here) * clkNum * 2 ^ 24 * 32 * j * den)
      (max 1 (ncar * 2 ^ 48 * (s.clk.rdiv : Int) * (s.angFreq : Int) * k * num))
  let lo := (3 * pfNum + 4 * pfDen - 1) / (4 * pfDen)
  let hi := 3 * pfNum / (2 * pfDen)
  let lim3 := if hold then raw else clampInt lo hi raw
  let carMax := s.carMax g
  let pmin : Int := if carMax = 0 then 1 else (1000 * clkNum + (s.clk.rdiv : Int) * carMax - 1) / ((s.clk.rdiv : Int) * carMax)
  let p := clampInt pmin 16777215 lim3
  let lag := p != lim3
  { per := p.toNat, frac := false
    lockFree := if hold then true else if raw = lim3 && !lag then false else x.lockFree
    lockLag := lag, outsideHold := !hold }

/-- P of an ANGLE group at a period start: the end is the grid point nearest to the present angle plus one step (R166). -/
def State.planAngle (s : State) (g : Nat) (half : Bool) : PeriodPlan :=
  s.planTo g half
    (s.gridOff g + (divNearest (s.gridHere g - s.gridOff g) (gridStep half) + 1) * gridStep half) 1 1

/-! ### From the block in force to the plan of a leg -/

/-- What the block gives one leg in one period: its changes, the widths carried over, the clips, and whether the code
was bad or a reference was clamped. -/
structure LegWave where
  evs : List WaveEv
  carry : SMap Int
  clips : Nat
  bad : Bool
  deriving DecidableEq, Repr

/-- Table 7.5 for one leg. `rot` is the rotation of FC legs in the period. -/
def State.legWave (s : State) (g l : Nat) (b : List Word) (c : PlanCtx) (carry : SMap Int) : LegWave :=
  let ty := s.legType l
  let slot := s.legSlot l
  let d := if s.grpSync g = 1 then 0 else part16 c.p16 (s.legPhase l) 16
  let w8 := (blockWord b 8).toNat
  let mode := s.grpMode g
  if bit w8 slot then ⟨[⟨0, [], true⟩], [], 0, false⟩
  else if mode = 1 then
    let r := dutyEvs c ty carry (blockWord b slot).toInt d
    ⟨r.1, r.2.1, r.2.2, false⟩
  else if mode = 2 then
    let refs := (abRefs (blockWord b 0).toInt (blockWord b 1).toInt (bit w8 10)).1
    let r := dutyEvs c ty carry (refs.getD slot 0) d
    ⟨r.1, r.2.1, r.2.2, false⟩
  else if mode = 3 then
    let code := codeField (blockWord b 0) slot
    ⟨[codeEv ty c.rot ((if c.quiet then c.qpost else 0) + d) code], [], 0, badLevel ty code⟩
  else
    let sel := codeField (blockWord b 0) slot
    let sec := codeField (blockWord b 1) slot
    let r := dualEvs c ty carry sel sec (blockWord b 2).toInt (bit w8 9) d
    ⟨r.1, r.2.1, r.2.2, badLevel ty sel || badLevel ty sec⟩

/-- The group's part of the plan (R162, R169, R170); word 10 is clamped to P / 4. -/
def State.planCtx (s : State) (g per : Nat) (b : List Word) : PlanCtx :=
  let w8 := (blockWord b 8).toNat
  let w10 := (blockWord b 10).toNat
  { p16 := 16 * (per : Int)
    saw := s.grpSaw g
    quiet := bit w8 8 && (s.grpMode g = 3 || !s.grpSaw g)
    qpost := 16 * (min (bits w10 0 16) (per / 4) : Nat)
    qpre := 16 * (min (bits w10 16 16) (per / 4) : Nat)
    dt := s.deadTime g
    minp := s.minPulse g
    stretch := s.minpStretch g
    rot := (s.grp g).rot }

/-- The leg state that some changes have made at a position. -/
def stateAfter (now : Option Nat) (evs : List WaveEv) (x : Int) : Option Nat :=
  ((sortEvs evs).filter fun e => decide (e.pos ≤ x)).foldl applyEv now

/-- The refresh that R173 inserts over a leg's changes: the next lower level for a width, ending at count P − QPRE, where the
leg takes up its waveform again. -/
def refreshEvs (c : PlanCtx) (ty : Nat) (w : Int) (now : Option Nat) (evs : List WaveEv) : List WaveEv :=
  let hi := c.p16 - c.qpre
  match stateAfter now evs hi with
  | none => evs
  | some m =>
    (evs.filter fun e => decide (e.pos < hi - w) || decide (hi < e.pos)) ++
      [codeEv ty c.rot (hi - w) (nLevels ty - 2), ⟨hi, pairsOf ty m, false⟩]

/-- A switching left over from the period before stands where no run of its pair begins before it (R172). -/
def leftOver (outOf : Nat → Bool → Option Nat) (rs : List PairRuns) (e : Edge) : Bool :=
  !e.on || !rs.any fun r =>
    (outOf r.pair true == some e.out || outOf r.pair false == some e.out) && r.runs.any fun q => decide (q.1 ≤ e.pos)

/-- Plans one leg for the period that begins from its waveform (R170 to R173) and keeps what it leaves for the next; `next` is
the waveform that the block in force gives the period after. A FREE leg drops what its delay had left over (R169); DEDUCED
(log 10). -/
def State.planWave (s : State) (g l : Nat) (c : PlanCtx) (prev16 : Int) (w : LegWave) (next : List WaveEv) (inhibit : Bool) :
    State :=
  let x := s.leg l
  let ty := s.legType l
  let all := (if w.evs.head?.any (fun e => e.free && decide (e.pos = 0)) then [] else x.tail) ++ w.evs
  let evs := all.filter fun e => decide (e.pos < c.p16)
  let tail := (all.filter fun e => decide (c.p16 ≤ e.pos)).map fun e => { e with pos := e.pos - c.p16 }
  let bootN := s.bootN g
  let boot := decide (bootN ≠ 0) && decide (x.topRun ≥ bootN) && !inhibit && (stateAfter x.now evs (c.p16 - c.qpre)).isSome
  let evs := if boot then refreshEvs c ty (max (s.bootW g) c.minp) x.now evs else evs
  let plan := planLeg c s l x.now x.held evs (tail ++ next)
  let old := ((x.edges.filter fun e => decide (prev16 ≤ e.pos)).map fun e => { e with pos := e.pos - prev16 }).filter
    (leftOver (s.pairOut l) plan.runs)
  let s := s.setLeg l { x with
    edges := sortEdges (old ++ plan.edges), tail := tail, carry := w.carry, held := plan.held, runs := plan.runs
    now := plan.last, endState := plan.endState, badCode := w.bad
    topRun := if boot then 0 else if plan.atTop then x.topRun + 1 else 0 }
  let s := if plan.acts > 0 then (s.count (rPWM_Gn_CNT_MINP g) plan.acts).setBit (rPWM_Gn_STAT g) 5 else s
  let s := if w.clips > 0 then (s.count (rPWM_Gn_CNT_QUIET g) w.clips).setBit (rPWM_Gn_STAT g) 6 else s
  let s := if w.bad then s.setBit (rPWM_Gn_STAT g) 14 else s
  if boot then s.inc (rPWM_Gn_CNT_BOOT g) else s

/-- Plans one leg from the block in force (R169 to R173). -/
def State.planGroupLeg (s : State) (g l : Nat) (b : List Word) (c : PlanCtx) (prev16 : Int) : State :=
  let w := s.legWave g l b c (s.leg l).carry
  let next := s.legWave g l b { c with rot := c.rot + 1 } w.carry
  s.planWave g l c prev16 w next.evs (bit (blockWord b 8).toNat 11)

/-- The stretch of a period that a single switch is on. -/
def PairRuns.pulse (r : PairRuns) (p16 : Int) : Int × Int :=
  let stop := fun (l : List Run) => (l.head?.map (·.1)).getD p16
  if r.start = some true then (0, stop r.runs)
  else match r.runs.dropWhile fun q => q.2 != some true with
    | [] => (0, 0)
    | q :: rest => (q.1, stop rest)

/-- The chopper's pulse of the period: a level-1 interval of the duty, centred for a TRI carrier and first for a SAW one
(R165, R169, R230), without dead time and under MINP (R171). A leg that a leg-local response holds FREE takes none. -/
def State.chpPulse (s : State) (g : Nat) (prev16 : Int) : State :=
  match s.chpLeg with
  | none => s
  | some l =>
    if (s.leg l).freed then s
    else
      let c : PlanCtx := { s.planCtx g (s.grp g).per [] with quiet := false, qpost := 0, qpre := 0 }
      let d : Int := if s.chpRuns then (s.chp.duty : Int) else 0
      let delay := if s.grpSync g = 1 then 0 else part16 c.p16 (s.legPhase l) 16
      let evs := intervalEvs 0 false delay (centred c (2 * d) delay)
      let s := s.planWave g l c prev16 ⟨evs, [], 0, false⟩ evs true
      match (s.leg l).runs with
      | [] => s
      | r :: _ =>
        { s with chp := { s.chp with pulseFrom := (r.pulse c.p16).1, pulseTo := (r.pulse c.p16).2 } }

/-! ### Edges -/

/-- One switching at a ball; an output that turns on opens the leg's FLT_N blanking window (R222). -/
def State.fireEdge (s : State) (l : Nat) (e : Edge) : State :=
  let s := s.setDrive e.out (if e.on then .on else .off)
  if e.on && s.tripLeg l 1 1 != 0 then s.setLeg l { s.leg l with blanking := true } else s

/-- Fires the edges of a leg that lie before a position. -/
def State.flushLeg (s : State) (l : Nat) (upTo : Int) : State :=
  let due := (s.leg l).edges.filter fun e => decide (e.pos < upTo)
  let s := s.setLeg l { s.leg l with edges := (s.leg l).edges.filter fun e => decide (upTo ≤ e.pos) }
  due.foldl (fun s e => s.fireEdge l e) s

/-- PWM_EDGE (R172): the next switching of the leg; the count has reached it. -/
def execPwmEdge (l : Nat) (s : State) : Out :=
  .next (match s.legGroup l, (s.leg l).edges with
    | some g, e :: es =>
      if (s.grp g).st == .running then
        let s := s.setGrp g { s.grp g with cntU := max (s.grp g).cntU (e.pos.toNat * 125000) }
        (s.setLeg l { s.leg l with edges := es }).fireEdge l e
      else s
    | _, _ => s)

/-! ### Periods -/

/-- The seal that a period start applies (R175). `first` is the start point, which applies the newest seal whatever the
mode and wherever it landed (R178). -/
def State.applySeal (s : State) (g : Nat) (first : Bool) : State :=
  let x := s.grp g
  if first then
    let s := s.setGrp g { x with
      block := (x.lateSeal.or x.newSeal).or x.block, newSeal := none, lateSeal := none, cmtReq := false }
    let s := if x.lateSeal.isSome then s.markAll g .sealed .spoiled else s
    (s.markAll g .late (if x.crossing then .sealed else .spoiled)).markAll g .sealed .applied
  else if !s.grpEvent g || x.cmtReq then
    let s := s.setGrp g { x with
      block := x.newSeal.or x.block, newSeal := x.lateSeal, lateSeal := none, cmtReq := false }
    let s := if x.newSeal.isSome then s.markAll g .sealed .applied else s
    s.markAll g .late (if x.crossing then .sealed else .spoiled)
  else
    let s := s.setGrp g { x with newSeal := x.lateSeal.or x.newSeal, lateSeal := none }
    s.markAll g .late (if x.crossing then .sealed else .spoiled)

/-- The FCAR request of word 9 of a block just applied (Table 7.6). -/
def State.fcarRequest (s : State) (g : Nat) (b : List Word) : State :=
  let r := (blockWord b 9).toNat
  if r = 0 || s.grpSync g = 1 then s
  else if r > s.carMax g then
    (s.setGrp g { s.grp g with fcar := s.carMax g }).setBit (rPWM_Gn_STAT g) 13
  else s.setGrp g { s.grp g with fcar := r }

/-- A leg whose automatic clear is ready takes its waveform again (R225). -/
def State.legReturn (s : State) (l : Nat) : State :=
  if (s.leg l).ready then s.setLeg l { s.leg l with freed := false, ready := false } else s

/-- A carrier period begins: the seal, P, and the plan of every leg that is not held FREE. -/
def State.beginPeriod (s : State) (g : Nat) (first : Bool) : State :=
  let prev16 : Int := 16 * ((s.grp g).per : Int)
  let had := if first then (s.grp g).lateSeal.or (s.grp g).newSeal else (s.grp g).newSeal
  let half := s.nextHalf g first
  let s := s.applySeal g first
  let s := if had.isSome && (s.grp g).block = had then s.fcarRequest g (had.getD []) else s
  let x := s.grp g
  let pl := if s.grpSync g = 1 then s.planAngle g half else s.planFree g half
  let s := s.setGrp g { x with
    per := pl.per, freePer := if pl.outsideHold then pl.per else x.freePer, cntU := 0, shoot := 0, resume := false
    half := half, lockFree := pl.lockFree, lockLag := pl.lockLag, evPin := 0 }
  let s := if pl.frac then s.setBit (rPWM_Gn_STAT g) 7 else s
  let s := match x.block with
    | none => s
    | some b =>
      let w10 := (blockWord b 10).toNat
      let s := if decide (bits w10 0 16 > pl.per / 4) || decide (bits w10 16 16 > pl.per / 4) then
          s.setBit (rPWM_Gn_STAT g) 12 else s
      let ovm := s.grpMode g == 2 &&
        (abRefs (blockWord b 0).toInt (blockWord b 1).toInt (bit (blockWord b 8).toNat 10)).2
      let s := if ovm then s.setBit (rPWM_Gn_STAT g) 11 else s
      let c := s.planCtx g pl.per b
      s.each (s.groupLegs g) fun s l =>
        let s := s.legReturn l
        if (s.leg l).freed || s.legType l == tyCHP then s else s.planGroupLeg g l b c prev16
  let s := s.setGrp g { s.grp g with rot := (s.grp g).rot + 1 }
  if s.chpGroup == some g then s.chpPeriod.chpPulse g prev16 else s

/-- PWM_CMT_REQUEST (R175): without effect in EACH mode. -/
def State.cmtRequest (s : State) (g : Nat) : State :=
  if s.grpEvent g then s.setGrp g { s.grp g with cmtReq := true } else s
def execPwmCmtRequest (g : Nat) (s : State) : Out := .next (s.cmtRequest g)

/-! ### Start and stop (R178, R179) -/

/-- A trip on the group is latched, or a source that acts on it is active. -/
def State.tripBlocks (s : State) (g : Nat) : Bool := (s.grp g).isTripped || !(s.grp g).latches.isEmpty || s.actedOn g

/-- The REFUSE code of a START, 0 where it is accepted (Table 7.11, in the order of R178). -/
def State.startRefuse (s : State) (g : Nat) : Nat :=
  if !s.cabValid then 1
  else if s.carMax g = 0 then 2
  else if s.tier < 2 || s.clk.learning then 3
  else if bit s.img.structPend g then 4
  else if s.tripBlocks g then 5
  else if (s.grp g).st == .safe then 6
  else if s.grpMode g = 0 then 7
  else if (s.grp g).st != .stopped || (s.grp g).stopAt == some s.clk.t then 8
  else 0

/-- START of one group: it is ARMED for its start point (R178). While JTAG halts the Loop Engine an armed group goes to SAFE
(R179). -/
def State.groupStart (s : State) (g : Nat) : State :=
  let r := s.startRefuse g
  if r = 0 then
    let s := s.setGrp g { s.grp g with
      st := .armed, marked := false, armedAt := s.clk.t, startAngle := s.gridNext g s.tierHalf }
    let s := (s.diagAbort g).grdRestop g
    if s.le.halted then s.groupLoss g 3 true else s
  else s.noteRefuse g r

/-- An ARMED group has reached its start point (R178): a FREE group 16 PTC cycles after START, an ANGLE group its grid point, a
TRESTLE group an alignment mark; FREE and TRESTLE groups add their OFFSET to the instant since they were armed. -/
def State.startDue (s : State) (g : Nat) : Bool :=
  let x := s.grp g
  let run : Nat := (s.clk.t - x.armedAt) * s.clk.ndiv * 65536
  let delay : Nat := s.grpOffset g % 65536 * (s.planFree g s.tierHalf).per
  if s.grpSync g = 1 then decide (x.startAngle ≤ s.gridHere g)
  else if s.grpSync g = 2 then x.marked && decide (16 * s.clk.rdiv * delay ≤ run)
  else decide (16 * s.clk.rdiv * (16 * 65536 + delay) ≤ run)

/-- GROUP_START, PWM_START. -/
def execGroupStart (g : Nat) (s : State) : Out := .next (if g < 8 then s.groupStart g else s)
def State.pwmStart (s : State) (mask : Nat) : State := s.each ((List.range 8).filter (bit mask)) State.groupStart
def execPwmStart (mask : BitVec 8) (s : State) : Out := .next (s.pwmStart mask.toNat)

/-- GROUP_STOP, PWM_STOP (R179). -/
def execGroupStop (g : Nat) (s : State) : Out := .next (if g < 8 then s.groupStop g 1 else s)
def State.pwmStop (s : State) (mask : Nat) : State :=
  s.each ((List.range 8).filter (bit mask)) fun s g => s.groupStop g 1
def execPwmStop (mask : BitVec 8) (s : State) : Out := .next (s.pwmStop mask.toNat)

/-! ### Interlock (R177) -/

/-- The group whose leg names an output. -/
def State.outGroup (s : State) (o : Nat) : Option Nat :=
  ((List.range 24).find? fun l => (s.legOuts l).contains o).bind s.legGroup

/-- SHOOT_BLOCK: the overlap of a fused pair is counted; the one that makes the period's count exceed SHOOT_MAX trips. -/
def execShootBlock (o : Nat) (s : State) : Out :=
  .next (
    if s.overlap o then
      match s.outGroup o with
      | none => s
      | some g =>
        let n := (s.grp g).shoot + 1
        let s := s.setGrp g { s.grp g with shoot := n }
        let s := (s.inc (rPWM_Gn_CNT_SHOOT g)).setBit (rPWM_Gn_STAT g) 4
        if n = s.shootMax g + 1 then s.sourcePulse (0x50 + g) else s
    else s)

/-! ### Event channels (R182) -/

/-- The pins that enabled event channels own. -/
def State.pinOwned (s : State) (pin : Nat) : Bool :=
  (List.range 8).any fun g => s.grpMode g != 0 && (List.range 2).any fun ch =>
    let c := s.grpEvcfg g ch
    bit c 9 && bits c 4 5 == pin

/-- EVENT_CHANNEL_FIRE: once a period, in periods whose index is 0 modulo PRESC + 1, at a count below P or in the period
of a resume. A pulse leaves the pin as it was; a toggle inverts it. -/
def execEventChannelFire (g ch : Nat) (s : State) : Out :=
  let x := s.grp g
  let c := s.grpEvcfg g ch
  let cnt := match x.block with
    | some b => bits (blockWord b (11 + ch)).toNat 0 24
    | none => s.grpEvdef g ch % 2 ^ 24
  .next (
    if x.st == .running && bit c 9 && decide (ch < 2) && x.pidx % (bits c 0 4 + 1) == 0
        && !bit x.evPin ch && (decide (cnt < x.per) || x.resume) then
      let s := s.setGrp g { x with evPin := x.evPin + 2 ^ ch }
      let pin := bits c 4 5
      if pin < 16 && bits c 10 2 == 3 then
        { s with pins := { s.pins with gpio := s.pins.gpio ^^^ BitVec.ofNat 16 (2 ^ pin) } }
      else s
    else s)

/-! ### Alignment (R183) -/

/-- One phase step in femtoseconds: 1/128 of the PTC period. -/
def State.phaseStep (s : State) : Int := divOpen 5 (312500 * (s.clk.rdiv : Int)) (max 1 s.clk.ndiv : Nat)

/-- ALIGN_OK stays while the error is within ±1 ns. -/
def State.alignEval (s : State) : State :=
  { s with pwm := { s.pwm with alignOk := s.pwm.alignAct && decide (s.pwm.alignErr.natAbs ≤ 1000000) } }

/-- A mark measured: the error of the ALIGN_REF boundary against it, in femtoseconds, and the master's period index. -/
def State.markFrame (s : State) (pidx : Nat) (err : Int) : State :=
  let s := { s with pwm := { s.pwm with alignErr := err, alignAct := true, marksMissed := 0, markPidx := pidx } }.alignEval
  s.each (List.range 8) fun s g =>
    if (s.grp g).st == .armed && s.grpSync g == 2 then s.setGrp g { s.grp g with marked := true } else s

/-- ALIGN_PHASE_STEP: one step toward the mark, until the error is within ±0.5 ns. -/
def execAlignPhaseStep (s : State) : Out :=
  .next (
    if s.pwm.alignAct && decide (s.pwm.alignErr.natAbs > 500000) then
      let st := s.phaseStep
      let s := { s with pwm := { s.pwm with
        alignErr := if s.pwm.alignErr > 0 then s.pwm.alignErr - st else s.pwm.alignErr + st } }
      (s.inc rPWM_PHSTEP_CNT).alignEval
    else s)

/-- ALIGN_LOSS. -/
def execAlignLoss (s : State) : Out :=
  .next (({ s with pwm := { s.pwm with alignAct := false, alignOk := false, marksMissed := 8 } }).setBit rPWM_STAT 5)

/-- PWM_CNT_READ (R185). -/
def execPwmCntRead (g : Nat) (s : State) : Out := .next (s.setGrp g { s.grp g with pidxSnap := word (s.grp g).pidx })

/-- The level code that a leg reports (R176): that of count P − 1, that held where the group stands FROZEN, or 7. -/
def State.legCode (s : State) (g l : Nat) : Nat :=
  let x := s.grp g
  let y := s.leg l
  let held := if x.st == .running then (if y.badCode then none else y.endState)
    else if x.st == .frozen && !s.grpHopFree g && !y.runs.isEmpty then stateOfRuns y.runs x.pos16
    else none
  match held with
  | some m => stateLevel (s.legType l) m
  | none => 7

/-- The state code of a group, from count P − 1 of the period in progress (R135, R176). -/
def State.groupCode (s : State) (g : Nat) : Word :=
  word (((s.groupLegs g).map fun l => s.legCode g l * 8 ^ s.legSlot l).foldl (· + ·) 0)

/-! ### PTC hops (R180) -/

/-- Every RUNNING group freezes: its legs hold their level, or go FREE where HOP_FREE is set. -/
def State.freezeAll (s : State) : State :=
  s.each (List.range 8) fun s g =>
    if (s.grp g).st == .running then
      let s := s.setGrp g { s.grp g with st := .frozen }
      if s.grpHopFree g then s.each (s.groupOuts g) fun s o => s.setDrive o .off else s
    else s

/-- The switchings to come of a leg that leaves FREE at a position: its outputs turn on one dead time later (R172). -/
def State.rejoinEdges (s : State) (g l : Nat) (pos : Int) : List Edge :=
  let dt := if isSingle (s.legType l) then 0 else s.deadTime g
  sortEdges ((s.leg l).runs.flatMap fun r =>
    runEdges (s.pairOut l r.pair) dt none ((pos, r.at pos) :: r.runs.filter fun q => decide (pos < q.1)))

/-- Everything that a leg has still to come, at the same part of a period of another length. -/
def Leg.scaled (x : Leg) (f : Int → Int) : Leg :=
  { x with
    edges := x.edges.map fun e => { e with pos := f e.pos }
    tail := x.tail.map fun e => { e with pos := f e.pos }
    held := x.held.map fun h => { h with until16 := f h.until16 }
    runs := x.runs.map fun r => { r with runs := r.runs.map fun q => (f q.1, q.2) } }

/-- P of a group in the period in which it resumes: R165 at the new clock, or for an ANGLE group the P that ends the rest of
the period at the next grid point (R166, R180). -/
def State.planResume (s : State) (g : Nat) : PeriodPlan :=
  let x := s.grp g
  let old := max 1 x.per
  if s.grpSync g = 1 then
    s.planTo g x.half (s.gridNext g x.half) (max 1 (old - x.cntU / 2000000) : Nat) (old : Nat)
  else s.planFree g x.half

/-- One group resumes at count round(count × P_new / P_old), the switchings to come at the same part of the period (log 13);
one that tripped during the hop is TRIPPED now (R181). -/
def State.resumeGroup (s : State) (g : Nat) : State :=
  let x := s.grp g
  if x.tripHop then (s.setGrp g { x with st := .tripped, tripHop := false }).groupUntrip g
  else
    let pl := s.planResume g
    let scale := fun (v : Int) => divNearest (v * pl.per) (max 1 x.per : Nat)
    let s := if s.grpHopFree g then
        s.each (s.groupLegs g) fun s l => s.setLeg l { s.leg l with edges := s.rejoinEdges g l x.pos16 }
      else s
    let s := s.setGrp g { x with
      st := .running, per := pl.per, resume := true, lockFree := pl.lockFree, lockLag := pl.lockLag
      cntU := (scale (x.cntU / 2000000 : Nat)).toNat * 2000000 }
    let s := if pl.frac then s.setBit (rPWM_Gn_STAT g) 7 else s
    s.each (s.groupLegs g) fun s l => s.setLeg l ((s.leg l).scaled scale)

/-- The hop is over: the frozen groups resume at the new clock (R180). -/
def State.resumeAll (s : State) (ndiv rdiv : Nat) : State :=
  let s := { s with clk := { s.clk with ndiv := ndiv, rdiv := rdiv } }
  let s := { s with pwm := { s.pwm with alignOk := false } }
  s.each ((List.range 8).filter fun g => (s.grp g).st == .frozen) State.resumeGroup

end Sys2Proof.Machine
end

