-- ==== Sys2Proof/Machine/ChecksPower.lean ====
section
/-!
DEFINITION. The consistency checks of SCHED (R63), TOPOLOGY and LEGS (R184) and ANALOG (R212). A check runs on the state
whose configuration is the one that would be in force; each list pairs a DETAIL code with whether it fails.
-/

namespace Sys2Proof.Machine

/-- The lowest DETAIL that fails. -/
def firstFail (l : List (Nat × Bool)) : Option Nat := (l.find? fun x => x.2).map fun x => x.1

/-- All bytes of a range of a payload are 0. -/
def zeros (p : List Byte) (off n : Nat) : Bool := (slice p off n).all (· == 0)

/-- True when two entries of a list are equal. -/
def hasDup : List Nat → Bool
  | [] => false
  | x :: xs => xs.contains x || hasDup xs


/-- NDIV and RDIV of an operating point of HOLDUP; 32 and 1, 800 MHz, without the section (R381). -/
def State.opPoint (s : State) (k : Nat) : Nat × Nat :=
  if s.hasSec secHoldup then
    (bits (field (s.sec secHoldup) (0x30 + 4 * k) 2) 0 10, field (s.sec secHoldup) (0x32 + 4 * k) 1)
  else (32, 1)
def State.opValid (s : State) (k : Nat) : Bool := s.hasSec secHoldup && bit (field (s.sec secHoldup) (0x30 + 4 * k) 2) 15
def State.ptcInit (s : State) : Nat := if s.hasSec secHoldup then field (s.sec secHoldup) 0x28 1 else 0

/-! ### SCHED (R63) -/

/-- P that check 8 takes for a group: at full carrier frequency and at PTC_INIT. -/
def State.nominalP (s : State) (g : Nat) : Nat :=
  let op := s.opPoint (s.ptcInit % 8)
  let s := { s with clk := { s.clk with ndiv := op.1, rdiv := max 1 op.2 } }
  if s.grpSync g = 1 then
    let num := 25000000 * s.clk.ndiv * 2 ^ 24
    let den := max 1 (s.grpNcar g * s.clk.rdiv * s.fnom)
    (2 * num + den) / (2 * den)
  else (s.freeP (if !s.cabValid || s.carMax g = 0 then s.grpFcar g else min (s.grpFcar g) (s.carMax g))).1

/-- A context that LOOP_PROG defines. -/
def State.ctxDefined (s : State) (n : Nat) : Bool := n != 0 && (s.desc n).isSome

def State.checkSched (s : State) : List (Nat × Bool) :=
  let p := s.sec secSched
  let n := field p 0x20 2
  let es := List.range (min n 256)
  let f := fun off len => field p off len
  let unused := fun i =>
    let o := 0x28 + 32 * i + 8
    if s.entryTb i = 0 then !zeros p (o + 10) 2
    else if s.entryTb i = 1 then !zeros p (o + 3) 1 || !zeros p (o + 8) 4 else false
  let vn := word (f 8 4)
  [ (1, decide (n > 256) || p.length != 0x28 + 32 * n)
  , (2, bits (f 0 1) 0 2 == 3 || decide (f 1 1 > 2) || bits (f 0 1) 3 5 != 0 || !zeros p 0x15 1 || !zeros p 0x1E 2 ||
      !zeros p 0x22 6 || es.any fun i => s.entryTb i == 3 || s.entryAction i == 0 || decide (s.entryAction i > 9) ||
        bits (s.entryField i 0 4) 12 20 != 0 || unused i)
  , (3, es.any fun i => s.entryPeriodic i &&
      (let q := s.entryPeriod i
       if s.entryTb i = 0 then decide (q < 2 ^ 20)
       else if s.entryTb i = 1 then decide (q < 1) || decide (2 ^ 32 ≤ q)
       else decide (q < 1000) || decide (2 ^ 63 ≤ q)))
  , (4, es.any fun i => s.entryAction i == 8 && !s.ctxDefined (bits (s.entryArg i) 0 6))
  , (5, es.any fun i => (s.entryTb i == 1 && s.grpMode (s.entryGroup i) == 0) ||
      (s.entryAction i == 1 && s.grpMode (bits (s.entryArg i) 0 3) == 0))
  , (6, es.any fun i => s.entryTb i == 1 && s.entryAction i == 1 && bits (s.entryField i 8 12) 0 24 != 0)
  , (7, decide (f 2 1 < 5) || decide (50 < f 2 1) || decide (f 3 1 < 1) || decide (8 < f 3 1) ||
      decide (f 4 4 < 40 * 2 ^ 24) || decide (72 * 2 ^ 24 < f 4 4) ||
      decide (f 0x0C 4 * 360 < 2 ^ 32) || decide (2 ^ 30 < f 0x0C 4) ||
      decide (f 0x10 4 * 50 < 2 ^ 28) || decide (2 ^ 27 < f 0x10 4) ||
      decide (f 0x14 1 < 1) || decide (16 < f 0x14 1) || decide (f 0x1C 2 < 1) || decide (255 < f 0x1C 2) ||
      vn.getLsbD 31 || (vn &&& 0x7FFFFFFF) == 0 || (vn &&& 0x7F800000) == 0x7F800000)
  , (8, es.any fun i => s.entryTb i == 1 &&
      decide (s.nominalP (s.entryGroup i) ≤ bits (s.entryField i 8 12) 0 24))
  , (9, f 1 1 == 2 && bits (f 0 1) 0 2 != 2) ]

/-! ### TOPOLOGY and LEGS (R184) -/

def State.checkTopology (s : State) : List (Nat × Bool) :=
  let p := s.sec secTopology
  let gs := List.range 8
  let used := gs.filter fun g => s.grpMode g != 0
  let car := fun g => s.topo g 2 1
  let pins := (used.flatMap fun g => [s.grpEvcfg g 0, s.grpEvcfg g 1]).filter fun c => bit c 9 && decide (bits c 4 5 < 16)
  let tr := used.filter fun g => s.grpSync g == 2
  [ (1, p.length != 264)
  , (2, !zeros p 1 7 || (decide (7 < s.alignRef) && s.alignRef != 0xFF) || gs.any fun g =>
      decide (4 < s.grpMode g) || s.grpSync g == 3 || bits (car g) 5 3 != 0 || s.topo g 3 1 != 0 || s.topo g 0x0A 2 != 0 ||
        bits (s.topo g 0x14 4) 12 4 != 0 || bits (s.topo g 0x14 4) 28 4 != 0 || s.topo g 0x1B 1 != 0 || s.topo g 0x1F 1 != 0 ||
        (s.grpMode g != 0 && (decide (s.topo g 1 1 < 1) || decide (8 < s.topo g 1 1))))
  , (3, used.any fun g =>
      if s.grpSync g = 1 then
        decide (s.grpNcar g < 4) || decide (6250 < s.grpNcar g) ||
          (s.cabValid && s.carMax g != 0 && decide (s.carMax g < s.grpNcar g * 72000))
      else decide (s.grpFcar g < 120000) || decide (250000000 < s.grpFcar g))
  , (4, used.any fun g => s.grpMode g == 2 &&
      (s.topo g 1 1 != 3 || !((s.groupLegs g).all fun l => s.legType l == s.legType ((s.groupLegs g).headD 0))))
  , (5, (s.alignRef != 0xFF && s.grpMode s.alignRef == 0) ||
      tr.any fun g => s.grpFcar g != s.grpFcar (tr.headD 0))
  , (6, used.any fun g => s.topo g 1 1 != ((List.range (min s.nLeg 24)).filter fun i => field (s.sec secLegs) (0xE9 + 16 * i) 1 == g).length)
  , (7, hasDup (pins.map fun c => bits c 4 5)) ]

/-- Where the fused pair of an output is placed: the leg, pair and side. -/
def State.pairPlace (s : State) (o : Nat) : Option (Nat × Nat × Bool) :=
  ((List.range 24).flatMap fun l => (List.range (nPairs (s.legType l))).flatMap fun c =>
    [(l, c, true), (l, c, false)]).find? fun q => s.pairOut q.1 q.2.1 q.2.2 == some o

def State.checkLegs (s : State) : List (Nat × Bool) :=
  let p := s.sec secLegs
  let n := s.nLeg
  let es := List.range (min n 24)
  let e := fun i off len => field p (0xE8 + 16 * i + off) len
  let gs := List.range 8
  let slots := fun g => (es.filter fun i => e i 1 1 == g).map fun i => e i 3 1
  let need := fun ty => if isSingle ty then 1 else 2 * nPairs ty
  let outs := (es.filter fun i => within 1 (e i 2 1) 7).flatMap fun i => (List.range 8).filterMap fun k => if e i (4 + k) 1 = 0xFF then none else some (e i (4 + k) 1)
  let named := fun o => outs.contains o
  [ (1, p.length != 0xE8 + 16 * n)
  , (2, hasDup (es.map fun i => e i 0 1) || gs.any fun g => hasDup (slots g) || (slots g).any fun k => decide (s.topo g 1 1 ≤ k))
  , (3, hasDup outs || es.any fun i => within 1 (e i 2 1) 7 && (List.range 8).any fun k => (e i (4 + k) 1 == 0xFF) == decide (k < need (e i 2 1)))
  , (4, s.cabValid && (List.range 48).any fun o =>
      match fusePair s.cab o with
      | none => false
      | some k =>
        (named o || named k) &&
          (match s.pairPlace o, s.pairPlace k with
           | some a, some b => !(a.1 == b.1 && a.2.1 == b.2.1 && a.2.2 != b.2.2)
           | _, _ => true))
  , (5, es.any (fun i => decide (e i 1 1 < 8) && s.grpMode (e i 1 1) == 0) || gs.any fun g => (s.grpMode g == 3 || s.grpMode g == 4) &&
      !((s.groupLegs g).all fun l => nLevels (s.legType l) == nLevels (s.legType ((s.groupLegs g).headD 0))))
  , (6, decide (n < 1) || decide (24 < n) || !zeros p 1 7 ||
      gs.any (fun g => decide (8184 < s.grpTiming g 0 2) || decide (5100 < s.grpTiming g 2 2) || decide (1 < s.grpTiming g 4 1) ||
        decide (15 < s.grpTiming g 5 1) || decide (5100 < s.grpTiming g 8 2) || !zeros p (8 + 16 * g + 10) 6) ||
      (List.range 48).any (fun o => decide (2 ^ 9 ≤ field p (0x88 + 2 * o) 2)) ||
      es.any fun i => decide (23 < e i 0 1) || decide (7 < e i 1 1) || decide (e i 2 1 < 1) || decide (7 < e i 2 1) ||
        decide (7 < e i 3 1) || e i 0x0E 2 != 0 ||
        (List.range 8).any fun k => decide (47 < e i (4 + k) 1) && e i (4 + k) 1 != 0xFF) ]

/-! ### ANALOG (R212) -/

def State.checkAnalog (s : State) : List (Nat × Bool) :=
  let p := s.sec secAnalog
  let nslot := field p 0 2
  let nx := s.nXchk
  let seqs := (List.range 4).flatMap fun c => (List.range 16).map fun q => (c, q)
  let slots := fun (cq : Nat × Nat) => (List.range (s.seqCount cq.1 cq.2)).map fun k => s.slotAt cq.1 cq.2 k
  let allSlots := (List.range (min nslot 1024)).map fun i => field p (0x218 + 2 * i) 2
  let chainSet := fun (c q : Nat) =>
    (List.range 17).foldl (fun (acc : List Nat × Option Nat) _ =>
      match acc.2 with
      | none => acc
      | some k => (acc.1 ++ [k], s.seqChain c k)) ([], some q)
  let written := fun c ix => (List.range 16).any fun q => (slots (c, q)).any fun x => slotIndex x == ix
  [ (1, p.length != 0x218 + 2 * nslot || decide (1024 < nslot) || decide (8 < nx))
  , (2, seqs.any fun cq => decide (nslot < s.seqField cq.1 cq.2 0 2 + s.seqCount cq.1 cq.2) || decide (16 < s.seqCount cq.1 cq.2))
  , (3, allSlots.any fun x => decide (54 ≤ slotChannel x) || slotRange x == 3 ||
      (slotRbchk x && (decide (slotChannel x < 32) || decide (49 < slotChannel x))))
  , (4, seqs.any fun cq => !((slots cq).all fun x => slotRange x == slotRange ((slots cq).headD 0)))
  , (5, seqs.any fun cq => hasDup ((slots cq).map slotIndex))
  , (6, seqs.any fun cq => hasDup (chainSet cq.1 cq.2).1)
  , (7, (List.range 7).any fun k =>
      let f := fun off => field p (0x110 + 8 * k + off) 1
      let ctl := word (bits (f 0) 0 2 + 4 * bits (f 1) 0 2 + 16 * bits (f 2) 0 2)
      decide (3 < f 1) || decide (2 < f 2) || !sdmCtlOk k ctl)
  , (8, (List.range (min nx 8)).any fun i =>
      let f := fun off => s.pairField i off 1
      decide (3 < f 0) || decide (3 < f 2) || decide (63 < f 1) || decide (63 < f 3) || s.pairField i 4 2 == 0 ||
        decide (32767 < s.pairField i 4 2) || f 6 == 0 || f 0 == f 2 || !written (f 0) (f 1) || !written (f 2) (f 3))
  , (9, !zeros p 3 13 || seqs.any (fun cq => bits (s.seqField cq.1 cq.2 3 1) 6 2 != 0) ||
      (List.range 7).any (fun k => decide (3 < field p (0x110 + 8 * k) 1) || !zeros p (0x110 + 8 * k + 4) 4) ||
      (List.range 8).any (fun i => if i < nx then s.pairField i 7 1 != 0 else s.pairField i 0 8 != 0) ||
      (List.range 18).any (fun n =>
        let f := fun off => s.cmpField n off 1
        (decide (31 < f 0) && f 0 != 0xFF) || bits (f 1) 3 2 == 3 || decide (4 < bits (f 1) 5 3) ||
          decide (0xFFF < s.cmpField n 2 2) || (decide (23 < f 4) && f 4 != 0xFF) || decide (7 < f 6)) ||
      allSlots.any fun x => bit x 15)
  , (10, (List.range 18).any fun n => bit (s.cmpField n 6 1) 2 &&
      (List.range 4).any fun c => bit (s.cmpField n 7 1) c && s.seqCount c (bits (s.cmpField n 7 1) 4 4) == 0) ]

end Sys2Proof.Machine
end

