-- ==== Sys2Proof/Machine/FloatOpen.lean ====
section
/-!
DEFINITION. Binary32 results whose rounding the manual does not state: of the two neighbours of an exact value, the one
that the site leaves open (log 5).
-/

namespace Sys2Proof.Machine

/-- A signed value m × 2^e, with more below `m` where told, as binary32; `m` has 24 bits or is exact. -/
def fPick (site : Nat) (neg : Bool) (m : Nat) (e : Int) (more : Bool) : Word :=
  let sh := Nat.log2 m + 1 - 24
  let q := m / 2 ^ sh
  let q := if (more || m % 2 ^ sh != 0) && Config.roundUp site m e then q + 1 else q
  (fRound neg q (e + sh) false).1

/-- num / den. -/
def fOpen (site : Nat) (num : Int) (den : Nat) : Word :=
  if den = 0 then 0
  else
    let k := 64 + Nat.log2 den
    let n := num.natAbs * 2 ^ k
    fPick site (decide (num < 0)) (n / den) (-(k : Int)) (n % den != 0)

/-- √(num / den). -/
def fSqrtOpen (site : Nat) (num den : Nat) : Word :=
  if den = 0 then 0
  else
    let k := 64 + Nat.log2 den
    let n := num * 2 ^ (2 * k)
    let r := isqrt (n / den)
    fPick site false r (-(k : Int)) (r * r * den != n)

/-- √(num / den) as an integer. -/
def sqrtOpen (site : Nat) (num den : Nat) : Int :=
  let r := isqrt (num / den)
  (r : Int) + (if r * r * den ≠ num ∧ Config.roundUp site num den then 1 else 0)

/-- A binary32 field as a numerator over 2^149; a value that is no number reads as 0. -/
def ratOf (w : Word) : Int := (fToRat w).getD 0

/-- cos and sin of `j` 256ths of a turn, with 64 fraction bits. -/
def twiddle (j : Nat) : Int × Int :=
  let t := j % 256
  let oct := t / 32
  let r := t % 32
  let (s, c) := fxOctant ((if oct % 2 = 0 then r else 32 - r) * 2 ^ 24)
  let (s1, c1) := if oct % 4 = 0 ∨ oct % 4 = 3 then (s, c) else (c, s)
  ((if oct < 2 ∨ oct ≥ 6 then c1 else -c1) / 2 ^ 128, (if oct < 4 then s1 else -s1) / 2 ^ 128)

end Sys2Proof.Machine
end

