-- ==== Sys2Proof/Machine/Mtr.lean ====
section
/-!
DEFINITION. Revenue metering and synchrophasors (R262 to R281): strobes, energy registers, snapshots and delta views,
RMS values and harmonics, synchrophasor records, and the save area in the NVM.
-/

namespace Sys2Proof.Machine

/-! ### The METER section (Table 11.7) and the registers that follow from the state -/

def State.meter (s : State) (off n : Nat) : Nat := field (s.sec secMeter) off n
def State.meterOn (s : State) : Bool := s.hasSec secMeter
def State.setMtr (s : State) (m : Mtr) : State := { s with mtr := m }

/-- EN and HARM_EN with a section in force. -/
def State.harmOn (s : State) : Bool := s.meterOn && bit (s.meter 0 2) 0 && bit (s.meter 0 2) 1

/-- PMU: 0 off, 1 P, 2 M. -/
def State.pmuMode (s : State) : Nat := if s.meterOn && bit (s.meter 0 2) 0 then bits (s.meter 0 2) 2 2 else 0

/-- UNCAL: a channel delivers CAL = 0, or the scaling is that of the NVM record (R269, R277). -/
def State.mtrUncal (s : State) : Bool := !s.regBit rSDM_STAT 3 || !s.meterOn

/-- NOSCALE (R277). -/
def State.mtrNoScale (s : State) : Bool := s.mtr.scale.isNone

/-- Good save slots. -/
def Mtr.good (m : Mtr) : Nat := 16 - ((List.range 16).filter fun i => bit m.bad i).length

/-- The derived bits of MTR_STAT (Table 11.10). -/
def State.mtrStat (s : State) : Nat :=
  b2n s.meterOn + 2 * b2n (s.sys.romDone && s.mtrUncal) + 64 * s.mtr.restore + 256 * b2n s.mtr.nvmEmpty +
    512 * b2n (decide (s.mtr.good < 4)) + 2 ^ 13 * b2n (!s.hasSec secSched) + 2 ^ 14 * b2n (s.sys.romDone && s.mtrNoScale)

/-- The quantity of an accumulator is signed: P_NET and Q_NET (Table 11.1). -/
def accSigned (n : Nat) : Bool := n / 4 == 2 || n / 4 == 5

/-- A 64-bit count read with its kind. -/
def accInt (n v : Nat) : Int := if accSigned n then signed 64 v else (v : Int)

def Mtr.get0 (m : SMap Nat) (n : Nat) : Nat := SMap.get (fun _ => 0) m n

/-- µWh of DUNIT (R267). -/
def dunitOf (d : Nat) : Int := 10 ^ (3 + d)

/-- A delta view (R267). -/
def State.mtrView (s : State) (n : Nat) : Word :=
  wordOfInt (accInt n (Mtr.get0 s.mtr.snap n) / dunitOf s.mtr.snapUnit)

/-- The _LO half of a snapshot register, and the copy of its _HI half (R266): 0 to 27 the accumulators, 28 MTR_UNC,
29 MTR_SNAP_SEC. -/
def State.mtrLo (s : State) (r : Nat) : Word := word (Mtr.get0 s.mtr.snap r)
def State.mtrHi (s : State) (r : Nat) : Word := SMap.get (fun _ => 0) s.mtr.hi r

/-- The words of the MTR window that follow from the state (Table 11.9). -/
def State.mtrWord (s : State) (off : Nat) : Option Word :=
  let m := s.mtr
  if off = 0x010 then some (s.mtrLo 29)
  else if off = 0x014 then some (s.mtrHi 29)
  else if off = 0x018 then some (s.mtrLo 28)
  else if off = 0x01C then some (s.mtrHi 28)
  else if off = 0x020 then some (word (min 0xFFFFFFFF (m.gapT / 400000)))
  else if off = 0x024 then some (word (min 0xFFFFFFFF (m.uncalT / 400000000)))
  else if off = 0x028 then some (word (m.newest.getD 0 + 16 * m.bad))
  else if off = 0x02C then some (word m.pmuWp)
  else if off = 0x030 then some (word (b2n m.harmBuf + 256 * m.harmN))
  else if 0x040 ≤ off ∧ off < 0x120 then
    some (if off % 8 = 0 then s.mtrLo ((off - 0x040) / 8) else s.mtrHi ((off - 0x040) / 8))
  else if 0x120 ≤ off ∧ off < 0x190 then some (s.mtrView ((off - 0x120) / 4))
  else none

/-! ### Energy -/

/-- 2^-24 µWh of a power `num` / `den` W over `dt` units of 2.5 ns: 1 J is 2500 / 9 µWh. -/
def energy (num : Int) (den dt : Nat) : Int := divOpen 110 (num * dt * (62500 * 2 ^ 24)) (9 * 10 ^ 10 * den)

/-- Adds an increment to an accumulator (R265). -/
def Mtr.add (m : Mtr) (n : Nat) (inc : Int) : Mtr :=
  { m with acc := SMap.set (fun _ => 0) m.acc n (unsigned 88 (Mtr.get0 m.acc n + inc)) }

/-- Adds to MTR_UNC, which is absolute and stays at its largest value. -/
def Mtr.addUnc (m : Mtr) (inc : Int) : Mtr :=
  { m with acc := SMap.set (fun _ => 0) m.acc 28 (min (2 ^ 88 - 1) (Mtr.get0 m.acc 28 + inc.toNat)) }

/-- The active increments of a strobe from quantity 0 on, or the reactive ones from quantity 3 (Table 11.1): the total
is the sum of the phases before the sign test. -/
def Mtr.addPhases (m : Mtr) (quantity : Nat) (incs : List Int) : Mtr :=
  ((incs ++ [incs.sum]).zipIdx).foldl
    (fun m (v, p) =>
      let m := if v > 0 then m.add (4 * quantity + p) v else m
      let m := if v < 0 then m.add (4 * (quantity + 1) + p) (-v) else m
      m.add (4 * (quantity + 2) + p) v) m

/-- The apparent energy of a cycle. -/
def Mtr.addS (m : Mtr) (incs : List Int) : Mtr :=
  ((incs ++ [incs.sum]).zipIdx).foldl (fun m (v, p) => m.add (24 + p) v) m

/-! ### Cycles (R262, R270) -/

/-- The sum of the squares of a channel over the cycle. -/
def sumSq (xs : List (List Int)) (k : Nat) : Nat := (xs.map fun x => (x.getD k 0).natAbs ^ 2).sum

/-- Bin `h` of the 256-point transform of a channel, the samples oldest first. -/
def dftBin (xs : List Int) (h : Nat) : Int × Int :=
  (xs.zipIdx).foldl (fun a (x, n) =>
    let w := twiddle (h * n)
    (a.1 + x * w.1, a.2 - x * w.2)) (0, 0)

/-- The channels that the harmonic analysis covers. -/
def harmChannels : List Nat := [0, 1, 2, 4, 5, 6]

/-- The transforms of a cycle, channel by channel, h = 1 to 63. -/
def cycleBins (xs : List (List Int)) : List (Int × Int) :=
  harmChannels.flatMap fun k =>
    let ch := xs.reverse.map fun x => x.getD k 0
    (List.range 63).map fun h => dftBin ch (h + 1)

def mag2 (b : Int × Int) : Nat := b.1.natAbs ^ 2 + b.2.natAbs ^ 2

/-- THD² of one channel of a cycle in 2^-96; none where there is no fundamental. -/
def thdSq (bins : List (Int × Int)) (c : Nat) : Option Nat :=
  let ms := (slice63 bins c).map mag2
  let one := ms.headD 0
  if one = 0 then none else some (divOpen 111 (ms.tail.sum * 2 ^ 96 : Nat) one).toNat
where
  slice63 (bins : List (Int × Int)) (c : Nat) : List (Int × Int) := (bins.drop (63 * c)).take 63

/-- Adds two lists place by place; a missing place counts as the other's value. -/
def addLists {α : Type} (add : α → α → α) : List α → List α → List α
  | [], ys => ys
  | xs, [] => xs
  | x :: xs, y :: ys => add x y :: addLists add xs ys

/-- The complete cycle enters the aggregation window. -/
def Mtr.addCycle (m : Mtr) (sInc : Int) : Mtr :=
  let sq := (List.range 7).map (sumSq m.cycX)
  let m := { m with winN := m.winN + 1, winAll := m.winAll + 1, winSq := addLists (· + ·) m.winSq sq, winP := m.winP + m.cycP, winS := m.winS + sInc }
  if m.winPaused then m
  else
    let bins := cycleBins m.cycX
    { m with
      winThd := addLists (fun a b => match a, b with
        | some x, some y => some (x + y)
        | _, _ => none) m.winThd ((List.range 6).map (thdSq bins))
      winMag := addLists (· + ·) m.winMag (bins.map mag2)
      winSum := addLists (fun a b => (a.1 + b.1, a.2 + b.2)) m.winSum bins }

/-- The cycle in progress ends (R262, R264): a complete one adds its apparent energy and enters the window, another one
adds the apparent power of the last complete cycle over its duration. -/
def State.mtrCycleEnd (s : State) : State :=
  let m := s.mtr
  if m.cyc.isNone then s
  else if m.cycN = 256 && m.cycOk then
    let incs := (List.range 3).map fun p =>
      sqrtOpen 112 (sumSq m.cycX p * sumSq m.cycX (4 + p) * (m.cycT * (62500 * 2 ^ 24)) ^ 2) ((256 * 9 * 10 ^ 10 * 2 ^ 298) ^ 2)
    s.setMtr { (m.addS incs).addCycle incs.sum with lastS := some { inc := incs, dt := m.cycT } }
  else
    let m := match m.lastS with
      | some l => if l.dt = 0 then m else m.addS (l.inc.map fun v => divOpen 43 (v * m.cycT) l.dt)
      | none => m
    ((s.setMtr { m with winAll := m.winAll + 1 }).inc rMTR_CNT_BADCYC).setBit rMTR_STAT 4

/-! ### Strobes (R262 to R264) -/

/-- The instant of now, as a strobe: its stamps and the scaling in force. -/
def State.strobeMark (s : State) : StrobeMark :=
  let sc := s.mtr.scale.getD ([], 0)
  { t := s.clk.t, wall := s.wallNs, sch := angWord s.ang.sch, meas := s.ang.measWord, kch := sc.1, rated := sc.2
    runs := s.mtr.scale.isSome, halted := s.mtr.frozen, fresh := true }

/-- The MTR_STROBE action on stream 0: the strobe waits for its resamples. -/
def State.mtrStrobe (s : State) : State := s.setMtr { s.mtr with marks := s.mtr.marks ++ [s.strobeMark] }

/-- The channel values of a strobe in volts and amperes, over 2^149. -/
def StrobeMark.values (k : StrobeMark) (x : List Resample) : List Int :=
  (List.range 7).map fun c => (x.getD c {}).value * ratOf (k.kch.getD c 0)

/-- The phase voltages of a strobe, where valid. -/
def StrobeMark.volts (k : StrobeMark) (x : List Resample) : List (Option Int) :=
  (List.range 3).map fun p => if (x.getD p {}).reason = 0 then some ((k.values x).getD p 0) else none

/-- A strobe whose resamples have come (R263, R264, R276). One that the warning found in flight, or that fell within the halt,
adds nothing but its voltages to the history: its time is part of the halt. -/
def State.mtrProcess (s : State) (k : StrobeMark) (x : List Resample) : State :=
  let m := s.mtr
  let old := m.hist.getD 63 []
  let hist := if k.fresh && k.runs then (k.volts x :: m.hist).take 64 else m.hist
  let dt := match m.last with
    | some l => k.t - l
    | none => 0
  if m.frozen || k.halted then s.setMtr { m with hist := hist }
  else if !k.runs then s.setMtr { m with last := some k.t, gapT := m.gapT + dt }
  else
    let ok := fun c => (x.getD c {}).reason == 0
    let val := k.values x
    let lag := (List.range 3).map fun p => old.getD p none
    let gap := m.forceGap || m.last.isNone || decide (dt > 400000) ||
      !([0, 1, 2, 4, 5, 6].all ok) || lag.any Option.isNone
    let v := fun c => val.getD c 0
    let incs := if gap then m.prev
      else ((List.range 3).map fun p => energy (v p * v (4 + p)) (2 ^ 298) dt) ++
        ((List.range 3).map fun p => energy ((lag.getD p none).getD 0 * v (4 + p)) (2 ^ 298) dt)
    -- a strobe of another cycle closes the one in progress
    let cn := k.sch / 2 ^ 32
    let s := if m.cyc == some cn then s
      else
        let s := s.mtrCycleEnd
        s.setMtr { s.mtr with cyc := some cn, cycN := 0, cycOk := true, cycT := 0, cycP := 0, cycX := [] }
    let m := s.mtr
    let m := (m.addPhases 0 (incs.take 3)).addPhases 3 (incs.drop 3)
    let m := if gap then { m.addUnc (energy (ratOf k.rated) (2 ^ 149) dt) with gapT := m.gapT + min dt 400000 } else m
    let m := { m with
      last := some k.t, forceGap := false, prev := incs
      hist := hist
      uncalT := m.uncalT + (if s.mtrUncal then dt else 0)
      cycN := m.cycN + 1, cycOk := m.cycOk && (List.range 7).all ok, cycT := m.cycT + dt
      cycP := m.cycP + (incs.take 3).sum, cycX := val :: m.cycX }
    let s := s.setMtr m
    if gap then s.setBit rMTR_STAT 3 else s

/-! ### Snapshots (R266 to R268) -/

/-- The 29 counts in whole µWh. -/
def Mtr.whole (m : Mtr) : SMap Nat :=
  (List.range 29).foldl (fun a n => SMap.set (fun _ => 0) a n (Mtr.get0 m.acc n / 2 ^ 24)) []

/-- A register has moved too far for its delta view. -/
def dwrapAt (old new : SMap Nat) (u : Int) (n : Nat) : Bool :=
  let d := accInt n (Mtr.get0 new n) - accInt n (Mtr.get0 old n)
  decide ((d.natAbs : Int) ≥ u * (if accSigned n then 2 ^ 31 else 2 ^ 32))

/-- SNAP (R266). -/
def execSnap (s : State) : Out :=
  let m := s.mtr
  let new := m.whole
  let wrap := m.snapped && (List.range 28).any (dwrapAt m.snap new (dunitOf m.unit))
  let sec := s.wallNs / 1000000000
  let s := s.setMtr { m with
    snap := SMap.set (fun _ => 0) new 29 sec, snapped := true, snapUnit := m.unit }
  let s := s.setReg rMTR_SNAP_SEQ (s.reg rMTR_SNAP_SEQ + 1)
  let s := s.setReg rMTR_SNAP_NS (word (s.wallNs % 1000000000))
  .next (if wrap then s.setBit rMTR_STAT 2 else s)

/-- MTR_ACC_READ (R266): a read of the _LO half of snapshot register `r` copies its _HI half. -/
def State.mtrCopy (s : State) (r : Nat) : State :=
  s.setMtr { s.mtr with hi := SMap.set (fun _ => 0) s.mtr.hi r (word (Mtr.get0 s.mtr.snap r / 2 ^ 32)) }

def execMtrAccRead (r : Nat) (s : State) : Out := .next (s.mtrCopy r)

/-! ### The save area (R274 to R277) -/

def cleanMark : Nat := 0xC1EA0001

/-- The address of a save slot. -/
def slotAddr (i : Nat) : Nat := nvmBase + 512 * i

/-- A slot holds a valid record. -/
def State.slotValid (s : State) (i : Nat) : Bool :=
  let b := s.bytes (slotAddr i) 0x200
  field b 0x1F8 4 == crc32c (b.take 0x1F8) && field b 0x1FC 4 == cleanMark

/-- The newest valid record by SEQ, compared modularly (R33). -/
def State.newestSlot (s : State) : Option Nat :=
  ((List.range 16).filter s.slotValid).foldl (fun a i =>
    match a with
    | none => some i
    | some j =>
      if aheadMod (2 ^ 32) (s.memWord (slotAddr j)).toNat (s.memWord (slotAddr i)).toNat then some i else some j) none

/-- The slot after another one, skipping bad ones; none where every slot is bad. -/
def Mtr.slotAfter (m : Mtr) (i : Nat) : Option Nat :=
  ((List.range 16).map fun k => (i + 1 + k) % 16).find? fun k => !bit m.bad k

/-- The record of the values as they stand (Table 11.6), without its CRC and CLEAN. -/
def State.saveRecord (s : State) (seq kind : Nat) : List Byte :=
  let m := s.mtr
  let sc := m.scale.getD ([], 0)
  leBytes 4 seq ++ leBytes 1 kind ++ leBytes 1 m.unit ++ leBytes 2 0 ++
    leBytes 8 (s.wallNs / 1000000000) ++ leBytes 4 (s.wallNs % 1000000000) ++
    leBytes 4 (b2n s.tim.valid + 2 * b2n (!s.mtrUncal)) ++
    ((List.range 29).flatMap fun n => leBytes 8 (Mtr.get0 m.acc n / 2 ^ 24)) ++
    ((List.range 7).flatMap fun k => leBytes 4 (sc.1.getD k 0).toNat) ++ leBytes 4 sc.2.toNat ++ leBytes 216 0

/-- Starts a save in the slot after another one: its bytes are written in address order, CRC and CLEAN to follow. -/
def State.saveAt (s : State) (slot : Nat) (record : List Byte) (emergency failed : Bool) : State :=
  (s.setBytes (slotAddr slot) record).setMtr { s.mtr with save := some { slot, record, emergency, failed } }

/-- A save of a kind: 1 periodic, 2 emergency, 3 command. Without scaling none is written (R277); `after` is the slot
that it follows, or none where no record is valid. -/
def State.saveBegin (s : State) (kind : Nat) (after : Option Nat) : State :=
  if s.mtrNoScale then s
  else
    let seq := match s.mtr.newest with
      | some j => (s.memWord (slotAddr j)).toNat + 1
      | none => s.takeFree.1.toNat
    let s := if s.mtr.newest.isNone then s.takeFree.2 else s
    match s.mtr.slotAfter (after.getD 15) with
    | none => s
    | some i => s.saveAt i (s.saveRecord (seq % 2 ^ 32) kind) (kind = 2) false

/-- PERIODIC_SAVE and SAVE (R275): one that meets a save in progress is merged with it. -/
def State.saveStart (s : State) (kind : Nat) : State :=
  if s.mtr.save.isSome then s else s.saveBegin kind s.mtr.newest

def execPeriodicSave (s : State) : Out := .next (s.saveStart 1)
def execSave (s : State) : Out := .next (s.saveStart 3)

/-- The slot is written whole and read back (R274): a second failure marks it bad and the save goes on in the next
slot. -/
def State.saveDone (s : State) (ok : Bool) : State :=
  match s.mtr.save with
  | none => s
  | some j =>
    if ok then
      let s := s.setBytes (slotAddr j.slot + 0x1F8) (leBytes 4 (crc32c j.record) ++ leBytes 4 cleanMark)
      let s := if j.emergency then s.setBit rHU_STAT 7 else s
      (s.setMtr { s.mtr with save := none, newest := some j.slot }).inc rMTR_CNT_SAVE
    else
      let s := s.setBit rMTR_STAT 10
      if !j.failed then s.saveAt j.slot j.record j.emergency true
      else
        let was := s.mtr.good
        let bad := s.mtr.bad ||| 2 ^ j.slot
        let s := s.setMtr { s.mtr with bad := bad, save := none }
        let (detail, s) := s.takeFree
        let s := s.spareEntry 6 3 j.slot detail.toNat (16 - s.mtr.good) s.mtr.good
        let s := if s.mtr.good < 4 && was ≥ 4 then
            let (detail, s) := s.takeFree
            s.spareExhausted 6 6 j.slot detail.toNat (16 - s.mtr.good)
          else s
        match s.mtr.slotAfter j.slot with
        | none => s
        | some i => s.saveAt i j.record j.emergency false

/-- SAVE_WRITE_DONE and EMERGENCY_SAVE_DONE: the periodic or command save, and the emergency save. -/
def execSaveWriteDone (ok : Bool) (s : State) : Out :=
  .next (if s.mtr.save.any (·.emergency) then s else s.saveDone ok)

def execEmergencySaveDone (ok : Bool) (s : State) : Out :=
  .next (if s.mtr.save.any (·.emergency) then s.saveDone ok else s)

/-- CLEAR_ACC (R281, Table 11.8). -/
def execClearAcc (key : BitVec 16) (s : State) : Out :=
  .next (
    if key = 0x3E7A && s.mtr.save.isNone && !s.mtr.frozen then
      ((s.setMtr { s.mtr with acc := [], gapT := 0 }).inc rMTR_CNT_CLEAR).saveStart 3
    else s.setBit rMTR_STAT 12)

/-- The power-fail warning (R276): accumulation stops, a save in progress is abandoned with its slot left as it is, and
the emergency record goes to the following slot. -/
def State.mtrPowerFail (s : State) : State :=
  let after := match s.mtr.save with
    | some j => some j.slot
    | none => s.mtr.newest
  (s.setMtr { s.mtr with frozen := true, save := none }).saveBegin 2 after

/-- The warning is withdrawn (R276): accumulation resumes, the halted time a gap. -/
def State.mtrResume (s : State) : State := s.setMtr { s.mtr with frozen := false, forceGap := true }

/-- Restores the accumulators at Tier 1 from the newest valid record (R277); `saveInt` is SAVE_INT in seconds. -/
def State.mtrRestore (s : State) (saveInt : Nat) : State :=
  match s.newestSlot with
  | none => s.setMtr { s.mtr with
      newest := none, nvmEmpty := true, restore := 0, scale := none
      acc := SMap.set (fun _ => 0) [] 28 ((2 ^ 64 - 1) * 2 ^ 24) }
  | some i =>
    let b := s.bytes (slotAddr i) 0x200
    let acc := (List.range 29).foldl (fun a n => SMap.set (fun _ => 0) a n (field b (0x18 + 8 * n) 8 * 2 ^ 24)) []
    let kch := (List.range 7).map fun k => word (field b (0x100 + 4 * k) 4)
    let rated := word (field b 0x11C 4)
    let emergency := field b 4 1 == 2
    let m := { s.mtr with
      newest := some i, nvmEmpty := false, acc := acc, scale := some (kch, rated), unit := field b 5 1 % 4
      restore := if emergency then 1 else 2 }
    s.setMtr (if emergency then m else m.addUnc (energy (ratOf rated) (2 ^ 149) (saveInt * 400000000)))

/-! ### What a commit does -/

/-- A strobe from before a METER commit: its samples leave no history. -/
def StrobeMark.stale (k : StrobeMark) : StrobeMark := { k with fresh := false }

/-- METER as the section in force gives it (R278): new scaling from the first strobe after the edge; a full image
without METER leaves the scaling of the newest record (R277). A slot of the synchrophasor ring that a new SR_N leaves out
is not the next one (DESIGN CHOICE, log 17: the ring begins again). -/
def State.mtrCommit (s : State) (changed : Bool) : State :=
  if !changed then s
  else
    let m := s.mtr
    if s.meterOn then
      let m := { m with
        hist := [], marks := m.marks.map StrobeMark.stale, pmuWp := if m.pmuWp < s.meter 0x2C 2 then m.pmuWp else 0 }
      let unit := bits (s.meter 0 2) 4 2
      let kch := (List.range 7).map fun k => word (s.meter (8 + 4 * k) 4)
      let s' := s.setMtr { m with scale := some (kch, word (s.meter 0x24 4)), unit := unit }
      if unit ≠ m.unit then s'.setBit rMTR_STAT 5 else s'
    else
      let scale := match m.newest with
        | none => none
        | some i =>
          let b := s.bytes (slotAddr i) 0x200
          some ((List.range 7).map fun k => word (field b (0x100 + 4 * k) 4), word (field b 0x11C 4))
      s.setMtr { m with scale := scale }

/-- The first SCHED commit withdraws the built-in strobe: the cycle in progress is not complete (Table 11.8). -/
def State.mtrSchedCommit (s : State) : State := s.setMtr { s.mtr with cycOk := false }

/-! ### The aggregation window (R270) -/

def rmsReg (k : Nat) : Nat :=
  if k = 3 then rMTR_VAUX else if k < 3 then rMTR_VRMS_A + 4 * k else rMTR_IRMS_A + 4 * (k - 4)

/-- The angle of a complex number as turn32, its rounding open (log 5). -/
def argTurn (re im : Int) : Word :=
  if re = 0 ∧ im = 0 then 0
  else
    let ax := re.natAbs
    let ay := im.natAbs
    let first : Int := if ay ≤ ax then fxAtanTurns ay ax else (2 ^ (fxBits - 2) : Int) - fxAtanTurns ax ay
    let upper : Int := if re ≥ 0 then first else (2 ^ (fxBits - 1) : Int) - first
    wordOfInt (divOpen 116 (if im ≥ 0 then upper else -upper) (2 ^ (fxBits - 32)))

/-- The phase of a bin relative to the fundamental of VA. Over one cycle it is the angle between them (DEDUCED); how several
cycles form one phase the manual leaves open (log 17); the fundamental's own is 0. -/
def Mtr.harmPhase (m : Mtr) (i : Nat) : Word :=
  let x := m.winSum.getD i (0, 0)
  let r := m.winSum.getD 0 (0, 0)
  if i = 0 then 0
  else if m.winN = 1 then argTurn (x.1 * r.1 + x.2 * r.2) (x.2 * r.1 - x.1 * r.2)
  else Config.harmonicPhase i x r

/-- An entry of the harmonic table: the magnitude as a root-mean-square over the cycles, and the phase. -/
def Mtr.harmEntry (m : Mtr) (i : Nat) : List Byte :=
  leBytes 4 (fSqrtOpen 44 (m.winMag.getD i 0) (32768 * m.winN * 2 ^ 426)).toNat ++ leBytes 4 (m.harmPhase i).toNat

/-- The harmonic table into the idle buffer, which then becomes the last completed one (Table 11.4). -/
def State.harmWrite (s : State) : State :=
  let m := s.mtr
  let (free, s) := if m.winN = 0 then s.takeFrees 756 else ([], s)
  let base := sramBase + s.meter 0x30 4 + 3056 * b2n (!m.harmBuf)
  let head := leBytes 8 (s.ang.zeroWall / 1000000000) ++ leBytes 4 (s.ang.zeroWall % 1000000000) ++
    leBytes 2 m.winN ++ leBytes 2 (b2n (m.winN != 0) + 2 * b2n s.tim.valid + 4 * b2n s.mtrUncal) ++
    leBytes 8 (angWord s.ang.sch / 2 ^ 32) ++ leBytes 8 0
  let body := if m.winN = 0 then free.flatMap fun w => leBytes 4 w.toNat
    else (List.range 378).flatMap m.harmEntry
  (s.setBytes base (head ++ body)).setMtr { m with harmBuf := !m.harmBuf, harmN := m.winN }

/-- The RMS registers, THD and PF of a window with complete cycles. -/
def State.rmsWrite (s : State) : State :=
  let m := s.mtr
  let s := s.each (List.range 7) fun s k =>
    s.setReg (rmsReg k) (fSqrtOpen 45 (m.winSq.getD k 0) (256 * m.winN * 2 ^ 298))
  let s := if m.winPaused then s
    else s.each (List.range 6) fun s c =>
      match m.winThd.getD c none with
      | some t => s.setReg (rMTR_THD_VA + 4 * c) (fSqrtOpen 46 t (m.winN * 2 ^ 96))
      | none => s.takeFree.2.setReg (rMTR_THD_VA + 4 * c) s.takeFree.1
  if m.winS > 0 then s.setReg rMTR_PF (fOpen 47 m.winP m.winS.toNat)
  else s.takeFree.2.setReg rMTR_PF s.takeFree.1

/-- The cycles of an aggregation window: NAGG, or one while no METER section gives it (DESIGN CHOICE, log 17). Cycles that are
not complete count towards it, so that a window may hold no complete one (R270; DEDUCED, log 17). -/
def State.nagg (s : State) : Nat := if s.meterOn then max 1 (s.meter 2 1) else 1

/-- AGGREGATION_WINDOW_END (R270, R407). -/
def execAggregationWindowEnd (s : State) : Out :=
  .next (
    if s.mtrNoScale || decide (s.mtr.winAll < s.nagg) then s
    else
      let s := if s.mtr.winN = 0 then s else s.rmsWrite
      let s := if s.harmOn && !s.mtr.winPaused then s.harmWrite else s
      s.setMtr { s.mtr with
        winN := 0, winAll := 0, winSq := [], winThd := [], winMag := [], winSum := [], winP := 0, winS := 0
        winPaused := s.thm.paused })

/-! ### Synchrophasors (R271 to R273) -/

/-- The nanoseconds of a reporting instant m / PMU_RATE. -/
def State.pmuNs (s : State) (m : Nat) : Nat := (divOpen 48 (m * 1000000000 : Nat) (max 1 (s.meter 4 1) : Nat)).toNat

/-- A reporting instant that an advance of wall time passes (R271): what stands there waits for the report. -/
def State.pmuTick (s : State) (from' : Nat) : State :=
  let rate := s.meter 4 1
  let k := s.wallNs * rate / 1000000000
  if s.pmuMode = 0 || decide (s.wallNs ≤ from') || rate = 0 || k = from' * rate / 1000000000 then s
  else s.setMtr { s.mtr with pmuMarks := s.mtr.pmuMarks ++ [{
    sec := k / rate, m := k % rate, timeValid := s.tim.valid, angValid := s.ang.valid, rt := s.grd.rt
    freq := s.ang.freq, rocof := s.ang.rocof }] }

/-- A stream-0 sample enters the synchrophasor windows. -/
def State.pmuTake (s : State) (k : StrobeMark) (x : List Resample) : State :=
  if s.pmuMode = 0 then s
  else s.setMtr { s.mtr with pmuX := ({
    wall := k.wall, ok := [0, 1, 2, 4, 5, 6].all (fun c => (x.getD c {}).reason == 0) && k.runs
    x := k.values x } :: s.mtr.pmuX).take 8192 }

/-- Half a window in ns: one cycle of the tracked frequency for P class, MWIN / 2 for M (R271). -/
def State.pmuHalf (s : State) (k : PmuMark) : Nat :=
  (if s.pmuMode = 2 then s.meter 5 1 else 2) * 500000000 * 2 ^ 24 / max 1 k.freq

/-- A reporting instant in ns. -/
def State.pmuAt (s : State) (k : PmuMark) : Nat := k.sec * 1000000000 + s.pmuNs k.m

/-- The samples of a report's window. -/
def State.pmuWindow (s : State) (k : PmuMark) : List PmuSample :=
  s.mtr.pmuX.filter fun e => decide (e.wall ≤ s.pmuAt k + s.pmuHalf k) && decide (s.pmuAt k ≤ e.wall + s.pmuHalf k)

/-- √3 of a number over 2^60. -/
def root3 (x : Int) : Int := x.sign * (isqrt (3 * x.natAbs ^ 2 * 2 ^ 120) : Nat)

/-- The positive-sequence phasor of three: (A + a B + a² C) / 3, over 6 × 2^209. -/
def posSeq (a b c : Int × Int) : Int × Int :=
  ((2 * a.1 - b.1 - c.1) * 2 ^ 60 - root3 (b.2 - c.2), (2 * a.2 - b.2 - c.2) * 2 ^ 60 + root3 (b.1 - c.1))

/-- The sixteen phasor words of a report: VA, VB, VC, V1, IA, IB, IC, I1. -/
def State.pmuPhasors (s : State) (k : PmuMark) : List Word :=
  let w := s.pmuWindow k
  let ph := fun c => Config.phasor (decide (s.pmuMode = 2)) (s.pmuAt k) k.freq s.fnom (w.map fun e => (e.wall, e.x.getD c 0))
  let pair := fun (z : Int × Int) den => [fOpen 49 z.1 den, fOpen 49 z.2 den]
  let three := fun c => ((List.range 3).flatMap fun i => pair (ph (c + i)) (2 ^ 149)) ++
    pair (posSeq (ph c) (ph (c + 1)) (ph (c + 2))) (6 * 2 ^ 209)
  three 0 ++ three 4

/-- The record of Table 11.5. -/
def State.pmuRecord (s : State) (k : PmuMark) : List Byte :=
  let w := s.pmuWindow k
  leBytes 8 k.sec ++ leBytes 4 (s.pmuNs k.m) ++
    leBytes 4 (b2n k.timeValid + 2 * b2n k.angValid + 4 * b2n (w.isEmpty || w.any (!·.ok)) + 8 * b2n (s.pmuMode = 2) +
      16 * b2n s.mtrUncal + 32 * b2n k.rt + 256 * (k.m % 256)) ++
    leBytes 4 (fOpen 49 k.freq (2 ^ 24)).toNat ++ leBytes 4 (fOpen 49 k.rocof.toInt (2 ^ 24)).toNat ++
    (s.pmuPhasors k).flatMap (fun w => leBytes 4 w.toNat) ++ leBytes 8 0

/-- PMU_REPORT (R271 to R273): the report of the oldest reporting instant whose window has passed. -/
def execPmuReport (s : State) : Out :=
  .next (
    match s.mtr.pmuMarks with
    | [] => s
    | k :: ks =>
      if s.pmuMode = 0 || decide (s.wallNs < s.pmuAt k + s.pmuHalf k) then s
      else
        let s := s.setBytes (sramBase + s.meter 0x28 4 + 96 * s.mtr.pmuWp) (s.pmuRecord k)
        let s := s.setMtr { s.mtr with pmuMarks := ks, pmuWp := (s.mtr.pmuWp + 1) % max 1 (s.meter 0x2C 2) }
        let s := if k.timeValid then s else s.setBit rMTR_STAT 11
        s.irq 5)

end Sys2Proof.Machine
end

