-- ==== Sys2Proof/Machine/Partitions.lean ====
section
/-!
DEFINITION. The partitions of shared SRAM (R27, R28, Table 1.8).
-/

namespace Sys2Proof.Machine


/-- The bytes that the neighbourhood tables of a CAND payload occupy: an index and a pool for each. -/
def ceBytes (p : List Byte) : Nat :=
  ((List.range (field p 0 1)).map fun t => 8 * field p (8 + 16 * t + 2) 2 + 4 * field p (8 + 16 * t + 4) 2).sum

/-- The tables of a CAND payload, an index and a pool each, in directory order without gaps. DESIGN CHOICE (log 44): the
spec does not lay out the CE partition. -/
def ceTables (p : List Byte) : List Byte :=
  (List.range (field p 0 1)).flatMap fun t =>
    slice p (field p (8 + 16 * t + 8) 4) (8 * field p (8 + 16 * t + 2) 2 + 4 * field p (8 + 16 * t + 4) 2)

/-- The bytes of the CE partition: the tables' length, rounded up to 4 KB. -/
def ceLen (p : List Byte) : Nat := (ceBytes p + 4095) / 4096 * 4096

/-- The declared partitions of a configuration, given by its sections: base and length in bytes. -/
def partitionsOf (sec : Nat → Option (List Byte)) : List (Nat × Nat) :=
  let ce := (((sec secCand).map ceBytes).getD 0 + 4095) / 4096 * 4096
  (match sec secRecorder with
    | some p => [(sramBase + field p 4 4, field p 8 4)]
    | none => []) ++
  (match sec secLifetime with
    | some p => [(sramBase + field p 4 4, 131072)]
    | none => []) ++
  (if ce = 0 then [] else [(sramEnd - ce, ce)]) ++
  (match sec secLoopCoef with
    | some p => if (bankWord p 1022 1).getLsbD 0 then [(sramEnd - ce - 8192, 8192)] else []
    | none => [])

/-- The bytes from `a` on lie in shared SRAM outside every declared partition. -/
def hostVisible (parts : List (Nat × Nat)) (a n : Nat) : Bool :=
  decide (sramBase ≤ a) && decide (a + n ≤ sramEnd) &&
    parts.all fun p => decide (p.2 = 0) || decide (n = 0) || decide (a + n ≤ p.1) || decide (p.1 + p.2 ≤ a)

/-- The partitions in force. -/
def State.partitions (s : State) : List (Nat × Nat) := partitionsOf fun t => SMap.get (fun _ => none) s.cfg t

/-- Partitions lie wholly inside shared SRAM, sum to at most 1,536 KB, the recorder's takes at most 1,024 KB, and no two
overlap (R27, R28). -/
def partitionsFit (parts : List (Nat × Nat)) (recLen : Nat) : Bool :=
  decide (recLen ≤ 1024 * 1024) && decide ((parts.map (·.2)).sum ≤ 1536 * 1024) &&
    (parts.all fun p => decide (sramBase ≤ p.1) && decide (p.1 + p.2 ≤ sramEnd)) &&
    (List.range parts.length).all fun i => (List.range i).all fun j =>
      let a := parts.getD i (0, 0)
      let b := parts.getD j (0, 0)
      decide (a.2 = 0) || decide (b.2 = 0) || decide (a.1 + a.2 ≤ b.1) || decide (b.1 + b.2 ≤ a.1)

end Sys2Proof.Machine
end

