-- ==== Sys2Proof/Machine/Grd.lean ====
section
/-!
DEFINITION. Grid support and islanding detection (R237 to R261): the half-cycle metric and the envelopes, the
ride-through states, the references, the virtual machine, the passive windows, the coded perturbation and its impedance
estimate, degraded mode, ceasing and reconnection.
-/

namespace Sys2Proof.Machine

/-! ### Helpers -/

/-- num / (√3 den), its rounding open (log 5). -/
def divRoot3Open (site : Nat) (num den : Int) : Int :=
  floorDivRoot3 num / den + (if num ≠ 0 ∧ Config.roundUp site num den then 1 else 0)

/-- The largest pu32 value, 8 − 2^−28. -/
def puMax : Int := 2147483647

/-- A word of the GRID bank as pu32, and as a binary32 numerator over 2^149. -/
def State.gridPu (s : State) (i : Nat) : Int := (s.gridWord i).toInt
def State.gridRat (s : State) (i : Nat) : Int := ratOf (s.gridWord i)
def State.gridNat (s : State) (i : Nat) : Nat := (s.gridWord i).toNat

/-- The value of a sigma-delta channel's newest metering output, in counts. -/
def State.sdmValue (s : State) (k : Nat) : Int := signed 28 (s.sdmCh k).w0.toNat

/-! ### The half-cycle metric and the powers (R239, R240) -/

/-- LL, the line-to-line metric; while no GRID bank is in force the metric is that of the channels as they are connected. -/
def State.metricLl (s : State) : Bool := if s.gridOn then s.gridFlag 7 else s.inMode == 1

/-- The channels carry line-to-line voltages (R461). -/
def State.chanLl (s : State) : Bool := s.inMode == 1

/-- One phase of R239 in pu32: √2 RMS, over √3 line-to-line, scaled by KV, or by VNOM while no GRID bank is in force
(R257). A phase-to-neutral voltage of line-to-line channels is a third of a difference (DEDUCED, log 16). -/
def State.phaseRms (s : State) (sum n : Nat) : Int :=
  let three := if s.metricLl then 3 else if s.chanLl then 9 else 1
  if s.gridOn then
    let kv := (s.gridRat 3).toNat
    sqrtOpen 20 (2 * sum * kv * kv * 2 ^ 56) (three * n * 2 ^ 298)
  else
    let v := (ratOf s.vnom).toNat
    if v = 0 then 0 else sqrtOpen 20 (2 * sum * 2 ^ 298) (three * n * v * v)

/-- The outputs of a voltage channel over the last half period of ANG_FREQ (log 16). -/
def State.halfPeriod (s : State) (k : Nat) : List SdmRec :=
  (s.sdmCh k).hist.filter fun e => decide ((s.clk.t - e.time) * (2 * s.ang.freq) < 400000000 * 2 ^ 24)

/-- The voltages of phase `k` over its window: those of the channel, or the difference of two channels sampled together where
the metric is line-to-line on phase-to-neutral channels (va − vb, vb − vc, vc − va) or the reverse (vab − vca and so on).
The outputs of the channels come in step (R198). -/
def State.phaseValues (s : State) (k : Nat) : List Int :=
  let own := (s.halfPeriod k).map (·.value)
  if s.metricLl = s.chanLl then own
  else (own.zip ((s.halfPeriod ((k + (if s.metricLl then 1 else 2)) % 3)).map (·.value))).map fun p => p.1 - p.2

/-- R239 for one phase, from the outputs of its window. -/
def State.phasePu (s : State) (k : Nat) : Int :=
  let w := s.phaseValues k
  satI32 (s.phaseRms ((w.map fun v => v.natAbs ^ 2).sum) w.length)

/-- V_min and V_max; an invalid output within a window, or an empty one, keeps them. -/
def State.grdMetric (s : State) : State :=
  if (List.range 3).all fun k => !(s.halfPeriod k).isEmpty && (s.halfPeriod k).all (·.reason == 0) then
    let a := s.phasePu 0
    let b := s.phasePu 1
    let c := s.phasePu 2
    { s with grd := { s.grd with vmin := min a (min b c), vmax := max a (max b c) } }
  else s

/-- The instantaneous active power of R240 in pu32. -/
def State.instP (s : State) : Int :=
  let v := s.sdmValue
  satI32 (divOpen 21 (2 * (v 0 * v 4 + v 1 * v 5 + v 2 * v 6) * s.gridRat 3 * s.gridRat 4 * 2 ^ 28) (3 * 2 ^ 298))

/-- The instantaneous reactive power of R240 in pu32. -/
def State.instQ (s : State) : Int :=
  let v := s.sdmValue
  let sum := (v 1 - v 2) * v 4 + (v 2 - v 0) * v 5 + (v 0 - v 1) * v 6
  satI32 (divRoot3Open 22 (2 * sum * s.gridRat 3 * s.gridRat 4 * 2 ^ 28) (3 * 2 ^ 298))

/-- A first-order filter with a time constant in ms, updated every 10 µs; 0 ms means none (log 14). -/
def lag (tauMs : Nat) (y x : Int) : Int := if tauMs = 0 then x else Config.lowPass (100 * tauMs) 1 y x

/-- The own reactive current (R240). -/
def State.ownIq (s : State) : Int :=
  if s.ang.vpos * 20 < 2 ^ 28 then 0 else satI32 (divOpen 23 (s.grd.q * 2 ^ 28) (s.ang.vpos : Int))

/-! ### Envelopes and states (R241 to R243) -/

/-- A field of an envelope: the TIME and LEVEL of point `j` of envelope `k` (LVRT, HVRT, UF, OF). -/
def State.envTime (s : State) (k j : Nat) : Int := (s.gridNat (16 + 32 * k + 2 * j) : Nat)
def State.envLevelOf (s : State) (k j : Nat) : Int :=
  if k < 2 then s.gridPu (17 + 32 * k + 2 * j) else (s.gridNat (17 + 32 * k + 2 * j) : Nat)
def State.envCfg (s : State) (k : Nat) : Nat := bits (s.gridNat 144) (8 * k) 8

/-- The level of envelope `k` at a time in ms (R241). -/
def State.envLevel (s : State) (k : Nat) (t : Int) : Int :=
  let n := bits (s.envCfg k) 0 5
  let passed := ((List.range n).filter fun j => decide (s.envTime k j ≤ t)).length
  if passed = 0 then s.envLevelOf k 0
  else if passed = n || !bit (s.envCfg k) 7 then s.envLevelOf k (passed - 1)
  else
    let t0 := s.envTime k (passed - 1)
    let l0 := s.envLevelOf k (passed - 1)
    l0 + divOpen 24 ((s.envLevelOf k passed - l0) * (t - t0)) (s.envTime k passed - t0)

/-- A timer as the envelopes and GRD_TV read it: 0 while stopped. -/
def timerMs (t : Option Nat) : Nat := t.getD 0

/-- The first envelope that trips, as its GRD_CAUSE code. -/
def State.envTrip (s : State) : Option Nat :=
  let g := s.grd
  let f : Int := (s.ang.freq : Nat)
  let tv : Int := (timerMs g.tv : Nat)
  let tf : Int := (timerMs g.tf : Nat)
  if !s.gridFlag 0 then none
  else if g.vmin < s.envLevel 0 tv then some 1
  else if g.vmax > s.envLevel 1 tv then some 2
  else if f < s.envLevel 2 tf then some 3
  else if f > s.envLevel 3 tf then some 4
  else none

/-- The continuous bands. -/
def State.vInBand (s : State) : Bool := decide (s.gridPu 5 ≤ s.grd.vmin) && decide (s.grd.vmax ≤ s.gridPu 6)
def State.fInBand (s : State) : Bool := decide (s.gridNat 7 ≤ s.ang.freq) && decide (s.ang.freq ≤ s.gridNat 8)

/-- A timer on an update: it starts when its quantity leaves the band, and counts while it runs. -/
def tickTimer (t : Option Nat) (inBand : Bool) : Option Nat :=
  match t with
  | some n => some (satInc n)
  | none => if inBand then none else some 0

/-- ISL's hold: the ride-through window and THOLD after it (R258). -/
def State.islHeld (s : State) : Bool := s.grd.rt || s.isl.tail

/-- The correlation window is cleared, and the estimate with it (R254, Table 10.5). -/
def State.islClear (s : State) : State :=
  { s with isl := { s.isl with window := [], sumV := 0, sumI := 0, nSum := 0, zValid := false, zRun := 0, inj := false } }

/-- RT sets: injection stops, the window is cleared and θ_fs is held at 0. -/
def State.rtOpen (s : State) : State :=
  if s.grd.rt || s.grd.rtBlocked then s
  else
    let s := { s with grd := { s.grd with rt := true } }
    let s := s.islClear
    { s with isl := { s.isl with thFs := 0, tail := false } }

/-- RT clears: THOLD runs. -/
def State.rtClose (s : State) (blocked : Bool) : State :=
  if s.grd.rt then
    { s with grd := { s.grd with rt := false, rtBlocked := blocked }, isl := { s.isl with tail := true } }
  else s

/-- Entry to CEASED (R259): STOP to the groups of CEASE_GROUPS, the cause, CEASE and the interrupt; RT and a transfer
end. -/
def State.grdCeased (s : State) (cause : Nat) : State :=
  if s.grd.st = 3 then s
  else
    let s := s.rtClose false
    let s := { s with grd := { s.grd with
      st := 3, cause := cause, xfer := false, phNew := false, reconOk := false, reconMs := 0
      iq := 0, i2 := 0, thI2 := 0, idMax := 0, qvv := 0 } }
    let s := ((s.setBit rGRD_STAT 8).inc rGRD_CNT_CEASE).irq 4
    s.each ((List.range 8).filter fun g => bit s.ceaseGroups g) fun s g => s.groupStop g 1

/-- Entry to RIDE or MC. -/
def State.grdRide (s : State) (st : Nat) : State :=
  if s.grd.st = st then s
  else
    let s := { s with grd := { s.grd with st := st } }
    ((s.setBit rGRD_STAT 9).inc rGRD_CNT_RIDE).rtOpen

/-- Table 10.2 where no envelope trips. -/
def State.grdMove (s : State) : State :=
  if s.grd.st = 3 then s
  else if s.gridPu 9 ≠ 0 ∧ s.grd.vmin < s.gridPu 9 then s.grdRide 2
  else if s.grd.tv.isSome || s.grd.tf.isSome then s.grdRide 1
  else { s with grd := { s.grd with st := 0, rtBlocked := false } }

/-! ### Passive windows (R250, R257) -/

/-- Level and time in ms of a passive window, UV to ROCOF as 0 to 4 and VS as 5; none where it is disabled. -/
def State.islWindow (s : State) (k : Nat) : Option (Int × Nat) :=
  if s.gridOn then
    let lvl : Int := if k < 2 then s.gridPu (231 + 2 * k) else (s.gridNat (231 + 2 * k) : Nat)
    if lvl = 0 then none else some (lvl, if k = 5 then 0 else s.gridNat (232 + 2 * k))
  else match k with
    | 0 => some (divOpen 25 (88 * 2 ^ 28) 100, 2000)
    | 1 => some (divOpen 25 (110 * 2 ^ 28) 100, 2000)
    | 2 => some (divOpen 25 (98 * (s.fnom : Int)) 100, 2000)
    | 3 => some (divOpen 25 (102 * (s.fnom : Int)) 100, 2000)
    | _ => none

/-- The condition of a window. -/
def State.islCondition (s : State) (k : Nat) : Bool :=
  match s.islWindow k with
  | none => false
  | some (lvl, _) =>
    let f : Int := (s.ang.freq : Nat)
    match k with
    | 0 => decide (s.grd.vmin < lvl)
    | 1 => decide (s.grd.vmax > lvl)
    | 2 => decide (f < lvl)
    | 3 => decide (f > lvl)
    | 4 => decide ((s.ang.rocof.toInt.natAbs : Int) > lvl)
    | 5 => decide ((s.ang.err.natAbs : Int) > lvl)
    | _ => false

/-- A window whose condition has held for its time. -/
def State.islDue (s : State) (k : Nat) : Bool :=
  match s.islWindow k with
  | none => false
  | some (_, t) => bit s.isl.passive k && decide (t ≤ SMap.get (fun _ => 0) s.isl.since k)

/-- The windows on an update: conditions, their timers and the decisions withheld. In GF mode nothing is evaluated
(R256). -/
def State.islUpdate (s : State) : State :=
  if s.grd.gf then { s with isl := { s.isl with passive := 0, since := [], decided := 0 } }
  else
    let cond := (List.range 6).filter fun k => s.islCondition k
    let was := s.isl.passive
    let since := (List.range 6).foldl (fun m k =>
      SMap.set (fun _ => 0) m k
        (if cond.contains k then (if bit was k then satInc (SMap.get (fun _ => 0) m k) else 0) else 0)) s.isl.since
    let passive := (cond.map fun k => 2 ^ k).foldl (· + ·) 0
    let s := { s with isl := { s.isl with
      passive := passive, since := since, decided := s.isl.decided &&& (passive + 64) } }
    if s.islHeld && (List.range 6).any s.islDue then s.inc rISL_CNT_HOLD else s

/-! ### Transfers between modes (R248, R249) -/

/-- ω_g in 2^-64 pu. -/
def State.omegaGrid (s : State) : Int := divOpen 26 ((s.ang.freq : Int) * 2 ^ 64) (max 1 s.fnom : Nat)

/-- A request for the transfer to grid forming; true when it is refused. -/
def State.gfRequest (s : State) (island : Bool) : State × Bool :=
  let s := { s with grd := { s.grd with waitGfl := false } }
  if !s.gridOn || !s.gridFlag 3 || !s.ang.valid then (s.setBit rGRD_STAT 10, true)
  else
    ({ s with grd := { s.grd with
        w := s.omegaGrid, p := s.instP, q := s.instQ
        delta := wordOfInt (angDiff s.ang.meas s.ang.gen)
        xfer := true, phNew := true, fromIsland := island } }, false)

/-- An island decision (R256): the counter and ISLAND, then CEASED or the transfer. Without a GRID bank only the event
bit is set (R257). -/
def State.islandDecision (s : State) (cause : Nat) : State :=
  if !s.gridOn then s.setBit rISL_STAT 5
  else
    let s := (s.setBit rISL_STAT 5).inc rISL_CNT_ISLAND
    let s := { s with isl := { s.isl with island := true } }
    if s.grd.st = 3 then s
    else if s.gridFlag 4 then
      let r := s.gfRequest true
      if r.2 then r.1.grdCeased cause else { r.1 with grd := { r.1.grd with cause := cause } }
    else s.grdCeased cause

/-- A source of island decisions, a passive window or the perturbation (6), decides once while its condition lasts. -/
def State.islDecideOnce (s : State) (k cause : Nat) : State :=
  if bit s.isl.decided k then s
  else ({ s with isl := { s.isl with decided := s.isl.decided ||| 2 ^ k } }).islandDecision cause

/-- A passive window that is due decides, unless ISL is held or in GF mode. -/
def State.islDecide (s : State) (k : Nat) : State :=
  if s.islDue k && !s.islHeld && !s.grd.gf then s.islDecideOnce k (6 + k) else s

/-! ### References (R244 to R247) -/

/-- iq_rt of R244. -/
def State.iqRt (s : State) : Int :=
  let dv : Int := (s.ang.vpos : Int) - 2 ^ 28
  let db := s.gridPu 12
  if (dv.natAbs : Int) ≤ db then 0
  else
    let x := dv - dv.sign * db
    clampInt (-(s.gridPu 13)) (s.gridPu 13) (divOpen 27 (-(s.gridRat 11) * x) (2 ^ 149))

/-- i2 of R244. -/
def State.i2Ref (s : State) : Int := min (divOpen 28 (s.gridRat 14 * (s.ang.vneg : Int)) (2 ^ 149)) (s.gridPu 13)

/-- id_max of R244. -/
def State.idMaxOf (s : State) (iq i2 : Int) : Int :=
  sqrtOpen 29 (max 0 ((s.gridPu 15 - i2) * (s.gridPu 15 - i2) - iq * iq)).toNat 1

/-- A curve of R245 at an abscissa: linear between its points, held beyond them. -/
def curveAt (xs : List (Int × Int)) (x : Int) : Int :=
  match xs with
  | [] => 0
  | [p] => p.2
  | p :: q :: rest =>
    if x ≤ p.1 then p.2
    else if x < q.1 then p.2 + divOpen 30 ((q.2 - p.2) * (x - p.1)) (q.1 - p.1)
    else curveAt (q :: rest) x

def State.vvCurve (s : State) : List (Int × Int) :=
  (List.range (bits (s.gridNat 210) 0 5)).map fun j => (s.gridPu (146 + 2 * j), s.gridPu (147 + 2 * j))
def State.fwCurve (s : State) : List (Int × Int) :=
  (List.range (bits (s.gridNat 210) 8 5)).map fun j => ((s.gridNat (178 + 2 * j) : Int), s.gridPu (179 + 2 * j))

/-- The four current references of an update (R244). -/
def State.grdCurrents (s : State) : State :=
  let g := s.grd
  { s with grd :=
    if g.st = 1 then
      let iq := s.iqRt
      let i2 := s.i2Ref
      { g with iq := iq, i2 := i2, thI2 := s.ang.thNeg + 0x40000000, idMax := s.idMaxOf iq i2 }
    else if g.st = 0 then { g with iq := 0, i2 := 0, thI2 := 0, idMax := s.idMaxOf 0 0 }
    else { g with iq := 0, i2 := 0, thI2 := 0, idMax := 0 } }

/-- The support curves and the ramp (R245). -/
def State.grdCurves (s : State) : State :=
  let g := s.grd
  let qvv := if g.st = 0 && s.gridFlag 1 then lag (s.gridNat 211) g.qvv (curveAt s.vvCurve (s.ang.vpos : Int)) else 0
  let pfw := if s.gridFlag 2 then lag (s.gridNat 212) g.pfw (curveAt s.fwCurve (s.ang.freq : Int)) else puMax
  let ramp := min 214748364700000 (g.ramp + (s.gridPu 218).toNat)
  { s with grd := { g with qvv := qvv, pfw := pfw, ramp := ramp } }

/-- p_lim of R245. -/
def State.pLim (s : State) : Int :=
  min (min s.grd.pfw (s.reg rGRD_PLIM).toInt)
    (min (divOpen 31 (s.grd.ramp : Int) 100000) (if s.tier < 3 then divOpen 32 (2 ^ 28) 5 else puMax))

/-- LIMITING and the peak phase current of an update (R247); LIMITING_CLEAR clears. -/
def State.grdPeak (s : State) : State :=
  let pk := divOpen 33 ((Config.peakCurrent (s.sdmValue 4) (s.sdmValue 5) (s.sdmValue 6) : Int) * s.gridRat 4 * 2 ^ 28) (2 ^ 149)
  { s with grd := { s.grd with peak := pk, limiting := s.grd.limiting || decide (pk > s.gridPu 224) } }

/-- The added virtual impedance (R247). -/
def State.virtualZ (s : State) : Int :=
  if s.grd.limiting then
    satI32 (divOpen 34 (s.gridRat 225 * (s.grd.peak - s.gridPu 224) * 2 ^ 28) (max 1 (s.gridPu 224) * 2 ^ 149))
  else 0

/-- One update of the virtual machine (R246). -/
def State.grdMachine (s : State) : State :=
  if !s.grd.gf then s
  else
    let g := s.grd
    let one : Int := 2 ^ 64
    let acc := if g.limiting then 0 else min (s.reg rGRD_PSET).toInt s.pLim - g.p
    let num := acc * 2 ^ 185 - s.gridRat 220 * (g.w - one) - s.gridRat 221 * (g.w - s.omegaGrid)
    let w := g.w + divOpen 35 num (max 1 (2 * s.gridRat 219) * 100000)
    let w := if g.limiting then
        w + divOpen 36 (s.gridRat 226 * angDiff s.ang.meas s.ang.gen * 2 ^ 32) (2 ^ 149 * 100000)
      else w
    let fn : Int := (max 1 s.fnom : Nat)
    let w := clampInt (divOpen 37 (40 * 2 ^ 88) fn) (divOpen 37 (72 * 2 ^ 88) fn) w
    let e := clampInt 0 (3 * 2 ^ 27)
      ((s.reg rGRD_ESET).toInt + divOpen 38 (s.gridRat 222 * ((s.reg rGRD_QSET).toInt - g.q)) (2 ^ 149))
    { s with grd := { g with w := w, e := e } }

/-- ω × FNOM in the ANG_FREQ format. -/
def State.gfFreq (s : State) : Word := wordOfInt (divOpen 39 (s.grd.w * (s.fnom : Int)) (2 ^ 64))

/-- What GRD and ISL do at each ANG update. -/
def State.grdAngUpdate (s : State) : State :=
  if !s.gridOn then s
  else
    let tau := s.gridNat 223
    let s := { s with grd := { s.grd with p := lag tau s.grd.p s.instP, q := lag tau s.grd.q s.instQ } }
    let s := s.grdPeak.grdCurrents.grdCurves.grdMachine
    { s with isl := { s.isl with sumV := s.isl.sumV + (s.ang.vpos : Int), sumI := s.isl.sumI + s.ownIq, nSum := s.isl.nSum + 1 } }

/-! ### Reconnection (R260) -/

/-- The conditions that must hold for TRECON. -/
def State.reconCond (s : State) : Bool :=
  s.ang.valid && decide (s.gridPu 213 ≤ s.grd.vmin) && decide (s.grd.vmax ≤ s.gridPu 214) &&
    decide (s.gridNat 215 ≤ s.ang.freq) && decide (s.ang.freq ≤ s.gridNat 216) && s.isl.passive == 0

def State.grdRecon (s : State) : State :=
  if s.grd.st = 3 then
    if s.reconCond then { s with grd := { s.grd with reconMs := satInc s.grd.reconMs } }
    else { s with grd := { s.grd with reconMs := 0, reconOk := false } }
  else s

/-! ### Commands -/

/-- GRD_UPDATE (R239, R241, R242, R250). -/
def execGrdUpdate (s : State) : Out :=
  let s := s.grdMetric
  .next (
    if s.gridOn then
      let s := { s with grd := { s.grd with tv := tickTimer s.grd.tv s.vInBand, tf := tickTimer s.grd.tf s.fInBand } }
      let s := match s.envTrip with
        | some cause => s.grdCeased cause
        | none => s.grdMove
      s.islUpdate.grdRecon
    else s.islUpdate)

/-- RIDE_TIMER_STOP: the quantity is in its band and has been for TREC. -/
def execRideTimerStop (frequency : Bool) (s : State) : Out :=
  .next (
    if frequency then
      if s.fInBand && s.grd.tf.isSome then ({ s with grd := { s.grd with tf := none } }).grdMove else s
    else if s.vInBand && s.grd.tv.isSome then ({ s with grd := { s.grd with tv := none } }).grdMove else s)

/-- RT_TAIL_EXPIRY. -/
def execRtTailExpiry (s : State) : Out := .next (if s.grd.st = 0 then s.rtClose false else s)

/-- RT_MAX_EXPIRY. -/
def execRtMaxExpiry (s : State) : Out := .next (s.rtClose (decide (s.grd.st ≠ 0)))

/-- THOLD_EXPIRY: every window that is due decides (Table 10.5). -/
def execTholdExpiry (s : State) : Out :=
  .next (
    if s.isl.tail && !s.grd.rt then
      ({ s with isl := { s.isl with tail := false } }).each (List.range 6) State.islDecide
    else s)

/-- LIMITING_CLEAR: the peak lies below 0.95 ILIM and has for 1 ms. -/
def execLimitingClear (s : State) : Out :=
  .next (
    if s.grd.limiting && decide (20 * s.grd.peak < 19 * s.gridPu 224) then
      { s with grd := { s.grd with limiting := false } }
    else s)

/-- GRD_GF: it replaces a transfer that waits. -/
def execGrdGf (s : State) : Out := .next (s.gfRequest false).1

/-- GF_TRANSFER_TIMEOUT: one that an island decision requested leads to CEASED. -/
def execGfTransferTimeout (s : State) : Out :=
  .next (
    if s.grd.xfer then
      let isl := s.grd.fromIsland
      let s := { s with grd := { s.grd with xfer := false, phNew := false, fromIsland := false } }
      let s := s.setBit rGRD_STAT 10
      if isl then s.grdCeased s.grd.cause else s
    else s)

/-- The write to I/O 0x321 completes a transfer whose Δ the GEN context has latched (R248). -/
def State.gfWritten (s : State) : State :=
  if s.grd.xfer && !s.grd.phNew then
    let s := s.setReg rANG_SRC 1
    ({ s with grd := { s.grd with xfer := false, gf := true, fromIsland := false } }).inc rGRD_CNT_GFXFER |>.islClear
  else s

/-- GRD_GFL: the transfer back waits for tracking. -/
def execGrdGfl (s : State) : Out :=
  .next { s with grd := { s.grd with xfer := false, phNew := false, waitGfl := true } }

/-- GFL_TRANSFER: tracking has stayed valid for 20 grid cycles. -/
def execGflTransfer (s : State) : Out :=
  .next (
    if s.grd.waitGfl && s.ang.valid && decide ((s.ang.sch + 2 ^ 96 - s.ang.validAt) % 2 ^ 96 ≥ 20 * turnUnits) then
      ({ s.setReg rANG_SRC 0 with grd := { s.grd with waitGfl := false, gf := false } }).inc rGRD_CNT_GFXFER
    else s)

/-- GRD_CEASE. -/
def execGrdCease (s : State) : Out := .next (if s.gridOn then s.grdCeased 12 else s)

/-- GRD_RESUME. -/
def execGrdResume (s : State) : Out :=
  .next (
    if s.grd.st = 3 && s.grd.reconOk then
      { s with
        grd := { s.grd with st := 0, rtBlocked := false, reconOk := false, reconMs := 0, tv := none, tf := none, ramp := 0 }
        isl := { s.isl with island := false } }
    else s.setBit rGRD_STAT 11)

/-- RECON_OK. -/
def execReconOk (s : State) : Out :=
  .next (if s.grd.st = 3 && s.reconCond then { s with grd := { s.grd with reconOk := true } } else s)

/-- PASSIVE_WINDOW_DECISION. -/
def execPassiveWindowDecision (window : Nat) (s : State) : Out := .next (s.islDecide window)

/-! ### The coded perturbation (R251 to R255) -/

/-- Chips of the maximal-length sequence from a register of the last `d` chips, the oldest in bit 0. -/
def mlsFrom (long : Bool) : Nat → Nat → List Bool
  | 0, _ => []
  | n + 1, r =>
    let a := bit r 0
    let b := if long then bit r 5 else bit r 3
    let d := if long then 6 else 5
    a :: mlsFrom long n (r / 2 + 2 ^ (d - 1) * b2n (a != b))

/-- The chip a_n of the code in use. -/
def mlsChip (long : Bool) (n : Nat) : Bool := (mlsFrom long (n + 1) (if long then 63 else 31)).getD n false

/-- The code's length. -/
def State.codeLen (s : State) : Nat := if s.gridFlag 8 then 63 else 31

/-- The current chip index (R252). -/
def State.chipNow (s : State) : Nat :=
  (if s.gridFlag 9 then 3 * s.wallNs / 50000000 else s.wallNs / 20000000) % s.codeLen

/-- c_k as a number. -/
def IslCycle.c (k : IslCycle) : Int := if k.chip then 1 else -1

/-- L Σ c x − Σ c Σ x: L times the covariance sum of R253. -/
def covSum (w : List IslCycle) (f : IslCycle → Int) : Int :=
  let l : Int := (w.length : Nat)
  l * (w.map fun k => k.c * f k).sum - (w.map IslCycle.c).sum * (w.map f).sum

/-- The estimate over a full window: Z in pu32, or none where it is not valid. -/
def State.zEstimate (s : State) : Option Int :=
  let w := s.isl.window
  let den := covSum w IslCycle.i
  let l : Int := (s.codeLen : Nat)
  if w.length < s.codeLen || decide (2 * (den.natAbs : Int) < s.gridPu 228 * 2 ^ 32 * l * l) || den == 0 then none
  else
    let num := covSum w IslCycle.v
    some (satI32 (divOpen 40 (num * 2 ^ 28 * den.sign) den.natAbs))

/-- A complete cycle enters the window (R253), and the perturbation may decide (R254). -/
def State.islCycle (s : State) : State :=
  let i := s.isl
  let s := { s with isl := { i with sumV := 0, sumI := 0, nSum := 0 } }
  if !i.inj || i.nSum = 0 then s
  else
    let k : IslCycle :=
      { chip := i.chipPos, v := divOpen 41 (i.sumV * 2 ^ 32) (i.nSum : Nat), i := divOpen 41 (i.sumI * 2 ^ 32) (i.nSum : Nat) }
    let s := { s with isl := { s.isl with window := (k :: i.window).take s.codeLen } }
    match s.zEstimate with
    | none => { s with isl := { s.isl with zValid := false, zRun := 0 } }
    | some z =>
      let run := if z ≥ s.gridPu 229 then i.zRun + 1 else 0
      let s := { s with isl := { s.isl with zValid := true, z := z, zRun := run } }
      if decide (run < bits (s.gridNat 230) 0 8) || decide (run = 0) then
        { s with isl := { s.isl with decided := s.isl.decided &&& 63 } }
      else if s.islHeld then s
      else s.islDecideOnce 6 5

/-- θ_fs of R255: degrees to turn32. -/
def State.freqShift (s : State) : Int :=
  let df : Int := (s.ang.freq : Int) - (s.fnom : Int)
  let lim := s.gridPu 243
  clampInt (-lim) lim (divOpen 42 (s.gridRat 242 * df * 2 ^ 32) (360 * 2 ^ 149 * 2 ^ 24))

/-- DEGRADED at an angle zero (R255): set without valid time, counted on entry, and the window cleared; cleared with it. -/
def State.islDegrade (s : State) : State :=
  if s.tim.valid then { s with isl := { s.isl with degraded := false, thFs := 0 } }
  else
    let s := if s.isl.degraded then s
      else (({ s with isl := { s.isl with degraded := true } }).inc rISL_CNT_DEGR).setBit rISL_STAT 6
    s.islClear

/-- CHIP_APPLY: an angle zero of the scheduling angle (R252, R253, R255, R256). -/
def execChipApply (s : State) : Out :=
  .next (
    if !s.gridOn then s
    else if s.grd.gf then
      let s := s.islDegrade
      { s with isl := { s.isl with inj := false, thFs := 0, zValid := false } }
    else
      let s := s.islCycle.islDegrade
      if !s.tim.valid then
        { s with isl := { s.isl with thFs := if s.gridFlag 6 && !s.islHeld then s.freqShift else 0 } }
      else
        if s.gridFlag 5 && !s.islHeld then
          let n := s.chipNow
          { s with isl := { s.isl with inj := true, chipIdx := n, chipPos := mlsChip (s.gridFlag 8) n } }
        else { s with isl := { s.isl with inj := false } })

/-! ### What is read -/

/-- FS_ACT: the frequency shift is delivered. -/
def State.fsAct (s : State) : Bool := s.isl.degraded && s.gridFlag 6 && !s.islHeld && !s.grd.gf

/-- I/O word 0x37F and ISL_CHIP. -/
def State.chipWord (s : State) : Word := word (s.isl.chipIdx + 256 * b2n s.isl.chipPos)

/-- I/O words 0x370 to 0x37F (Table 10.6), by their last digit. -/
def State.grdWord (s : State) (i : Nat) : Word :=
  let g := s.grd
  let l := s.isl
  if i = 13 then
    word (b2n l.island + 2 * b2n l.degraded + 4 * b2n l.zValid + 8 * b2n s.islHeld + 16 * b2n l.inj + 32 * l.passive)
  else if !s.gridOn then 0
  else match i with
    | 0 => word (g.st + 8 * b2n g.rt + 16 * b2n g.gf + 32 * b2n g.limiting + 64 * b2n g.phNew + 128 * b2n g.reconOk)
    | 1 => wordOfInt g.iq
    | 2 => wordOfInt g.i2
    | 3 => g.thI2
    | 4 => wordOfInt g.idMax
    | 5 => wordOfInt g.qvv
    | 6 => wordOfInt s.pLim
    | 7 => s.gfFreq
    | 8 => if g.phNew then g.delta else 0
    | 9 => wordOfInt g.e
    | 10 => wordOfInt s.virtualZ
    | 11 => if l.inj && !g.gf then (if l.chipPos then s.gridWord 228 else -(s.gridWord 228)) else 0
    | 12 => if g.gf then 0 else wordOfInt l.thFs
    | 14 => wordOfInt l.z
    | 15 => s.chipWord
    | _ => 0

/-- The derived bits of GRD_STAT (Table 10.9). -/
def State.grdStat (s : State) : Nat :=
  let g := s.grd
  g.st + 8 * b2n g.rt + 16 * b2n g.gf + 32 * b2n g.xfer + 64 * b2n g.limiting + 128 * b2n g.reconOk +
    4096 * b2n s.gridOn + 8192 * b2n g.phNew

/-- The derived bits of ISL_STAT (Table 10.11). -/
def State.islStat (s : State) : Nat :=
  let l := s.isl
  b2n l.island + 2 * b2n l.degraded + 4 * b2n l.zValid + 8 * b2n (!l.zValid) + 16 * b2n s.islHeld + 128 * b2n s.fsAct +
    256 * b2n l.inj

/-- A commit that changes CODE63 or CHIP60 clears the window (R261). -/
def State.gridCommit (s : State) (old : Word) : State :=
  if (old ^^^ s.gridWord 1) &&& 0x300 = 0 then s else s.islClear

/-! ### Checks of the GRID bank (R238) -/

/-- Points of a curve or envelope rise: strictly, or not falling. -/
def rising (strict : Bool) : List Int → Bool
  | a :: b :: r => (if strict then decide (a < b) else decide (a ≤ b)) && rising strict (b :: r)
  | _ => true

/-- A binary32 field of the bank lies within bounds given in thousandths. -/
def ratIn (w : Word) (lo hi : Int) : Bool :=
  match fToRat w with
  | none => false
  | some v => decide (lo * 2 ^ 149 ≤ 1000 * v) && decide (1000 * v ≤ hi * 2 ^ 149)

/-- A pu32 field lies within bounds given in thousandths. -/
def puIn (w : Word) (lo hi : Int) : Bool :=
  decide (lo * 2 ^ 28 ≤ 1000 * w.toInt) && decide (1000 * w.toInt ≤ hi * 2 ^ 28)

def natIn (w : Word) (lo hi : Nat) : Bool := decide (lo ≤ w.toNat) && decide (w.toNat ≤ hi)

/-- DETAIL 5 to 8 of the GRID bank; the State's configuration is the one checked. `words` is the bank's WORDS. -/
def State.checkGrid (s : State) (words : Nat) (isGen : Nat → Bool) : List (Nat × Bool) :=
  let w := s.gridWord
  let n := s.gridNat
  let env := fun k => bits (s.envCfg k) 0 5
  let badEnv := (List.range 4).any fun k =>
    env k == 0 || decide (16 < env k) || !rising false ((List.range (env k)).map fun j => s.envTime k j)
  let vv := bits (n 210) 0 5
  let fw := bits (n 210) 8 5
  let lo7 := 40 * 2 ^ 24
  let hi7 := 72 * 2 ^ 24
  let ctx := s.genContext
  let posF := fun i => match fToRat (w i) with
    | some v => decide (0 < v)
    | none => false
  [ (5, words != 256 || n 0 != 1)
  , (6, badEnv || decide (vv < 2) || decide (16 < vv) || decide (fw < 2) || decide (16 < fw) ||
      !rising true (s.vvCurve.map (·.1)) || !rising true (s.fwCurve.map (·.1)))
  , (7, decide (2 ^ 10 ≤ n 1) || decide (2 ^ 14 ≤ n 2) || !posF 3 || !posF 4 ||
      !(puIn (w 5) 500 999999 && decide (s.gridPu 5 < 2 ^ 28) && decide (2 ^ 28 < s.gridPu 6) && puIn (w 6) 0 1500) ||
      !(decide (lo7 ≤ n 7) && decide (n 7 < s.fnom) && decide (s.fnom < n 8) && decide (n 8 ≤ hi7)) ||
      !puIn (w 9) 0 500 || !natIn (w 10) 1 10000 || !ratIn (w 11) 0 10000 || !puIn (w 12) 0 200 || !puIn (w 13) 0 1500 ||
      !ratIn (w 14) 0 10000 || !puIn (w 15) 100 2000 || (List.range 4).any (fun k => bits (s.envCfg k) 5 2 != 0) ||
      decide (10000 < n 145) || bits (n 210) 5 3 != 0 || bits (n 210) 13 19 != 0 || decide (90000 < n 211) ||
      decide (90000 < n 212) || decide (3600 < n 217) || decide (s.gridPu 218 ≤ 0) || !ratIn (w 219) 50 20000 ||
      !ratIn (w 220) 0 100000 || !ratIn (w 221) 0 1000000 || !ratIn (w 222) 0 1000 || !natIn (w 223) 1 100 ||
      !puIn (w 224) 100 2000 || !ratIn (w 225) 0 10000 || !ratIn (w 226) 0 100000 || !natIn (w 227) 100 60000 ||
      !puIn (w 228) 5 30 || decide (s.gridPu 229 ≤ 0) || decide (n 230 = 0) || decide (255 < n 230) ||
      (List.range 5).any (fun k => decide (60000 < n (232 + 2 * k))) || !ratIn (w 242) 0 100000 ||
      decide (36 * n 243 > 2 ^ 32) || decide (60000 < n 244) || (List.range 11).any fun k => n (245 + k) != 0)
  , (8, (ctx != 0 && !isGen ctx) || (List.range 8).any (fun g => bit s.ceaseGroups g && s.grpMode g == 0) ||
      (s.gridFlag 3 && ctx == 0)) ]

end Sys2Proof.Machine
end

