-- ==== Sys2Proof/Machine/Spt.lean ====
section
/-!
DEFINITION. The set-point inputs (R155 to R158): timing of SETP_P, the map, filter and slew of each channel, and loss of
signal.
-/

namespace Sys2Proof.Machine

/-- A value as an integer that orders like its format: signed, unsigned or binary32; none for a NaN. -/
def fmtKey (fmt : Nat) (w : Word) : Option Int :=
  if fmt = 0 then some w.toInt
  else if fmt = 1 then some (w.toNat : Int)
  else
    let m : Nat := w.toNat % 2 ^ 31
    if m > 0x7F800000 then none else some (if w.getLsbD 31 then -(Int.ofNat m) else Int.ofNat m)

/-- A value between two bounds of its format, inclusive; a NaN is in no range. -/
def fmtIn (fmt : Nat) (lo hi x : Word) : Bool :=
  match fmtKey fmt lo, fmtKey fmt hi, fmtKey fmt x with
  | some a, some b, some v => decide (a ≤ v) && decide (v ≤ b)
  | _, _, _ => false

/-- A field of a channel entry of the REGIONS set-point block (Table 6.11): SETP_A is channel 0, SETP_P channel 1. -/
def State.sptField (s : State) (ch off n : Nat) : Nat := field (s.sec secRegions) (16 + 48 * ch + off) n
def State.sptWordAt (s : State) (ch off : Nat) : Word := word (s.sptField ch off 4)

/-- MODE of a channel; 0, off, without a REGIONS section (R147). -/
def State.sptMode (s : State) (ch : Nat) : Nat := if s.hasSec secRegions then s.sptField ch 0 1 else 0

def Spt.ch (x : Spt) (i : Nat) : SptCh := if i = 0 then x.a else x.p
def Spt.setCh (x : Spt) (i : Nat) (c : SptCh) : Spt := if i = 0 then { x with a := c } else { x with p := c }
def State.setSpt (s : State) (i : Nat) (c : SptCh) : State := { s with spt := s.spt.setCh i c }

/-- No rising edge for LOS_TIME. -/
def State.sptQuiet (s : State) : Bool := decide (s.spt.quiet ≥ 10 * s.sptField 1 0x24 2)

/-- The raw value of SETP_A in volts: a step of the 12-bit converter is 3.0 V / 4,096 (R155). DEDUCED (log 44). -/
def setpVolts (code : BitVec 12) : Word := fOfRat (3 * (code.toNat : Int)) 4096

/-- The raw value of SETP_P (R155, R156): frequency in Hz, of at most 20 kHz, or high time over the period; 2.5 ns steps. -/
def State.sptPulseRaw (s : State) : Word :=
  let x := s.spt
  if s.sptMode 1 = 1 then
    if s.sptQuiet || x.period = 0 then 0 else fOfRat 400000000 (max 20000 x.period : Nat)
  else if s.sptQuiet then (if x.level then fOne else 0)
  else if x.period = 0 then 0 else fOfRat (x.high : Int) (x.period : Int)

/-- A raw value within the valid window (R157). -/
def State.sptInWindow (s : State) (ch : Nat) : Bool :=
  fmtIn 2 (s.sptWordAt ch 0x1C) (s.sptWordAt ch 0x20) (s.spt.ch ch).raw

/-- The mapped value (R156). -/
def State.sptMap (s : State) (ch : Nat) (raw : Word) : Int :=
  let lo := ratOf (s.sptWordAt ch 4)
  let hi := ratOf (s.sptWordAt ch 8)
  let olo := (s.sptWordAt ch 0x0C).toInt
  let ohi := (s.sptWordAt ch 0x10).toInt
  clampInt (min olo ohi) (max olo ohi) (olo + divOpen 50 ((ratOf raw - lo) * (ohi - olo)) (max 1 (hi - lo)))

/-- The slew limit (R156): the next output and whether the limit acted; 0 is no limit. -/
def slewTo (limit : Nat) (held target : Int) : Int × Bool :=
  if limit = 0 || (target - held).natAbs ≤ limit then (target, false)
  else (if target > held then held + (limit : Int) else held - (limit : Int), true)

/-- One update of an enabled channel with its raw value. -/
def State.sptUpdate (s : State) (ch : Nat) (raw : Word) : State :=
  let c := s.spt.ch ch
  let tau := s.sptField ch 1 1
  let x := s.sptMap ch raw
  let y := if tau = 0xFF then x else c.y + divOpen 51 (x - c.y) (2 ^ tau)
  let target := if c.los then (if s.sptField ch 2 1 = 0 then c.out else (s.sptWordAt ch 0x18).toInt) else y
  let r := slewTo (s.sptField ch 0x14 4) c.out target
  s.setSpt ch { c with raw := raw, y := y, out := r.1, slewing := r.2 }

/-- SETPOINT_UPDATE: `code` is what SETP_A's converter gives. -/
def execSetpointUpdate (code : BitVec 12) (s : State) : Out :=
  let s := { s with spt := { s.spt with quiet := s.spt.quiet + 1 } }
  let s := if s.sptMode 0 = 0 then s else s.sptUpdate 0 (setpVolts code)
  .next (if s.sptMode 1 = 0 then s else s.sptUpdate 1 s.sptPulseRaw)

/-- SETP_P_EDGE: an edge, `since` steps of 2.5 ns after the one before. A rising edge completes a period. -/
def execSetpPEdge (rising : Bool) (since : Nat) (s : State) : Out :=
  let x := s.spt
  .next { s with spt :=
    if rising then
      { x with
        level := true, rose := true, quiet := 0
        period := if x.rose then x.highNow + since else x.period
        high := if x.rose then x.highNow else x.high }
    else { x with level := false, highNow := since } }

/-- SETPOINT_LOS. -/
def execSetpointLos (pulse : Bool) (s : State) : Out :=
  let ch := b2n pulse
  .next (
    if s.sptMode ch != 0 && !(s.spt.ch ch).los && !s.sptInWindow ch then
      ((s.setSpt ch { s.spt.ch ch with los := true }).setBit rSPT_STAT (2 + ch)).inc
        (if pulse then rSPT_CNT_LOS_P else rSPT_CNT_LOS_A)
    else s)

/-- SETPOINT_RECOVER. -/
def execSetpointRecover (pulse : Bool) (s : State) : Out :=
  let ch := b2n pulse
  .next (if s.sptInWindow ch then s.setSpt ch { s.spt.ch ch with los := false } else s)

/-- The derived bits of SPT_STAT (Table 6.19). -/
def State.sptStat (s : State) : Nat :=
  b2n s.spt.a.los + 2 * b2n s.spt.p.los + 16 * b2n s.spt.a.slewing + 32 * b2n s.spt.p.slewing

/-- I/O words 0x360 to 0x36F (R158), by their last digit. -/
def State.sptWord (s : State) (i : Nat) : Word :=
  if !s.hasSec secRegions then 0
  else match i with
    | 0 => wordOfInt s.spt.a.out
    | 1 => s.spt.a.raw
    | 2 => wordOfInt s.spt.p.out
    | 3 => s.spt.p.raw
    | 4 => word (b2n s.spt.a.los + 2 * b2n s.spt.p.los + 4 * b2n s.spt.a.slewing + 8 * b2n s.spt.p.slewing +
        16 * b2n (s.sptMode 0 != 0) + 32 * b2n (s.sptMode 1 != 0))
    | _ => 0

end Sys2Proof.Machine
end

