-- ==== Sys2Proof/Machine/Gs.lean ====
section
/-!
DEFINITION. Gain scheduling (R146 to R151): the region tables, the choice at a context's start and the bumpless entries;
and the plausibility settings that a start reads (R153).
-/

namespace Sys2Proof.Machine

/-! ### Region tables (R147) -/

/-- The offset of the table after the one at `o`. -/
def nextTable (p : List Byte) (o : Nat) : Nat := o + 32 + 64 * field p (o + 1) 1

/-- The offsets of `n` tables from `o` on. -/
def tablesFrom (p : List Byte) : Nat → Nat → List Nat
  | 0, _ => []
  | n + 1, o => o :: tablesFrom p n (nextTable p o)

/-- The offsets of the context tables of a REGIONS payload. -/
def regionTables (p : List Byte) : List Nat := tablesFrom p (field p 0 1) 112

/-- The table of a context. -/
def regionTable (p : List Byte) (n : Nat) : Option Nat := (regionTables p).find? fun o => field p o 1 == n

/-- A field of region `r` of the table at `o`. -/
def regionField (p : List Byte) (o r off n : Nat) : Nat := field p (o + 32 + 64 * r + off) n

/-! ### Variables (R146) and boxes (R148) -/

/-- What a source kind gives, and whether it is stale. -/
def State.gsSource (s : State) (kind addr : Nat) : Word × Bool :=
  match kind with
  | 0 => (s.ldm addr, false)
  | 1 => (wordOfInt s.isl.z, !s.isl.zValid)
  | 2 => (word s.ang.vpos, !s.ang.valid)
  | 3 => (word s.ang.freq, !s.ang.valid)
  | 4 => (s.sptWord 0, s.spt.a.los)
  | 5 => (s.sptWord 2, s.spt.p.los)
  | _ => (0, false)

/-- A bound widened by a hysteresis width: integers saturate at their format, binary32 rounds to nearest. -/
def holdBound (fmt : Nat) (upper : Bool) (bound width : Word) : Word :=
  if fmt = 0 then
    wordOfInt (satI32 (if upper then bound.toInt + width.toInt else bound.toInt - width.toInt))
  else if fmt = 1 then
    word (if upper then min 0xFFFFFFFF (bound.toNat + width.toNat) else bound.toNat - width.toNat)
  else ((if upper then fAdd bound width else fSub bound width)).1

/-- One variable of a context's start: its format, its value and whether it holds a region under STALE_HOLD. -/
structure GsVar where
  fmt : Nat
  val : Word
  bad : Bool
  deriving DecidableEq, Repr

/-- X or Y of the table at `o`, from its SRC byte and its ADDR. -/
def State.gsVar (s : State) (p : List Byte) (o src addr : Nat) : GsVar :=
  let b := field p (o + src) 1
  let fmt := bits b 4 2
  let v := s.gsSource (bits b 0 4) (field p (o + addr) 2)
  { fmt := fmt, val := v.1, bad := v.2 || (fmtKey fmt v.1).isNone }

/-- The point lies in region `r`: in its entry box, or in its hold box. -/
def inRegion (p : List Byte) (o r : Nat) (hold : Bool) (x y : GsVar) : Bool :=
  let f := fun k => word (regionField p o r (4 * k) 4)
  let hx := if hold then f 4 else 0
  let hy := if hold then f 5 else 0
  let side := fun (v : GsVar) (lo hi w : Word) =>
    if hold then fmtIn v.fmt (holdBound v.fmt false lo w) (holdBound v.fmt true hi w) v.val else fmtIn v.fmt lo hi v.val
  side x (f 0) (f 1) hx && side y (f 2) (f 3) hy

/-! ### Plausibility settings (Table 6.10) -/

/-- The offset of a context's plausibility entry in a CAND payload. -/
def plbEntry (p : List Byte) (n : Nat) : Option Nat :=
  ((List.range (field p 1 1)).map fun i => 8 + 16 * field p 0 1 + 48 * i).find? fun o => field p o 1 == n

/-- The context's bit of PLB_ACT. -/
def State.plbAct (s : State) (n : Nat) : Bool :=
  if n < 32 then s.regBit rPLB_ACT_LO n else s.regBit rPLB_ACT_HI (n - 32)

/-- The fallback region is forced (R153). -/
def State.fallbackForced (s : State) (n : Nat) : Bool :=
  s.plbAct n &&
    (match plbEntry (s.sec secCand) n with
     | some o => bit (field (s.sec secCand) (o + 3) 1) 1
     | none => false)

/-! ### The choice at a start (R148 to R151) -/

/-- The latched gain-scheduling words of a start. -/
def gsWords (region prev bank flags : Nat) (x y : Word) (starts : Nat) : SMap Word :=
  [(0x330, word region), (0x331, word prev), (0x332, word bank), (0x333, word flags), (0x334, x), (0x335, y),
    (0x336, word (min 0xFFFFFFFF starts))].foldl (fun m e => SMap.set zeroWord m e.1 e.2) []

/-- Puts a bank in force for a run. -/
def State.latchBank (s : State) (n bank : Nat) : State :=
  let c := s.ctx n
  s.setCtx n { c with bank := bank, bankBase := (s.bankBase bank).getD 0, hasBank := (s.bankBase bank).isSome }

/-- One bumpless entry (R149). -/
def State.gsBump (s : State) (n : Nat) (p : List Byte) (o : Nat) : State :=
  let c := s.ctx n
  let kp := s.lcm (c.bankBase + 4 * (field p (o + 2) 2 % 2 ^ 14))
  let r := piBump true kp.toInt (s.ldm (field p (o + 4) 2)).toInt (s.ldm (field p (o + 6) 2)).toInt
  s.setCtx n (c.setS (field p o 1 % 32) r.1)

/-- A hop that the start of PTC_OWNER requests (R150); a new request replaces the pending one. -/
def State.gsHop (s : State) (n op : Nat) : State :=
  if op != 0xFF && n == field (s.sec secRegions) 1 1 && op != s.clk.op then { s with gs := { s.gs with hop := some op } } else s

/-- GS at the start of a context, other than a resumption. `init` says that the run begins at INIT_ENTRY. The latched
words of the start are set. -/
def State.gsStart (s : State) (n : Nat) (init : Bool) : State :=
  let p := s.sec secRegions
  let c := s.ctx n
  match (if s.hasSec secRegions then regionTable p n else none) with
  | none =>
    let s := s.latchBank n c.desc.bank
    if s.hasSec secRegions then
      s.setCtx n { s.ctx n with latched := gsWords 0 0 c.desc.bank (if s.gs.hop.isSome then 64 else 0) 0 0 0 }
    else s.setCtx n { s.ctx n with latched := [] }
  | some o =>
    let nreg := field p (o + 1) 1
    let cur := c.region.getD (field p (o + 2) 1)
    let x := s.gsVar p o 5 6
    let y := s.gsVar p o 8 10
    let forced := s.fallbackForced n
    let stale := !forced && bit (field p (o + 4) 1) 0 && (x.bad || y.bad)
    let pick :=
      if forced then some (field p (o + 3) 1)
      else if stale || inRegion p o cur true x y then some cur
      else (List.range nreg).find? fun r => inRegion p o r false x y
    let r := pick.getD cur
    let bank := if regionField p o r 0x18 2 = 0 then c.desc.bank else regionField p o r 0x18 2
    let bankMoved := bank != c.bank
    let nb := min 4 (regionField p o r 0x1B 1)
    let bump := bankMoved && !init && nb != 0
    let s := if pick.isNone then (s.inc rGS_CNT_NOMATCH).setBit rGS_STAT 5 else s
    let s := if r != cur then s.inc rGS_CNT_SWITCH else s
    let s := s.latchBank n bank
    let s := if bump then
        ((List.range nb).foldl (fun s i => s.gsBump n p (o + 32 + 64 * r + 0x20 + 8 * i)) s).inc rGS_CNT_BUMP
      else s
    let s := s.gsHop n (regionField p o r 0x1A 1)
    let starts := if r = cur ∧ c.region.isSome then c.regionStarts + 1 else 1
    let flags := b2n (r != cur) + 2 * b2n bankMoved + 4 * b2n bump + 8 * b2n pick.isNone + 16 * b2n stale + 32 * b2n forced +
      64 * b2n s.gs.hop.isSome
    s.setCtx n { s.ctx n with
      region := some r, prevRegion := cur, regionStarts := min 0xFFFFFFFF starts, noMatch := pick.isNone
      latched := gsWords r cur bank flags x.val y.val starts }

/-- GS_REGION of a context. -/
def State.gsRegion (s : State) (n : Nat) : Word :=
  let c := s.ctx n
  word (c.region.getD 0 + 16 * c.prevRegion + 256 * c.bank + 2 ^ 18 * b2n c.noMatch + 2 ^ 19 * b2n (s.fallbackForced n))

/-- The derived bits of GS_STAT. -/
def State.gsStat (s : State) : Nat := b2n s.gs.hop.isSome + 2 * s.gs.hop.getD 0

end Sys2Proof.Machine
end

