-- ==== Sys2Proof/Machine/LeIo.lean ====
section
/-!
DEFINITION. The I/O space of the Loop Engine (R95, R96, R126, R127): which words exist and what a context may do with
them, what is latched at a start, what a read gives and what a write does.
-/

namespace Sys2Proof.Machine

/-! ### The I/O map (Table 4.7) -/

/-- An address that Table 4.7 lists. -/
def ioListed (a : Nat) : Bool :=
  decide (a < 0x150) || (decide (0x200 ≤ a) && decide (a < 0x322)) || (decide (0x330 ≤ a) && decide (a < 0x384)) ||
    (decide (0x3A0 ≤ a) && decide (a < 0x3C7))

def ioStaging (a : Nat) : Bool := decide (0x200 ≤ a) && decide (a < 0x300)
def ioLif (a : Nat) : Bool := decide (0x3A0 ≤ a) && decide (a < 0x3C0)

/-- A word that is only written. -/
def ioWriteOnly (a : Nat) : Bool := ioStaging a || a == 0x320 || a == 0x321 || ioLif a

/-- What a read of a word raises, in the order of R109. -/
def ioReadExc (a : Nat) : Option Exc :=
  if !ioListed a then some .ioAddr else if ioWriteOnly a then some .ioPerm else none

/-- What an IOST to a word raises. -/
def ioWriteExc (d : Desc) (a : Nat) : Option Exc :=
  if !ioListed a then some .ioAddr
  else if a = 0x320 || a = 0x321 then (if d.gen then none else some .ioPerm)
  else if ioLif a || a = 0x3C5 then none
  else some .ioPerm

/-- What a STAGE to a word raises. -/
def ioStageExc (d : Desc) (a : Nat) : Option Exc :=
  if !ioListed a then some .ioAddr
  else if ioStaging a && bit d.stageGroups ((a - 0x200) / 32) then none
  else some .ioPerm

/-! ### Angle words (Table 4.8) -/

/-- The three words of an 80-bit angle word: FR, CYL, CYH. -/
def angleWord (w i : Nat) : Word := word (bits w (32 * i) (if i = 2 then 16 else 32))

/-- The whole word of ANG_STAT. -/
def State.angStatWord (s : State) : Word := s.reg rANG_STAT ||| word s.angStat

/-- The angle words by the order of Table 4.8: measured, scheduling, generated. -/
def State.angleOf (s : State) (k : Nat) : Nat :=
  if k = 0 then s.ang.measWord else if k = 1 then angWord s.ang.sch else angWord s.ang.gen

/-- Word `i` of 0x300 to 0x30F as it stands. -/
def State.gridWords (s : State) (i : Nat) : Word :=
  if i < 9 then angleWord (s.angleOf (i / 3)) (i % 3)
  else match i with
    | 9 => word s.ang.freq
    | 10 => s.ang.rocof
    | 11 => word s.ang.vpos
    | 12 => word s.ang.vneg
    | 13 => wordOfInt s.ang.err
    | 14 => s.angStatWord
    | _ => 0

/-! ### Wall time (Table 4.7) -/

/-- I/O word 0x383, and the same bits of TIM_STAT (R304). -/
def State.timFlags (s : State) : Nat :=
  b2n s.tim.valid + 2 * b2n (s.tim.valid && s.tim.precise) + 4 * s.tim.st + 32 * s.tim.src

/-- Words 0x380 to 0x383. -/
def State.wallWord (s : State) (i : Nat) : Word :=
  let sec := s.wallNs / 1000000000
  match i with
  | 0 => word (s.wallNs % 1000000000)
  | 1 => word (bits sec 0 32)
  | 2 => word (bits sec 32 32)
  | 3 => word s.timFlags
  | _ => 0

/-! ### Latching at a start (R96) -/

/-- Adds words from an address to a latched set. -/
def putWords (m : SMap Word) (a n : Nat) (f : Nat → Word) : SMap Word :=
  (List.range n).foldl (fun m i => SMap.set zeroWord m (a + i) (f i)) m

/-- The own-context words of a start (Table 4.8); `init` says that it is at INIT_ENTRY. -/
def State.ownWord (s : State) (n : Nat) (init : Bool) (i : Nat) : Word :=
  let c := s.ctx n
  match i with
  | 0 => word (n % 64 + 65536 * c.epoch)
  | 1 => word (c.req.reason + 256 * b2n init)
  | 2 => word c.req.time
  | 3 => word s.le.cyc
  | 4 => if c.req.reason = 2 then c.req.arg else 0
  | 5 => c.flags
  | 6 => word c.ovrSince
  | _ => 0

/-- Latches every word that Table 4.7 latches; the gain-scheduling words stand already. -/
def State.latchWords (s : State) (n : Nat) (init : Bool) : State :=
  let m := (s.ctx n).latched
  let m := putWords m 0x300 16 s.gridWords
  let m := putWords m 0x360 16 s.sptWord
  let m := putWords m 0x370 16 s.grdWord
  let m := putWords m 0x380 4 s.wallWord
  let m := putWords m 0x3C0 7 (s.ownWord n init)
  s.setCtx n { s.ctx n with latched := m, ovrSince := 0 }

/-! ### Reads (R126) -/

/-- The snapshots that a read of one word takes (R96, R204). -/
def State.ioSnap (s : State) (n a : Nat) : State :=
  let c := s.ctx n
  let put := fun (m : SMap Word) (k : Nat) (v : Word) => SMap.set zeroWord m k v
  if a = 0x310 || a = 0x313 || a = 0x316 then
    s.setCtx n { c with snap := put (put c.snap (a + 1) (s.gridWords (a - 0x30F))) (a + 2) (s.gridWords (a - 0x30E)) }
  else if 0x100 ≤ a ∧ a < 0x11C ∧ a % 2 = 0 then
    let ch := s.sdmCh ((a - 0x100) / 4)
    s.setCtx n { c with snap := put c.snap (a + 1) (if a % 4 = 0 then ch.w1 else ch.w3) }
  else s

/-- The value of a word that a context reads; its snapshots have been taken. -/
def State.ioValue (s : State) (n a : Nat) : Word :=
  let c := s.ctx n
  if a < 0x100 then s.result a
  else if a < 0x11C then
    let ch := s.sdmCh ((a - 0x100) / 4)
    if a % 4 = 0 then ch.w0 else if a % 4 = 2 then ch.w2 else SMap.get zeroWord c.snap a
  else if a = 0x140 then s.cmpMask (·.out)
  else if a = 0x141 then s.cmpMask (·.undet)
  else if a = 0x142 then s.cmpMask (·.startHeld)
  else if a < 0x300 then 0
  else if 0x310 ≤ a ∧ a < 0x320 then
    let i := a - 0x310
    if i < 9 ∧ i % 3 ≠ 0 then SMap.get zeroWord c.snap a else s.gridWords i
  else if 0x340 ≤ a ∧ a < 0x360 then SMap.get zeroWord c.ceWords a
  else SMap.get zeroWord c.latched a

/-- A write in progress on a word (R126): a slot of a sequence that has started and not finished, or a Candidate
Evaluator word of the context's evaluation. -/
def State.ioBusy (s : State) (n a : Nat) : Bool :=
  if a < 0x100 then
    let x := s.conv (a / 64)
    let holds := fun (r : Option SeqRun) => match r with
      | none => false
      | some q => (List.range (s.seqCount (a / 64) q.seq)).any fun k => slotIndex (s.slotAt (a / 64) q.seq k) == a % 64
    holds x.run || holds x.suspended
  else if 0x340 ≤ a ∧ a < 0x360 then
    s.ce.queue.any (fun e => e.ctx == n && !e.discarded) || s.ce.service.any fun e => e.ctx == n && !e.discarded
  else false

/-! ### Writes (R127, R120) -/

def LifPos.zero : Nat → LifPos := fun _ => {}
def State.lifPos (s : State) (p : Nat) : LifPos := SMap.get LifPos.zero s.lif.pos p
def State.setLifPos (s : State) (p : Nat) (x : LifPos) : State :=
  { s with lif := { s.lif with pos := SMap.set LifPos.zero s.lif.pos p x } }


/-- The effect of one word of an IOST. -/
def State.ioWrite (s : State) (n a : Nat) (v : Word) : State :=
  if a = 0x320 then s.genWriteFreq v
  else if a = 0x321 then (s.genWritePhase v).gfWritten
  else if a = 0x3C5 then
    let c := s.ctx n
    s.setCtx n { c with
      flags := c.flags &&& ~~~ (v &&& 31)
      latched := SMap.set zeroWord c.latched 0x3C5 (SMap.get zeroWord c.latched 0x3C5 &&& ~~~ (v &&& 31)) }
  else if ioLif a then
    let s := { s with lif := { s.lif with inp := SMap.set zeroWord s.lif.inp a v } }
    if a % 4 = 0 then s.setLifPos ((a - 0x3A0) / 4) { s.lifPos ((a - 0x3A0) / 4) with fresh := true } else s
  else s

/-- A STAGE over a word that an evaluation's result holds leaves that result unsealed (R152). -/
def Ctx.overStage (c : Ctx) (g i : Nat) : Ctx :=
  { c with preds := c.preds.map fun p =>
      if p.group = g ∧ p.use = .staged ∧ i < p.words then { p with use := .spoiled } else p }

/-- The effect of one word of a STAGE. -/
def State.ioStage (s : State) (n a : Nat) (v : Word) : State :=
  let g := (a - 0x200) / 32
  (s.stageWord g (a % 32) v).setCtx n ((s.ctx n).overStage g (a % 32))

end Sys2Proof.Machine
end

