-- ==== Sys2Proof/Machine/Trestle.lean ====
section
/-!
DEFINITION. The Trestle ring (R350 to R360): links and wraps, enumeration, frames and their forwarding, link delay, and
the role table.
-/

namespace Sys2Proof.Machine

/-! ### Roles (Tables 15.3, 15.4) -/

def RoleEntry.zero : Nat → RoleEntry := fun _ => {}
def State.setTrs (s : State) (x : Trs) : State := { s with trs := x }
def State.role (s : State) (r : Nat) : RoleEntry := SMap.get RoleEntry.zero s.trs.role r
def State.setRole (s : State) (r : Nat) (x : RoleEntry) : State :=
  s.setTrs { s.trs with role := SMap.set RoleEntry.zero s.trs.role r x }

/-- This device holds a role. -/
def State.holds (s : State) (r : Nat) : Bool := (s.role r).assigned && (s.role r).holder == s.trs.rank && s.trs.enumDone

/-! ### Sending (R353, R355) -/

/-- Frames that would leave on a ring toward a dead link turn onto the other ring (R351). -/
def State.turns (s : State) (ringB : Bool) : Bool := if ringB then s.trs.wrapA else s.trs.wrapB

/-- A frame of this device waits for the transmitters: to every device, on both rings (R354), to one, on either ring, or a
DLY frame on the ring that FLG names. -/
def State.trsSendTo (s : State) (dst type epoch flg : Nat) (payload : List Byte) : State :=
  let f (ringB turn : Bool) : TrsFrame := {
    type := type, src := s.trs.rank, dst := dst, hops := 0, ringB := if turn then !ringB else ringB, wrapped := turn
    epoch := epoch, accd := 0, flg := flg, payload := slice payload 0 18 }
  let fs := if dst = 0xFF then [f false (s.turns false), f true (s.turns true)] else [f (bit flg 0 && type == 0x0B) false]
  s.setTrs { s.trs with out := s.trs.out ++ fs }

def State.trsSend (s : State) (type epoch flg : Nat) (payload : List Byte) : State :=
  s.trsSendTo 0xFF type epoch flg payload

/-- An 80-bit angle word as fraction (4) and cycles (6). -/
def angBytes (a : Nat) : List Byte := leBytes 4 (a % 2 ^ 32) ++ leBytes 6 (a / 2 ^ 32)

/-- A frame before another in the order of Table 15.2: by type, and a forwarded one before a local one of its type. -/
def frameBefore (a b : TrsFrame) : Bool :=
  decide (a.type < b.type) || (decide (a.type = b.type) && decide (a.hops > 0) && decide (b.hops = 0))

/-- The frame that goes out next. -/
def nextFrame (l : List TrsFrame) : Option TrsFrame :=
  l.foldl (fun a f => match a with
    | none => some f
    | some b => if frameBefore f b then some f else some b) none

/-- TRESTLE_FRAME_SEND (R355): the next waiting frame starts; with none the transmitter sends idle commas. -/
def execTrestleFrameSend (ringB : Bool) (s : State) : Out :=
  .next (
    if !s.clk.ethLock then s
    else match nextFrame (s.trs.out.filter fun f =>
        f.ringB = ringB || (f.hops = 0 && f.dst != 0xFF && f.type != 0x0B)) with
      | some f => s.setTrs { s.trs with out := s.trs.out.erase f }
      | none => s)

/-! ### Links and delay (R350, R351, R354, R356) -/

/-- The inbound link delay of a ring's receiver, (round trip − turnaround) / 2 averaged over the last 16 exchanges, in
2^-6 ns (R356). -/
def State.linkDelay (s : State) (ringB : Bool) : Nat :=
  let l := if ringB then s.trs.dlyB else s.trs.dlyA
  if l.isEmpty then 0 else (divOpen 80 l.sum (2 * l.length : Nat)).toNat

/-- TRESTLE_LINK_DOWN (R351). -/
def execTrestleLinkDown (ringB : Bool) (s : State) : Out :=
  .next (s.setTrs (if ringB then { s.trs with linkB := false } else { s.trs with linkA := false }))

/-- LINK_WRAP (R351): frames toward the dead link turn onto the other ring. -/
def execLinkWrap (ringB : Bool) (s : State) : Out :=
  .next (
    if (if ringB then s.trs.wrapB else s.trs.wrapA) then s
    else (s.setTrs (if ringB then { s.trs with wrapB := true } else { s.trs with wrapA := true })).inc rTRS_CNT_WRAP)

/-- LINK_UNWRAP (R351): the link comes up and the wrap is removed. -/
def execLinkUnwrap (ringB : Bool) (s : State) : Out :=
  .next (s.setTrs (if ringB then { s.trs with linkB := true, wrapB := false } else { s.trs with linkA := true, wrapA := false }))

/-- DLY_SEND (R356): a request on a transmitter. -/
def execDlySend (ringB : Bool) (s : State) : Out := .next (s.trsSendTo 0xFE 0x0B 0 (b2n ringB) [])

/-- DLY_FRAME (R356): a neighbour's request, which is returned on the other lane of the link, or a returned one with its
round trip and its turnaround time. -/
def execDlyFrame (ringB : Bool) (back : Option (Nat × Nat)) (s : State) : Out :=
  .next (
    match back with
    | none => s.trsSendTo 0xFE 0x0B 0 (2 + b2n (!ringB)) []
    | some (trip, turn) =>
      let d := (trip : Int) - turn
      s.setTrs (if ringB then { s.trs with dlyB := (d :: s.trs.dlyB).take 16 } else { s.trs with dlyA := (d :: s.trs.dlyA).take 16 }))

/-- TRESTLE_FRAME_FORWARD (R354): a frame received whole. A bad CRC, a reserved type or the hop limit drops it, its sender
removes its own broadcast, and a frame for this device alone is not forwarded. -/
def execTrestleFrameForward (f : TrsFrame) (good : Bool) (s : State) : Out :=
  .next (
    if !good then s.inc rTRS_CNT_CRC
    else if f.type = 0 || f.type > 0x0B then s.inc rTRS_CNT_DROP
    else if f.src = s.trs.rank || f.dst = s.trs.rank || f.dst = 0xFE then s
    else if f.hops + 1 ≥ 64 then s.inc rTRS_CNT_DROP
    else
      let wrap := s.turns f.ringB
      let g := { f with
        hops := f.hops + 1, accd := (f.accd + s.linkDelay f.ringB + 6656) % 2 ^ 24
        ringB := if wrap then !f.ringB else f.ringB, wrapped := f.wrapped || wrap }
      s.setTrs { s.trs with out := s.trs.out ++ [g] })

/-! ### Role epochs (R359, R360) -/

/-- The next epoch of a role: plus 1 modulo 2^16, skipping 0. -/
def nextEpoch (e : Nat) : Nat := if e % 65536 = 65535 then 1 else e % 65536 + 1

/-- A stale frame or transaction is refused. -/
def State.stale (s : State) : State := (s.inc rTRS_CNT_STALE).setBit rTRS_STAT 6

/-- A frame sent under a role is accepted: its SRC holds the role and its EPOCH is the table's. -/
def State.roleAccepts (s : State) (r : Nat) (f : TrsFrame) : Bool :=
  (s.role r).assigned && (s.role r).holder == f.src && (s.role r).epoch == f.epoch

/-- This device takes a role at an epoch and announces it (R359). -/
def State.takeRole (s : State) (r epoch cause : Nat) : State :=
  let old := s.role r
  let s := s.setRole r { holder := s.trs.rank, assigned := true, epoch := epoch }
  s.trsSend 0x04 epoch 0 (leBytes 1 r ++ leBytes 1 s.trs.rank ++ leBytes 2 epoch ++ leBytes 1 old.holder ++ leBytes 1 cause)

/-- ENUMERATE (R352): the device at which it is written becomes the root. -/
def execEnumerate (s : State) : Out := .next (s.setTrs { s.trs with root := true, enumDone := false })

/-- ENUMERATION_DONE (R352, R359): the ranks are assigned, or none where the enumeration fails. After the first one the
root holds ROOT at epoch 1; at a later one ROOT passes to the root and the PAIR roles stay, both announced anew, and
every other role becomes unassigned with its epoch kept. -/
def execEnumerationDone (rank found : Nat) (ok : Bool) (s : State) : Out :=
  .next (
    if !ok then (s.setTrs { s.trs with root := false }).setBit rTRS_STAT 1
    else
      let mine := (List.range 4).map (· + 4) |>.filter fun r => (s.role r).assigned && (s.role r).holder == s.trs.rank
      let first := !s.trs.enumEver
      let root := s.trs.root
      let s := s.setTrs { s.trs with rank := if root then 0 else rank % 64, found := found % 64, enumDone := true, enumEver := true, root := false }
      if first then s.setRole 3 { holder := 0, assigned := true, epoch := 1 }
      else
        let s := s.each [0, 1, 2] fun s r => s.setRole r { s.role r with assigned := false }
        let s := s.each mine fun s r => s.takeRole r (nextEpoch (s.role r).epoch) 0
        if root then s.takeRole 3 (nextEpoch (s.role 3).epoch) 0 else s)

/-- ROLE_ASSIGN (R359): refused as stale under another epoch; a new holder that is this device announces itself. -/
def execRoleAssign (role holder : Nat) (epoch : BitVec 16) (s : State) : Out :=
  .next (
    if 8 ≤ role then s
    else if (s.role role).epoch ≠ epoch.toNat then s.stale
    else if holder = s.trs.rank then s.takeRole role (nextEpoch epoch.toNat) 0
    else s)

/-- This device loses a role (R360): a PAIR role's outputs go high-impedance at once, and pair duty waits for REJOIN. -/
def State.deposed (s : State) (r : Nat) : State :=
  let s := s.setBit rTRS_STAT 7
  if s.pairOn && r = s.pairRole then
    s.setPair { s.pair with
      role := 0, zGroups := s.pairGroups, driving := 0, actOut := false, deposed := true, cause := 4, trigAt := none
      tookOver := false, handover := none }
  else s

/-- ROLE_FRAME (R359, R360). -/
def execRoleFrame (f : TrsFrame) (s : State) : Out :=
  .next (
    let r := field f.payload 0 1
    let holder := field f.payload 1 1
    let epoch := field f.payload 2 2
    let e := s.role r
    if f.type ≠ 4 || 8 ≤ r then s
    else if (!e.assigned && e.epoch = 0) || aheadMod (2 ^ 16) e.epoch epoch then
      let lost := s.holds r && holder != s.trs.rank
      let s := s.setRole r { holder := holder % 64, assigned := true, epoch := epoch }
      if lost then s.deposed r else s
    else s)

/-! ### The angle master (R56) -/

/-- ANGLE_SEND (Table 15.2). -/
def execAngleSend (s : State) : Out :=
  .next (
    if s.holds 0 then
      let st := (s.reg rANG_STAT).toNat ||| s.angStat
      s.trsSend 0x01 (s.role 0).epoch
        (b2n (bit st 0) + 2 * b2n (bit st 1) + 4 * b2n (bit st 2) + 8 * b2n (bit st 4) + 16 * s.ang.src)
        (angBytes (angWord s.ang.sch) ++ leBytes 4 s.ang.freq ++ leBytes 4 (unsigned 32 s.ang.err))
    else s)

/-- ANGLE_FRAME (R56): the master's angles, corrected by the hop delay at the frequency received. -/
def execAngleFrame (f : TrsFrame) (s : State) : Out :=
  .next (
    if f.type ≠ 1 then s
    else if !s.roleAccepts 0 f then s.stale
    else
      let delay := f.accd + s.linkDelay f.ringB
      let freq := field f.payload 10 4
      let go : Nat := (divOpen 81 ((freq * delay * 2 ^ 18 : Nat) : Int) (10 ^ 9)).toNat
      let a : Nat := (field f.payload 0 4 + 2 ^ 32 * field f.payload 4 6) * 65536 + go
      let m : Int := (a : Int) + sfield f.payload 14 4 * 65536 + 2 ^ 96
      let s := s.setTrs { s.trs with accd := delay }
      { s with ang := { s.ang with
          mas := a % 2 ^ 96, masFreq := freq, masMeas := (m.toNat % turnUnits : Nat), masOk := true, masAt := s.clk.t
          masFlags := f.flg } }.angSelect.angJump)

/-- MARK_FRAME (R183, R359): `err` is the time in femtoseconds of the ALIGN_REF boundary that the member measures against the
mark, less that of the mark's arrival; the hop delay, in 1/64 ns, corrects it. -/
def execMarkFrame (f : TrsFrame) (err : Int) (s : State) : Out :=
  .next (
    if f.type ≠ 2 then s
    else if s.roleAccepts 2 f then s.markFrame (field f.payload 0 4) (err + ((f.accd + s.linkDelay f.ringB) * 15625 : Nat))
    else s.stale)

/-! ### Registers (Tables 15.10, 15.11) -/

def State.trsStat (s : State) : Nat :=
  b2n s.trs.enumDone + 4 * b2n s.trs.linkA + 8 * b2n s.trs.linkB + 16 * b2n s.trs.wrapA + 32 * b2n s.trs.wrapB

/-- The words of the TRS window that follow from the state. -/
def State.trsWord (s : State) (off : Nat) : Option Word :=
  if off = 0x00C then some (word (s.trs.rank + 256 * s.trs.found))
  else if off = 0x014 then some (word (s.linkDelay false))
  else if off = 0x018 then some (word (s.linkDelay true))
  else if off = 0x01C then some (word s.trs.accd)
  else if 0x020 ≤ off ∧ off < 0x040 then
    let e := s.role ((off - 0x020) / 4)
    some (word (e.holder + 64 * b2n e.assigned + 65536 * e.epoch))
  else none

end Sys2Proof.Machine
end

