-- ==== Sys2Proof/Machine/Rec.lean ====
section
/-!
DEFINITION. The disturbance recorder (R282 to R289): samples and their reductions, triggers, Drawers and their buffers,
the dead time, and the index words in the NVM.
-/

namespace Sys2Proof.Machine

/-! ### Units and their entries (Table 12.5) -/

def RecUnit.zero : Nat → RecUnit := fun _ => {}
def State.recUnit (s : State) (n : Nat) : RecUnit := SMap.get RecUnit.zero s.recd.unit n
def State.setRecUnit (s : State) (n : Nat) (u : RecUnit) : State :=
  { s with recd := { s.recd with unit := SMap.set RecUnit.zero s.recd.unit n u } }

def State.nUnit (s : State) : Nat := if s.hasSec secRecorder then min 4 (field (s.sec secRecorder) 0 1) else 0

/-- A unit that runs: one of the section in force, or one that finishes a Drawer under its old entry (R297). -/
def State.recLive (s : State) (n : Nat) : Bool := decide (n < s.nUnit) || (s.recUnit n).cap.isSome

def State.recBase (s : State) : Nat := sramBase + field (s.sec secRecorder) 4 4

def RecUnit.f (u : RecUnit) (off n : Nat) : Nat := field u.entry off n
def RecUnit.clk (u : RecUnit) : Nat := u.f 0 1
def RecUnit.nch (u : RecUnit) : Nat := min 32 (u.f 4 1)
def RecUnit.immediate (u : RecUnit) : Bool := bit (u.f 5 1) 0
def RecUnit.extend (u : RecUnit) : Bool := bit (u.f 5 1) 1
def RecUnit.ringOut (u : RecUnit) : Bool := bit (u.f 5 1) 2
def RecUnit.ringIn (u : RecUnit) : Bool := bit (u.f 5 1) 3
def RecUnit.nbuf (u : RecUnit) : Nat := u.f 6 1
def RecUnit.preLen (u : RecUnit) : Nat := u.f 8 4
def RecUnit.postLen (u : RecUnit) : Nat := u.f 0x0C 4
def RecUnit.maxPost (u : RecUnit) : Nat := u.f 0x10 4
def RecUnit.trigSel (u : RecUnit) (n : Nat) : Bool := bit (u.f 0x14 4) n
def RecUnit.chan (u : RecUnit) (k : Nat) : Nat := u.f (0x100 + 4 * k) 4

/-- Bytes of one sample, and of one buffer (R296). -/
def recSampleLen (nch : Nat) : Nat := 4 * nch + 16
def recBufLen (entry : List Byte) : Nat :=
  let n := field entry 8 4 + field entry 0x10 4
  let nch := field entry 4 1
  (128 + n * recSampleLen nch + (if field entry 0 1 < 3 then 8 * ((n + 63) / 64) else 0) + 16 * nch + 63) / 64 * 64

/-- The unit's entry in the section in force. -/
def recEntry (p : List Byte) (n : Nat) : List Byte := slice p (0x60 + 384 * n) 384

/-- Free buffers: neither the current one nor one that awaits the Shelf. -/
def RecUnit.freeBufs (u : RecUnit) : List Nat :=
  (List.range u.nbuf).filter fun b => !bit u.full b && (b != u.buf || u.st == 4 || u.st == 0)

/-! ### The state word (Table 12.1) -/

/-- The live state word: bits [89:0] and the LDM flag bits; event inputs and INVALID come with a sample. -/
def State.recState (s : State) (evHeld : Nat) : Nat :=
  s.trp.active.toNat % 2 ^ 50 +
    2 ^ 50 * ((List.range 8).map fun g => 2 ^ g * b2n ((s.grp g).st == .tripped)).sum +
    2 ^ 58 * (s.grd.st % 8 + 8 * b2n s.grd.rt + 16 * b2n s.grd.gf + 32 * b2n s.grd.limiting) +
    2 ^ 64 * (b2n s.isl.island + 2 * b2n s.isl.degraded + 4 * b2n s.isl.zValid + 8 * b2n s.islHeld + 16 * b2n s.isl.inj +
      32 * b2n s.tim.valid) +
    2 ^ 70 * (b2n s.ang.valid + 2 * b2n (s.ang.src = 3) + 4 * b2n (s.regBit rANG_STAT 2) + 8 * b2n s.angHold) +
    2 ^ 74 * s.pins.gpio.toNat + 2 ^ 90 * (evHeld % 2 ^ 16) +
    2 ^ 106 * ((s.ldm (field (s.sec secRecorder) 0x0C 4)).toNat % 2 ^ 16)

/-! ### Raw values and reductions (R282, R283) -/

/-- A raw value of a channel: its word and whether it is invalid. A stream resample comes with the event where the
unit's clock is its stream; else it is the latest one of stream 0. -/
def State.chanRaw (s : State) (c : Nat) (x : List Resample) : Word × Bool :=
  let i := bits c 2 16
  match bits c 0 2 with
  | 0 =>
    let w := match x[i]? with
      | some r => resampleWord r
      | none => (s.sdmCh i).w2
    (wordOfInt (signed 28 w.toNat), !w.getLsbD 28)
  | 1 =>
    let w := SMap.get emptyResult s.adc.results i
    (wordOfInt (signed 16 w.toNat), !w.getLsbD 16)
  | _ => (s.ldm i, false)

/-- A raw value as a number over 2^149; none for a binary32 that is no number. -/
def rawNum (c : Nat) (w : Word) : Option Int := if bit c 20 then fToRat w else some (w.toInt * 2 ^ 149)

/-- A raw value enters its channel's accumulator. -/
def ChanAcc.add (a : ChanAcc) (c : Nat) (raw : Word × Bool) : ChanAcc :=
  if raw.2 then { a with invalid := true }
  else
    let v := (rawNum c raw.1).getD 0
    { a with
      n := a.n + 1, last := raw.1, sum := a.sum + v, sumSq := a.sumSq + v.natAbs ^ 2
      low := if a.n = 0 then v else min a.low v, high := if a.n = 0 then v else max a.high v
      bad := a.bad || (rawNum c raw.1).isNone }

/-- Two accumulators together, the later second. -/
def ChanAcc.join (a b : ChanAcc) : ChanAcc :=
  if b.n = 0 then { a with invalid := a.invalid || b.invalid }
  else if a.n = 0 then { b with invalid := a.invalid || b.invalid }
  else
    { n := a.n + b.n, last := b.last, sum := a.sum + b.sum, sumSq := a.sumSq + b.sumSq, low := min a.low b.low
      high := max a.high b.high, bad := a.bad || b.bad, invalid := a.invalid || b.invalid }

/-- A number over `den` 2^149 as the channel's word, its rounding open (log 5). -/
def chanWord (c : Nat) (v : Int) (den : Nat) : Word :=
  if bit c 20 then fOpen 60 v (den * 2 ^ 149) else wordOfInt (divOpen 60 v (den * 2 ^ 149 : Nat))

/-- The root mean square as the channel's word. -/
def chanRms (c : Nat) (a : ChanAcc) : Word :=
  if bit c 20 then fSqrtOpen 61 a.sumSq (a.n * 2 ^ 298) else wordOfInt (sqrtOpen 61 a.sumSq (a.n * 2 ^ 298))

/-- The sample's word of a channel (R282); a reduction over a value that is no number is open. -/
def State.chanSample (s : State) (c : Nat) (a : ChanAcc) : Word × State :=
  if a.n = 0 then (0, s)
  else match bits c 18 2 with
    | 0 => (a.last, s)
    | r =>
      if a.bad then s.takeFree
      else (if r = 1 then chanWord c a.sum a.n else if r = 2 then chanWord c a.low 1 else chanWord c a.high 1, s)

/-- Fields of analog unit `i` (Table 12.5). -/
def RecUnit.ana (u : RecUnit) (i off n : Nat) : Nat := u.f (0xB0 + 16 * i + off) n

/-- An analog unit sees a raw value of its channel (R284): it fires, or re-arms. An invalid value is not evaluated, nor one
that is no number (DESIGN CHOICE, log 18). -/
def RecUnit.analog (u : RecUnit) (i : Nat) (raw : Word × Bool) : RecUnit :=
  let c := u.chan (u.ana i 0 1)
  let num := fun w => rawNum c w
  match (if raw.2 then none else num raw.1), num (word (u.ana i 4 4)), num (word (u.ana i 8 4)) with
  | some v, some level, some hyst =>
    let prev := u.anaPrev.getD i none
    let u := { u with anaPrev := ((List.range 4).map fun k => if k = i then some v else u.anaPrev.getD k none) }
    let off := bit u.anaOff i
    let (fires, rearms) := match u.ana i 1 1 with
      | 0 => (decide (level < v), decide (v < level - hyst))
      | 1 => (decide (v < level), decide (level + hyst < v))
      | 2 => (decide (v < level) || decide (hyst < v), decide (level ≤ v) && decide (v ≤ hyst))
      | _ => (match prev with
        | some p => decide (level < (v - p).natAbs)
        | none => false, true)
    { u with
      hits := if fires && !off && u.trigSel (20 + i) then u.hits ||| 2 ^ (20 + i) else u.hits
      anaOff := if fires && u.ana i 1 1 != 3 then u.anaOff ||| 2 ^ i
        else if off && rearms then u.anaOff - 2 ^ i else u.anaOff }
  | _, _, _ => u

/-- One raw event of a unit's sample clock: every channel takes a raw value, and the analog units see theirs. -/
def State.recRaw (s : State) (n : Nat) (x : List Resample) (k : StrobeMark) : State :=
  let u := s.recUnit n
  if s.recd.stopped || u.st = 0 || u.st = 4 then s
  else
    let raw := fun j => s.chanRaw (u.chan j) x
    let u := { u with
      accs := (List.range u.nch).map fun j => (u.accs.getD j {}).add (u.chan j) (raw j)
      raws := u.raws + 1, clkAt := k.t, clkWall := k.wall, clkSch := k.sch, clkMeas := k.meas }
    s.setRecUnit n (((List.range 4).filter fun i => u.trigSel (20 + i)).foldl (fun u i => u.analog i (raw (u.ana i 0 1))) u)

/-- A raw event for every unit of a clock and its argument, with the stamps of its instant. -/
def State.recClock (s : State) (clk arg : Nat) (x : List Resample) (k : StrobeMark) : State :=
  s.each ((List.range 4).filter s.recLive) fun s n =>
    let u := s.recUnit n
    if u.clk = clk && (clk != 2 || u.f 1 1 = arg) then s.recRaw n x k else s

/-- The MTR_STROBE action on stream 1: the strobe waits for its resamples (R61, R202). -/
def State.recStrobe (s : State) : State :=
  { s with recd := { s.recd with marks := s.recd.marks ++ [s.strobeMark] } }

/-- The resamples of the oldest stream-0 strobe become available: they enter the channels' words, the metering and the
synchrophasor windows, and clock recorder units. -/
def State.mtrStream (s : State) : State :=
  match s.mtr.marks with
  | [] => s
  | k :: ks =>
    let (x, s) := (s.setMtr { s.mtr with marks := ks }).resamples k.t 7
    let s := s.each (List.range 7) fun s c => s.sdmResample c (x.getD c {})
    ((s.mtrProcess k x).pmuTake k x).recClock 1 0 x k

/-- Those of the oldest stream-1 strobe clock recorder units. -/
def State.recStream (s : State) : State :=
  match s.recd.marks with
  | [] => s
  | k :: ks =>
    let (x, s) := ({ s with recd := { s.recd with marks := ks } } : State).resamples k.t 7
    s.recClock 0 0 x k

/-- MTR_RESAMPLE (R202, R262). -/
def execMtrResample (stream : Bool) (s : State) : Out := .next (if stream then s.recStream else s.mtrStream)

/-! ### Samples (R282, R285) -/

/-- The words of a sample, channel by channel. -/
def State.recWords (s : State) (u : RecUnit) : Nat → List Word × State
  | 0 => ([], s)
  | k + 1 =>
    let (ws, s) := s.recWords u k
    let (w, s) := s.chanSample (u.chan k) (u.accs.getD k {})
    (ws ++ [w], s)

/-- The sample that a unit takes now. -/
def State.recSampleNow (s : State) (n : Nat) : RecSample × State :=
  let u := s.recUnit n
  let (ws, s) := s.recWords u u.nch
  let inv := u.accs.any (·.invalid)
  ({ time := u.clkAt, words := ws, state := BitVec.ofNat 128 (s.recState u.evHeld + 2 ^ 127 * b2n inv), accs := u.accs
     wall := u.clkWall, sch := u.clkSch, meas := u.clkMeas
     pidx := if u.clk = 2 then (s.grp (u.f 1 1)).pidx else 0 }, s)

/-- FLAGS [2:0] of a Drawer (Table 12.2). -/
def State.recFlags (s : State) : Nat := b2n s.tim.valid + 2 * b2n s.ang.valid + 4 * b2n (s.ang.src = 3)

/-- The trigger sample: the first one whose clock event is at or after the trigger's edge, or at the angle that a cross-trigger
asks for (R284, R289). -/
def Capture.takes (c : Capture) (x : RecSample) : Bool :=
  decide (c.time ≤ x.time) && (match c.angle with
    | some a => x.sch == a || aheadMod (2 ^ 80) a x.sch
    | none => true)

/-- REC_SAMPLE (R282, R285): at every DIV-th event the sample enters the pre-trigger ring, or the Drawer in capture. -/
def execRecSample (n : Nat) (s : State) : Out :=
  .next (
    let u := s.recUnit n
    if !s.recLive n || s.recd.stopped || u.st = 0 || u.st = 4 || decide (u.raws < u.f 2 2) then s
    else
      let (x, s) := s.recSampleNow n
      let u := { u with accs := [], evHeld := 0, raws := 0 }
      match u.cap with
      | some c =>
        if u.post.length ≥ c.want then s.setRecUnit n u
        else if u.post.isEmpty && !c.takes x then s.setRecUnit n { u with pre := (x :: u.pre).take u.preLen }
        else if u.post.isEmpty then
          let c := { c with flags := s.recFlags, angSrc := s.ang.src }
          let s := s.setRecUnit n { u with cap := some c, post := [x] }
          if u.ringOut && !c.ring then s.trsSend 0x03 0 0 (angBytes x.sch ++ leBytes 1 n) else s
        else s.setRecUnit n { u with post := x :: u.post }
      | none => s.setRecUnit n { u with pre := (x :: u.pre).take u.preLen })

/-! ### Triggers (R284 to R286) -/

/-- The unit is armed: its dead time is known (R286). -/
def State.recArmed (s : State) (n : Nat) : State :=
  let u := s.recUnit n
  let dead := match u.deadFrom with
    | some t => (divOpen 62 (s.clk.t - t : Nat) 400).toNat
    | none => 0
  (s.setRecUnit n { u with st := 2, dead := dead, deadFrom := none }).maxReg (rREC_Un_DEADMAX n) dead

/-- A trigger of a unit: it starts a Drawer, counts as a retrigger, or falls in the dead time. A unit whose re-arming is due
counts as armed, and of two sources on one edge the lower kind and index is recorded (R298). -/
def State.recTrig (s : State) (n kind index : Nat) : State :=
  let s := if (s.recUnit n).st = 1 && decide ((s.recUnit n).pre.length ≥ (s.recUnit n).preLen) then s.recArmed n else s
  let u := s.recUnit n
  if s.recd.stopped then s
  else match u.st, u.cap with
    | 2, _ => s.setRecUnit n { u with
        st := 3, post := []
        cap := some { kind := kind, index := index, wall := s.wallNs / 4 * 4, time := s.clk.t, want := u.postLen
                      partialPre := decide (u.pre.length < u.preLen) } }
    | 3, some c =>
      if c.time = s.clk.t then
        let lower := decide (kind < c.kind) || (kind == c.kind && decide (index < c.index))
        s.setRecUnit n { u with cap := some (if lower then { c with kind := kind, index := index } else c) }
      else
      let c := { c with retrig := min 0xFFFF (c.retrig + 1) }
      let c := if u.extend then { c with want := min u.maxPost (u.post.length + u.postLen), extended := true } else c
      s.setRecUnit n { u with cap := some c }
    | 0, _ => s
    | _, _ =>
      let s := s.setRecUnit n { u with missed := min 0xFFFF (u.missed + 1) }
      (s.inc (rREC_Un_CNT_MISS n)).setBit rREC_STAT 1

/-- A pattern unit's equality, inverted where INV says so (R284). -/
def State.patternHolds (s : State) (u : RecUnit) (i : Nat) : Bool :=
  let o := 0x20 + 36 * i
  let eq := s.recState u.evHeld &&& u.f o 16 == u.f (o + 16) 16
  if bit (u.f (o + 32) 4) 0 then !eq else eq

/-- The pattern units of a unit against the live state word (R284): one fires where its condition begins to hold. -/
def State.recPatterns (s : State) (n : Nat) : State :=
  let u := s.recUnit n
  let on := (List.range 4).filter fun i => u.trigSel (16 + i) && s.patternHolds u i
  if u.st = 0 then s
  else s.setRecUnit n { u with
    hits := on.foldl (fun h i => if bit u.patWas i then h else h ||| 2 ^ (16 + i)) u.hits
    patWas := (on.map fun i => 2 ^ i).sum }

/-- The kind and index of a bit of TRIGSEL. -/
def trigOf (b : Nat) : Nat × Nat := if b < 16 then (0, b) else if b < 20 then (1, b - 16) else (2, b - 20)

/-- A source that has fired triggers its unit. -/
def State.recFire (s : State) (n b : Nat) : State :=
  let u := s.recUnit n
  if bit u.hits b then (s.setRecUnit n { u with hits := u.hits - 2 ^ b }).recTrig n (trigOf b).1 (trigOf b).2 else s

/-- On every SYSCLK edge the patterns are evaluated, and every source that has fired triggers (R284). -/
def State.recEdge (s : State) : State :=
  s.each ((List.range 4).filter s.recLive) fun s n => (s.recPatterns n).each (List.range 24) fun s b => s.recFire n b

/-- REC_TRIGGER (R284): a source of a unit fires: 0 an event input that has been pulsed, 1 a pattern unit whose condition
begins to hold, 2 an analog unit that its raw value fired, 3 a comparator with DEST[0] that is active. The other kinds have
commands of their own. -/
def execRecTrigger (n kind index : Nat) (s : State) : Out :=
  .next (
    if !s.recLive n then s
    else match kind with
      | 0 => if index < 16 then s.recFire n index else s
      | 1 => if index < 4 then (s.recPatterns n).recFire n (16 + index) else s
      | 2 => if index < 4 then s.recFire n (20 + index) else s
      | 3 => if (s.recUnit n).trigSel 24 && bit (s.cmpField index 6 1) 0 && s.srcActive index && decide (index < 18) then
          s.recTrig n 3 index else s
      | _ => s)

/-- The EVT action REC_TRIG: the pulse on an event input is held until each unit's next sample (Table 12.1), and triggers the
units that select it. -/
def State.recEvent (s : State) (i : Nat) : State :=
  s.each ((List.range 4).filter s.recLive) fun s n =>
    let u := s.recUnit n
    s.setRecUnit n { u with
      evHeld := u.evHeld ||| 2 ^ i, hits := if u.trigSel i && decide (i < 16) then u.hits ||| 2 ^ i else u.hits }

/-- The units of a mask. -/
def State.recMask (s : State) (mask : BitVec 4) : List Nat := (List.range s.nUnit).filter fun n => mask.getLsbD n

/-- REC_CMD_TRIGGER (R284). -/
def execRecCmdTrigger (mask : BitVec 4) (s : State) : Out :=
  .next (s.each ((List.range 4).filter fun n => mask.getLsbD n && s.recLive n) fun s n =>
    if (s.recUnit n).trigSel 25 then s.recTrig n 4 0 else s)

/-- REC_ARM (R285). -/
def execRecArm (mask : BitVec 4) (s : State) : Out :=
  .next (s.each (s.recMask mask) fun s n =>
    let u := s.recUnit n
    if u.st ≠ 0 then s
    else match u.freeBufs with
      | [] => s.setRecUnit n { u with st := 4 }
      | b :: _ => (s.setRecUnit n { u with buf := b, pre := [], accs := [] }).recArmed n)

/-- REC_DISARM: the unit samples nothing, and a Drawer in capture is not sealed (log 18). -/
def execRecDisarm (mask : BitVec 4) (s : State) : Out :=
  .next (s.each ((List.range 4).filter fun n => mask.getLsbD n && s.recLive n) fun s n =>
    s.setRecUnit n { s.recUnit n with st := 0, pre := [], post := [], cap := none, deadFrom := none })

/-- REC_REARM (R285): a refilling unit holds PRE samples. -/
def execRecRearm (n : Nat) (s : State) : Out :=
  .next (
    let u := s.recUnit n
    if u.st = 1 && decide (u.pre.length ≥ u.preLen) && !s.recd.stopped then s.recArmed n else s)

/-- XTRIG_FRAME (R289): armed units with RING_IN take the sample at the sender's angle as their trigger sample. -/
def State.recRing (s : State) (n origin angle : Nat) : State :=
  let u := s.recUnit n
  if !u.ringIn || !u.trigSel 26 || decide (u.clk > 1) then s
  else if u.st ≠ 2 then s.recTrig n 5 0
  else
    let after := u.pre.filter fun x => x.sch == angle || aheadMod (2 ^ 80) angle x.sch
    let late := after.length == u.pre.length && !u.pre.isEmpty && (u.pre.getLast?.map (·.sch)) != some angle
    let s := s.recTrig n 5 0
    match (s.recUnit n).cap with
    | none => s
    | some c =>
      let c := { c with
        ring := true, late := late, origin := origin, flags := s.recFlags, angSrc := s.ang.src
        time := if late then c.time else 0, angle := if late then none else some angle }
      s.setRecUnit n (if late then { s.recUnit n with cap := some c }
        else { s.recUnit n with cap := some c, post := after, pre := u.pre.drop after.length })

def execXtrigFrame (f : TrsFrame) (s : State) : Out :=
  .next (
    if f.type = 3 && f.src != s.trs.rank && !s.recd.stopped then
      s.each (List.range s.nUnit) fun s n => s.recRing n f.src (field f.payload 0 4 + 2 ^ 32 * field f.payload 4 6)
    else s)

/-! ### Drawers (R285 to R288, Table 12.2) -/

/-- The trailer of a channel: minimum, maximum, mean, RMS (R283). -/
def State.recTrailer (s : State) (c : Nat) (a : ChanAcc) : List Byte × State :=
  let (ws, s) := if a.n = 0 || a.bad then s.takeFrees 4
    else ([chanWord c a.low 1, chanWord c a.high 1, chanWord c a.sum a.n, chanRms c a], s)
  (ws.flatMap fun w => leBytes 4 w.toNat, s)

def State.recTrailers (s : State) (u : RecUnit) (xs : List RecSample) : Nat → List Byte × State
  | 0 => ([], s)
  | k + 1 =>
    let (bs, s) := s.recTrailers u xs k
    let a : ChanAcc := xs.foldl (fun a x => a.join (x.accs.getD k {})) {}
    let (b, s) := s.recTrailer (u.chan k) a
    (bs ++ b, s)

/-- The 128-byte header of a Drawer; `z` is the sample at index 0. -/
def State.recHeader (s : State) (n : Nat) (c : Capture) (z : RecSample) (trunc : Bool) (idx stamps : Nat) : List Byte :=
  let u := s.recUnit n
  let flags := c.flags + 8 * b2n c.partialPre + 16 * b2n trunc + 32 * b2n c.extended + 64 * b2n c.ring + 128 * b2n c.late
  let at' := fun t => leBytes 8 (t / 1000000000) ++ leBytes 4 (t % 1000000000)
  leBytes 1 n ++ leBytes 1 flags ++ leBytes 1 u.nch ++ leBytes 1 u.clk ++ leBytes 4 idx ++ leBytes 4 u.pre.length ++
    leBytes 4 u.post.length ++ leBytes 4 (c.kind + 256 * c.index) ++ leBytes 2 c.retrig ++ leBytes 2 u.missed ++
    at' c.wall ++ leBytes 4 (min 0xFFFFFFFF u.dead) ++ angBytes z.sch ++ leBytes 6 0 ++ angBytes z.meas ++ leBytes 6 0 ++
    at' z.wall ++ leBytes 1 c.angSrc ++ leBytes 1 s.trs.rank ++ leBytes 1 s.tim.domain ++ leBytes 1 c.origin ++
    leBytes 4 z.pidx ++ leBytes 2 (recSampleLen u.nch) ++ leBytes 2 stamps ++ leBytes 32 0

/-- The stamp table: the wall time of every 64th sample from the first on, from that of index 0. -/
def stampTable (xs : List RecSample) (z : RecSample) : List Byte :=
  (xs.zipIdx.filter fun p => p.2 % 64 == 0).flatMap fun p =>
    leBytes 8 (unsigned 64 ((p.1.wall : Int) - (z.wall : Int)))

/-- The NVM words SEALED and STORED of a unit (R287). -/
def sealedAddr (n : Nat) : Nat := nvmBase + 0x2000 + 8 * n

/-- The unit moves to the next free buffer, or waits for one (R285). -/
def State.recNextBuf (s : State) (n : Nat) : State :=
  let u := s.recUnit n
  match u.freeBufs with
  | [] => s.setRecUnit n { u with st := 4 }
  | b :: _ =>
    let s := s.setRecUnit n { u with st := 1, buf := b }
    if u.immediate then s.recArmed n else s

/-- Seals the Drawer in capture (R285, R287). -/
def State.recSeal (s : State) (n : Nat) (trunc : Bool) : State :=
  let u := s.recUnit n
  match u.cap with
  | none => s
  | some c =>
    let z := u.post.getLast?.getD (s.recSampleNow n).1
    let xs := (u.post ++ u.pre).reverse
    let idx := (u.capIdx + 1) % 2 ^ 32
    let stamps := if u.clk < 3 then stampTable xs z else []
    let head := s.recHeader n c z trunc idx (stamps.length / 8)
    let (trail, s) := s.recTrailers u xs u.nch
    let body := xs.flatMap fun x => (x.words.flatMap fun w => leBytes 4 w.toNat) ++ leBytes 16 x.state.toNat
    let bytes := head ++ body ++ stamps ++ trail
    let addr := u.base + u.buf * recBufLen u.entry
    let s := s.setBytes addr bytes
    let s := s.setMemWord (sealedAddr n) (word idx)
    let s := (s.setBit rREC_STAT 0).putBit rREC_STAT 4 (trunc || s.regBit rREC_STAT 4)
    let d : Drawer := { unit := n, buf := u.buf, addr := addr, len := bytes.length, capIdx := idx }
    let s := { s with shf := { s.shf with drawers := s.shf.drawers ++ [d] } }
    (s.setRecUnit n { u with
      cap := none, pre := [], post := [], accs := [], capIdx := idx, missed := 0, full := u.full ||| 2 ^ u.buf
      deadFrom := some s.clk.t }).recNextBuf n

/-- The unit's new entry takes effect: its ring restarts, which counts as dead time (R297). -/
def State.recReload (s : State) (n : Nat) (p : List Byte) (base : Nat) : State :=
  let u := s.recUnit n
  let new := recEntry p n
  if u.entry = new && u.base = base then s
  else
    let u := { u with
      entry := new, base := base, pre := [], post := [], accs := [], cap := none, buf := 0, raws := 0, hits := 0, patWas := 0
      anaOff := 0, anaPrev := [] }
    if u.st = 0 then s.setRecUnit n u
    else (s.setRecUnit n { u with st := 1, deadFrom := some (u.deadFrom.getD s.clk.t) }).recNextBuf n

/-- Where a unit's buffers begin: the units in order from REC_BASE. -/
def recUnitBase (p : List Byte) (base n : Nat) : Nat :=
  base + ((List.range n).map fun k => field (recEntry p k) 6 1 * recBufLen (recEntry p k)).sum

/-- RECORDER as the section in force gives it: a unit in capture finishes its Drawer first. -/
def State.recCommitUnit (s : State) (n : Nat) : State :=
  if n < s.nUnit then
    (if (s.recUnit n).cap.isSome then s else s.recReload n (s.sec secRecorder) (recUnitBase (s.sec secRecorder) s.recBase n))
  else if (s.recUnit n).cap.isSome then s
  else s.setRecUnit n { s.recUnit n with st := 0, entry := [], pre := [], post := [] }

def State.recCommit (s : State) : State := s.each (List.range 4) State.recCommitUnit

/-- DRAWER_SEAL (R285): the last post-trigger sample is in. -/
def execDrawerSeal (n : Nat) (s : State) : Out :=
  .next (
    let u := s.recUnit n
    match u.cap with
    | some c => if u.post.length ≥ c.want then (s.recSeal n false).recCommitUnit n else s
    | none => s)

/-- DRAWER_STORED (R285, R287): a Drawer of the unit whose Shelf write has completed frees its buffer. -/
def execDrawerStored (n : Nat) (s : State) : Out :=
  .next (
    match s.recd.done.find? fun d => d.unit == n with
    | none => s
    | some d =>
      let s := s.setMemWord (sealedAddr n + 4) (word d.capIdx)
      let s := { s with recd := { s.recd with done := s.recd.done.erase d } }
      let u := s.recUnit n
      let s := s.setRecUnit n { u with stored := d.capIdx, full := u.full &&& (2 ^ 64 - 1 - 2 ^ d.buf) }
      if u.st = 4 && !s.recd.stopped then s.recNextBuf n else s)

/-- The power-fail warning (R287): capturing units seal, and sampling stops; a trigger on its edge starts no Drawer (R298). -/
def State.recPowerFail (s : State) : State :=
  let s := s.each (List.range 4) fun s n =>
    let u := s.recUnit n
    match u.cap with
    | none => s
    | some c => if c.time = s.clk.t && u.post.isEmpty then s.setRecUnit n { u with st := 2, cap := none } else s.recSeal n true
  { s with recd := { s.recd with stopped := true } }

/-- The warning is withdrawn: the units refill and re-arm. -/
def State.recResume (s : State) : State :=
  let s := { s with recd := { s.recd with stopped := false } }
  s.each (List.range 4) fun s n =>
    let u := s.recUnit n
    if u.st = 0 || u.st = 4 then s
    else s.setRecUnit n { u with st := 1, pre := [], accs := [], raws := 0, hits := 0, deadFrom := some (u.deadFrom.getD s.clk.t) }

/-- At boot: the capture index goes on from SEALED, and the Drawers that never reached the Shelf are reported (R287). -/
def State.recBoot (s : State) : State :=
  let s := s.each (List.range 4) fun s n =>
    s.setRecUnit n { s.recUnit n with
      capIdx := (s.memWord (sealedAddr n)).toNat, stored := (s.memWord (sealedAddr n + 4)).toNat }
  let lost := (List.range 4).map fun n => (s.memWord (sealedAddr n) - s.memWord (sealedAddr n + 4)).toNat
  let s := { s with recd := { s.recd with lost := lost } }
  if lost.any (· != 0) then s.setBit rREC_STAT 3 else s

/-! ### Registers (Tables 12.8, 12.9) -/

def State.recStat (s : State) : Nat := 4 * b2n ((List.range 4).any fun n => (s.recUnit n).st == 4)

/-- The words of the REC window that follow from the state. -/
def State.recWord (s : State) (off : Nat) : Option Word :=
  if off = 8 then
    some (word (leNat ((List.range 4).map fun n => BitVec.ofNat 8 (min 255 (s.recd.lost.getD n 0)))))
  else if 0x40 ≤ off ∧ off < 0xC0 then
    let u := s.recUnit ((off - 0x40) / 0x20)
    match (off - 0x40) % 0x20 with
    | 0 => some (word (u.st + 16 * (min 15 u.freeBufs.length)))
    | 4 => some (word u.capIdx)
    | 8 => some (word u.stored)
    | 12 => some (word (min 0xFFFFFFFF u.dead))
    | _ => none
  else none

end Sys2Proof.Machine
end

