-- ==== Sys2Proof/Machine/Shelf.lean ====
section
/-!
DEFINITION. The Shelf (R290 to R295): the streams of POOL and their sectors, write budgets, record and page writes, bad
sectors and spares, wear levelling, LOC and APPEND.
-/

namespace Sys2Proof.Machine

/-! ### Streams and sectors (Tables 12.3, 12.5) -/

def sectorLen : Nat := 65536
def ShfStream.zero : Nat → ShfStream := fun _ => {}
def State.setShf (s : State) (x : Shf) : State := { s with shf := x }
def State.shfStream (s : State) (i : Nat) : ShfStream := SMap.get ShfStream.zero s.shf.stream i
def State.setShfStream (s : State) (i : Nat) (x : ShfStream) : State :=
  s.setShf { s.shf with stream := SMap.set ShfStream.zero s.shf.stream i x }

/-- Sectors of the device; POOL runs from 16 up to SPARE, the top S/32 (Table 12.3). -/
def Shf.sectors (x : Shf) : Nat := x.mb * 16
def Shf.spares (x : Shf) : Nat := x.sectors / 32
def Shf.pool (x : Shf) : List Nat := (List.range (x.sectors - x.spares - 16)).map (· + 16)
def Shf.sparesLeft (x : Shf) : Nat := x.spares - x.sparesUsed
def Shf.eraseCount (x : Shf) (k : Nat) : Nat := SMap.get (fun _ => 0) x.erase k

/-- Fields of a stream's entry in RECORDER. -/
def State.streamField (s : State) (i off n : Nat) : Nat := field (s.sec secRecorder) (0x10 + 16 * i + off) n
def State.quota (s : State) (i : Nat) : Nat := s.streamField i 0 2 - (s.shfStream i).shrink

/-- The default budgets (Table 12.4), and those in force: a 0 selects the default. -/
def defaultRate (i : Nat) : Nat := if i = 1 then 3496 else if i = 2 then 146 else if i = 3 then 64 else 256
def defaultDepth (i : Nat) : Nat := if i = 1 then 4194304 else if i = 2 then 262144 else 65536
def State.rate (s : State) (i : Nat) : Nat := if s.streamField i 4 4 = 0 then defaultRate i else s.streamField i 4 4
def State.depth (s : State) (i : Nat) : Nat := if s.streamField i 8 4 = 0 then defaultDepth i else s.streamField i 8 4

/-- What a bucket lacks now, in bytes × 400,000,000: it refills at RATE (R294). -/
def State.lackNow (s : State) (i : Nat) : Nat := (s.shfStream i).lack - s.rate i * (s.clk.t - (s.shfStream i).lackAt)

/-- The bucket of a stream holds a length. -/
def State.bucketHolds (s : State) (i len : Nat) : Bool := decide (s.lackNow i + len * 400000000 ≤ s.depth i * 400000000)

/-- Sectors of POOL that no stream holds. -/
def State.freeSectors (s : State) : List Nat :=
  s.shf.pool.filter fun k => !s.shf.retired.contains k && !((List.range 5).any fun i => (s.shfStream i).chain.contains k)

/-- Which of several equal sectors is taken is the implementation's choice (log 19). -/
def pickFrom (site : Nat) (l : List Nat) : Option Nat := l[Config.pick site l.length % max 1 l.length]?

/-- A free sector with the lowest erase count (R292). -/
def State.newSector (s : State) : Option Nat :=
  let fs := s.freeSectors
  match (fs.map s.shf.eraseCount).min? with
  | none => none
  | some m => pickFrom 1 (fs.filter fun k => s.shf.eraseCount k == m)

/-! ### The flash -/

def sectorAddr (k : Nat) : Nat := shelfBase + sectorLen * k

/-- An erased range reads as 0xFF. -/
def State.eraseRange (s : State) (a n : Nat) : State :=
  { s with mem := s.mem.filter fun c => decide (c.1 < a) || decide (a + n ≤ c.1) }

/-- The listed bytes of a range moved to another address. -/
def State.copyRange (s : State) (a b n : Nat) : State :=
  (s.mem.filter fun c => decide (a ≤ c.1) && decide (c.1 < a + n)).foldl
    (fun s c => s.setByte (b + (c.1 - a)) c.2) (s.eraseRange b n)

/-- The 64-byte header of a sector that has just been taken: no next sector and no record yet. -/
def State.sectorHeader (s : State) (i k : Nat) : List Byte :=
  let h := leBytes 1 i ++ leBytes 3 0 ++ leBytes 4 (s.shfStream i).sectorSeq ++ leBytes 4 (s.shf.eraseCount k) ++
    leBytes 4 0xFFFFFFFF ++ leBytes 4 0xFFFFFFFF ++ leBytes 40 0
  h ++ leBytes 4 (crc32c h)

/-- A field of a sector's header takes its value, and the CRC over bytes 0 to 59 follows (log 47). -/
def State.headerField (s : State) (k off v : Nat) : State :=
  let s := s.setBytes (sectorAddr k + off) (leBytes 4 v)
  s.setBytes (sectorAddr k + 60) (leBytes 4 (crc32c (s.bytes (sectorAddr k) 60)))

/-- Drops the records that have a part in a sector, and counts them (R292). -/
def State.dropRecords (s : State) (k : Nat) : State :=
  let gone := s.shf.records.filter fun r => r.sectors.contains k
  (s.setShf { s.shf with records := s.shf.records.filter fun r => !r.sectors.contains k }).count rSHF_CNT_DROP gone.length

/-- A sector enters the chain of a stream: its header is written and the one before it is linked to it. -/
def State.linkSector (s : State) (i k : Nat) : State :=
  let x := s.shfStream i
  let s := s.setBytes (sectorAddr k) (s.sectorHeader i k)
  let s := match x.chain.getLast? with
    | some l => s.headerField l 12 (sectorLen * k)
    | none => s
  s.setShfStream i { x with chain := x.chain ++ [k], next := 64, sectorSeq := (x.sectorSeq + 1) % 2 ^ 32 }

/-! ### Records (R291) -/

/-- The bytes of a record: the 32-byte header and the payload. -/
def State.shfBytes (s : State) (i seq : Nat) (payload : List Byte) : List Byte :=
  let h := leBytes 1 0x53 ++ leBytes 1 0x48 ++ leBytes 1 i ++ leBytes 1 0 ++ leBytes 4 seq ++ leBytes 4 payload.length ++
    leBytes 8 (s.wallNs / 1000000000) ++ leBytes 4 (s.wallNs % 1000000000)
  h ++ leBytes 4 (crc32c h) ++ leBytes 4 (crc32c payload) ++ payload

/-- The first waiting record of a stream. -/
def State.waiting (s : State) (i : Nat) : Option (List Byte × Option Drawer) :=
  match i with
  | 1 => s.shf.drawers.head?.map fun d => (s.bytes d.addr d.len, some d)
  | 2 => s.shf.life.head?.map fun b => (b ++ s.bytes (sramBase + field (s.sec secLifetime) 4 4) 131072, none)
  | 3 => s.evq.head?.map fun b => (b, none)
  | 4 => s.shf.host.head?.map fun b => (s.bytes b.1 b.2, none)
  | _ => none

/-- The stream that SHF serves next: by priority, the first whose bucket holds its waiting record (R294). -/
def State.nextStream (s : State) : Option Nat :=
  [3, 2, 1, 4].find? fun i =>
    match s.waiting i with
    | some w => s.bucketHolds i (32 + w.1.length)
    | none => false

/-- SHF may start new work: a supported device, RECORDER in force, no pause and no power-fail warning. -/
def State.shfReady (s : State) : Bool :=
  !s.shf.unsupported && s.hasSec secRecorder && !s.thm.paused && !s.shf.stopped

/-- The job needs room in its stream: the next sector is taken, or the oldest one is reclaimed at QUOTA, and erased. -/
def State.shfTake (s : State) (i : Nat) : State :=
  let x := s.shfStream i
  if s.quota i ≠ 0 && decide (x.chain.length ≥ s.quota i) then
    match x.chain with
    | k :: rest =>
      let s := s.dropRecords k
      let s := s.setShfStream i { x with chain := rest }
      s.setShf { s.shf with erasing := some k }
    | [] => s
  else
    match s.newSector with
    | some k => s.setShf { s.shf with erasing := some k }
    | none => s

/-- Goes on with the job where work may start: a sector with room is programmed, else one is taken. -/
def State.shfGoOn (s : State) : State :=
  match s.shf.job with
  | none => s
  | some j =>
    if !s.shfReady || s.shf.erasing.isSome then s
    else
      let x := s.shfStream j.stream
      if x.chain.isEmpty || decide (x.next ≥ sectorLen) then s.shfTake j.stream
      else s.setShf { s.shf with job := some { j with busy := true } }

/-- SHF_RECORD_BEGIN (R294): the whole length is deducted and the write begins. -/
def execShfRecordBegin (s : State) : Out :=
  .next (
    if !s.shfReady || s.shf.job.isSome || s.shf.erasing.isSome then s
    else
      match s.nextStream with
      | none => s
      | some i =>
        match s.waiting i with
        | none => s
        | some w =>
          let x := s.shfStream i
          let seq := (x.seq + 1) % 2 ^ 32
          let bytes := s.shfBytes i seq w.1
          let s := s.setShfStream i { x with
            seq := seq, lack := s.lackNow i + bytes.length * 400000000, lackAt := s.clk.t }
          let s := match i with
            | 1 => s.setShf { s.shf with drawers := s.shf.drawers.tail }
            | 2 => s.setShf { s.shf with life := s.shf.life.tail }
            | 3 => { s with evq := s.evq.tail }
            | _ => s.setShf { s.shf with host := s.shf.host.tail }
          let job : ShfJob :=
            { stream := i, seq := seq, left := bytes, start := 0, sectors := [], busy := false, drawer := w.2 }
          (s.setShf { s.shf with job := some job }).shfGoOn)

/-- The bytes of a record from where it begins, in the sectors that hold it. -/
def State.recordBytes (s : State) (r : ShfRecord) (n : Nat) : List Byte :=
  let at0 := r.start % sectorLen
  let first := s.bytes (shelfBase + r.start) (min n (sectorLen - at0))
  (r.sectors.drop 1).foldl (fun b k => b ++ s.bytes (sectorAddr k + 64) (min (n - b.length) (sectorLen - 64))) first

/-! ### Page programs, erases and bad sectors (R292, R293) -/

/-- A bad sector of POOL is remapped to the next spare, or retired where none is left (R293). -/
def State.badSector (s : State) (k : Nat) : State :=
  let s := s.inc rSHF_CNT_BAD
  if s.shf.sparesLeft > 0 then
    let s := s.setShf { s.shf with sparesUsed := s.shf.sparesUsed + 1, remapped := k :: s.shf.remapped }
    let s := (s.setBit rSHF_STAT 1).spareUsed 7 k (sectorLen * k) s.shf.sparesUsed s.shf.sparesLeft
    if s.shf.sparesLeft = 0 then s.spareExhausted 7 7 k (sectorLen * k) s.shf.sparesUsed else s
  else
    let s := s.setShf { s.shf with retired := k :: s.shf.retired }
    let s := (s.setBit rSHF_STAT 4).spareEntry 7 3 k (sectorLen * k) s.shf.sparesUsed 0
    -- the stream with the largest QUOTA gives up a sector
    let big := ((List.range 4).map (· + 1)).foldl (fun b i => if s.quota i > s.quota b then i else b) 1
    s.setShfStream big { s.shfStream big with shrink := (s.shfStream big).shrink + 1 }

/-- The record is whole on the Shelf. -/
def State.shfFinish (s : State) (j : ShfJob) : State :=
  let rec1 : ShfRecord := { stream := j.stream, seq := j.seq, start := j.start, sectors := j.sectors }
  let s := s.setShf { s.shf with job := none, records := s.shf.records ++ [rec1] }
  let s := match j.drawer with
    | some d => { s with recd := { s.recd with done := s.recd.done ++ [d] } }
    | none => s
  if j.stream = 4 then s.setBit rSHF_STAT 8 else s

/-- A page program has succeeded: its bytes stand, and the job goes on or is finished. -/
def State.pageWritten (s : State) (j : ShfJob) : State :=
  let x := s.shfStream j.stream
  match x.chain.getLast? with
  | none => s
  | some k =>
    let n := min (256 - x.next % 256) j.left.length
    let off := sectorLen * k + x.next
    let s := s.setBytes (shelfBase + off) (j.left.take n)
    let s := if j.sectors.isEmpty && decide (leNat (s.bytes (sectorAddr k + 16) 4) = 0xFFFFFFFF) then s.headerField k 16 off else s
    let s := s.setShfStream j.stream { x with next := x.next + n }
    let j := { j with
      left := j.left.drop n, busy := false, start := if j.sectors.isEmpty then off else j.start
      sectors := if j.sectors.contains k then j.sectors else j.sectors ++ [k] }
    if j.left.isEmpty then s.shfFinish j else (s.setShf { s.shf with job := some j }).shfGoOn

/-- SHF_PAGE_DONE (R293): a page program of the job, or of a host write to BOOT, completes and is read back. -/
def execShfPageDone (boot ok : Bool) (s : State) : Out :=
  .next (
    if boot then (if ok then s else s.setBit rSHF_STAT 5)
    else
      match s.shf.job with
      | none => s
      | some j =>
        if !j.busy then s
        else if ok then s.pageWritten j
        else
          match (s.shfStream j.stream).chain.getLast? with
          | none => s
          | some k =>
            -- with a spare the page is programmed again there; without one it goes on in the stream's next sector
            let spare := decide (s.shf.sparesLeft > 0)
            let s := (s.setShf { s.shf with job := some { j with busy := false } }).badSector k
            (if spare then s else s.setShfStream j.stream { s.shfStream j.stream with next := sectorLen }).shfGoOn)

/-- SHF_ERASE_DONE (R292): the sector taken for the job is erased and enters its stream's chain. -/
def execShfEraseDone (ok : Bool) (s : State) : Out :=
  .next (
    match s.shf.erasing with
    | none => s
    | some k =>
      let s := s.setShf { s.shf with erasing := none }
      let spare := decide (s.shf.sparesLeft > 0)
      let s := if ok then s else s.badSector k
      let s := if ok || spare then
          let s := (s.eraseRange (sectorAddr k) sectorLen).setShf { s.shf with
            erase := SMap.set (fun _ => 0) s.shf.erase k (s.shf.eraseCount k + 1) }
          match s.shf.job with
          | some j => s.linkSector j.stream k
          | none => s
        else s
      s.shfGoOn)

/-- A record after sector `c` moved to `f`. -/
def ShfRecord.moved (c f : Nat) (r : ShfRecord) : ShfRecord :=
  { r with
    start := if r.start / sectorLen = c then sectorLen * f + r.start % sectorLen else r.start
    sectors := r.sectors.map fun k => if k = c then f else k }

/-- WEAR_LEVEL_MOVE (R292): with erase counts more than 2,000 apart, the coldest sector's contents move to a free
sector; every stream's work comes before it (R294). -/
def execWearLevelMove (s : State) : Out :=
  .next (
    let ks := s.shf.pool.filter fun k => !s.shf.retired.contains k
    let lo := (ks.map s.shf.eraseCount).min?.getD 0
    let hi := (ks.map s.shf.eraseCount).max?.getD 0
    let cold := pickFrom 2 (ks.filter fun k => s.shf.eraseCount k == lo)
    if !s.shfReady || decide (hi - lo ≤ 2000) || s.shf.job.isSome || s.nextStream.isSome then s
    else
      match cold, pickFrom 3 (s.freeSectors.filter fun k => some k != cold) with
      | some c, some f =>
        let s := (s.copyRange (sectorAddr c) (sectorAddr f) sectorLen).setShf { s.shf with
          erase := SMap.set (fun _ => 0) s.shf.erase f (s.shf.eraseCount f + 1)
          records := s.shf.records.map (ShfRecord.moved c f) }
        s.each (List.range 5) fun s i =>
          let x := s.shfStream i
          if !x.chain.contains c then s
          else
            let s := s.headerField f 8 (s.shf.eraseCount f)
            let s := match x.chain[x.chain.idxOf c - 1]? with
              | some l => if l = c then s else s.headerField l 12 (sectorLen * f)
              | none => s
            s.setShfStream i { x with chain := x.chain.map fun k => if k = c then f else k }
      | _, _ => s)

/-! ### Commands of the host (R291) -/

/-- LOC. -/
def execLoc (stream : Nat) (s : State) : Out :=
  .next (
    let seq := (s.reg rSHF_LOC_REQ).toNat
    let res := match s.shf.records.find? fun r => r.stream == stream && r.seq == seq with
      | some r => word r.start
      | none => 0xFFFFFFFF
    (s.setShf { s.shf with locRes := res }).setBit rSHF_STAT 7)

/-- APPEND: a buffer of the host-visible partition is queued for the HOST stream. -/
def execAppend (s : State) : Out :=
  .next (
    let a := sramBase + bits (s.reg rSHF_APP_SRC).toNat 0 20
    let n := (s.reg rSHF_APP_LEN).toNat
    if decide (32 + n > s.depth 4) || !hostVisible s.partitions a n then s.setBit rSHF_STAT 9
    else s.setShf { s.shf with host := s.shf.host ++ [(a, n)] })

/-! ### What other units ask of SHF -/

/-- The power-fail warning: no new work (R294). A page program completes. An erase is abandoned: the sector has no valid
header then, its other bytes are open (log 47), and every sector is erased as it is taken, so this one again before it is
reused (R386). -/
def State.shfPowerFail (s : State) : State :=
  let s := s.setShf { s.shf with stopped := true }
  match s.shf.erasing with
  | none => s
  | some k =>
    let open1 := (List.range (sectorLen - 64)).map fun i => (Config.freeValue (s.free + i)).setWidth 8
    let s := (s.setShf { s.shf with erasing := none }).eraseRange (sectorAddr k) sectorLen
    { s.setBytes (sectorAddr k + 64) open1 with free := s.free + (sectorLen - 64) }

/-- The warning is withdrawn, or a pause ends: work goes on. -/
def State.shfResume (s : State) : State := (s.setShf { s.shf with stopped := false }).shfGoOn

/-- A LIFE record waits with its header; its matrices are read as SHF writes it (R398). -/
def State.shfLife (s : State) (payload : List Byte) : State := s.setShf { s.shf with life := s.shf.life ++ [payload] }

/-- A reduced QUOTA releases the oldest surplus sectors (R297). -/
def State.shfCommit (s : State) : State :=
  s.each (List.range 5) fun s i =>
    let x := s.shfStream i
    let n := if s.quota i = 0 then 0 else x.chain.length - s.quota i
    (x.chain.take n).foldl State.dropRecords (s.setShfStream i { x with chain := x.chain.drop n })

/-- A reset abandons the work in progress; the flash and its directory stay. -/
def State.shfReset (s : State) : State :=
  let s := s.setShf { s.shf with
    job := none, erasing := none, life := [], drawers := [], host := [], locRes := 0, stopped := false }
  s.each (List.range 5) fun s i => s.setShfStream i { s.shfStream i with lack := 0, lackAt := 0 }

/-! ### Registers (Tables 12.10, 12.11) -/

def State.shfStat (s : State) : Nat :=
  b2n s.shf.unsupported + 4 * b2n (decide (s.shf.sparesLeft < 4)) + 8 * b2n (decide (s.shf.sparesLeft = 0)) +
    64 * b2n s.thm.paused

/-- The words of the SHF window that follow from the state. -/
def State.shfWord (s : State) (off : Nat) : Option Word :=
  let counts := s.shf.pool.map s.shf.eraseCount
  match off with
  | 0x00C => some s.shf.locRes
  | 0x018 => some (word s.shf.mb)
  | 0x01C => some (word s.shf.sparesLeft)
  | 0x020 => some (word (counts.min?.getD 0))
  | 0x024 => some (word (counts.max?.getD 0))
  | 0x040 => some (Config.openReg rSHF_S0_SEQ s.clk.t)   -- when SHF writes DIR is open (log 47)
  | _ => if 0x40 ≤ off ∧ off ≤ 0x50 ∧ off % 4 = 0 then some (word (s.shfStream ((off - 0x40) / 4)).seq) else none

end Sys2Proof.Machine
end

