-- ==== Sys2Proof/Machine/Tim.lean ====
section
/-!
DEFINITION. The time unit (R299 to R310, R317, R318): the local clock, its sources and states, the PTP slots with their
best-master selection and peer delay, domain switches and holdover, and the time triggers.
-/

namespace Sys2Proof.Machine

/-! ### The NETWORK section, with its defaults (Table 13.7) -/

def State.net (s : State) (off n dflt : Nat) : Nat :=
  if s.hasSec secNetwork then field (s.sec secNetwork) off n else dflt

def State.netFlag (s : State) (n : Nat) : Bool := bit (s.net 0 2 0x11) n
def State.srcPref (s : State) : Nat := bits (s.net 0 2 0x11) 2 2
def State.slotCfg (s : State) (i : Nat) : Nat := if i = 0 then s.net 4 4 0x200 else s.net 8 4 0
def State.slotOn (s : State) (i : Nat) : Bool := bit (s.slotCfg i) 9
def State.slotDomain (s : State) (i : Nat) : Nat := bits (s.slotCfg i) 0 8
def State.slotMac (s : State) (i : Nat) : Nat := bits (s.slotCfg i) 8 1
def State.stepThr (s : State) : Nat := s.net 0x0C 4 1000
def State.lockThr (s : State) : Nat := s.net 0x10 4 100
def State.outlier (s : State) : Nat := s.net 0x14 4 10000
def State.phSlew (s : State) : Nat := s.net 0x18 4 1000
def State.servoBw (s : State) : Nat := s.net 0x1C 2 100
def State.revert (s : State) : Nat := s.net 0x1E 2 0
def State.precErr (s : State) : Nat := s.net 0x20 4 1000
def State.validErr (s : State) : Nat := s.net 0x24 4 1000000
def State.holdFerr (s : State) : Int := ratOf (word (s.net 0x28 4 0x41200000))
def State.holdAge (s : State) : Int := ratOf (word (s.net 0x2C 4 0))
def State.tcT0 (s : State) : Int := ratOf (word (s.net 0x30 4 0x41C80000))
def State.tcC1 (s : State) : Int := ratOf (word (s.net 0x34 4 0))
def State.tcC2 (s : State) : Int := ratOf (word (s.net 0x38 4 0))
def State.rxLat (s : State) (mac : Nat) : Nat := s.net (0x3C + 4 * mac) 2 0
def State.txLat (s : State) (mac : Nat) : Nat := s.net (0x3E + 4 * mac) 2 0
def State.macOn (s : State) (mac : Nat) : Bool := s.netFlag mac

/-- A MAC runs: it is on and the ETH PLL is locked (Table 16.3). -/
def State.macRuns (s : State) (mac : Nat) : Bool := s.macOn mac && s.clk.ethLock

/-- The address of a MAC, in transmission order: without NETWORK 02 and the low 40 bits of the die identifier. -/
def State.macAddr (s : State) (mac : Nat) : List Byte :=
  if s.hasSec secNetwork then slice (s.sec secNetwork) (0x44 + 6 * mac) 6
  else BitVec.ofNat 8 2 :: beBytes 5 (Config.dieId.toNat % 2 ^ 40)

/-! ### Accessors -/

def PtpSlot.zero : Nat → PtpSlot := fun _ => {}
def PeerDelay.zero : Nat → PeerDelay := fun _ => {}
def Mac.zero : Nat → Mac := fun _ => {}
def State.setTim (s : State) (x : Tim) : State := { s with tim := x }
def State.ptpSlot (s : State) (i : Nat) : PtpSlot := SMap.get PtpSlot.zero s.tim.slot i
def State.setPtpSlot (s : State) (i : Nat) (x : PtpSlot) : State :=
  s.setTim { s.tim with slot := SMap.set PtpSlot.zero s.tim.slot i x }
def State.peer (s : State) (m : Nat) : PeerDelay := SMap.get PeerDelay.zero s.tim.peer m
def State.setPeer (s : State) (m : Nat) (x : PeerDelay) : State :=
  s.setTim { s.tim with peer := SMap.set PeerDelay.zero s.tim.peer m x }
def State.macSt (s : State) (m : Nat) : Mac := SMap.get Mac.zero s.eth.mac m
def State.setMac (s : State) (m : Nat) (x : Mac) : State :=
  { s with eth := { s.eth with mac := SMap.set Mac.zero s.eth.mac m x } }

/-! ### The local clock (R299) -/

/-- The increment of one tick of 4 ns, in 2^-32 ns. -/
def tickInc (adj : Int) : Nat := (4 * 2 ^ 32 + divOpen 70 (4 * 2 ^ 32 * adj) 256000000000).toNat

/-- Wall time over some ticks of the 250 MHz time unit clock. -/
def State.timTicks (s : State) (n : Nat) : State :=
  if s.tim.live then s.setTim { s.tim with wall := (s.tim.wall + n * tickInc s.tim.adj) % (wallMod * 2 ^ 32) } else s

/-- ADJ limited to ±500 ppm. -/
def adjLimit (x : Int) : Int := clampInt (-128000000) 128000000 x

/-! ### Trust (R304, R310) -/

/-- The estimated error in ns × 2^150: the larger of LOCK_THR and the last offset, the ring's own error, or that of
HOLDOVER; none in FREE and ACQUIRE. -/
def State.timErr (s : State) : Option Nat :=
  let x := s.tim
  if x.st = 4 then
    some ((x.err0 : Nat) + 2 * s.holdFerr * x.holdS + s.holdAge * x.holdS ^ 2 + 10000000 * x.rcS * 2 ^ 150 : Int).toNat
  else if x.st = 2 ∨ x.st = 3 then
    if x.src = 2 then some (x.trsErr * 2 ^ 150)
    else some (max (s.lockThr * 2 ^ 150) (x.lastOff.natAbs * 2 ^ 134))
  else none

/-- Whether the estimated error is at or below a bound in ns. -/
def State.timWithin (s : State) (bound : Nat) : Bool :=
  match s.timErr with
  | some e => decide (e ≤ bound * 2 ^ 150)
  | none => false

/-- VALID and PRECISE as they follow from the state. -/
def State.timJudge (s : State) : State :=
  s.setTim { s.tim with valid := s.timWithin s.validErr, precise := s.timWithin s.precErr }

/-! ### Sources (R302, R308) -/

/-- A source has a qualified master. -/
def State.srcQualified (s : State) (k : Nat) : Bool :=
  if k = 2 then s.tim.trsOk else decide (k < 2) && s.slotOn k && !(s.ptpSlot k).fault && (s.ptpSlot k).best.isSome

/-- The last offset of a source, in 2^-16 ns. -/
def State.srcOffset (s : State) (k : Nat) : Int := if k = 2 then s.tim.trsOff else (s.ptpSlot k).offset

/-- The time of a trigger in ns. -/
def State.ttTime (s : State) (n : Nat) : Nat :=
  ((s.reg (rTIM_TTn_SEC_LO n)).toNat + 2 ^ 32 * (s.reg (rTIM_TTn_SEC_HI n)).toNat) * 1000000000 +
    (s.reg (rTIM_TTn_NS n)).toNat

/-- A step of wall time, in 2^-16 ns, marks the wall-time entries and the time triggers that it passes (R68, R317). -/
def State.wallStep (s : State) (delta : Int) : State :=
  let old := s.wallNs
  let s := s.setTim { s.tim with wall := (((s.tim.wall : Int) + delta * 2 ^ 16) % (wallMod * 2 ^ 32 : Nat)).toNat }
  let new := s.wallNs
  let s := s.each (List.range s.nEntries) fun s i =>
    let e := s.evtEntry i
    if s.entryTb i = 2 && e.armed && aheadMod wallMod old e.due && !aheadMod wallMod new e.due then
      s.setEvtEntry i { e with crossed := true }
    else s
  let passed := (List.range 4).filter fun n =>
    bit s.tim.ttArmed n && aheadMod wallMod old (s.ttTime n) && !aheadMod wallMod new (s.ttTime n)
  s.setTim { s.tim with ttCrossed := passed.foldl (fun a n => a ||| 2 ^ n) s.tim.ttCrossed }

/-- Gives ADJ its value; in LOCKED it enters the history of the last 64 s. -/
def State.setAdj (s : State) (adj : Int) : State :=
  let x := s.tim
  let a := adjLimit adj
  let hist := if x.st = 2 then
      let keep := x.hist.filter fun h => decide (h.1 + 64 * 400000000 ≥ s.clk.t)
      let rest := (x.hist.filter fun h => decide (h.1 + 64 * 400000000 < s.clk.t)).take 1
      (s.clk.t, a) :: (keep ++ rest)
    else x.hist
  s.setTim { x with adj := a, hist := hist }

/-- The mean of ADJ over the last 64 s in LOCKED (R309). -/
def State.adjMean (s : State) : Int :=
  let from' := s.clk.t - 64 * 400000000
  let acc := s.tim.hist.foldl (fun (a : Int × Nat × Nat) h =>
      let lo := max h.1 from'
      let d := a.2.2 - lo
      (a.1 + h.2 * d, a.2.1 + d, min a.2.2 lo)) (0, 0, s.clk.t)
  if acc.2.1 = 0 then s.tim.adj else divOpen 71 acc.1 acc.2.1

/-- The temperature bin of 8 °C, from −40 °C to +88 °C; a temperature outside uses none. -/
def tempBin (t : Int) : Option Nat :=
  if -40 * 256 ≤ t ∧ t < 88 * 256 then some ((t + 40 * 256) / 2048).toNat else none

def State.learned (s : State) (t : Int) : Option Int :=
  match tempBin t with
  | some b =>
    let x := SMap.get (fun _ => ((0 : Int), 0)) s.tim.bins b
    if x.2 ≥ 600 * 400000000 then some x.1 else none
  | none => none

/-- LEARN_OK: the current temperature bin is populated. -/
def State.learnOk (s : State) : Bool := (s.learned s.thm.tdie).isSome

/-- The polynomial of R309 at a temperature in 1/256 °C, in ppb × 2^(3 × 149 + 16). -/
def State.tempPoly (s : State) (t : Int) : Int :=
  let d := t * 2 ^ 141 - s.tcT0
  s.tcC1 * d * 2 ^ 165 + s.tcC2 * d * d * 2 ^ 16

/-- The temperature correction of R309, in 1/256 ppb. -/
def State.tempCorr (s : State) : Int :=
  match s.learned s.thm.tdie, s.learned s.tim.tEntry with
  | some a, some b => a - b
  | _, _ => divOpen 72 ((s.tempPoly s.thm.tdie - s.tempPoly s.tim.tEntry) * 256) (2 ^ 463)

/-- Learning while LOCKED: an exponential mean with a 1 h time constant in the bin of the die temperature (R309). -/
def State.timLearn (s : State) : State :=
  let x := s.tim
  let dt := s.clk.t - x.learnAt
  let s := s.setTim { x with learnAt := s.clk.t }
  match tempBin s.thm.tdie with
  | some b =>
    let y := SMap.get (fun _ => ((0 : Int), 0)) x.bins b
    let m := if y.2 = 0 then x.adj else Config.lowPass 360000000 (dt / 4000) y.1 x.adj
    s.setTim { s.tim with bins := SMap.set (fun _ => ((0 : Int), 0)) x.bins b (m, y.2 + dt) }
  | none => s

/-- Enters HOLDOVER (R309): ADJ holds its mean. In ACQUIRE there is no estimated error to start from: the value is open
(log 48). -/
def State.timHoldover (s : State) : State :=
  if s.tim.st = 0 ∨ s.tim.st = 4 then s
  else
    let err := s.timErr.getD (Config.freeValue s.free).toNat
    let s := if s.timErr.isNone then s.takeFree.2 else s
    let mean := s.adjMean
    let s := s.setTim { s.tim with
      st := 4, src := 3, err0 := err, base := mean, tEntry := s.thm.tdie, holdS := 0, rcS := 0, adj := adjLimit mean }
    (s.setBit rTIM_STAT 10).timJudge

/-- TIM_UTC takes the last Announce of the master in force (R318). -/
def State.takeUtc (s : State) (k : Nat) : State :=
  match (s.ptpSlot k).cands.find? fun c => some c.port == (s.ptpSlot k).best with
  | some c => if k < 2 then s.setTim { s.tim with utc := c.utc } else s
  | none => s

/-- Moves to another source without stepping (R308): the frequency term stays as it is, from HOLDOVER the frequency held,
and the phase term is clamped to ±100 ppb at once. -/
def State.timSwitch (s : State) (k : Nat) : State :=
  let dom := if k < 2 then s.slotDomain k else s.tim.domain
  let x := s.tim
  let f := if x.st = 4 then x.adj else x.freq
  let s := s.setTim { x with
    st := 3, src := k, good := 0, outRun := 0, lastOff := s.srcOffset k, freq := f, domain := dom
    adj := adjLimit (f + clampInt (-25600) 25600 (x.adj - f)) }
  let s := s.takeUtc k
  ((s.inc rTIM_CNT_SWITCH).setBit rTIM_STAT 8).timJudge

/-- The sources to turn to, the preferred one first. -/
def State.srcOrder (s : State) : List Nat := s.srcPref :: [0, 1, 2].filter fun k => k != s.srcPref

/-- The source in force is left (R308). -/
def State.timLeave (s : State) : State :=
  if s.tim.st = 0 then s
  else if s.tim.st = 1 then s.setTim { s.tim with st := 0, src := 3, adj := 0, freq := 0, good := 0 }
  else
    match s.srcOrder.find? fun k => k != s.tim.src && s.srcQualified k with
    | some k => if s.netFlag 4 && s.tim.st ≠ 3 then s.timSwitch k else s.timHoldover
    | none => s.timHoldover

/-! ### Offsets and the servo (R303, R307) -/

/-- One step of the servo; while SWITCHING only the phase term acts, clamped to ±100 ppb. -/
def State.servo (s : State) (off : Int) : State :=
  let x := s.tim
  let lim : Int := 256 * (if x.st = 3 then 100 else (s.phSlew : Int))
  let phase := clampInt (-lim) lim (Config.servoPhase s.servoBw off)
  let freq := if x.st = 3 then x.freq else Config.servoFreq s.servoBw x.freq off
  (s.setTim { x with freq := freq }).setAdj (freq + phase)

/-- A slot is faulty (R307): it counts as having lost its master. -/
def State.slotFault (s : State) (k : Nat) : State :=
  let s := if k < 2 then s.setPtpSlot k { s.ptpSlot k with fault := true } else s.setTim { s.tim with trsOk := false }
  ((s.inc rTIM_CNT_OUTLIER).setBit rTIM_STAT 9).timLeave

/-- An offset from the source in force. -/
def State.timFollow (s : State) (off : Int) : State :=
  let small := decide (off.natAbs ≤ s.lockThr * 65536)
  let x := s.tim
  let good := if small then x.good + 1 else 0
  if x.st = 2 then
    if off.natAbs > s.outlier * 65536 then
      let s := s.setTim { x with outRun := x.outRun + 1, lastOff := off }
      if s.tim.outRun ≥ 8 then s.slotFault x.src else s.timJudge
    else ((s.setTim { x with outRun := 0, lastOff := off }).servo off).timLearn.timJudge
  else
    let s := (s.setTim { x with good := good, lastOff := off }).servo off
    let s := if good ≥ 8 then
        s.setTim { s.tim with st := 2, outRun := 0, hist := [(s.clk.t, s.tim.adj)], learnAt := s.clk.t }
      else s
    s.timJudge

/-- An offset of a source (R303): the first one in FREE begins the acquisition, in HOLDOVER a switch. -/
def State.timOffset (s : State) (k : Nat) (off : Int) : State :=
  let s := if k = 2 then s.setTim { s.tim with trsOff := off } else s.setPtpSlot k { s.ptpSlot k with offset := off }
  let mine := decide (k = s.srcPref) || s.netFlag 4
  if s.tim.st = 0 then
    if !s.srcQualified k || !mine then s
    else
      let dom := if k < 2 then s.slotDomain k else s.tim.domain
      let s := (s.setTim { s.tim with st := 1, src := k, good := 0, outRun := 0, lastOff := off, domain := dom }).takeUtc k
      if off.natAbs > s.stepThr * 65536 then ((s.wallStep (-off)).inc rTIM_CNT_STEP).setBit rTIM_STAT 7
      else s.timFollow off
  else if s.tim.st = 4 then (if s.srcQualified k && mine then (s.timSwitch k).timFollow off else s)
  else if s.tim.src = k then s.timFollow off
  else s

/-! ### PTP messages (R301, R305 to R307) -/

/-- The 64-bit seconds that a 48-bit field stands for: the nearest to the local ones (R301). -/
def State.extendSec (s : State) (s48 : Nat) : Nat :=
  let here : Int := (s.wallNs / 1000000000 : Nat)
  let d := signed 48 (unsigned 48 ((s48 : Int) - here))
  ((here + d) % 2 ^ 64).toNat

/-- A PTP timestamp in ns. -/
def State.ptpTime (s : State) (b : List Byte) (off : Nat) : Nat :=
  s.extendSec (beNat (slice b off 6)) * 1000000000 + beNat (slice b (off + 6) 4)

/-- Fields of a PTP message (IEEE 1588-2019 clause 13; PRESUMED, log 21). -/
def ptpType (b : List Byte) : Nat := bits (beNat (slice b 0 1)) 0 4
def ptpVersionOk (b : List Byte) : Bool :=
  bits (beNat (slice b 1 1)) 0 4 == 2 && decide (bits (beNat (slice b 1 1)) 4 4 ≤ 1)
def ptpDomain (b : List Byte) : Nat := beNat (slice b 4 1)
def ptpFlags (b : List Byte) : Nat := beNat (slice b 6 2)
def ptpCorr (b : List Byte) : Int := signed 64 (beNat (slice b 8 8))
def ptpPort (b : List Byte) : Nat := beNat (slice b 20 10)
def ptpSeq (b : List Byte) : Nat := beNat (slice b 30 2)

/-- SYSCLK time (2.5 ns) of a message interval 2^n s. -/
def ptpInterval (b : List Byte) : Nat :=
  let n := signed 8 (beNat (slice b 33 1))
  if n ≥ 0 then 400000000 * 2 ^ n.toNat else 400000000 / 2 ^ (-n).toNat

/-- The message interval is one that R305 accepts, 1/16 s to 2 s. -/
def ptpIntervalOk (b : List Byte) : Bool :=
  let n := signed 8 (beNat (slice b 33 1))
  decide (-4 ≤ n) && decide (n ≤ 1)

/-- The mean path delay of a MAC, in 2^-16 ns (R305). -/
def State.meanPath (s : State) (mac : Nat) : Int :=
  let d := (s.peer mac).delays
  if d.isEmpty then 0 else divOpen 73 d.sum (d.length : Nat)

/-- The better of two rankings: the first place in which they differ decides, the smaller value better. -/
def rankLess : List Nat → List Nat → Bool
  | a :: as, b :: bs => decide (a < b) || (decide (a = b) && rankLess as bs)
  | _, _ => false

/-- The dataset comparison (R306): by the grandmaster's ranking, then by the steps removed, then by the sender. -/
def PtpMaster.better (a b : PtpMaster) : Bool :=
  if a.rank = b.rank then decide (a.steps < b.steps) || (decide (a.steps = b.steps) && decide (a.port < b.port))
  else rankLess a.rank b.rank

/-- The best of some candidates, and the worst. -/
def bestMaster (l : List PtpMaster) : Option PtpMaster :=
  l.foldl (fun a c => match a with
    | none => some c
    | some b => if c.better b then some c else some b) none
def worstMaster (l : List PtpMaster) : Option PtpMaster :=
  l.foldl (fun a c => match a with
    | none => some c
    | some b => if b.better c then some c else some b) none

/-- The best qualified candidate becomes the master followed; within the slot in force a change is a switch (R306). -/
def State.slotSelect (s : State) (k : Nat) : State :=
  let x := s.ptpSlot k
  let best := (bestMaster (x.cands.filter (·.qualified))).map (·.port)
  if best = x.best then s
  else
    let from' := if best.isNone then none else if x.best.isNone then some s.clk.t else x.qualFrom
    let s := s.setPtpSlot k { x with best := best, pend := none, qualFrom := from', fault := x.fault && x.best == best }
    if s.tim.src = k then
      (if best.isNone then s.timLeave else if s.tim.st = 2 then s.timSwitch k else s)
    else s

/-- An Announce (R306, R318). -/
def State.ptpAnnounce (s : State) (k : Nat) (b : List Byte) : State :=
  let x := s.ptpSlot k
  let n := fun off len => beNat (slice b off len)
  let flags := ptpFlags b
  let utc := word (n 44 2 + 2 ^ 16 * b2n (bit flags 2) + 2 ^ 17 * b2n (bit flags 0) + 2 ^ 18 * b2n (bit flags 1) +
    2 ^ 19 * b2n (bit flags 3) + 2 ^ 20 * n 63 1)
  let old := x.cands.find? fun c => c.port == ptpPort b
  let c : PtpMaster := {
    port := ptpPort b, lastAt := s.clk.t, interval := ptpInterval b
    qualified := match old with
      | some o => o.qualified || decide (s.clk.t ≤ o.lastAt + 4 * ptpInterval b)
      | none => false
    rank := [n 47 1, n 48 1, n 49 1, n 50 2, n 52 1, n 53 8], steps := n 61 2, utc := utc }
  let rest := x.cands.filter fun o => o.port != c.port
  let s :=
    if rest.length < 4 then (s.setPtpSlot k { x with cands := rest ++ [c] }).slotSelect k
    else match worstMaster rest with
      | some w =>
        if c.better w then (s.setPtpSlot k { x with cands := (rest.filter fun o => o.port != w.port) ++ [c] }).slotSelect k
        else s.inc rTIM_CNT_FMDROP
      | none => s
  if s.tim.src = k && (s.ptpSlot k).best == some c.port then s.setTim { s.tim with utc := c.utc } else s

/-- A complete Sync: t1 with its corrections, and t2 (R307). -/
def State.ptpSync (s : State) (k t2 : Nat) (t1 : Nat) (corr : Int) : State :=
  s.timOffset k (((t2 : Int) - t1) * 65536 - s.meanPath (s.slotMac k) - corr)

/-- A PTP message of a slot's domain on its MAC, received at `t2` ns. -/
def State.ptpSlotMsg (s : State) (k t2 : Nat) (b : List Byte) : State :=
  let x := s.ptpSlot k
  match ptpType b with
  | 0xB => if ptpIntervalOk b then s.ptpAnnounce k b else s
  | 0x0 =>
    if !ptpIntervalOk b then s
    else if x.best ≠ some (ptpPort b) then s
    else if bit (ptpFlags b) 9 then s.setPtpSlot k { x with pend := some (ptpSeq b, t2, ptpCorr b) }
    else s.ptpSync k t2 (s.ptpTime b 34) (ptpCorr b)
  | 0x8 =>
    match x.pend with
    | some p =>
      if x.best = some (ptpPort b) && p.1 = ptpSeq b then
        (s.setPtpSlot k { x with pend := none }).ptpSync k p.2.1 (s.ptpTime b 34) (p.2.2 + ptpCorr b)
      else s
    | none => s
  | _ => s

/-- The identity of the device's port on a MAC: its address extended to 8 bytes, and the port number (log 21). -/
def State.portId (s : State) (mac : Nat) : List Byte :=
  let a := s.macAddr mac
  a.take 3 ++ [0xFF, 0xFE] ++ a.drop 3 ++ beBytes 2 (mac + 1)

/-- A peer delay message of this device: header and body, as a frame. -/
def State.pdelayFrame (s : State) (mac type seq : Nat) (flags : Nat) (corr : Int) (body : List Byte) : List Byte :=
  [0x01, 0x80, 0xC2, 0x00, 0x00, 0x0E] ++ s.macAddr mac ++ [0x88, 0xF7] ++
    (beBytes 1 type ++ beBytes 1 2 ++ beBytes 2 (34 + body.length) ++ beBytes 2 0 ++ beBytes 2 flags ++
      beBytes 8 (unsigned 64 corr) ++ beBytes 4 0 ++ s.portId mac ++ beBytes 2 seq ++ beBytes 1 5 ++ beBytes 1 0x7F ++ body)

/-- A PTP timestamp of some ns. -/
def ptpStamp (ns : Nat) : List Byte := beBytes 6 (ns / 1000000000 % 2 ^ 48) ++ beBytes 4 (ns % 1000000000)

/-- A PTP frame waits for its MAC. -/
def State.ptpSend (s : State) (mac : Nat) (bytes : List Byte) : State :=
  s.setMac mac { s.macSt mac with ptp := (s.macSt mac).ptp ++ [bytes] }

/-- A peer delay exchange is complete (R305): the delay, with the neighbour's rate from the exchange before. A one-step
responder gives the difference of t3 and t2 in its correction and neither of them, so no rate. -/
def State.peerDone (s : State) (mac : Nat) (t1 t2 t4 : Nat) (corr : Int) (at3 : Option Int) : State :=
  let p := s.peer mac
  let t3 := at3.getD 0
  let rate : Int × Int := match p.last, at3 with
    | some l, some t3 => if (t4 : Int) - l.2 = 0 then (1, 1) else (t3 - l.1, ((t4 : Int) - l.2) * 65536)
    | _, _ => (1, 1)
  let num := ((t4 : Int) - t1) * 65536 * rate.1 - (t3 - (t2 : Int) * 65536 + corr) * rate.2
  let d := divOpen 74 (if rate.2 < 0 then -num else num) (2 * rate.2.natAbs : Nat)
  s.setPeer mac { p with t1 := none, resp := none, last := at3.map fun x => (x, t4), delays := (d :: p.delays).take 8 }

/-- A peer delay message on a MAC (R305), received at `t` ns. -/
def State.pdelayMsg (s : State) (mac t : Nat) (b : List Byte) : State :=
  let p := s.peer mac
  match ptpType b with
  | 2 =>
    let who := slice b 20 10
    let s := s.ptpSend mac (s.pdelayFrame mac 3 (ptpSeq b) 0x200 0 (ptpStamp t ++ who))
    s.ptpSend mac (s.pdelayFrame mac 10 (ptpSeq b) 0 (ptpCorr b) (ptpStamp 0 ++ who))
  | 3 =>
    if ptpSeq b = p.seq && slice b 44 10 = s.portId mac then
      match p.t1 with
      | some t1 =>
        if bit (ptpFlags b) 9 then s.setPeer mac { p with resp := some (s.ptpTime b 34, t, ptpCorr b) }
        -- a one-step responder puts its turnaround time into the correction
        else s.peerDone mac t1 0 t (ptpCorr b) none
      | none => s
    else s
  | 10 =>
    match p.t1, p.resp with
    | some t1, some r =>
      if ptpSeq b = p.seq && slice b 44 10 = s.portId mac then
        s.peerDone mac t1 r.1 r.2.1 (r.2.2 + ptpCorr b) (some ((s.ptpTime b 34 : Int) * 65536))
      else s
    | _, _ => s
  | _ => s

/-! ### Commands -/

/-- FOLLOW_UP_TIMEOUT (R307). -/
def execFollowUpTimeout (slot : Nat) (s : State) : Out :=
  .next (if slot < 2 then s.setPtpSlot slot { s.ptpSlot slot with pend := none } else s)

/-- A slot loses the master that it follows (R305). -/
def State.slotLost (s : State) (k : Nat) : State :=
  let x := s.ptpSlot k
  match x.best with
  | none => s
  | some p => (s.setPtpSlot k { x with cands := x.cands.filter fun c => c.port != p }).slotSelect k

/-- PTP_MASTER_LOSS (R305): a slot loses its master, or TRESTLE, the source 2, the ring's time master (R308). -/
def execPtpMasterLoss (slot : Nat) (s : State) : Out :=
  .next (
    if slot < 2 then s.slotLost slot
    else if slot = 2 then
      let s := s.setTim { s.tim with trsOk := false, trsFrom := none }
      if s.tim.src = 2 then s.timLeave else s
    else s)

/-- PDELAY_REQ_SEND (R305): on a MAC that carries a slot. -/
def execPdelayReqSend (mac : Nat) (s : State) : Out :=
  .next (
    if mac < 2 && s.macRuns mac && ((s.slotOn 0 && s.slotMac 0 == mac) || (s.slotOn 1 && s.slotMac 1 == mac)) then
      let seq := ((s.peer mac).seq + 1) % 65536
      let s := s.setPeer mac { s.peer mac with seq := seq, t1 := none, resp := none }
      s.ptpSend mac (s.pdelayFrame mac 2 seq 0 0 (ptpStamp 0 ++ leBytes 10 0))
    else s)

/-- RESYNC (R303). -/
def execResync (s : State) : Out :=
  .next (s.setTim { s.tim with st := 0, src := 3, adj := 0, freq := 0, good := 0, outRun := 0 }).timJudge

/-- SWITCH (R308): to the slot that the command names, if it has a qualified master; else the source in force is left. -/
def execSwitch (slot : Nat) (s : State) : Out :=
  .next (
    if s.tim.st = 0 || s.tim.src = slot then s
    else if slot < 2 && s.srcQualified slot then s.timSwitch slot
    else s.timLeave)

/-- TIM_HOLD (R308). -/
def execTimHold (s : State) : Out := .next s.timHoldover

/-- ETH_LINK_CHANGE (R308): a source whose MAC's link goes down is left. -/
def execEthLinkChange (mac : Nat) (link : BitVec 4) (s : State) : Out :=
  .next (
    if 2 ≤ mac then s
    else
      let s := s.setMac mac { s.macSt mac with link := link.toNat }
      if link.getLsbD 0 then s
      else s.each [0, 1] fun s k =>
        if s.slotMac k = mac && s.slotOn k then
          let s := s.setPtpSlot k { s.ptpSlot k with cands := [] }
          s.slotSelect k
        else s)

/-- HOLDOVER_UPDATE (R309, R310). -/
def execHoldoverUpdate (s : State) : Out :=
  .next (
    if s.tim.st = 4 then
      let s := s.setTim { s.tim with
        holdS := s.tim.holdS + 1, rcS := s.tim.rcS + b2n (!s.clk.refOk), adj := adjLimit (s.tim.base + s.tempCorr) }
      s.timJudge
    else s)

/-- Since when a source has held a qualified master, in SYSCLK time. -/
def State.qualFrom (s : State) (k : Nat) : Option Nat := if k = 2 then s.tim.trsFrom else (s.ptpSlot k).qualFrom

/-- REVERT_SWITCH (R308): the preferred source has held a qualified master for REVERT seconds. -/
def execRevertSwitch (s : State) : Out :=
  .next (
    if s.revert ≠ 0 && (s.tim.st = 2 || s.tim.st = 3) && s.tim.src != s.srcPref && s.srcQualified s.srcPref &&
        ((s.qualFrom s.srcPref).any fun t => decide (t + 400000000 * s.revert ≤ s.clk.t)) then
      s.timSwitch s.srcPref
    else s)

/-- TIM_NS_READ (R300). -/
def execTimNsRead (s : State) : Out := .next (s.setTim { s.tim with snapSec := s.wallNs / 1000000000 })

/-- TIME_TRIGGER_ARM (R317): a write of TIM_TTn_CTL; with ARM set a time that is not in the future under R14 is refused. -/
def State.ttWrite (s : State) (n : Nat) (w : Word) : State :=
  let s := s.setReg (rTIM_TTn_CTL n) (w &&& 0xFF03)
  let off := 2 ^ 4 - 1 - 2 ^ n
  let s := s.setTim { s.tim with ttArmed := s.tim.ttArmed &&& off, ttCrossed := s.tim.ttCrossed &&& off }
  if !w.getLsbD 2 then s
  else if !aheadMod wallMod s.wallNs (s.ttTime n) then s.setBit rTIM_STAT 12
  else s.setTim { s.tim with ttArmed := s.tim.ttArmed ||| 2 ^ n }

def execTimeTriggerArm (n : Nat) (w : Word) (s : State) : Out := .next (if n < 4 then s.ttWrite n w else s)

/-- TIME_TRIGGER_FIRE (R317): at or after its time the action runs once, late where a step passed the time. -/
def execTimeTriggerFire (n : Nat) (s : State) : Out :=
  .next (
    if n < 4 && bit s.tim.ttArmed n && !aheadMod wallMod s.wallNs (s.ttTime n) then
      let ctl := s.reg (rTIM_TTn_CTL n)
      let off := 2 ^ 4 - 1 - 2 ^ n
      let late := bit s.tim.ttCrossed n
      let s := s.setTim { s.tim with ttArmed := s.tim.ttArmed &&& off, ttCrossed := s.tim.ttCrossed &&& off }
      let s := s.setBit (rTIM_TTn_CTL n) 3
      let s := if late then s.setBit rTIM_STAT 11 else s
      match bits ctl.toNat 0 2 with
      | 1 => s.pwmStart (bits ctl.toNat 8 8)
      | 2 => s.pwmStop (bits ctl.toNat 8 8)
      | 3 => s.irq 7
      | _ => s
    else s)

/-! ### What other units ask of TIM -/

/-- Wall time starts at Tier 1 (R299). -/
def State.timBegin (s : State) : State := s.setTim { s.tim with live := true, wall := 0, st := 0, src := 3, adj := 0 }

/-- A commit that changes the domain or MAC of a slot empties it; the source in force is then left (R308). -/
def State.timCommit (s : State) (old : Nat → Nat) : State :=
  (s.each [0, 1] fun s k =>
    if old k = s.slotCfg k then s
    else if s.tim.src = k then (s.setPtpSlot k {}).timLeave
    else s.setPtpSlot k {}).timJudge

/-! ### Registers (Tables 13.9, 13.10) -/

def State.timStat (s : State) : Nat := s.timFlags + 2 ^ 13 * b2n s.learnOk

/-- The words of the TIM window that follow from the state. -/
def State.timWord (s : State) (off : Nat) : Option Word :=
  let x := s.tim
  let cand := fun k => (s.ptpSlot k).cands.find? fun c => some c.port == (s.ptpSlot k).best
  let slotStat := fun k =>
    let c := cand k
    word ((s.ptpSlot k).cands.length + 8 * b2n (s.srcQualified k) + 16 * b2n (s.ptpSlot k).fault +
      256 * ((c.map fun c => c.rank.getD 1 0).getD 0) + 65536 * ((c.map (·.steps)).getD 0))
  let gm := fun k => ((cand k).map fun c => c.rank.getD 5 0).getD 0
  match off with
  | 0x008 => some (word (s.wallNs % 1000000000))
  | 0x00C => some (word (x.snapSec % 2 ^ 32))
  | 0x010 => some (word (x.snapSec / 2 ^ 32))
  | 0x014 => some (wordOfInt x.adj)
  | 0x018 => some (wordOfInt (satI32 (divOpen 75 x.lastOff 65536)))
  | 0x01C => some (wordOfInt (if x.src < 2 then divOpen 76 (s.meanPath (s.slotMac x.src)) 65536 else 0))
  | 0x020 => some (match s.timErr with
    | some e => word (min 0xFFFFFFFF (divOpen 77 e (2 ^ 150)).toNat)
    | none => Config.openReg rTIM_ERR_EST s.clk.t)
  | 0x024 => some (slotStat 0)
  | 0x028 => some (slotStat 1)
  | 0x030 => some (word (gm 0 % 2 ^ 32))
  | 0x034 => some (word (gm 0 / 2 ^ 32))
  | 0x038 => some (word (gm 1 % 2 ^ 32))
  | 0x03C => some (word (gm 1 / 2 ^ 32))
  | 0x040 => some x.utc
  | 0x044 => some (word (min 0xFFFFFFFF x.holdS))
  | _ => none

end Sys2Proof.Machine
end

