-- ==== Sys2Proof/Machine/Monitor.lean ====
section
/-!
DEFINITION. The Monitor's core pair (R322 to R337): lockstep and split, ticks and input snapshots, the instruction set,
outputs, channel faults, off-pulse tests; and the acceptance of the safety sections (R342 to R345).
-/

namespace Sys2Proof.Machine

/-! ### MONITOR_PROG and SAFETY_PARAMS -/


def monNWords (p : List Byte) : Nat := field p 0 2
def monNData (p : List Byte) : Nat := field p 2 2
def monEntryA (p : List Byte) : Nat := field p 4 2
def monEntryB (p : List Byte) : Nat := field p 6 2
def monArch (p : List Byte) : Nat := field p 8 1

/-- A field of the SAFETY_PARAMS in force. -/
def State.safety (s : State) (off n : Nat) : Nat := field (s.sec secSafety) off n
def State.adcmN (s : State) : Nat := s.safety 0x0A 1
def State.monHover (s : State) : Nat := s.safety 5 1

/-- Bit `n` of FLAGS of a safe transfer channel. -/
def State.stlFlag (s : State) (k n : Nat) : Bool := bit (s.safety (0x20 + 32 * k) 1) n
def State.stlOn (s : State) (k : Nat) : Bool := s.stlFlag k 0

/-- MON_SPLIT of a Cabinet: 1 boots split (R42). -/
def State.bootSplit (s : State) : Bool := s.cabValid && s.fuse 973 2 == 1

/-! ### The pair -/

def State.setMon (s : State) (x : Mon) : State := { s with mon := x }

/-- Core A is 0 and core B is 1. -/
def State.core (s : State) (i : Nat) : MonCore := if i = 0 then s.mon.a else s.mon.b
def State.setCore (s : State) (i : Nat) (c : MonCore) : State :=
  s.setMon (if i = 0 then { s.mon with a := c } else { s.mon with b := c })

/-- Split: from the hand-over on (R325). -/
def State.monSplit (s : State) : Bool := decide (2 ≤ s.mon.mode)
def State.monLock (s : State) : Bool := s.mon.mode == 1

/-- A core runs instructions now. -/
def MonCore.ready (c : MonCore) : Bool := c.run && !c.waiting && c.fault.isNone

/-- MON_OFF: the default program asserts it; in lockstep the compared pair demands it, in split mode either core (R326,
R332, R333, R335). -/
def State.monOff (s : State) : Bool :=
  s.mon.mode == 0 || s.mon.b.off || s.monSplit && s.mon.a.off || s.mon.a.fault.isSome || s.mon.b.fault.isSome

/-- MON_OFF reaches TRP as source 0x32 (R332). -/
def State.monSync (s : State) : State := s.putSource 0x32 s.monOff

/-- The levels of the four disconnection outputs: as commanded, but for a test that drives one safe (R336). -/
def State.monBalls (s : State) : Nat :=
  (List.range 4).foldl (fun m j => m + 2 ^ j * b2n (bit s.mon.out j && !bit s.mon.forced j)) 0

/-- One bit of a number given. -/
def putNatBit (x n : Nat) (b : Bool) : Nat := if bit x n = b then x else if b then x + 2 ^ n else x - 2 ^ n

/-- An output is commanded (R325, R336): a command to the safe level ends its test. A relay's change of command is timed
(R337). -/
def State.monDrive (s : State) (j : Nat) (on : Bool) : State :=
  let x := { s.mon with
    out := putNatBit s.mon.out j on
    relayAt := if 2 ≤ j ∧ bit s.mon.out j ≠ on then SMap.set (fun _ => 0) s.mon.relayAt (j - 2) s.clk.t else s.mon.relayAt }
  s.setMon (if on then x else
    { x with test := SMap.set (fun _ => 0) x.test j 0, forced := putNatBit x.forced j false,
             failed := putNatBit x.failed j false })

/-- A program's command to an output: in the hand-over window one away from the safe level waits (R325). -/
def State.monCommand (s : State) (j : Nat) (on : Bool) : State :=
  let s := s.setMon { s.mon with waitOut := s.mon.waitOut.filter fun p => p.1 != j }
  if s.mon.mode = 2 && on && !bit s.mon.out j then s.setMon { s.mon with waitOut := s.mon.waitOut ++ [(j, on)] }
  else s.monDrive j on

/-! ### Channel faults (R335) -/

/-- The cores that a fault of core `i` halts: both while they run in lockstep. -/
def State.monHits (s : State) (i : Nat) : List Nat := if s.monSplit then [i] else [0, 1]

/-- A core halts: its cause, its SAFE code and its program counter. -/
def MonCore.halt (c : MonCore) (cause code : Nat) : MonCore :=
  if c.fault.isSome then c else { c with fault := some (cause, code, c.pc), off := true }

/-- A channel fault. -/
def State.monFault (s : State) (i cause code : Nat) : State :=
  let hit := s.monHits i
  let s := s.each hit fun s j => s.setCore j ((s.core j).halt cause code)
  let s := s.each ((List.range 4).filter fun j => hit.contains (j % 2)) fun s j => s.monCommand j false
  let s := s.setMon { s.mon with splitReq := false, lag := [], sweepDue := false }
  s.pairTrigger.monSync

/-! ### Lockstep (R323, R324) -/

/-- A register by its number, or a data word `i` by 16 + i. -/
def MonCore.cell (c : MonCore) (n : Nat) : Word :=
  if n < 16 then SMap.get (fun _ => 0) c.m n else SMap.get (fun _ => 0) c.data (n - 16)
def MonCore.isUsed (c : MonCore) (n : Nat) : Bool := SMap.get (fun _ => false) c.used n
def MonCore.isMarked (c : MonCore) (n : Nat) : Bool := SMap.get (fun _ => false) c.marked n

/-- Reads of cells set their used bits. -/
def MonCore.reads (c : MonCore) (ns : List Nat) : MonCore :=
  { c with used := ns.foldl (fun u n => if n = 0 then u else SMap.set (fun _ => false) u n true) c.used }

/-- A write of a cell clears its used bit and its mark; m0 discards writes. -/
def MonCore.put (c : MonCore) (n : Nat) (v : Word) : MonCore :=
  if n = 0 then c
  else
    let c := { c with used := SMap.set (fun _ => false) c.used n false, marked := SMap.set (fun _ => false) c.marked n false }
    if n < 16 then { c with m := SMap.set (fun _ => 0) c.m n v }
    else { c with data := SMap.set (fun _ => 0) c.data (n - 16) v }

/-- The cells in which the two cores differ, of those that either holds with a value other than 0. -/
def State.monDiffs (s : State) : List Nat :=
  let keys := s.mon.a.m.map (·.1) ++ s.mon.b.m.map (·.1) ++ (s.mon.a.data.map (·.1)).map (· + 16) ++
    (s.mon.b.data.map (·.1)).map (· + 16)
  keys.eraseDups.filter fun n => s.mon.a.cell n != s.mon.b.cell n

/-- The sweep of the aligned pair (R324). -/
def State.monSweep (s : State) : State :=
  let s := s.setMon { s.mon with sweepDue := false }
  let diffs := s.monDiffs
  if s.mon.a.pc != s.mon.b.pc || diffs.any (fun n => s.mon.a.isUsed n || s.mon.b.isUsed n) then s.monFault 0 1 0
  else s.each diffs fun s n =>
    let mark : MonCore → MonCore := fun c => { c with marked := SMap.set (fun _ => false) c.marked n true }
    (((s.setCore 0 (mark s.mon.a)).setCore 1 (mark s.mon.b)).setBit rMON_STAT 4).inc rMON_CNT_LATENT

/-! ### Output ports (Table 14.4) -/

def StlChan.zero : Nat → StlChan := fun _ => {}
def State.stl (s : State) (i k : Nat) : StlChan := SMap.get StlChan.zero (s.core i).chan k
def State.setStl (s : State) (i k : Nat) (x : StlChan) : State :=
  s.setCore i { s.core i with chan := SMap.set StlChan.zero (s.core i).chan k x }

/-- The protocol data unit of Table 14.6 without its CRC. -/
def stlPdu (kind seq src dst sec ns : Nat) (d0 d1 : Word) : List Byte :=
  leBytes 1 1 ++ leBytes 1 kind ++ leBytes 2 seq ++ leBytes 4 src ++ leBytes 4 dst ++ leBytes 4 sec ++ leBytes 4 ns ++
    leBytes 4 d0.toNat ++ leBytes 4 d1.toNat

/-- CRC-32C with another initial value. -/
def crc32cKey (key : Nat) (b : List Byte) : Nat := crc32cFrom key b ^^^ 0xFFFFFFFF

/-- A KIND 2 frame of channel `k` is built and waits for its MAC (R341, R316). -/
def State.stlSend (s : State) (cores : List Nat) (k : Nat) (d1 : Word) : State :=
  if !(s.stlOn k && s.stlFlag k 2) then s
  else
    let i := cores.getD 0 0
    let c := s.core i
    let n := SMap.get (fun _ => 0) c.txCount k + 1
    let o := 0x20 + 32 * k
    let b := stlPdu 2 (n % 65536) (s.safety (o + 8) 4) (s.safety (o + 4) 4) (s.wallNs / 1000000000 % 2 ^ 32)
      (s.wallNs % 1000000000) (SMap.get (fun _ => 0) c.stage k) d1
    let b := b ++ leBytes 4 (crc32cKey (s.safety (o + 0xC) 4) b)
    let s := s.each cores fun s j =>
      s.setCore j { s.core j with txCount := SMap.set (fun _ => 0) (s.core j).txCount k n }
    let mac := b2n (s.stlFlag k 3)
    s.setMac mac { s.macSt mac with safety := (s.macSt mac).safety ++ [b] }

/-- An OUT takes effect, of core `i` in split mode and of the compared pair in lockstep. -/
def State.monPort (s : State) (i imm : Nat) (v : Word) : State :=
  let cores := s.monHits i
  let on := v.getLsbD 0
  if imm < 4 then
    if s.monSplit && imm % 2 != i then s.inc rMON_CNT_XOUT else s.monCommand imm on
  else if imm = 4 then (s.each cores fun s j => s.setCore j { s.core j with off := on }).monSync
  else if imm = 5 then s.each cores fun s j => s.setCore j { s.core j with user := v }
  else if imm = 6 then
    if on && s.monLock && !s.bootSplit && monArch s.mon.prog = 2 then s.setMon { s.mon with splitReq := true } else s
  else if 0x10 ≤ imm ∧ imm < 0x18 then
    let k := (imm - 0x10) / 2
    if imm % 2 = 0 then
      s.each cores fun s j => s.setCore j { s.core j with stage := SMap.set (fun _ => 0) (s.core j).stage k v }
    else s.stlSend cores k v
  else s

/-- What an instruction puts out reaches its destination. -/
def State.monEffect (s : State) (i : Nat) : MonOut → State
  | .port imm v => s.monPort i imm v
  | _ => s

/-- Core A's output waits for core B's; core B's is compared with it, and the equal pair takes effect (R323). In split
mode each core's takes effect by itself. -/
def State.monPutOut (s : State) (i pc : Nat) (o : MonOut) : State :=
  if !s.monLock then s.monEffect i o
  else if i = 0 then s.setMon { s.mon with lag := s.mon.lag ++ [(pc, o)] }
  else match s.mon.lag with
    | [] => s
    | x :: rest =>
      if x = (pc, o) then
        let s := (s.setMon { s.mon with lag := rest }).monEffect 1 o
        if rest.isEmpty && s.mon.sweepDue then s.monSweep else s
      else s.monFault 1 1 0

/-! ### Instructions (R330, R331) -/

/-- The effect of an instruction on its core, from that core as it stands. -/
structure MonEff where
  reads : List Nat := []               -- cells read
  write : Option (Nat × Word) := none  -- the cell written
  next : Option Int := none            -- the target of a taken branch
  out : MonOut := .none
  cycles : Nat := 1
  wait : Bool := false
  fault : Option (Nat × Nat) := none   -- the cause and SAFE code of a channel fault
  deriving DecidableEq, Repr

/-- True when core `i` may execute an instruction: it runs, and in lockstep core B has one of core A's to follow. -/
def State.monReady (s : State) (i : Nat) : Bool :=
  decide (i < 2) && s.mon.mode != 0 && (s.core i).ready && !(s.monLock && i == 1 && s.mon.lag.isEmpty)

/-- A read of a marked cell that still differs (R324): core A reads first. -/
def State.monLatentHit (s : State) (i : Nat) (ns : List Nat) : Bool :=
  s.monLock && i == 0 && ns.any fun n => n != 0 && s.mon.a.isMarked n && s.mon.a.cell n != s.mon.b.cell n

/-- One instruction of core `i`: `legal` says that its unused fields are 0. -/
def State.monRun (s : State) (i : Nat) (w : MonWord) (legal : Bool) (f : MonCore → MonEff) : State :=
  if !s.monReady i then s
  else
    let c := s.core i
    let n := monNWords s.mon.prog
    if c.pc ≥ n then s.monFault i 3 0
    else if w.ecc then s.monFault i 6 0
    else if !legal then s.monFault i 2 0
    else
      let e := f c
      if s.monLatentHit i e.reads then s.monFault i 1 0
      else match e.fault with
        | some x => s.monFault i x.1 x.2
        | none =>
          let target := e.next.getD (c.pc + 1)
          if e.next.isSome && !(decide (0 ≤ target) && decide (target < n)) then s.monFault i 3 0
          else
            let pc := c.pc
            let c := c.reads e.reads
            let c := match e.write with
              | some x => c.put x.1 x.2
              | none => c
            let c := match e.out with
              | .pub k v => { c with buf := SMap.set (fun _ => 0) c.buf k v }
              | _ => c
            let c := { c with pc := target.toNat, cycles := c.cycles + e.cycles, waiting := e.wait }
            let s := s.setCore i c
            let s := if e.wait then
                let old := (s.reg rMON_TICK_MAX).toNat
                let a := if i = 0 then max (bits old 0 16) (min 0xFFFF c.cycles) else bits old 0 16
                let b := if i = 1 then max (bits old 16 16) (min 0xFFFF c.cycles) else bits old 16 16
                s.setReg rMON_TICK_MAX (word (a + 65536 * b))
              else s
            s.monPutOut i pc e.out

end Sys2Proof.Machine

namespace Sys2Proof

/-- The three forms of unused fields that most instructions share. -/
def MonWord.noImm (w : MonWord) : Bool := w.imm == 0
def MonWord.noB (w : MonWord) : Bool := w.b == 0
def MonWord.noAB (w : MonWord) : Bool := w.a == 0 && w.b == 0
def MonWord.noDB (w : MonWord) : Bool := w.d == 0 && w.b == 0
def MonWord.onlyImm (w : MonWord) : Bool := w.d == 0 && w.noAB
def MonWord.none (w : MonWord) : Bool := w.onlyImm && w.noImm

/-- The registers A, B and D of an instruction, and its signed immediate. -/
def MonWord.va (w : MonWord) (c : Machine.MonCore) : Word := c.cell w.a.toNat
def MonWord.vb (w : MonWord) (c : Machine.MonCore) : Word := c.cell w.b.toNat
def MonWord.vd (w : MonWord) (c : Machine.MonCore) : Word := c.cell w.d.toNat
def MonWord.simm (w : MonWord) : Int := w.imm.toInt

/-- The data word index mA + imm, modulo 2^32. -/
def MonWord.addr (w : MonWord) (c : Machine.MonCore) : Nat := (w.va c + w.imm.zeroExtend 32).toNat

end Sys2Proof

namespace Sys2Proof.Machine

/-- A three-register operation. -/
def State.monAlu (s : State) (i : Nat) (w : MonWord) (f : Word → Word → Word) : State :=
  s.monRun i w w.noImm fun c =>
    { reads := [w.a.toNat, w.b.toNat], write := some (w.d.toNat, f (w.va c) (w.vb c)) }

/-- An operation of a register and the immediate. -/
def State.monAluImm (s : State) (i : Nat) (w : MonWord) (f : Word → BitVec 15 → Word) : State :=
  s.monRun i w w.noB fun c => { reads := [w.a.toNat], write := some (w.d.toNat, f (w.va c) w.imm) }

/-- An OUT of any port. -/
def State.monOut (s : State) (i : Nat) (w : MonWord) : State :=
  s.monRun i w w.noDB fun c => { reads := [w.a.toNat], out := .port w.imm.toNat (w.va c) }

/-- \|a − b\| of signed values, saturating. -/
def absDiff (a b : Word) : Word := word (min 0x7FFFFFFF (a.toInt - b.toInt).natAbs)

def execMonNop (core : Nat) (w : MonWord) (s : State) : Out := .next (s.monRun core w w.none fun _ => {})
def execMonAdd (core : Nat) (w : MonWord) (s : State) : Out := .next (s.monAlu core w (· + ·))
def execMonSub (core : Nat) (w : MonWord) (s : State) : Out := .next (s.monAlu core w (· - ·))
def execMonAnd (core : Nat) (w : MonWord) (s : State) : Out := .next (s.monAlu core w (· &&& ·))
def execMonOr (core : Nat) (w : MonWord) (s : State) : Out := .next (s.monAlu core w (· ||| ·))
def execMonXor (core : Nat) (w : MonWord) (s : State) : Out := .next (s.monAlu core w (· ^^^ ·))
def execMonAddi (core : Nat) (w : MonWord) (s : State) : Out :=
  .next (s.monAluImm core w fun x imm => x + imm.signExtend 32)
def execMonShl (core : Nat) (w : MonWord) (s : State) : Out :=
  .next (s.monAluImm core w fun x imm => x <<< (imm.toNat % 32))
def execMonShr (core : Nat) (w : MonWord) (s : State) : Out :=
  .next (s.monAluImm core w fun x imm => x >>> (imm.toNat % 32))
def execMonSra (core : Nat) (w : MonWord) (s : State) : Out :=
  .next (s.monAluImm core w fun x imm => x.sshiftRight (imm.toNat % 32))
def execMonLi (core : Nat) (w : MonWord) (s : State) : Out :=
  .next (s.monRun core w w.noAB fun _ => { write := some (w.d.toNat, w.imm.signExtend 32) })
def execMonAbsd (core : Nat) (w : MonWord) (s : State) : Out := .next (s.monAlu core w absDiff)
def execMonCmpeq (core : Nat) (w : MonWord) (s : State) : Out := .next (s.monAlu core w fun a b => bitWord 0 (a == b))
def execMonCmplt (core : Nat) (w : MonWord) (s : State) : Out := .next (s.monAlu core w fun a b => bitWord 0 (a.slt b))
def execMonCmpltu (core : Nat) (w : MonWord) (s : State) : Out := .next (s.monAlu core w fun a b => bitWord 0 (a.ult b))

def execMonLd (core : Nat) (w : MonWord) (s : State) : Out :=
  .next (s.monRun core w w.noB fun c =>
    if w.addr c < 2048 then
      { reads := [w.a.toNat, 16 + w.addr c], write := some (w.d.toNat, c.cell (16 + w.addr c)), cycles := 2 }
    else { reads := [w.a.toNat], fault := some (4, 0) })
def execMonSt (core : Nat) (w : MonWord) (s : State) : Out :=
  .next (s.monRun core w w.noB fun c =>
    if w.addr c < 2048 then
      { reads := [w.a.toNat, w.d.toNat], write := some (16 + w.addr c, w.vd c), out := .write (w.addr c) (w.vd c) }
    else { reads := [w.a.toNat, w.d.toNat], fault := some (4, 0) })

def execMonBr (core : Nat) (w : MonWord) (s : State) : Out :=
  .next (s.monRun core w w.onlyImm fun c => { next := some (c.pc + w.simm), cycles := 2 })

/-- A branch on a register. -/
def State.monBranch (s : State) (i : Nat) (w : MonWord) (taken : Word → Bool) : State :=
  s.monRun i w w.noDB fun c =>
    if taken (w.va c) then { reads := [w.a.toNat], next := some (c.pc + w.simm), cycles := 2 } else { reads := [w.a.toNat] }

def execMonBeqz (core : Nat) (w : MonWord) (s : State) : Out := .next (s.monBranch core w (· == 0))
def execMonBnez (core : Nat) (w : MonWord) (s : State) : Out := .next (s.monBranch core w (· != 0))
def execMonJal (core : Nat) (w : MonWord) (s : State) : Out :=
  .next (s.monRun core w w.noAB fun c =>
    { write := some (w.d.toNat, word (c.pc + 1)), next := some (c.pc + w.simm), cycles := 2 })
def execMonJr (core : Nat) (w : MonWord) (s : State) : Out :=
  .next (s.monRun core w (w.noDB && w.noImm) fun c =>
    { reads := [w.a.toNat], next := some ((w.va c).toNat : Int), cycles := 2 })

def execMonIn (core : Nat) (w : MonWord) (s : State) : Out :=
  .next (s.monRun core w w.noAB fun c =>
    { write := some (w.d.toNat, SMap.get (fun _ => 0) c.snap w.imm.toNat), cycles := 2 })
def execMonOutGen (core : Nat) (w : MonWord) (s : State) : Out := .next (s.monOut core w)
def execMonOutRly (core : Nat) (w : MonWord) (s : State) : Out := .next (s.monOut core w)
def execMonOutMonOff (core : Nat) (w : MonWord) (s : State) : Out := .next (s.monOut core w)
def execMonOutUser (core : Nat) (w : MonWord) (s : State) : Out := .next (s.monOut core w)
def execMonOutSplit (core : Nat) (w : MonWord) (s : State) : Out := .next (s.monOut core w)
def execMonOutStlData (core : Nat) (w : MonWord) (s : State) : Out := .next (s.monOut core w)
def execMonOutStlSend (core : Nat) (w : MonWord) (s : State) : Out := .next (s.monOut core w)
def execMonPub (core : Nat) (w : MonWord) (s : State) : Out :=
  .next (s.monRun core w w.noDB fun c => { reads := [w.a.toNat], out := .pub (w.imm.toNat % 16) (w.va c) })

/-- XCHG reads the partner's word of the last tick edge; in lockstep the core's own (R329). -/
def execMonXchg (core : Nat) (w : MonWord) (s : State) : Out :=
  let vis := if s.monSplit then (s.core (1 - core)).vis else (s.core core).vis
  .next (s.monRun core w w.noAB fun _ =>
    { write := some (w.d.toNat, SMap.get (fun _ => 0) vis (w.imm.toNat % 16)), cycles := 2 })
def execMonWait (core : Nat) (w : MonWord) (s : State) : Out := .next (s.monRun core w w.none fun _ => { wait := true })
def execMonSafe (core : Nat) (w : MonWord) (s : State) : Out :=
  .next (s.monRun core w w.onlyImm fun _ => { fault := some (8, w.imm.toNat % 256) })

/-! ### Ticks (R327 to R331) -/

/-- Bit mask of the inputs of Table 14.2 words 0x080 and 0x081 that a core sees in split mode. -/
def rbMask (i : Nat) : Nat := if i = 0 then 0x15 else 0x2A
def optMask (i : Nat) : Nat := if i = 0 then 0x1FF33 else 0x2FFCC

/-- Input word 0x081, mirrored in MON_OPT (R337). -/
def State.monOpt (s : State) : Nat := bits s.mon.optRes 0 8 + 256 * (s.mon.optCount % 256) + 65536 * bits s.mon.mismatch 0 2

/-- The status word of a safe transfer channel (R340). -/
def StlChan.status (x : StlChan) : Nat :=
  b2n x.ok + 2 * b2n x.timeout + 4 * b2n x.sync + 8 * b2n x.notime + 16 * (x.reason % 16) + 256 * (x.delivered % 256)

/-- The clock check cannot run (R335). -/
def State.refLoss (s : State) : Bool := decide (1 ≤ s.tier) && !s.clk.refOk

/-- Input word `a` for core `i` at a tick edge; `open` gives the codes of conversions that did not end (R328). -/
def State.monInput (s : State) (rest : List Word) (i a : Nat) : Word :=
  let own (k : Nat) : Bool := !s.monSplit || i == k
  if a ≤ 8 then
    if !own 0 then 0
    else
      let v := SMap.get (fun _ => 0) s.mon.adcm a
      if v.getLsbD 16 then v else (rest.getD a 0) &&& 0xFFFF
  else if 0x40 ≤ a ∧ a < 0x80 then if own 1 then SMap.get emptyResult s.adc.results (192 + (a - 0x40)) else 0
  else if a = 0x80 then word (if s.monSplit then s.mon.rb &&& rbMask i else s.mon.rb)
  else if a = 0x81 then word (if s.monSplit then s.monOpt &&& optMask i else s.monOpt)
  else if a = 0x82 then word (s.core i).ticks
  else if a = 0x83 then
    word (b2n s.monSplit + 2 * b2n (s.monSplit && i == 1) + 4 * b2n (s.mon.mode == 2) + 8 * b2n (s.tier == 3) +
      16 * b2n s.refLoss)
  else if 0x90 ≤ a ∧ a < 0xA0 then
    let x := s.stl i ((a - 0x90) / 4)
    match (a - 0x90) % 4 with
    | 0 => word x.status
    | 1 => x.data0
    | 2 => x.data1
    | _ => word x.lastSeq
  else if 0x100 ≤ a ∧ a < 0x200 then
    if a - 0x100 < s.safety 8 2 then s.ldm (s.safety 6 2 + (a - 0x100)) else 0
  else 0

/-- The addresses of Table 14.2. -/
def monInputs : List Nat := List.range 9 ++ (List.range 64).map (· + 0x40) ++ (List.range 4).map (· + 0x80) ++
  (List.range 16).map (· + 0x90) ++ (List.range 256).map (· + 0x100)

/-- The snapshot of core `i`. -/
def State.monSnap (s : State) (rest : List Word) (i : Nat) : SMap Word :=
  monInputs.foldl (fun m a => SMap.set (fun _ => 0) m a (s.monInput rest i a)) []

/-- The accepted program starts (R331): every register 0, data from the section. -/
def State.monStart (s : State) : State :=
  let p := s.mon.prog
  let nw := monNWords p
  let data : SMap Word := (List.range (monNData p)).foldl
    (fun m k => SMap.set (fun _ => 0) m k (word (field p (16 + 4 * nw + 4 * k) 4))) []
  let fresh (old : MonCore) (pc : Nat) : MonCore :=
    { fault := old.fault, off := true, user := old.user, chan := old.chan, txCount := old.txCount, pc := pc, data := data,
      run := true }
  let eb := if s.monSplit then monEntryB p else monEntryA p
  s.setMon { s.mon with
    a := fresh s.mon.a (monEntryA p), b := fresh s.mon.b eb, startDue := false, lag := [], splitReq := false,
    hover := 0, waitOut := [] }

/-- A tick edge at one core: the exchange words become visible, the snapshot is taken and WAIT ends. -/
def State.monEdge (s : State) (rest : List Word) (i : Nat) : State :=
  let c := s.core i
  if !c.run || c.fault.isSome then s
  else
    let s := s.setCore i { c with ticks := (c.ticks + 1) % 2 ^ 32 }
    s.setCore i { s.core i with
      vis := c.buf, snap := s.monSnap rest i, waiting := false, cycles := if s.monLock && i == 1 then 2 else 0 }

/-- MONITOR_TICK (R327, R331): `rb` holds the relay readbacks, `parity` a difference in the snapshot buffer. -/
def execMonitorTick (rb : BitVec 6) (parity : Bool) (s : State) : Out :=
  .next (
    let mm := (List.range 2).foldl
      (fun m j => if bit rb.toNat (4 + j) = bit s.mon.out (2 + j) then putNatBit m j false else m) s.mon.mismatch
    let s := s.setMon { s.mon with rb := rb.toNat, mismatch := mm }
    if s.mon.mode = 0 then s
    else
      let s := if s.mon.startDue then s.monStart
        else s.each [0, 1] fun s i => if (s.core i).ready then s.monFault i 5 0 else s
      -- tick k + 1 of a split (R325), and the ticks of the hand-over window
      let s := if s.mon.splitReq then
          s.setMon { s.mon with splitReq := false, mode := 2, hover := s.monHover, sweepDue := false }
        else if s.mon.mode = 2 then s.setMon { s.mon with hover := s.mon.hover - 1 }
        else s
      let r := s.takeFrees 9
      let s := (s.each [0, 1] fun s i => s.monEdge r.1 i)
      let s := { s with free := r.2.free, mon := { s.mon with adcm := [] } }
      if parity && s.monLock then s.monFault 0 1 0 else s)

/-- SPLIT_COMPLETE (R325): each core drives its own outputs, and the commands that waited apply. -/
def execSplitComplete (s : State) : Out :=
  .next (
    if s.mon.mode = 2 && s.mon.hover = 0 then
      let waits := s.mon.waitOut
      let s := s.setMon { s.mon with mode := 3, waitOut := [] }
      waits.foldl (fun s p => s.monDrive p.1 p.2) s
    else s)

/-- LOCKSTEP_SWEEP (R324): at once when core B has caught up, else when it does. -/
def execLockstepSweep (s : State) : Out :=
  .next (
    if !(s.monLock && s.mon.a.run && s.mon.a.fault.isNone) then s
    else if s.mon.lag.isEmpty then s.monSweep
    else s.setMon { s.mon with sweepDue := true })

/-- CLOCK_CHECK (R335): `ppm` is the departure of the RC oscillator from the reference. The check needs the reference. -/
def execClockCheck (ppm : Int) (s : State) : Out :=
  .next (
    if !s.clk.refOk || ppm.natAbs ≤ 40000 then s
    else s.each (if s.monSplit then [0, 1] else [0]) fun s i => s.monFault i 7 0)

/-- ADCM_CONVERSION (R328): channel `k`, or 8 for the check reference, samples a voltage in nV. -/
def execAdcmConversion (k : Nat) (nanovolts : Int) (s : State) : Out :=
  .next (
    if s.mon.accepted && (decide (k < s.adcmN) && decide (k < 8) || k == 8) then
      let raw := divNearest (8192 * (nanovolts - 1500000000)) 1500000000
      let code := clampInt (-8192) 8191 raw
      let w := word (unsigned 16 code + 2 ^ 16 + 2 ^ 17 * b2n (raw != code))
      s.setMon { s.mon with adcm := SMap.set (fun _ => 0) s.mon.adcm k w }
    else s)

/-! ### Off-pulse tests (R336, R337) -/

def State.optTest (s : State) (j : Nat) : Nat := SMap.get (fun _ => 0) s.mon.test j
def State.setOptTest (s : State) (j v : Nat) : State := s.setMon { s.mon with test := SMap.set (fun _ => 0) s.mon.test j v }

/-- OFF_PULSE_TEST_START (R336): an active output is driven safe, one output at a time, in split mode one of each channel. -/
def execOffPulseTestStart (j : Nat) (s : State) : Out :=
  .next (
    if j < 4 && s.mon.accepted && s.safety 0x14 2 != 0 && bit s.mon.out j &&
        (List.range 4).all (fun i => s.optTest i == 0 || s.monSplit && i % 2 != j % 2) then
      let s := s.setOptTest j 1
      s.setMon { s.mon with forced := putNatBit s.mon.forced j true, failed := putNatBit s.mon.failed j false }
    else s)

/-- OFF_PULSE_DROP_CHECK: the readback at OPT_LAT. -/
def execOffPulseDropCheck (j : Nat) (active : Bool) (s : State) : Out :=
  .next (if s.optTest j = 1 && active then s.setMon { s.mon with failed := putNatBit s.mon.failed j true } else s)

/-- OFF_PULSE_RETURN: at OPT_W the output returns to the commanded level. -/
def execOffPulseReturn (j : Nat) (s : State) : Out :=
  .next (
    if s.optTest j = 1 then
      let s := s.setOptTest j 2
      s.setMon { s.mon with forced := putNatBit s.mon.forced j false }
    else s)

/-- OFF_PULSE_RETURN_CHECK: the readback OPT_LAT later gives the result (R337); of two failures the later one (log 49). -/
def execOffPulseReturnCheck (j : Nat) (active : Bool) (s : State) : Out :=
  .next (
    if s.optTest j = 2 then
      let bad := bit s.mon.failed j
      let res := if !active then 3 else if bad then 2 else 1
      let s := s.setOptTest j 0
      let s := s.setMon { s.mon with
        optRes := s.mon.optRes - 4 ^ j * bits s.mon.optRes (2 * j) 2 + 4 ^ j * res,
        optCount := (s.mon.optCount + 1) % 256, failed := putNatBit s.mon.failed j false }
      if res = 1 then s else s.inc rMON_CNT_OPTFAIL
    else s)

/-- CONTACT_MISMATCH (R337), of RLY_A as 0 and RLY_B as 1: the mirror contact differs from the commanded state for longer than
RLY_T after the last change of command. -/
def execContactMismatch (j : Nat) (s : State) : Out :=
  .next (if j < 2 && bit s.mon.rb (4 + j) != bit s.mon.out (2 + j) &&
      decide (SMap.get (fun _ => 0) s.mon.relayAt j + 400000 * s.safety 0x1A 2 < s.clk.t) then s.setMon { s.mon with mismatch := putNatBit s.mon.mismatch j true } else s)

/-! ### Acceptance (R344, R345) -/

/-- The unused fields of a Monitor instruction word are 0 and its opcode is not reserved (R330). -/
def monWordLegal (w : Nat) : Bool :=
  let op := bits w 27 5
  let d := bits w 23 4 == 0
  let a := bits w 19 4 == 0
  let b := bits w 15 4 == 0
  let m := bits w 0 15 == 0
  if op = 0 ∨ op = 0x1A then d && a && b && m
  else if op ≤ 5 ∨ 0x0B ≤ op ∧ op ≤ 0x0E then m
  else if op ≤ 9 ∨ op = 0x0F ∨ op = 0x10 then b
  else if op = 0x0A ∨ op = 0x14 ∨ op = 0x16 ∨ op = 0x19 then a && b
  else if op = 0x11 ∨ op = 0x1B then d && a && b
  else if op = 0x12 ∨ op = 0x13 ∨ op = 0x17 ∨ op = 0x18 then d && b
  else if op = 0x15 then d && b && m
  else false

/-- The check of Table 14.8 on one safe transfer channel. -/
def stlFieldsOk (p : List Byte) (k : Nat) : Bool :=
  let o := 0x20 + 32 * k
  let f (a n : Nat) : Nat := field p (o + a) n
  bits (f 0 1) 4 4 == 0 && f 1 1 == 0 && f 0x18 8 == 0 &&
    decide (10 ≤ f 2 2) && decide (f 2 2 ≤ 10000) && decide (100 ≤ f 0x10 4) && decide (f 0x10 4 ≤ 1000000) &&
    decide (f 0x14 4 ≤ 100000)

/-- The checks of Table 14.8 on SAFETY_PARAMS, with ARCH of the program. -/
def safetyFieldsOk (p : List Byte) (arch : Nat) : Bool :=
  let f (a n : Nat) : Nat := field p a n
  p.length == 160 && f 0 1 == 1 && f 1 1 == arch && decide (10 ≤ f 2 2) && decide (f 2 2 ≤ 1000) &&
    decide (1 ≤ f 5 1) && decide (f 5 1 ≤ 16) && decide (f 8 2 ≤ 256) && decide (f 0x0A 1 ≤ 8) &&
    decide (f 0x0A 1 + 2 ≤ f 2 2) && f 0x0B 1 == 0 && (List.range 8).all (fun k => decide (f (0x0C + k) 1 ≤ 31)) &&
    (f 0x14 2 == 0 || decide (100 ≤ f 0x14 2) && decide (f 0x14 2 ≤ 60000)) && decide (20 ≤ f 0x16 2) &&
    decide (f 0x16 2 ≤ 1000) && decide (5 ≤ f 0x18 2) && decide (f 0x18 2 ≤ 500) && decide (f 0x18 2 < f 0x16 2) &&
    decide (1 ≤ f 0x1A 2) && decide (f 0x1A 2 ≤ 200) && f 0x1C 4 == 0 && (List.range 4).all (stlFieldsOk p)

/-- The safety configuration check value (R345). -/
def safetyCheckOf (prog params : List Byte) (cab : BitVec 1024) : Word :=
  word (crc32c (prog ++ params ++ leBytes 124 (cab.toNat % 2 ^ 992)))

/-- The first failing check of R344 in DETAIL order with its SECTION; none when all pass. -/
def State.monCheck (s : State) (prog params : Option (List Byte)) (expected : Word) : Option (Nat × Nat) :=
  let p := prog.getD []
  let q := params.getD []
  let nw := monNWords p
  let arch := monArch p
  let lenOk := decide (16 ≤ p.length) && p.length == 16 + 4 * nw + 4 * monNData p && decide (1 ≤ nw) &&
    decide (nw ≤ 8192) && decide (monNData p ≤ 2048) && (arch == 1 || arch == 2) && field p 9 7 == 0
  if !lenOk then some (1, 0x0A)
  else if !((List.range nw).all fun k => monWordLegal (field p (16 + 4 * k) 4)) then some (2, 0x0A)
  else if monEntryA p ≥ nw || arch == 2 && decide (monEntryB p ≥ nw) then some (3, 0x0A)
  else if !safetyFieldsOk q arch then some (4, 0x0B)
  else if arch == 1 && s.bootSplit then some (5, 0)
  else if field q 6 2 + field q 8 2 > 65536 then some (6, 0x0B)
  else if safetyCheckOf p q s.cab != expected then some (7, 0)
  else if s.mon.out != 0 || bits s.mon.rb 0 4 != 0 then some (8, 0)
  else none

/-! ### Commissioning slots (R346); one whose bytes all read 0xFF is invalid (R459) -/

def commSlotAt (i : Nat) : Nat := 0x00402100 + 0x40 * i
def State.commSlot (s : State) (i : Nat) : List Byte := s.bytes (commSlotAt i) 64
def State.commValid (s : State) (i : Nat) : Bool :=
  let b := s.commSlot i
  b.any (· != 0xFF) && crc32c (slice b 0 60) == field b 60 4
def State.commSeq (s : State) (i : Nat) : Nat := field (s.commSlot i) 0 4

/-- The valid slot with the newest SEQ. -/
def State.commNewest (s : State) : Option Nat :=
  match s.commValid 0, s.commValid 1 with
  | true, true => some (if aheadMod (2 ^ 32) (s.commSeq 0) (s.commSeq 1) then 1 else 0)
  | true, false => some 0
  | false, true => some 1
  | false, false => none

/-- SAF_COMM. -/
def State.commValue (s : State) : Word :=
  match s.commNewest with
  | some i => word (field (s.commSlot i) 4 4)
  | none => 0

/-- The Monitor accepts a program and its parameters (R344, R346): it halts, all outputs are safe, and the new program
starts at the next tick. While the Cabinet is invalid the default program stays (R44). -/
def State.monAccept (s : State) (prog params : List Byte) : State :=
  if !s.cabValid then s
  else
    let s := s.each [0, 1] fun s i => s.setCore i { s.core i with run := false, off := true }
    let s := s.each (List.range 4) fun s j => s.monCommand j false
    let check := safetyCheckOf prog params s.cab
    let split := s.bootSplit || s.monSplit
    (s.setMon { s.mon with
      prog := prog, accepted := true, startDue := true, mode := if split then 3 else 1, check := check,
      confirmed := s.commNewest.isSome && check == s.commValue, confirmAt := none, lag := [], splitReq := false,
      sweepDue := false, waitOut := [] }).monSync

/-- The default program starts at Tier 1 (R326). -/
def State.monBegin (s : State) : State := s.monSync

/-! ### Registers (Tables 14.12, 14.13) -/

def MonCore.faultWord (c : MonCore) : Word :=
  match c.fault with
  | some (cause, code, pc) => word (cause % 16 + 16 * (code % 256) + 4096 * (pc % 8192))
  | none => 0

def State.monStat (s : State) : Nat :=
  s.mon.mode % 4 + 4 * b2n s.mon.a.fault.isSome + 8 * b2n s.mon.b.fault.isSome + 32 * b2n s.refLoss +
    64 * b2n s.bootSplit + 128 * b2n s.mon.accepted

def State.safStat (s : State) : Nat := b2n s.mon.confirmed + 2 * b2n (decide (1 ≤ s.tier) && s.commNewest.isNone)

/-- The read-only words of the MON and SAF windows that state holds. -/
def State.monWord (s : State) (a : Nat) : Option Word :=
  if a = rMON_FAULT_A then some s.mon.a.faultWord
  else if a = rMON_FAULT_B then some s.mon.b.faultWord
  else if a = rMON_OUT then some (word (bits s.mon.out 0 4 + 16 * b2n s.monOff + 256 * bits s.mon.rb 0 6))
  else if a = rMON_OPT then some (word s.monOpt)
  else if a = rMON_USER_A then some s.mon.a.user
  else if a = rMON_USER_B then some s.mon.b.user
  else if a = rSAF_CHECK then some s.mon.check
  else if a = rSAF_COMM then some s.commValue
  else if rSAF_CH0_STAT ≤ a ∧ a ≤ rSAF_CH3_STAT then some (word (s.stl 0 ((a - rSAF_CH0_STAT) / 4)).status)
  else none

end Sys2Proof.Machine
end

