-- ==== Sys2Proof/Machine/Stl.lean ====
section
/-!
DEFINITION. The receiving side of the safe transfer layer (R338 to R340), and the confirmation of the safety
configuration (R347).
-/

namespace Sys2Proof.Machine

/-- Send time in ns: the 32-bit seconds extended to those that lie from 2^31 s before to 2^31 − 1 s after the stamp's
(R339). -/
def stlSendTime (b : List Byte) (stamp : Nat) : Int :=
  let now : Int := (stamp / 1000000000 : Nat)
  let d := signed 32 (((field b 0x0C 4 : Int) - now) % 2 ^ 32).toNat
  (now + d) * 1000000000 + field b 0x10 4

/-- The rejection reason of channel `k` of core `i` for a frame's payload, or none when it passes (R339). In SYNC the
sequence number is not checked (R340). -/
def State.stlJudge (s : State) (i k : Nat) (b : List Byte) (stamp : Nat) (valid : Bool) : Option Nat :=
  let o := 0x20 + 32 * k
  let x := s.stl i k
  let age : Int := stamp - stlSendTime b stamp
  if b.length < 32 then some 8
  else if crc32cKey (s.safety (o + 0xC) 4) (slice b 0 28) ≠ field b 28 4 then some 1
  else if field b 4 4 ≠ s.safety (o + 4) 4 ∨ field b 8 4 ≠ s.safety (o + 8) 4 then some 2
  else if field b 0 1 ≠ 1 ∨ field b 1 1 ≠ 1 then some 3
  else if s.stlFlag k 1 && !valid then some 7
  else if valid && decide (age > 1000 * (s.safety (o + 0x10) 4 : Int)) then some 5
  else if valid && decide (-age > 1000 * (s.safety (o + 0x14) 4 : Int)) then some 6
  else
    let d := (field b 2 2 + 65536 - x.lastSeq % 65536) % 65536
    if !x.sync && !(decide (1 ≤ d) && decide (d ≤ 8)) then some 4 else none

/-- The last frame of channel `k` of core `i` is older than TOUT (R340). -/
def State.stlOld (s : State) (i k : Nat) : Bool :=
  let x := s.stl i k
  !x.sync && decide (x.since + 400000 * s.safety (0x22 + 32 * k) 2 < s.clk.t)

/-- Channel `k` times out at both cores and is in SYNC again (R340). -/
def State.stlTimeout (s : State) (k : Nat) : State :=
  let s := s.each [0, 1] fun s i => s.setStl i k { s.stl i k with sync := true, ok := false, timeout := true }
  (s.setBit rSAF_STAT 4).inc rSAF_CNT_TOUT

/-- Channel `k` of core `i` takes a frame. -/
def State.stlTake (s : State) (i k : Nat) (b : List Byte) (stamp : Nat) (valid : Bool) : State :=
  let x := s.stl i k
  match s.stlJudge i k b stamp valid with
  | some r =>
    let s := s.setStl i k { x with reason := r }
    if i = 0 then (s.setBit rSAF_STAT 3).inc rSAF_CNT_REJ else s
  | none =>
    let y := { x with sync := false, lastSeq := field b 2 2, notime := !valid, since := s.clk.t }
    s.setStl i k (if x.sync then y else
      { y with ok := true, timeout := false, delivered := (x.delivered + 1) % 256, data0 := word (field b 0x14 4),
               data1 := word (field b 0x18 4) })

/-- A safety frame's payload arrives with its receive stamp (R338, R339). A timeout that falls on the same edge comes first
(Table 14.11). -/
def State.stlReceive (s : State) (b : List Byte) (stamp : Nat) (valid : Bool) : State :=
  if !s.mon.accepted then s
  else s.each ((List.range 4).filter s.stlOn) fun s k =>
    let s := if s.stlOld 0 k then s.stlTimeout k else s
    s.each [0, 1] fun s i => s.stlTake i k b stamp valid

/-- SAFE_CHANNEL_TIMEOUT (R340). -/
def execSafeChannelTimeout (k : Nat) (s : State) : Out :=
  .next (if k < 4 && s.mon.accepted && s.stlOn k && s.stlOld 0 k then s.stlTimeout k else s)

/-- Every leg group is STOPPED. -/
def State.allStopped (s : State) : Bool := (List.range 8).all fun g => (s.grp g).st == .stopped

/-- An acceptance is pending: a staged safety section waits for its commit, or the program accepted has not started. -/
def State.acceptPending (s : State) : Bool :=
  s.mon.startDue || s.img.pend.isSome && match s.img.staged with
    | some x => x.secs.any fun y => y.type == secMonProg || y.type == secSafety
    | none => false

/-- A confirmation write is refused. -/
def State.confirmRefuse (s : State) : State := (s.setMon { s.mon with confirmAt := none }).setBit rSAF_STAT 2

/-- SAF_CONFIRM (R347): the first write of a confirmation. -/
def execSafConfirm (w : Word) (s : State) : Out :=
  .next (
    if s.mon.accepted && w == s.mon.check && s.allStopped && !s.acceptPending && s.mon.confirmAt.isNone then
      s.setMon { s.mon with confirmAt := some s.clk.t }
    else s.confirmRefuse)

/-- The second write of a confirmation, within 10 s of the first: the value goes to the older slot with the next SEQ, and
CONFIRMED is set. -/
def State.confirmInv (s : State) (w : Word) : State :=
  match s.mon.confirmAt with
  | none => s.confirmRefuse
  | some t =>
    if w == ~~~s.mon.check && s.allStopped && !s.acceptPending && decide (s.clk.t ≤ t + 4000000000) then
      let i := match s.commNewest with
        | some j => 1 - j
        | none => 0
      let seq := match s.commNewest with
        | some j => (s.commSeq j + 1) % 2 ^ 32
        | none => 1
      let b := leBytes 4 seq ++ leBytes 4 s.mon.check.toNat ++ leBytes 8 (s.wallNs / 1000000000) ++
        leBytes 4 (s.wallNs % 1000000000) ++ List.replicate 40 0
      let s := s.setBytes (commSlotAt i) (b ++ leBytes 4 (crc32c b))
      s.setMon { s.mon with confirmed := true, confirmAt := none }
    else s.confirmRefuse

end Sys2Proof.Machine
end

