-- ==== Sys2Proof/Machine/Eth.lean ====
section
/-!
DEFINITION. The two MACs (R312 to R316): reception and the host ring, transmit queues and launches; and the wall time
that a Trestle member takes from the ring (R302, R357).
-/

namespace Sys2Proof.Machine

def State.setEth (s : State) (x : Eth) : State := { s with eth := x }

/-- SAF_ETYPE: 0 selects 0x88B5. -/
def State.safEtype (s : State) : Nat :=
  let e := s.net 2 2 0x88B5
  if e = 0 then 0x88B5 else e

/-! ### Reception (R312, R313) -/

/-- The frame carries one 802.1Q tag. -/
def ethTagged (b : List Byte) : Bool := beNat (slice b 12 2) == 0x8100
/-- The EtherType, behind a tag. -/
def ethType (b : List Byte) : Nat := beNat (slice b (if ethTagged b then 16 else 12) 2)
def ethVid (b : List Byte) : Nat := beNat (slice b 14 2) % 4096
def ethPayload (b : List Byte) : List Byte := b.drop (if ethTagged b then 18 else 14)

/-- The slots whose domain and MAC a PTP event or Announce message carries. -/
def State.ptpSlotsOf (s : State) (mac : Nat) (b : List Byte) : List Nat :=
  [0, 1].filter fun k => s.slotOn k && s.slotMac k == mac && s.slotDomain k == ptpDomain b

/-- What TIM consumes (Tables 13.2, 13.4): 1 a message of a slot's domain, 2 a peer delay message. -/
def State.ptpKind (s : State) (mac : Nat) (b : List Byte) : Nat :=
  let m := ethPayload b
  let da := beNat (slice b 0 6)
  let t := ptpType m
  if ethType b ≠ 0x88F7 ∨ (ethTagged b && !s.netFlag 6) ∨ !ptpVersionOk m then 0
  else if (t = 0 ∨ t = 8 ∨ t = 0xB) ∧ da = 0x011B19000000 ∧ s.ptpSlotsOf mac m ≠ [] then 1
  else if (t = 2 ∨ t = 3 ∨ t = 0xA) ∧ da = 0x0180C200000E then 2
  else 0

/-- Filter entry `i` (Table 13.7): its CTRL word, or a field of it. -/
def State.filterCtl (s : State) (i : Nat) : Nat := s.net (0xA0 + 16 * i) 2 0

/-- A filter entry matches. -/
def State.filterHit (s : State) (mac : Nat) (b : List Byte) (i : Nat) : Bool :=
  let c := s.filterCtl i
  let o := 0xA0 + 16 * i
  let da := slice (s.sec secNetwork) (o + 6) 6
  bit c 0 && bit c (5 + mac) && (!bit c 1 || slice b 0 6 == da) && (!bit c 2 || ethType b == s.net (o + 2) 2 0) &&
    (!bit c 3 || ethTagged b && ethVid b == s.net (o + 4) 2 0 % 4096)

def State.rxN (s : State) : Nat := s.net 0x54 2 0
def State.rxBase (s : State) : Nat := sramBase + s.net 0x50 4 0

/-- A frame for the host ring (R313): the frame, then its descriptor with FULL. -/
def State.hostFrame (s : State) (f : EthFrame) (stamp : Nat) (copy : Bool) (entry : Nat) : State :=
  if s.rxN = 0 then s
  else
    let i := s.eth.rxWp
    let d := s.rxBase + 32 * i
    if (s.byte d).getLsbD 0 then (s.inc rETH_CNT_RXDROP).setBit rETH_STAT 2
    else
      let flags := 1 + 2 * f.mac + 4 * b2n (ethTagged f.bytes) + 8 * b2n copy + 16 * b2n s.tim.valid + 256 * entry
      let s := s.setBytes (s.rxBase + 32 * s.rxN + 1536 * i) f.bytes
      let s := s.setBytes d (leBytes 2 flags ++ leBytes 2 f.bytes.length ++ leBytes 8 (stamp / 1000000000) ++
        leBytes 4 (stamp % 1000000000) ++ List.replicate 16 0)
      s.setEth { s.eth with rxWp := (i + 1) % s.rxN }

/-- Rows 4 and 5 of Table 13.4. -/
def State.ethFilter (s : State) (f : EthFrame) (stamp : Nat) : State :=
  match (List.range 16).find? (s.filterHit f.mac f.bytes) with
  | some i => if bit (s.filterCtl i) 4 then s.inc rETH_CNT_FILT else s.hostFrame f stamp false i
  | none => if s.netFlag 7 then s.inc rETH_CNT_FILT else s.hostFrame f stamp false 15

/-- ETH_FRAME_RECEIVE (R312). -/
def execEthFrameReceive (f : EthFrame) (s : State) : Out :=
  .next (
    let n := f.bytes.length + 4
    if 2 ≤ f.mac || !s.macRuns f.mac then s
    else if !f.good then s.inc rETH_CNT_CRC
    else if n < 64 || 1522 < n then s
    else
      let s := s.inc (rETH_CNT_RX0 + 4 * f.mac)
      let stamp := s.wallNs - f.age - s.rxLat f.mac
      if ethType f.bytes = s.safEtype then
        (s.inc rETH_CNT_SAF).stlReceive (ethPayload f.bytes) stamp s.tim.valid
      else
        let k := s.ptpKind f.mac f.bytes
        if k = 0 then s.ethFilter f stamp
        else
          let m := ethPayload f.bytes
          let s := s.inc rETH_CNT_PTP
          let s := if s.netFlag 5 then s.hostFrame f stamp true 15 else s
          if k = 1 then s.each (s.ptpSlotsOf f.mac m) fun s j => s.ptpSlotMsg j stamp m
          else s.pdelayMsg f.mac stamp m)

/-! ### Transmit queues (R314 to R316) -/

def TxQueue.zero : Nat → TxQueue := fun _ => {}
def State.txq (s : State) (q : Nat) : TxQueue := SMap.get TxQueue.zero s.eth.queue q
def State.setTxq (s : State) (q : Nat) (x : TxQueue) : State :=
  s.setEth { s.eth with queue := SMap.set TxQueue.zero s.eth.queue q x }

/-- The MAC and the mode of a queue: 0 IMMEDIATE, 1 TIMED, 2 EVT. -/
def TxQueue.mac (x : TxQueue) : Nat := bits x.cfg 0 1
def TxQueue.mode (x : TxQueue) : Nat := bits x.cfg 1 2

/-- The address of a descriptor, counted from the queue's next. -/
def TxQueue.desc (x : TxQueue) (ahead : Nat) : Nat := sramBase + x.base + 32 * ((x.rp + ahead) % max 1 x.n)

def State.descReady (s : State) (a : Nat) : Bool := (s.byte a).getLsbD 0

/-- The descriptor at an address is done: RESULT and, after a launch, its stamp; READY clears last. The queue moves on if
the descriptor is its next. -/
def State.descDone (s : State) (q a result : Nat) (stamp : Option Nat) : State :=
  let x := s.txq q
  let s := s.setBytes (a + 0x14) (leBytes 4 result)
  let s := match stamp with
    | some t => s.setBytes (a + 0x18) (leBytes 4 (t / 1000000000 % 2 ^ 32) ++ leBytes 4 (t % 1000000000))
    | none => s
  let s := s.setByte a (s.byte a &&& 0xFE)
  if x.n ≠ 0 ∧ x.desc 0 = a then s.setTxq q { x with rp := (x.rp + 1) % max 1 x.n } else s

/-- The descriptor's frame lies in the host-visible partition and its length in 14 to 1,518 bytes. -/
def State.descOk (s : State) (a : Nat) : Bool :=
  let len := leNat (s.bytes (a + 2) 2)
  let buf := sramBase + leNat (s.bytes (a + 4) 4)
  decide (14 ≤ len) && decide (len ≤ 1518) && hostVisible s.partitions buf len

/-- Skips READY descriptors that cannot be sent, at most `fuel` of them. -/
def State.txSkip (s : State) (q : Nat) : Nat → State
  | 0 => s
  | fuel + 1 =>
    let x := s.txq q
    let a := x.desc 0
    if x.n = 0 || !x.rung then s
    else if !s.descReady a then s.setTxq q { x with rung := false }
    else if s.descOk a then s
    else ((s.descDone q a 3 none).setBit rETH_STAT 4).txSkip q fuel

/-- The queue's next descriptor is READY. -/
def State.txReady (s : State) (q : Nat) : Bool := (s.txq q).n != 0 && (s.txq q).rung && s.descReady ((s.txq q).desc 0)

/-- TXQ_DOORBELL (R314). -/
def execTxqDoorbell (mask : BitVec 8) (s : State) : Out :=
  .next (s.each ((List.range 8).filter mask.getLsbD) fun s q =>
    if (s.txq q).n = 0 then s else (s.setTxq q { s.txq q with rung := true }).txSkip q (s.txq q).n)

/-- The release of an EVT-mode queue's next READY descriptor at a launch time (R315). -/
def State.ethLaunch (s : State) (q t : Nat) : State :=
  let x := s.txq q
  let a := x.desc x.launches.length
  if 8 ≤ q || x.mode ≠ 2 then s
  else if x.launches.length < x.n && x.rung && s.descReady a then s.setTxq q { x with launches := x.launches ++ [t] }
  else s.setBit rETH_STAT 5

/-- A MAC starts a frame. -/
def State.txStart (s : State) (mac : Nat) (j : TxJob) : State :=
  s.setMac mac { s.macSt mac with tx := some (j, s.wallNs + s.txLat mac) }

/-- The launch time of a TIMED or EVT queue's next frame: its descriptor's, or the one that an ETH_LAUNCH gave (R315). -/
def State.launchAt (s : State) (q : Nat) : Option Nat :=
  let x := s.txq q
  if x.mode = 0 || !s.txReady q then none
  else if x.mode = 2 then x.launches.head?
  else some (leNat (s.bytes (x.desc 0 + 8) 8) * 1000000000 + leNat (s.bytes (x.desc 0 + 0x10) 4))

/-- The next frame with a launch time on a MAC, by ascending launch time, then queue number (R316): its time and queue. -/
def State.nextDue (s : State) (mac : Nat) : Option (Nat × Nat) :=
  ((List.range 8).filter fun q => (s.txq q).mac == mac).foldl (fun b q => match s.launchAt q, b with
    | some t, some x => if aheadMod wallMod t x.1 then some (t, q) else b
    | some t, none => some (t, q)
    | none, _ => b) none

/-- The data rate of a MAC in Mb/s, from the in-band status where it follows that. -/
def State.macMbps (s : State) (mac : Nat) : Nat :=
  let c := (s.reg (rETH_M0_CTL + 4 * mac)).toNat
  10 ^ (1 + min 2 (if bit c 2 then bits (s.macSt mac).link 1 2 else bits c 0 2))

/-- The preamble, the frame with its FCS and the 12-byte gap end before the next launch due on the MAC (R316). -/
def State.launchFits (s : State) (mac len : Nat) : Bool :=
  match s.nextDue mac with
  | some x => aheadMod wallMod (s.wallNs + (8 + max 60 len + 4 + 12) * 8000 / s.macMbps mac) x.1
  | none => true

/-- TIMED_LAUNCH (R315, R316): the frame that is due next on its MAC starts where it is queue `q`'s. It leaves within 8 ns of
its launch time, else it is late. -/
def execTimedLaunch (q : Nat) (s : State) : Out :=
  .next (
    let x := s.txq q
    let a := x.desc 0
    match s.nextDue x.mac with
    | none => s
    | some d =>
    if 8 ≤ q || d.2 != q || !s.macRuns x.mac || (s.macSt x.mac).tx.isSome || aheadMod wallMod (s.wallNs + 8) d.1 then s
    else
      let late := aheadMod wallMod (d.1 + 8) s.wallNs
      let s := if x.mode = 2 then s.setTxq q { x with launches := x.launches.drop 1 } else s
      let s := if late then (s.inc rETH_CNT_LATE).setBit rETH_STAT 3 else s
      if late && (s.byte a).getLsbD 1 then (s.descDone q a 3 none).txSkip q x.n
      else s.txStart x.mac (.queue q late a))

/-- IMMEDIATE_TRANSMIT (R316): the frames of TIM and of the Monitor, then the IMMEDIATE queues from 7 down; a frame that
would not end before the next launch due waits (log 48). -/
def execImmediateTransmit (mac : Nat) (s : State) : Out :=
  .next (
    let m := s.macSt mac
    if 2 ≤ mac || !s.macRuns mac || m.tx.isSome then s
    else match m.ptp, m.safety with
      | b :: rest, _ =>
        if s.launchFits mac b.length then (s.setMac mac { m with ptp := rest }).txStart mac (.ptp b) else s
      | [], b :: rest =>
        if s.launchFits mac b.length then (s.setMac mac { m with safety := rest }).txStart mac (.safety b) else s
      | [], [] =>
        match ((List.range 8).reverse).find? fun q => (s.txq q).mac == mac && (s.txq q).mode == 0 && s.txReady q with
        | some q =>
          let a := (s.txq q).desc 0
          if s.launchFits mac (leNat (s.bytes (a + 2) 2)) then s.txStart mac (.queue q false a) else s
        | none => s)

/-- The first waiting Pdelay_Resp_Follow_Up takes the launch stamp of its response (R305). -/
def stampFollowUp (t : Nat) : List (List Byte) → List (List Byte)
  | [] => []
  | b :: rest =>
    if ptpType b = 10 && slice b 34 10 == ptpStamp 0 then (b.take 34 ++ ptpStamp t ++ b.drop 44) :: rest
    else b :: stampFollowUp t rest

/-- FRAME_LAUNCHED (R314): RESULT and the launch stamp of a queue's frame; the stamps of peer delay messages. -/
def execFrameLaunched (mac : Nat) (s : State) : Out :=
  .next (
    match (if s.clk.ethLock then (s.macSt mac).tx else none) with
    | none => s
    | some (j, t) =>
      let s := s.setMac mac { s.macSt mac with tx := none }
      match j with
      | .ptp b =>
        if ptpType b = 2 then s.setPeer mac { s.peer mac with t1 := some t }
        else if ptpType b = 3 then s.setMac mac { s.macSt mac with ptp := stampFollowUp t (s.macSt mac).ptp }
        else s
      | .safety _ => s
      | .queue q late a => (s.descDone q a (if late then 2 else 1) (some t)).txSkip q (s.txq q).n)

/-- The READY descriptors of a removed queue are dropped with RESULT 11 (Table 13.8). -/
def State.txDrop (s : State) (q : Nat) : Nat → State
  | 0 => s
  | fuel + 1 => if s.txReady q then (s.descDone q ((s.txq q).desc 0) 3 none).txDrop q fuel else s

/-- The frame that a MAC is sending comes from a descriptor. -/
def State.txSending (s : State) (a : Nat) : Bool :=
  [0, 1].any fun m => match (s.macSt m).tx with
    | some (.queue _ _ d, _) => d == a
    | _ => false

/-- A NETWORK commit takes the new queues into force; `old` is the receive ring that was in force. A queue that it does not
change keeps its place, and a frame that is being sent its descriptor. A receive ring that it changes begins again at its
first descriptor (log 48). -/
def State.ethCommit (s : State) (old : Nat × Nat) : State :=
  let s := if old = (s.rxBase, s.rxN) then s else s.setEth { s.eth with rxWp := 0 }
  s.each (List.range 8) fun s q =>
    let o := 0x58 + 8 * q
    let base := s.net o 4 0
    let n := s.net (o + 4) 1 0
    let cfg := s.net (o + 5) 1 0
    let x := s.txq q
    if x.base = base && x.n = n then
      s.setTxq q { x with cfg := cfg, launches := if bits cfg 1 2 = 2 then x.launches else [] }
    else
      let s := if s.txSending (x.desc 0) then s.setTxq q { x with rp := (x.rp + 1) % max 1 x.n } else s
      (s.txDrop q x.n).setTxq q { base := base, n := n, cfg := cfg, rung := x.rung && n != 0 }

/-! ### Wall time over the ring (R353, R357) -/

/-- TIME_SEND (R353): seconds, nanoseconds, estimated error, TIM state and source. -/
def execTimeSend (s : State) : Out :=
  .next (
    if s.holds 1 then
      let err := match s.timErr with
        | some e => word (min 0xFFFFFFFF (divOpen 115 e (2 ^ 150)).toNat)
        | none => s.takeFree.1
      let s := if s.timErr.isNone then s.takeFree.2 else s
      s.trsSend 0x06 (s.role 1).epoch 0
        (leBytes 8 (s.wallNs / 1000000000) ++ leBytes 4 (s.wallNs % 1000000000) ++ leBytes 4 err.toNat ++
          leBytes 1 (s.tim.st + 8 * s.tim.src))
    else s)

/-- TIME_FRAME (R357): the offset of wall time from the master's at the frame's transmit point. -/
def execTimeFrame (f : TrsFrame) (s : State) : Out :=
  .next (
    if f.type ≠ 6 then s
    else if !s.roleAccepts 1 f then s.stale
    else
      let at0 : Int := (field f.payload 0 8 * 1000000000 + field f.payload 8 4 : Nat)
      let off : Int := (s.tim.wall / 65536 : Nat) - ((f.accd + s.linkDelay f.ringB) * 1024 : Nat) - at0 * 65536
      let s := s.setTim { s.tim with
        trsOk := true, trsFrom := if s.tim.trsOk then s.tim.trsFrom else some s.clk.t, trsOff := off, trsErr := field f.payload 12 4 + 10 }
      s.timOffset 2 off)

/-! ### NETWORK checks (R320) -/

/-- The trace rings that LOOP_PROG uses: base and length. -/
def State.traceAreas (s : State) : List (Nat × Nat) :=
  if !s.hasSec secLoopProg then []
  else (List.range 4).filterMap fun u =>
    if s.trcBase u = 0xFFFFFFFF then none else some (sramBase + s.trcBase u, 16 * s.trcSize u)

/-- Two areas share a byte. -/
def areasMeet (a b : Nat × Nat) : Bool :=
  decide (a.2 ≠ 0) && decide (b.2 ≠ 0) && decide (a.1 < b.1 + b.2) && decide (b.1 < a.1 + a.2)

/-- The synchrophasor ring of METER, of 96-byte records, and its pair of harmonic buffers. -/
def State.meterAreas (s : State) : List (Nat × Nat) :=
  (if s.pmuMode = 0 then [] else [(sramBase + s.meter 0x28 4, 96 * s.meter 0x2C 2)]) ++
    (if s.harmOn then [(sramBase + s.meter 0x30 4, 6112)] else [])

/-- The rings of NETWORK: the receive ring with its buffers and the transmit rings. -/
def State.netAreas (s : State) : List (Nat × Nat) :=
  (if s.rxN = 0 then [] else [(s.rxBase, 1568 * s.rxN)]) ++
    (List.range 8).filterMap fun q =>
      let n := s.net (0x5C + 8 * q) 1 0
      if n = 0 then none else some (sramBase + s.net (0x58 + 8 * q) 4 0, 32 * n)

/-- Two different entries of a list meet. -/
def anyMeet : List (Nat × Nat) → Bool
  | [] => false
  | a :: l => l.any (areasMeet a) || anyMeet l

/-- A binary32 word that is a number of at least 0. -/
def nonNegFloat (w : Nat) : Bool := decide (w < 0x7F800000) || decide (w = 0x80000000)
/-- A binary32 word that is a number. -/
def finiteFloat (w : Nat) : Bool := bits w 23 8 != 255

def State.checkNetwork (s : State) : List (Nat × Bool) :=
  let p := s.sec secNetwork
  let f := fun off n => field p off n
  let between := fun (lo x hi : Nat) => decide (lo ≤ x) && decide (x ≤ hi)
  let qs := List.range 8
  let fs := List.range 16
  let rangeBad :=
    decide (255 < f 0 2) || f 0 2 / 4 % 4 == 3 ||
    !(f 2 2 == 0 || decide (0x600 ≤ f 2 2) && f 2 2 != 0x88F7) || decide (1023 < f 4 4) || decide (1023 < f 8 4) ||
    !between 100 (f 0xC 4) 1000000000 || !between 10 (f 0x10 4) 10000 || decide (f 0x14 4 < 10 * f 0x10 4) ||
    !between 10 (f 0x18 4) 10000 || !between 1 (f 0x1C 2) 1000 || decide (f 0x24 4 < f 0x20 4) ||
    !nonNegFloat (f 0x28 4) || !nonNegFloat (f 0x2C 4) || [0x30, 0x34, 0x38].any (fun o => !finiteFloat (f o 4)) ||
    [0x3C, 0x3E, 0x40, 0x42].any (fun o => decide (2000 < f o 2)) || bit (f 0x44 1) 0 || bit (f 0x4A 1) 0 ||
    (f 0x54 2 != 0 && (!between 4 (f 0x54 2) 256 || f 0x50 4 % 32 != 0)) || f 0x56 2 != 0 || !zeros p 0x98 8 ||
    qs.any (fun q => let o := 0x58 + 8 * q; f (o + 4) 1 == 1 || decide (7 < f (o + 5) 1) || bits (f (o + 5) 1) 1 2 == 3 ||
      f (o + 6) 2 != 0 || f o 4 % 32 != 0) ||
    fs.any (fun i => let o := 0xA0 + 16 * i; decide (127 < f o 2) || decide (4095 < f (o + 4) 2) || !zeros p (o + 12) 4)
  let macOff := fun m => !bit (f 0 2) m
  let rings := s.netAreas
  [ (1, p.length != 416)
  , (2, rangeBad)
  , (3, (List.range 2).any (fun k => bit (f (4 + 4 * k) 4) 9 && macOff (bits (f (4 + 4 * k) 4) 8 1)) ||
      qs.any (fun q => f (0x5C + 8 * q) 1 != 0 && macOff (bits (f (0x5D + 8 * q) 1) 0 1)) ||
      fs.any (fun i => bit (f (0xA0 + 16 * i) 2) 0 && (List.range 2).any fun m => bit (f (0xA0 + 16 * i) 2) (5 + m) && macOff m) ||
      (decide (bits (f 0 2) 2 2 < 2) && !bit (f (4 + 4 * bits (f 0 2) 2 2) 4) 9))
  , (4, rings.any (fun a => !hostVisible s.partitions a.1 a.2) || anyMeet rings ||
      rings.any fun a => (s.traceAreas ++ s.meterAreas).any (areasMeet a))
  , (5, bit (f 4 4) 9 && bit (f 8 4) 9 && bits (f 4 4) 0 9 == bits (f 8 4) 0 9)
  , (6, s.hasSec secSched && (List.range s.nEntries).any fun i =>
      s.entryAction i == 7 && bits (f (0x58 + 8 * (s.entryArg i % 8) + 5) 1) 1 2 != 2) ]

/-- The words of the ETH window that follow from the state (Table 13.11). -/
def State.ethWord (s : State) (a : Nat) : Option Word :=
  if a = rETH_M0_LINK then some (word (s.macSt 0).link)
  else if a = rETH_M1_LINK then some (word (s.macSt 1).link)
  else if a = rETH_RX_WP then some (word s.eth.rxWp)
  else if rETH_Q0_RP ≤ a ∧ a ≤ rETH_Q7_RP then some (word (s.txq ((a - rETH_Q0_RP) / 4)).rp)
  else none

/-- The read-only bits of ETH_STAT. -/
def State.ethStat (s : State) : Nat := bits (s.macSt 0).link 0 1 + 2 * bits (s.macSt 1).link 0 1

end Sys2Proof.Machine
end

