-- ==== Sys2Proof/Machine/Lif.lean ====
section
/-!
DEFINITION. Lifetime and spares (R393 to R405): the junction-temperature model, the rainflow count and damage, LIFE
records, SRAM rows and their spares, and the spare log.
-/

namespace Sys2Proof.Machine

/-! ### The LIFETIME section -/

def State.lifOn (s : State) : Bool := s.hasSec secLifetime
def State.lifField (s : State) (off n : Nat) : Nat := field (s.sec secLifetime) off n
/-- Where position `p`'s entry begins. -/
def lifEntry (p : Nat) : Nat := 32 + 2736 * p
def State.lifPosOn (s : State) (p : Nat) : Bool := s.lifOn && bit (s.lifField (lifEntry p) 1) 0
/-- A binary32 word of a position's entry. -/
def State.lifWordAt (s : State) (p off : Nat) : Word := word (s.lifField (lifEntry p + off) 4)
/-- Where the matrices lie. -/
def State.rfBase (s : State) : Nat := sramBase + s.lifField 4 4

def State.setLif (s : State) (x : Lif) : State := { s with lif := x }

/-! ### Exact fractions -/

/-- An exact number as numerator and positive denominator. -/
abbrev Frac := Int × Nat

def fracAdd (a b : Frac) : Frac := (a.1 * b.2 + b.1 * a.2, a.2 * b.2)
def fracMul (a b : Frac) : Frac := (a.1 * b.1, a.2 * b.2)
/-- The exact value of a binary32 word. -/
def fracOf (w : Word) : Frac := (ratOf w, 2 ^ 149)
/-- 1 − a. -/
def fracFrom1 (a : Frac) : Frac := ((a.2 : Int) - a.1, a.2)
def fracDelta (a b : Frac) : Frac := fracAdd a (-b.1, b.2)

/-! ### Loss and junction temperature (R394) -/

/-- The interval of a 16-point axis at `off` that holds |w|, clamped at the end points: its lower index, and how far into
it the value lies. -/
def State.lifAxis (s : State) (p off : Nat) (w : Word) : Nat × Frac :=
  let at0 := fun k => ratOf (s.lifWordAt p (off + 4 * k))
  let x : Int := match fToRat (fAbs w) with
    | some v => v
    | none => at0 15
  let x := max (at0 0) (min (at0 15) x)
  let k := ((List.range 15).filter fun j => decide (at0 j ≤ x)).getLast?.getD 0
  (k, (x - at0 k, (at0 (k + 1) - at0 k).toNat))

/-- A table of 16 × 16 entries interpolated bilinearly. -/
def State.lifTable (s : State) (p off : Nat) (i v : Nat × Frac) : Frac :=
  let e := fun a b => fracOf (s.lifWordAt p (off + 4 * (16 * a + b)))
  let row := fun a => fracAdd (fracMul (fracFrom1 v.2) (e a v.1)) (fracMul v.2 (e a (v.1 + 1)))
  fracAdd (fracMul (fracFrom1 i.2) (row i.1)) (fracMul i.2 (row (i.1 + 1)))

/-- The loss at the inputs, from the junction temperature of the step before. -/
def State.lifLoss (s : State) (p : Nat) (tj : Word) : Frac :=
  let x := fun k => SMap.get zeroWord s.lif.inp (0x3A0 + 4 * p + k)
  let c := fun off => fracOf (s.lifWordAt p off)
  let i := s.lifAxis p 0x30 (x 0)
  -- V is not taken as a magnitude: below the axis it clamps at its first point
  let v := if (x 1).getLsbD 31 then (0, ((0 : Int), 1)) else s.lifAxis p 0x70 (x 1)
  let rise := fracDelta (fracOf tj) (c 4)
  let term := fun (k : Frac) (tc : Frac) => fracMul k (fracAdd (1, 1) (fracMul tc rise))
  let pc := term (fracMul (fracOf (x 2)) (s.lifTable p 0xB0 i v)) (c 8)
  let sw := term (fracMul (fracOf (x 3)) (s.lifTable p 0x4B0 i v)) (c 12)
  let sum := fracAdd pc sw
  if sum.1 < 0 then (0, 1) else sum

/-- The inputs are such that the manual states a loss: D and FSW finite, I and V no NaN. -/
def State.lifInputsOk (s : State) (p : Nat) (tj : Word) : Bool :=
  let x := fun k => SMap.get zeroWord s.lif.inp (0x3A0 + 4 * p + k)
  !(fDecode (x 0)).1.isNan && !(fDecode (x 1)).1.isNan && (fToRat (x 2)).isSome && (fToRat (x 3)).isSome &&
    (fToRat tj).isSome

/-- One stage: z = a z + R P (1 − a). -/
def State.lifStage (s : State) (p k : Nat) (z loss : Word) : Word :=
  let a := fracOf (Config.fosterDecay (s.lifWordAt p (0x20 + 4 * k)))
  let r := fracOf (s.lifWordAt p (0x10 + 4 * k))
  let x := fracAdd (fracMul a (fracOf z)) (fracMul (fracMul r (fracOf loss)) (fracFrom1 a))
  fOpen 91 x.1 x.2

/-! ### Rainflow (R395 to R397) -/

/-- Damage of one cycle of a range and mean, over 2^149, `half` or full, rounded to nearest. -/
def State.lifDamage (s : State) (p rBin mBin : Nat) (half : Bool) : Nat :=
  let x := ratOf (s.lifWordAt p (0x8B0 + 4 * rBin)) * ratOf (s.lifWordAt p (0x9B0 + 4 * mBin))
  (divNearest (x * 2 ^ 48) ((if half then 2 else 1) * 2 ^ 298)).toNat

/-- RAINFLOW_CYCLE: a cycle between two reversals is counted. -/
def State.lifCount (s : State) (p : Nat) (b c : Int) (half : Bool) : State :=
  let range := (b - c).natAbs
  let rBin := min 63 (range / (2 * 2 ^ 149))
  let mBin := (clampInt 0 63 ((b + c + 80 * 2 ^ 149) / (6 * 2 ^ 149))).toNat
  let a := s.rfBase + 16384 * p + 4 * (64 * rBin + mBin)
  let n := (s.memWord a).toNat + (if half then 1 else 2)
  let s := s.setMemWord a (word (min 0xFFFFFFFF n))
  let s := if n > 0xFFFFFFFF then (s.setBit rLIF_SAT p).setBit rLIF_STAT 2 else s
  let x := s.lifPos p
  s.setLifPos p { x with dmg := min (2 ^ 64 - 1) (x.dmg + s.lifDamage p rBin mBin half) }

/-- Counts the full cycles that the four newest reversals close. -/
def State.lifClose (s : State) (p : Nat) : Nat → State
  | 0 => s
  | fuel + 1 =>
    match (s.lifPos p).stack with
    | d :: c :: b :: a :: rest =>
      if (b - c).natAbs ≤ (a - b).natAbs ∧ (b - c).natAbs ≤ (c - d).natAbs then
        ((s.setLifPos p { s.lifPos p with stack := d :: a :: rest }).lifCount p b c false).lifClose p fuel
      else s
    | _ => s

/-- A new reversal. At a full stack the two oldest count as a half cycle and the oldest goes. -/
def State.lifReversal (s : State) (p : Nat) (r : Int) : State :=
  let x := s.lifPos p
  let s := if x.stack.length < 64 then s
    else
      let a := x.stack.getD 63 0
      let b := x.stack.getD 62 0
      ((s.setLifPos p { x with stack := x.stack.take 63 }).lifCount p a b true).inc rLIF_CNT_RFOVF
  let x := s.lifPos p
  (s.setLifPos p { x with stack := r :: x.stack }).lifClose p 64

/-- Tj, exact over 2^149, reaches the reversal detector. -/
def State.lifTrack (s : State) (p : Nat) (t : Int) : State :=
  let x := s.lifPos p
  let hyst : Int := s.lifField 1 1 * 2 ^ 149
  let left := fun (d : Int) => decide (10 * d ≥ hyst)
  match x.dir with
  | none =>
    if x.tj.isNone then s.setLifPos p { x with hi := t, lo := t }
    else
      let hi := max x.hi t
      let lo := min x.lo t
      if left (t - lo) then (s.setLifPos p { x with dir := some true, hi := t, lo := lo }).lifReversal p lo
      else if left (hi - t) then (s.setLifPos p { x with dir := some false, lo := t, hi := hi }).lifReversal p hi
      else s.setLifPos p { x with hi := hi, lo := lo }
  | some true =>
    let hi := max x.hi t
    if left (hi - t) then (s.setLifPos p { x with dir := some false, lo := t, hi := hi }).lifReversal p hi
    else s.setLifPos p { x with hi := hi }
  | some false =>
    let lo := min x.lo t
    if left (t - lo) then (s.setLifPos p { x with dir := some true, hi := t, lo := lo }).lifReversal p lo
    else s.setLifPos p { x with lo := lo }

/-! ### The 1 ms step (R394) -/

/-- The larger of a temperature held and a new one. -/
def tempMax (a : Option Word) (w : Word) : Option Word :=
  match a with
  | none => some w
  | some v => if ratOf v < ratOf w then some w else some v

/-- A position enters gap: its event goes to the EVENT stream, with the fields that R403 gives no value for a gap free. -/
def State.lifGapEntry (s : State) (p : Nat) : State :=
  let (f, s) := s.takeFrees 4
  let w := fun k => (f.getD k 0).toNat
  (s.event (leBytes 1 (w 0) ++ leBytes 1 4 ++ leBytes 2 p ++ leBytes 4 (w 1) ++ leBytes 2 (w 2) ++ leBytes 2 (w 3) ++
    leBytes 4 0)).setBit rLIF_STAT 3

/-- The model of a position that is not in gap; `ths` is the heat-sink temperature. -/
def State.lifModel (s : State) (p : Nat) (ths : Word) : State :=
  let x := s.lifPos p
  let prev := x.tj.getD ths
  let ok := s.lifInputsOk p prev && (fToRat ths).isSome && x.z.all fun w => (fToRat w).isSome
  let (f, s) := if ok then ([], s) else s.takeFrees 7
  let l := s.lifLoss p prev
  let loss := if ok then fOpen 113 l.1 l.2 else f.getD 0 0
  let z := (List.range 4).map fun k => if ok then s.lifStage p k (x.z.getD k 0) loss else f.getD (k + 1) 0
  let sum := ratOf ths + (z.map ratOf).sum
  let tj := if ok then fOpen 92 sum (2 ^ 149) else f.getD 5 0
  -- a temperature that is no number stands where it would, at a free value
  let t := (fToRat tj).getD ((f.getD 6 (Config.freeValue s.free)).toInt * 2 ^ 120)
  let s := s.lifTrack p t
  s.setLifPos p { s.lifPos p with
    z := z, loss := loss, tj := some tj, tjMax := tempMax x.tjMax tj, tjRec := tempMax x.tjRec tj }

/-- One position's step. -/
def State.lifStep (s : State) (p : Nat) : State :=
  let x := s.lifPos p
  let ths := s.ldm (s.lifField (lifEntry p + 2) 2)
  let held := if x.fresh then 0 else x.held + 1
  let gap := (fDecode ths).1.isNan || (!x.fresh && (x.gap || decide (held > s.lifField (lifEntry p + 1) 1)))
  let s := if gap && !x.gap then s.lifGapEntry p else s
  let s := s.setLifPos p { x with
    fresh := false, held := held, gap := gap, gapRec := if gap then min 0xFFFFFFFF (x.gapRec + 1) else x.gapRec }
  if gap then s.inc (rLIF_Pn_GAP_MS p) else s.lifModel p ths

/-- LIF_STEP. -/
def execLifStep (s : State) : Out := .next (s.each ((List.range 8).filter s.lifPosOn) State.lifStep)

/-! ### LIFE records (R398, R399) -/

/-- The header of a LIFE record, taken on the record instant. -/
def State.lifHeader (s : State) : List Byte :=
  let ps := List.range 8
  let flags := fun (f : Nat → Bool) => ps.foldl (fun m p => m + 2 ^ p * b2n (f p)) 0
  leBytes 4 s.lif.rseq ++
    leBytes 4 (flags s.lifPosOn + 256 * bits (s.reg rLIF_SAT).toNat 0 8 + 65536 * flags fun p => (s.lifPos p).gap) ++
    (ps.flatMap fun p => leBytes 8 (s.lifPos p).dmg) ++ (ps.flatMap fun p => leBytes 4 ((s.lifPos p).tjRec.getD 0).toNat) ++
    (ps.flatMap fun p => leBytes 4 (s.lifPos p).gapRec) ++ List.replicate 120 0

/-- A LIFE record is queued. -/
def State.lifRecord (s : State) : State :=
  if !s.lifOn then s
  else
    let s := s.setLif { s.lif with rseq := (s.lif.rseq + 1) % 2 ^ 32 }
    let s := s.shfLife s.lifHeader
    s.each (List.range 8) fun s p => s.setLifPos p { s.lifPos p with tjRec := none, gapRec := 0 }

/-- LIFE_RECORD. -/
def execLifeRecord (s : State) : Out := .next s.lifRecord

/-- LIF_WRITE. -/
def execLifWrite (s : State) : Out := .next s.lifRecord

/-- LIF_CLEAR. -/
def execLifClear (p : Nat) (key : BitVec 16) (s : State) : Out :=
  .next (
    if p < 8 && key == 0x1F3C && (!s.lifPosOn p || (s.lifPos p).gap) then
      let s := s.setLifPos p { s.lifPos p with dmg := 0 }
      -- without LIFETIME the restored matrices still wait for their place
      let s := s.setLif { s.lif with
        matrices := s.lif.matrices.map fun m => m.take (16384 * p) ++ List.replicate 16384 0 ++ m.drop (16384 * (p + 1)) }
      if s.lifOn then s.each ((List.range 16384).map (s.rfBase + 16384 * p + ·)) fun s a => s.setByte a 0 else s
    else s.setBit rLIF_STAT 4)

/-- The newest LIFE record with valid CRCs: its payload. -/
def State.lifNewest (s : State) : Option (List Byte) :=
  let recs := (s.shf.records.filter fun r => r.stream == 2).map fun r => s.recordBytes r (32 + 131328)
  let good := recs.filter fun b =>
    crc32c (slice b 0 24) == field b 24 4 && crc32c (b.drop 32) == field b 28 4 && b.length == 32 + 131328
  (good.foldl (fun (best : Option (List Byte)) b => match best with
    | none => some b
    | some a => if aheadMod (2 ^ 32) (field a 32 4) (field b 32 4) then some b else some a) none).map (·.drop 32)

/-- LIFE_RESTORE at boot (R399). The matrices wait for RF_BASE. -/
def State.lifRestore (s : State) : State :=
  match s.lifNewest with
  | none => s
  | some b =>
    let s := s.setLif { s.lif with restore := true, rseq := field b 0 4, matrices := some (b.drop 256) }
    s.each (List.range 8) fun s p => s.setLifPos p { s.lifPos p with dmg := field b (8 + 8 * p) 8 }

/-- A commit: a position whose entry changed starts again; `old` is the payload that was in force. -/
def State.lifCommit (s : State) (old : List Byte) : State :=
  let s := match s.lif.matrices with
    | some m => if s.lifOn then (s.setBytes s.rfBase m).setLif { s.lif with matrices := none } else s
    | none => s
  s.each (List.range 8) fun s p =>
    if slice old (lifEntry p) 2736 == slice (s.sec secLifetime) (lifEntry p) 2736 then s
    else
      let x := s.lifPos p
      s.setLifPos p { x with z := [0, 0, 0, 0], tj := none, dir := none, stack := [], gap := false, held := 0 }

/-! ### SRAM rows (R404) -/

def State.rowTrack (s : State) (b : Nat) : List (Nat × Nat) := SMap.get (fun _ => []) s.lif.track b
def State.rowRemap (s : State) (b : Nat) : List Nat := SMap.get (fun _ => []) s.lif.remap b
def State.setRowTrack (s : State) (b : Nat) (l : List (Nat × Nat)) : State :=
  s.setLif { s.lif with track := SMap.set (fun _ => []) s.lif.track b l }

/-- ECC_CORRECTED: the row is tracked; the fourth error starts its copy, which ROW_REMAP_DONE ends. With the tracker full
the entry with the lowest count gives way, an implementation's choice among equals. -/
def execEccCorrected (bank row : Nat) (s : State) : Out :=
  .next (
    let l := s.rowTrack bank
    if 36 ≤ bank then s
    else if l.any fun x => x.1 == row then
      s.setRowTrack bank (l.map fun x => if x.1 = row then (x.1, min 4 (x.2 + 1)) else x)
    else if l.length < 8 then s.setRowTrack bank (l ++ [(row, 1)])
    else
      let low := (l.map (·.2)).foldl min 4
      let cand := l.filter fun x => x.2 == low
      let out := cand.getD (Config.pick 4 cand.length % cand.length) (0, 0)
      s.setRowTrack bank ((l.filter fun x => x != out) ++ [(row, 1)]))

/-- Where the remaps are stored. -/
def remapArea : Nat := 0x00402200

/-- The remap area as its entries give it: unused entries stay erased. -/
def State.remapBytes (s : State) : List Byte :=
  (List.range 36).flatMap fun b => (List.range 32).flatMap fun k => leBytes 2 ((s.rowRemap b).getD k 0xFFFF)

/-- Writes the remap area with its CRC. -/
def State.remapStore (s : State) : State :=
  let b := s.remapBytes
  s.setBytes remapArea (b ++ leBytes 4 (crc32c b))

/-- A word of a context's registers, by number: s0–s31, then v, acc and p, lane by lane, is 0. -/
def Ctx.zeroAt (c : Ctx) (k : Nat) : Ctx :=
  if k < 32 then c.setS k 0
  else if k < 160 then c.setV ((k - 32) / 16) (k % 16) 0
  else if k < 224 then c.setAcc ((k - 160) / 16) (k % 16) 0
  else if k < 228 then c.setP (k - 224) 0
  else c

/-- An uncorrectable error leaves its word 0: a byte address of the local memories, a data word of a Monitor core, or word
`a % 256` of context `a / 256` in the context store. -/
def State.eccZero (s : State) (bank a : Nat) : State :=
  if bank ≤ 30 then
    if (lpmBase ≤ a ∧ a < 0x00190000) ∨ (sramBase ≤ a ∧ a < sramEnd) then s.setMemWord (a / 4 * 4) 0 else s
  else
    let zero : MonCore → MonCore := fun c => { c with data := SMap.set (fun _ => 0) c.data (a % 2048) 0 }
    if bank = 32 then { s with mon := { s.mon with a := zero s.mon.a } }
    else if bank = 34 then { s with mon := { s.mon with b := zero s.mon.b } }
    else if bank = 35 && ctxIds.contains (a / 256) then s.setCtx (a / 256) ((s.ctx (a / 256)).zeroAt (a % 256))
    else s

/-- A row's next spare is due: its fourth corrected error, or an uncorrectable one (R404). -/
def State.rowDue (s : State) (bank row : Nat) (failed : Option Nat) : Bool :=
  failed.isSome || (s.rowTrack bank).any fun x => x.1 == row && decide (4 ≤ x.2)

/-- ROW_REMAP_DONE: the row's next spare serves it and the remap is stored; `failed` names the word of an uncorrectable
error. -/
def execRowRemapDone (bank row : Nat) (failed : Option Nat) (s : State) : Out :=
  .next (
    let s := match failed with
      | some a => s.eccZero bank a
      | none => s
    let l := s.rowRemap bank
    if 36 ≤ bank || 32 ≤ l.length || l.contains row || !s.rowDue bank row failed then s
    else
      let s := s.setRowTrack bank ((s.rowTrack bank).filter fun x => x.1 != row)
      let s := (s.setLif { s.lif with remap := SMap.set (fun _ => []) s.lif.remap bank (l ++ [row]) }).remapStore
      let used := l.length + 1
      let s := s.spareUsed 2 bank row used (32 - used)
      let s := if used > 28 then s.spstat 2 else s
      if used = 32 then s.spareExhausted 3 2 bank row used else s)

/-- ROW_TRACK_EXPIRY. -/
def execRowTrackExpiry (bank row : Nat) (s : State) : Out :=
  .next (s.setRowTrack bank ((s.rowTrack bank).filter fun x => x.1 != row))

/-- The remaps of a valid area are applied again at boot. -/
def State.remapBoot (s : State) : State :=
  let b := s.bytes remapArea 2304
  if crc32c b = field (s.bytes (remapArea + 2304) 4) 0 4 then
    let s := s.each (List.range 36) fun s m =>
      let rows := ((List.range 32).map fun k => field b (64 * m + 2 * k) 2).filter (· != 0xFFFF)
      s.setLif { s.lif with remap := SMap.set (fun _ => []) s.lif.remap m rows }
    let most := ((List.range 36).map fun m => (s.rowRemap m).length).foldl max 0
    let s := if most > 0 then s.spstat 0 else s
    let s := if most > 28 then s.spstat 2 else s
    if most = 32 then s.spstat 3 else s
  else s

/-- LIF_SPSTAT.MACRO: the bank with the fewest spare rows. -/
def State.rowWorst (s : State) : Nat :=
  (List.range 36).foldl (fun b m => if (s.rowRemap m).length > (s.rowRemap b).length then m else b) 0

/-! ### The spare log and the registers (Tables 17.4 to 17.6) -/

/-- LIF_SPLOG: the head of the queue. -/
def State.splogHead (s : State) : Word := s.spareLog.head?.getD 0

/-- LIF_SPLOG_READ. -/
def State.splogRead (s : State) : State := { s with spareLog := s.spareLog.drop 1 }
def execLifSplogRead (s : State) : Out := .next s.splogRead

def State.lifStat (s : State) : Nat := b2n s.lifOn + 2 * b2n s.lif.restore

/-- The words of the LIF window that follow from the state. -/
def State.lifWord (s : State) (off : Nat) : Option Word :=
  if off = 8 then some (word ((List.range 8).foldl (fun m p => m + 2 ^ p * b2n (s.lifPos p).gap) 0))
  else if off = 0x10 then some (word s.lif.rseq)
  else if off = 0x1C then some s.splogHead
  else if 0x40 ≤ off ∧ off < 0x140 then
    let x := s.lifPos ((off - 0x40) / 32)
    match (off - 0x40) % 32 with
    | 0x00 => some (x.tj.getD 0)
    | 0x04 => some x.loss
    | 0x08 => some (word (x.dmg % 2 ^ 32))
    | 0x0C => some x.dmgHi
    | 0x10 => some (x.tjMax.getD 0)
    | _ => none
  else none

/-- The checks of LIFETIME (R401) without its place in memory. -/
def State.checkLifetime (s : State) : List (Nat × Bool) :=
  let p := s.sec secLifetime
  let f := fun off n => field p off n
  let between := fun (lo x hi : Nat) => decide (lo ≤ x) && decide (x ≤ hi)
  let num := fun off => (fToRat (word (f off 4))).isSome
  let rat := fun off => ratOf (word (f off 4))
  -- the fields of a position are checked whether it is on or off: Table 17.1 makes no exception
  let entryBad := fun q =>
    let o := lifEntry q
    decide (1 < f o 1) || (f (o + 1) 1 == 0 ||
      (List.range 683).any (fun k => !num (o + 4 + 4 * k)) ||
      (List.range 4).any (fun k => decide (rat (o + 0x10 + 4 * k) < 0)) ||
      -- 0.0001 and 10,000 in binary32
      (List.range 4).any (fun k => !between 0x38D1B717 (f (o + 0x20 + 4 * k) 4) 0x461C4000) ||
      (List.range 128).any fun k => decide (rat (o + 0x8B0 + 4 * k) < 0))
  let axisBad := fun q off => (List.range 15).any fun k => decide (rat (lifEntry q + off + 4 * (k + 1)) ≤ rat (lifEntry q + off + 4 * k))
  [ (1, p.length != 21920)
  , (2, f 0 1 != 1 || !between 1 (f 1 1) 50 || (f 2 2 != 0 && decide (f 2 2 < 60)) || f 4 4 % 64 != 0 ||
      !between 100 (f 8 1) 145 || !between (f 8 1 + 1) (f 9 1) 148 || !between 1 (f 0xA 1) 20 ||
      !(slice p 0x0B 21).all (· == 0) || (List.range 8).any entryBad)
  , (3, (List.range 8).any fun q => axisBad q 0x30 || axisBad q 0x70)
  , (4, decide (f 4 4 + 131072 > 1536 * 1024)) ]

end Sys2Proof.Machine
end

