-- ==== Sys2Proof/Machine/Thm.lean ====
section
/-!
DEFINITION. The die temperature and its throttling (R406 to R408).
-/

namespace Sys2Proof.Machine

def State.setThm (s : State) (x : Thm) : State := { s with thm := x }

/-- THR1, THR2 and THYST in 1/256 °C; without LIFETIME 135, 145 and 5 °C (R400). -/
def State.thr1 (s : State) : Int := 256 * (if s.lifOn then s.lifField 8 1 else 135)
def State.thr2 (s : State) : Int := 256 * (if s.lifOn then s.lifField 9 1 else 145)
def State.thyst (s : State) : Int := 256 * (if s.lifOn then s.lifField 0xA 1 else 5)

/-- The middle one of three. -/
def median3 (a b c : Int) : Int := max (min a b) (min (max a b) c)

/-- Sensor `k` lies within 10 °C of the median of the other three. -/
def sensorOk (t : List Int) (k : Nat) : Bool :=
  let o := ((List.range 4).filter (· != k)).map fun j => t.getD j 0
  decide ((t.getD k 0 - median3 (o.getD 0 0) (o.getD 1 0) (o.getD 2 0)).natAbs ≤ 2560)

/-- The pause level that follows from TPRED (R407). -/
def State.thmLevel (s : State) (p : Int) : Nat :=
  if p ≥ s.thr2 then 2
  else if s.thm.level = 2 then (if p < s.thr2 - s.thyst then 1 else 2)
  else if p ≥ s.thr1 then 1
  else if s.thm.level = 1 && decide (p < s.thr1 - s.thyst) then 0
  else s.thm.level

/-- Background work pauses or goes on. -/
def State.setPaused (s : State) (on : Bool) : State :=
  let s := s.setThm { s.thm with paused := on }
  if on then s else s.shfGoOn

/-- THM_UPDATE (R406, R407). With every sensor excluded the hottest valid one is open (log 50). -/
def execThmUpdate (x : ThmSample) (s : State) : Out :=
  .next (
    let ok := (List.range 4).filter (sensorOk x.sensors)
    let mask := ok.foldl (fun m k => m + 2 ^ k) 0
    let s := if ok.length < 4 then s.setBit rTHM_STAT 3 else s
    let hot := (ok.map fun k => x.sensors.getD k 0).max?.getD (Config.freeValue s.free).toInt
    let s := if ok.isEmpty then s.takeFree.2 else s
    let old := s.thm.tdie
    let tdie := hot + divOpen 93 (6 * 256 * (x.pwr : Int)) 10000
    let rate := Config.lowPass 10000 100 s.thm.rate ((tdie - old) * 1000)
    let tpred := if rate > 0 then tdie + rate else tdie
    let tmax := match s.thm.tmax with
      | some m => max m tdie
      | none => tdie
    let s := s.setThm { s.thm with
      tdie := tdie, tpred := tpred, rate := rate, pwr := x.pwr, tmax := some tmax, sensOk := mask }
    let s := if tdie ≥ 38400 && decide (old < 38400) then (s.setBit rTHM_STAT 2).irq 9 else s
    -- the pause that was in force has lasted this millisecond
    let s := if s.thm.paused then (s.inc rTHM_CNT_PAUSE_MS).inc rSHF_PAUSE_MS else s
    let l := s.thmLevel tpred
    let was := s.thm.level
    let s := s.setThm { s.thm with level := l }
    if l = was then s
    else s.setPaused (if l = 0 then false else if l = 1 then (was = 0 || s.thm.paused) else true))

/-- PAUSE_TOGGLE (R407): at level 1. -/
def execPauseToggle (s : State) : Out := .next (if s.thm.level = 1 then s.setPaused (!s.thm.paused) else s)

/-- RC_TRIM (R408): the trim follows a fused curve that the manual does not give. -/
def execRcTrim (s : State) : Out :=
  .next (
    let (w, s) := s.takeFree
    s.setThm { s.thm with rcTrim := w })

/-- REF_COMP_UPDATE (R408): new gains from fused coefficients that the manual does not give; they wait. -/
def execRefCompUpdate (s : State) : Out :=
  .next (
    let (w, s) := s.takeFree
    s.setThm { s.thm with gainNew := some w })

/-- COMP_GAIN_APPLY (R408). -/
def execCompGainApply (s : State) : Out :=
  .next (match s.thm.gainNew with
    | some w => s.setThm { s.thm with gain := w, gainNew := none }
    | none => s)

/-- A temperature in 1/256 °C as binary32. -/
def tempWord (t : Int) : Word := fOpen 94 t 256

/-- The words of the THM window that follow from the state (Table 17.7). -/
def State.thmWord (s : State) (off : Nat) : Option Word :=
  match off with
  | 0x04 => some (tempWord s.thm.tdie)
  | 0x08 => some (tempWord s.thm.tpred)
  | 0x0C => some (fOpen 114 s.thm.pwr 1000)
  | 0x10 => some (tempWord (s.thm.tmax.getD 0))
  | 0x18 => some s.thm.rcTrim
  | _ => none

/-- The read-only bits of THM_STAT. -/
def State.thmStat (s : State) : Nat := s.thm.level + 16 * s.thm.sensOk

end Sys2Proof.Machine
end

