-- ==== Sys2Proof/Machine/Fan.lean ====
section
/-!
DEFINITION. The cooling-fan drives (R410 to R420). Crossings are numbered in forward order U rising, W falling, V rising,
U falling, W rising, V falling; vector `k` is the one that forward crossing `k` begins.
-/

namespace Sys2Proof.Machine

def FanCh.zero : Nat → FanCh := fun _ => {}
def State.fanCh (s : State) (c : Nat) : FanCh := SMap.get FanCh.zero s.fan (c % 2)
def State.setFan (s : State) (c : Nat) (x : FanCh) : State := { s with fan := SMap.set FanCh.zero s.fan (c % 2) x }

/-- The entry of a channel in the section in force, and a field of an entry (Table 18.2). -/
def State.fanEntry (s : State) (c : Nat) : List Byte := slice (s.sec secFans) (32 * (c % 2)) 32
def State.fanField (s : State) (c off n : Nat) : Nat := field (s.fanEntry c) off n
def State.fanEn (s : State) (c : Nat) : Bool := s.hasSec secFans && bit (s.fanField c 0 1) 0
def State.fanDutyMode (s : State) (c : Nat) : Bool := bit (s.fanField c 0 1) 1
def State.fanPfStop (s : State) (c : Nat) : Bool := bit (s.fanField c 0 1) 2
def State.fanDutyMax (s : State) (c : Nat) : Nat := s.fanField c 0x1C 2
def FanCh.f (x : FanCh) (off n : Nat) : Nat := field x.start off n

/-- The target of a channel: rpm clamped to MAX_RPM, or the duty clamped to DUTY_MAX (R416). -/
def State.fanTarget (s : State) (c : Nat) : Nat :=
  let v := (s.reg (rFAN_Cn_SET (c % 2))).toNat
  if s.fanDutyMode c then min (v % 65536) (s.fanDutyMax c) else min v (s.fanField c 0x10 2)

/-- rpm of an interval between crossings in nanoseconds (R410). -/
def FanCh.rpm (x : FanCh) (dt : Nat) : Nat := (divOpen 95 (10 ^ 10) (max 1 (x.f 1 1) * max 1 dt : Nat)).toNat

/-- An interval is at or above a speed, without rounding. -/
def FanCh.atLeast (x : FanCh) (dt rpm : Nat) : Bool := decide (rpm * (max 1 (x.f 1 1) * max 1 dt) ≤ 10 ^ 10)

/-- The six outputs UH, UL, VH, VL, WH and WL in the chopping on-time (R410). -/
def fanVector (k : Nat) : List Bool :=
  let hi := [0, 0, 1, 1, 2, 2].getD (k % 6) 0
  let lo := [1, 2, 2, 0, 0, 1].getD (k % 6) 0
  (List.range 6).map fun i => i == 2 * hi || i == 2 * lo + 1

def State.fanOuts (s : State) (c : Nat) : List Bool :=
  let x := s.fanCh c
  if x.pfOff then fanVector 6 |>.map fun _ => false
  else if x.st = 2 ∧ x.braking then [false, true, false, true, false, true]
  else if x.st = 3 ∨ x.st = 4 ∨ (x.st = 5 ∧ x.driven) then fanVector x.vec
  else [false, false, false, false, false, false]

/-- A start attempt begins with an observation (R412). -/
def State.fanAttempt (s : State) (c : Nat) : State :=
  let s := s.inc (rFAN_Cn_CNT_START (c % 2))
  s.setFan c { s.fanCh c with
    st := 1, start := s.fanEntry c, braking := false, seen := [], inOrder := 0, driven := false, caught := false, duty := 0,
    pfOff := s.hu.pf && s.fanPfStop c }

/-- The channel turns its outputs off and stops. -/
def State.fanStop (s : State) (c : Nat) : State :=
  s.setFan c { s.fanCh c with st := 0, braking := false, driven := false, caught := false, duty := 0, pfOff := false }

/-- A failed attempt or a stall (R415). -/
def State.fanFail (s : State) (c : Nat) : State :=
  let x := s.fanCh c
  let last := decide (3 ≤ x.retries)
  let s := s.setFan c { x with
    st := if last then 7 else 6, braking := false, driven := false, caught := false, duty := 0 }
  if last then (s.setBit rFAN_STAT 0).irq 10 else s

/-- RUN begins: at a SET of 0 with the outputs off. -/
def State.fanRun (s : State) (c duty : Nat) (integ : Int) : State :=
  let on := s.fanTarget c != 0
  let d := if s.fanDutyMode c then s.fanTarget c else min duty (s.fanDutyMax c)
  s.setFan c { s.fanCh c with st := 5, braking := false, driven := on, duty := if on then d else 0, integ := integ }

/-- A channel whose entry is enabled, and which no power-fail warning holds off. -/
def State.fanLive (s : State) (c : Nat) : Bool := s.fanEn c && !(s.fanCh c).pfOff

/-- Acts on a channel in one state. -/
def State.fanIn (s : State) (c st : Nat) (f : State → State) : State :=
  if s.fanLive c && (s.fanCh c).st == st then f s else s

/-- FAN_START (R415, R420). -/
def execFanStart (c : Nat) (s : State) : Out :=
  .next (
    let x := s.fanCh c
    if s.fanEn c && decide (2 ≤ s.tier) && (x.st == 0 || x.st == 7) then
      (s.setFan c { x with retries := 0 }).fanAttempt c
    else s)

/-- FAN_STOP (R420). -/
def execFanStop (c : Nat) (s : State) : Out := .next (s.fanStop c)

/-- FAN_SET_WRITE (R416). -/
def State.fanSet (s : State) (c : Nat) (v : Word) : State :=
  let was := s.fanTarget c
  let s := s.setReg (rFAN_Cn_SET (c % 2)) v
  s.fanIn c 5 fun s =>
    let x := s.fanCh c
    let now := s.fanTarget c
    if now = 0 then s.setFan c { x with driven := false, caught := false, duty := 0 }
    else if was = 0 then s.fanAttempt c
    else if s.fanDutyMode c then s.setFan c { x with duty := now } else s

def execFanSetWrite (c : Nat) (v : Word) (s : State) : Out := .next (s.fanSet c v)

/-- The direction of an observation: at least three crossings in a consistent order (R412). True is forward. -/
def fanDirection (seen : List (Nat × Nat)) : Option Bool :=
  let ps := seen.map fun x => x.1
  let steps := (ps.zip ps.tail).map fun x => (x.2 + 6 - x.1) % 6
  if ps.length < 3 then none
  else if steps.all (· == 1) then some true
  else if steps.all (· == 5) then some false
  else none

/-- Align-and-go begins (R414); the vector is one of the six (log 19). -/
def State.fanAlign (s : State) (c : Nat) : State :=
  let x := s.fanCh c
  s.setFan c { x with
    st := 3, braking := false, inOrder := 0, vec := Config.pick 20 6 % 6,
    duty := (divOpen 96 (65535 * (x.f 5 1 : Nat)) 100).toNat }

/-- OBSERVE_END (R412, R413). -/
def execObserveEnd (c : Nat) (s : State) : Out :=
  .next (
    let x := s.fanCh c
    if !s.fanLive c || !(x.st == 1 || (x.st == 2 && !x.braking)) then s
    else
      let dir := fanDirection x.seen
      let dt := x.lastDt
      let s := s.setFan c { x with bwd := dir == some false }
      let x := s.fanCh c
      if x.st == 1 && dir == some true && x.atLeast dt (x.f 0x0A 2) then
        let f := s.takeFrees 2
        let v := fun (k : Nat) => f.1.getD k 0
        let s := f.2.fanRun c ((v 0).toNat % 65536) (v 1).toInt
        s.setFan c { s.fanCh c with caught := true }
      else if dir == some false && x.atLeast dt (x.f 0x0C 2) then s.setFan c { x with st := 2, braking := true }
      else s.fanAlign c)

/-- BRAKE_PHASE_END: an observation follows. -/
def execBrakePhaseEnd (c : Nat) (s : State) : Out :=
  .next (s.fanIn c 2 fun s =>
    let x := s.fanCh c
    if x.braking then s.setFan c { x with braking := false, seen := [] } else s)

/-- BRAKE_MAX_EXPIRY. -/
def execBrakeMaxExpiry (c : Nat) (s : State) : Out := .next (s.fanIn c 2 fun s => s.fanFail c)

/-- ALIGN_END: the ramp begins. -/
def execAlignEnd (c : Nat) (s : State) : Out :=
  .next (s.fanIn c 3 fun s => s.setFan c { s.fanCh c with st := 4, inOrder := 0, comDt := 0 })

/-- OPEN_LOOP_COMMUTATION: the next vector, an interval after the one before. -/
def execOpenLoopCommutation (c dt : Nat) (s : State) : Out :=
  .next (s.fanIn c 4 fun s =>
    let x := s.fanCh c
    s.setFan c { x with vec := (x.vec + 1) % 6, comDt := dt })

/-- RAMP_TIMEOUT. -/
def execRampTimeout (c : Nat) (s : State) : Out := .next (s.fanIn c 4 fun s => s.fanFail c)

/-- The position of a crossing in forward order. -/
def crossingAt (phase : Nat) (rising : Bool) : Nat :=
  if phase % 3 = 0 then (if rising then 0 else 3)
  else if phase % 3 = 1 then (if rising then 2 else 5)
  else (if rising then 4 else 1)

/-- BEMF_CROSSING: a crossing of a phase, with the interval since the one before. -/
def execBemfCrossing (c phase : Nat) (rising : Bool) (dt : Nat) (s : State) : Out :=
  .next (
    if !s.fanEn c then s
    else
      let x := s.fanCh c
      let x := if x.st = 0 ∨ x.st = 7 then { x with start := s.fanEntry c } else x
      let p := crossingAt phase rising
      let follows := x.last == some ((p + 5) % 6)
      let y := { x with last := some p, lastDt := dt, speed := x.rpm dt }
      if x.pfOff then s.setFan c y
      else if x.st == 1 || (x.st == 2 && !x.braking) then s.setFan c { y with seen := x.seen ++ [(p, dt)] }
      else if x.st = 4 then
        let ok := follows && decide (4 * ((x.comDt : Int) - dt).natAbs ≤ dt)
        let n := if ok then x.inOrder + 1 else 0
        let s := s.setFan c { y with inOrder := n }
        if n < 6 then s
        else
          let f := s.takeFrees 2
          let v := fun (k : Nat) => f.1.getD k 0
          f.2.fanRun c ((v 0).toNat % 65536) (v 1).toInt
      else if x.st == 5 && x.driven then s.setFan c { y with vec := p, caught := false }
      else s.setFan c y)

/-- RETRY_WAIT_EXPIRY: the next retry starts. -/
def execRetryWaitExpiry (c : Nat) (s : State) : Out :=
  .next (s.fanIn c 6 fun s => (s.setFan c { s.fanCh c with retries := (s.fanCh c).retries + 1 }).fanAttempt c)

/-- RETRY_COUNT_RESET. -/
def execRetryCountReset (c : Nat) (s : State) : Out :=
  .next (s.fanIn c 5 fun s => s.setFan c { s.fanCh c with retries := 0 })

/-- FAN_PI_STEP (R416). -/
def execFanPiStep (c : Nat) (s : State) : Out :=
  .next (s.fanIn c 5 fun s =>
    let x := s.fanCh c
    if !x.driven then s
    else if s.fanDutyMode c then s.setFan c { x with duty := s.fanTarget c }
    else
      let e := (s.fanTarget c : Int) - x.speed
      let raw := divOpen 97 (1000 * (s.fanField c 0x18 2 : Nat) * e + (s.fanField c 0x1A 2 : Nat) * (x.integ + e)) 1000
      let held := decide (raw < 0) || decide ((s.fanDutyMax c : Int) < raw)
      s.setFan c { x with
        duty := (clampInt 0 (s.fanDutyMax c) raw).toNat, integ := if held then x.integ else x.integ + e })

/-- A stall (R417). -/
def State.fanStall (s : State) (c : Nat) : State :=
  ((s.setBit rFAN_STAT 1).inc (rFAN_Cn_CNT_STALL (c % 2))).fanFail c

/-- STALL_CROSSING_TIMEOUT; a channel that a SET of 0 holds in RUN has no stall. -/
def execStallCrossingTimeout (c : Nat) (s : State) : Out :=
  .next (s.fanIn c 5 fun s => if (s.fanCh c).driven then s.fanStall c else s)

/-- STALL_SPEED_TIMEOUT. -/
def execStallSpeedTimeout (c : Nat) (s : State) : Out :=
  .next (s.fanIn c 5 fun s =>
    let x := s.fanCh c
    if s.fanTarget c != 0 && decide (x.speed < s.fanField c 0x12 2) then s.fanStall c else s)

/-- Tier 2 entry, and a commit that sets EN: an enabled channel starts (R411). -/
def State.fanBegin (s : State) (c : Nat) : State :=
  if s.fanEn c && decide (2 ≤ s.tier) && (s.fanCh c).st == 0 then
    (s.setFan c { s.fanCh c with retries := 0 }).fanAttempt c
  else s
def State.fansBegin (s : State) : State := (s.fanBegin 0).fanBegin 1

/-- Their outputs are at their off levels below Tier 2 (R411). -/
def State.fansOff (s : State) : State := (s.fanStop 0).fanStop 1

/-- A FANS commit (R411, R418, R420). -/
def State.fanCommit (s old : State) : State :=
  s.each [0, 1] fun s c =>
    if !s.fanEn c then s.fanStop c
    else if !old.fanEn c then s.fanBegin c else s

/-- The power-fail warning, and its withdrawal (R411). -/
def State.fanPowerFail (s : State) : State :=
  s.each [0, 1] fun s c =>
    let x := s.fanCh c
    if s.fanPfStop c && x.st != 0 && x.st != 7 then
      s.setFan c { x with pfOff := true, braking := false, driven := false, caught := false, duty := 0 }
    else s
def State.fanResume (s : State) : State :=
  s.each [0, 1] fun s c => if (s.fanCh c).pfOff then s.fanAttempt c else s

/-! ### Registers -/

def State.fanWord (s : State) (off : Nat) : Option Word :=
  if 0x40 ≤ off ∧ off < 0x80 then
    let x := s.fanCh ((off - 0x40) / 0x20)
    match (off - 0x40) % 0x20 with
    | 0x08 => some (word (x.st + 8 * b2n x.bwd + 16 * min 3 x.retries))
    | 0x0C => some (word x.speed)
    | 0x10 => some (word x.duty)
    | _ => none
  else none

/-! ### Checks (R419) -/

/-- The smallest speed that gives three crossings in 50 ms: 3 × 10 / (POLEPAIRS × 0.05 s). -/
def fanEntryOk (e : List Byte) : Bool :=
  let f := field e
  let pp := f 1 1
  let within := fun (off n lo hi : Nat) => decide (lo ≤ f off n) && decide (f off n ≤ hi)
  bits (f 0 1) 3 5 == 0 && within 1 1 1 16 && within 2 1 0 31 && within 3 1 0 31 && within 4 1 0 31 && within 5 1 5 50 &&
    within 6 2 10 2000 && within 8 2 100 10000 && decide (600 ≤ f 0x0A 2 * pp) && decide (600 ≤ f 0x0C 2 * pp) &&
    within 0x0E 2 100 (f 0x10 2) && within 0x10 2 100 30000 && decide (f 0x12 2 < f 0x0E 2) && within 0x14 2 10 10000 &&
    within 0x16 2 100 60000 && within 0x1C 2 1 65535 && within 0x1E 2 1 60

/-- The AIN channels of the enabled DIAG entries and of ADC M. -/
def State.diagAins (s : State) : List Nat := ((List.range 24).filter s.diagOn).map fun l => bits (s.diagWord l) 0 5
def State.adcmAins (s : State) : List Nat := (List.range (min 8 s.adcmN)).map fun k => s.safety (0x0C + k) 1

/-- The AIN channels that the image and the Cabinet name for other uses. -/
def State.ainUsers (s : State) : List Nat :=
  let a := s.sec secAnalog
  let slots := if s.hasSec secAnalog then (List.range (field a 0 2)).map fun i => bits (field a (0x218 + 2 * i) 2) 0 6 else []
  let cmps := (List.range 18).filterMap fun n => if s.hasSec secAnalog && s.cmpField n 0 1 != 0xFF then some (s.cmpField n 0 1) else none
  let dc := if s.cabValid && s.fuse 961 12 != 0 then [s.fuse 956 5] else []
  slots ++ cmps ++ s.diagAins ++ dc ++ s.adcmAins

def State.checkFans (s : State) : List (Nat × Bool) :=
  let p := s.sec secFans
  let es := [s.fanEntry 0, s.fanEntry 1]
  let sense := es.flatMap fun e => [field e 2 1, field e 3 1, field e 4 1]
  [ (1, p.length != 64)
  , (2, es.any fun e => !fanEntryOk e)
  , (3, hasDup sense || sense.any fun c => s.ainUsers.contains c) ]

end Sys2Proof.Machine
end

