-- ==== Sys2Proof/Machine/LeSched.lean ====
section
/-!
DEFINITION. The commands that move contexts (R72 to R75, R84 to R91, R102): hand-overs and starts, deadline misses, the
end of waits, the JTAG halt, the lane self-test and LE_CTX_CMD.
-/

namespace Sys2Proof.Machine

/-! ### Hand-over and start (R85, R86, R96) -/

/-- What a context takes at the first instruction of a run: GS chooses, the words latch, and everything that the run
keeps is put in force. -/
def State.beginRun (s : State) (n : Nat) : State :=
  let c := s.ctx n
  let init := c.initNext && c.desc.initEntry != 0xFFFF
  let s := (s.gsStart n init).latchWords n init
  let c := s.ctx n
  let s := s.setCtx n { c with
    st := .running, begun := true, initNext := false, relWait := false
    pc := if init then c.desc.initEntry else c.desc.entry
    codeWords := codeWordsOf (s.sec secLoopProg)
    codeAt := s.le.codeBase
    bankLen := bankLenOf (s.sec secLoopCoef) c.bank
    cand := s.sec secCand
    state0 := (List.range 8).foldl (fun m g => SMap.set zeroWord m g (s.groupCode g)) []
    candset := none, evalIssued := false, evalRes := none, tripped := 0
    cntStart := satInc c.cntStart, heldFrom := s.le.cyc, exe := 4 }
  let s := s.trace n 1 []
  if s.grd.phNew && n == s.genContext then { s with grd := { s.grd with phNew := false } } else s

/-- A run goes on. -/
def State.resumeRun (s : State) (n : Nat) : State :=
  let c := s.ctx n
  (s.setCtx n { c with st := .running, relWait := false, heldFrom := s.le.cyc, exe := c.exe + 4 }).trace n 4 []

/-- CONTEXT_SWITCH: the idle lanes go to the READY or PREEMPTED context of highest priority. -/
def execContextSwitch (s : State) : Out :=
  .next (
    if !s.leOpen || s.le.running != 0 then s
    else match s.best with
      | none => s
      | some n =>
        let s := s.dequeue n
        let s := { s with le := { s.le with running := n } }
        if (s.ctx n).begun then s.resumeRun n else s.beginRun n)

/-- WAIT_DATA_ARRIVED (R87). -/
def execWaitDataArrived (n : Nat) (s : State) : Out :=
  let c := s.ctx n
  .next (if c.st == .waiting then ((s.setCtx n { c with st := .ready }).enqueue n).displace else s)

/-! ### Deadline misses (R90) -/

/-- The context has a run: begun, or waiting to begin. -/
def CtxSt.inRun (x : CtxSt) : Bool := x == .ready || x == .running || x == .preempted || x == .waiting

/-- What every miss raises. -/
def State.missRaise (s : State) (n : Nat) : State :=
  let s := (s.setCtxBit rLE_DMISS_LO rLE_DMISS_HI n).setBit rLE_STAT 3
  (s.setCtx n { s.ctx n with cntMiss := satInc (s.ctx n).cntMiss }).trace n 6 []

/-- A start that has not begun is dropped. -/
def State.dropStart (s : State) (n : Nat) : State :=
  (s.dequeue n).afterRun n

/-- The miss of the run, or of the start that waits in READY. -/
def State.missRun (s : State) (n : Nat) : State :=
  let c := s.ctx n
  let s := (s.setCtx n { c with req := { c.req with missed := true } }).missRaise n
  let act := c.desc.missAct
  if act = 0 then s
  else
    let s := if c.st == .ready && !c.begun then s.dropStart n else s.endRun n
    if act = 2 then s.leFault c.desc.stageGroups true else s

/-- The miss of a pending start. -/
def State.missPend (s : State) (n : Nat) (q : StartReq) : State :=
  let c := s.ctx n
  let s := (s.setCtx n { c with pend := some { q with missed := true } }).missRaise n
  let act := c.desc.missAct
  if act = 0 then s
  else
    let s := s.setCtx n { s.ctx n with pend := none }
    if act = 2 then s.leFault c.desc.stageGroups true else s

/-- DEADLINE_MISS of the start in progress, or of the one that waits behind it; each misses once, and budgets stand
still while JTAG halts. -/
def execDeadlineMiss (n : Nat) (waiting : Bool) (s : State) : Out :=
  let c := s.ctx n
  .next (
    if c.desc.budget = 0 || s.le.halted || !c.st.inRun then s
    else if waiting then
      (match c.pend with
       | some q => if q.missed then s else s.missPend n q
       | none => s)
    else if c.req.missed then s else s.missRun n)

/-! ### JTAG (R89, R179) -/

/-- JTAG_HALT. -/
def execJtagHalt (s : State) : Out :=
  .next (
    if s.le.halted then s
    else
      let s := { s with le := { s.le with halted := true } }
      s.each (List.range 8) fun s g => s.groupLoss g 3 true)

/-- JTAG_RELEASE: dispatch resumes under R85. -/
def execJtagRelease (s : State) : Out :=
  .next (
    if s.le.halted then
      let s := { s with le := { s.le with halted := false } }
      (s.each (List.range 8) fun s g => (s.groupReturn g 3).groupLossAgain g).displace
    else s)

/-! ### Lanes (R72 to R75) -/

/-- Physical lanes in a mask. -/
def laneCount (m : Nat) : Nat := ((List.range 18).filter fun i => bit m i).length

/-- LE_FAULT is active for every group that a context of the LOOP_PROG in force names, from the third failed lane on
(R75). -/
def State.laneFault (s : State) : State :=
  if s.hasSec secLoopProg then
    s.leFault ((List.range (nCtx (s.sec secLoopProg))).foldl
      (fun m i => m ||| (descAt (s.sec secLoopProg) i).stageGroups) 0) false
  else s

/-- A lane is marked failed; the third one stops the lanes for good. -/
def State.laneFail (s : State) (lane : Nat) : State :=
  let m := s.le.failed ||| 2 ^ lane
  let s := { s with le := { s.le with failed := m } }
  if laneCount m > 2 && !s.le.stopped then
    let s := s.dropLanes
    let s := { s with le := { s.le with stopped := true } }
    ((s.spareExhausted 1 1 lane lane 2).pairTrigger).laneFault
  else s

/-- LANE_SELFTEST_START. -/
def execLaneSelftestStart (s : State) : Out :=
  .next (if s.le.testLane.isSome then s else { s with le := { s.le with testLane := some (0, 0), testAgain := false } })

/-- The test goes to the next lane; after lane 17 the pass is complete. -/
def State.nextLane (s : State) (lane : Nat) : State :=
  if lane < 17 then { s with le := { s.le with testLane := some (lane + 1, 0), testAgain := false } }
  else { s with le := { s.le with testLane := none, testAgain := false, passes := min 0xFFFF (s.le.passes + 1) } }

/-- The mapping follows LE_LANE.FAILED from an idle slot on. DESIGN CHOICE (log 43): each trace unit that is in use takes
one record of the remap. -/
def State.laneRemap (s : State) : State :=
  if s.le.running != 0 || s.le.mapped = s.le.failed then s
  else
    let new := (List.range 18).filter fun i => bit s.le.failed i && !bit s.le.mapped i
    let used := laneCount s.le.failed
    let s := { s with le := { s.le with mapped := s.le.failed } }
    let s := s.setBit rLE_STAT 8
    let s := s.each new fun s l => s.spareUsed 1 l l (min 2 used) (2 - used)
    s.each ((List.range 4).filter fun u => s.trcBase u != 0xFFFFFFFF) fun s u =>
      s.traceUnit u 7 0 0 (leBytes 4 s.le.failed)

/-- LANE_REMAP_APPLY. -/
def execLaneRemapApply (s : State) : Out := .next s.laneRemap

/-- LTEST_LATE. -/
def execLtestLate (s : State) : Out := .next (if s.le.testLane.isSome then s.setBit rLE_STAT 7 else s)

/-! ### LE_CTX_CMD (R102) -/

/-- A command on the selected context under its epoch; a stale one is refused (R78). -/
def State.ctxCmd (s : State) (epoch : BitVec 16) (f : State → Nat → State) : State :=
  let n := bits (s.reg rLE_CTX_SEL).toNat 0 6
  if n = 0 then s
  else if (s.ctx n).epoch = epoch.toNat then f s n
  else (s.setCtx n { s.ctx n with cntStale := satInc (s.ctx n).cntStale }).setBit rLE_STAT 6

/-- ENABLE of a context that LOOP_PROG defines. -/
def State.ctxEnable (s : State) (n : Nat) : State :=
  if (s.ctx n).st == .disabled && (s.desc n).isSome then s.setCtx n { s.ctx n with st := .idle, initNext := false } else s

/-- A READY context leaves the queue for good (R102): the start, and what a run that had begun staged, are discarded. -/
def State.dropReady (s : State) (n : Nat) : State :=
  let s := ((s.dequeue n).unstageAll n).discardEvals n
  let c := if (s.ctx n).clearDue then (s.ctx n).wipe else s.ctx n
  s.setCtx n { c with pend := none, begun := false, candset := none, evalIssued := false, relWait := false }

/-- DISABLE by the context's state. -/
def State.ctxDisable (s : State) (n : Nat) : State :=
  let c := s.ctx n
  match c.st with
  | .disabled => s
  | .idle | .fault => (s.setCtx n { c with st := .disabled }).leFaultRefresh
  | .ready => (s.dropReady n).setCtx n { (s.dropReady n).ctx n with st := .disabled }
  | .running | .preempted | .waiting => s.setCtx n { c with pend := none, disPend := true }

/-- CLEAR_FAULT. -/
def State.ctxClear (s : State) (n : Nat) : State :=
  if (s.ctx n).st == .fault then (s.setCtx n { s.ctx n with st := .idle, initNext := false }).leFaultRefresh else s

/-- CTX_ENABLE, CTX_DISABLE, CTX_CLEAR_FAULT. -/
def execCtxEnable (epoch : BitVec 16) (s : State) : Out := .next (s.ctxCmd epoch State.ctxEnable)
def execCtxDisable (epoch : BitVec 16) (s : State) : Out := .next (s.ctxCmd epoch State.ctxDisable)
def execCtxClearFault (epoch : BitVec 16) (s : State) : Out := .next (s.ctxCmd epoch State.ctxClear)

/-- LE_CYC_READ (R101). -/
def execLeCycRead (s : State) : Out := .next { s with le := { s.le with cycHi := word (s.le.cyc / 2 ^ 32) } }

/-! ### Commits and resets (R77, R78, R102) -/

/-- A commit that changes a context's descriptor or code: its epoch moves, and its registers clear, at the END of a run
in progress. -/
def Ctx.renewed (c : Ctx) (inRun : Bool) : Ctx :=
  let c := { c with epoch := if c.epoch = 65535 then 1 else c.epoch + 1 }
  if inRun then { c with clearDue := true } else c.wipe

/-- The state that a commit gives a context whose descriptor or code it changes; its ADC_TRIG begins anew. -/
def State.ctxCommit (s : State) (n : Nat) (d : Option Desc) : State :=
  let inRun := (s.ctx n).begun && (s.ctx n).st.inRun
  let s := { s with adc := { s.adc with trig := SMap.set (fun _ => 0) s.adc.trig n 0 } }
  let s := s.setCtx n ((s.ctx n).renewed inRun)
  match d with
  | some d =>
    if d.enable then
      let c := s.ctx n
      if inRun then s.setCtx n { c with disPend := false }
      else
        let s := if c.st == .ready then s.dropReady n else s
        s.setCtx n { s.ctx n with st := .idle, desc := d }
    else s.ctxDisable n
  | none => s.ctxDisable n

/-- The Loop Engine at a commit: `old` is the LOOP_PROG payload that was in force. -/
def State.leCommit (s : State) (old : List Byte) : State :=
  let new := s.sec secLoopProg
  let code := fun (p : List Byte) => p.drop (0x30 + 32 * nCtx p)
  let codeMoved := code old != code new
  let s := s.traceCommit old
  let s := s.each ctxIds fun s n =>
    let d0 := descOf old n
    let d1 := descOf new n
    if d0.isNone && d1.isNone then s
    else if codeMoved || d0 != d1 then s.ctxCommit n d1
    else s
  if s.le.stopped then s.laneFault else s.leFaultRefresh

end Sys2Proof.Machine
end

