-- ==== Sys2Proof/Machine/Pair.lean ====
section
/-!
DEFINITION. Redundant pairs (R361 to R373): pair duty and heartbeats, mirror records and their comparison, fitness,
takeovers and handovers.
-/

namespace Sys2Proof.Machine

/-! ### Health and the switchover trigger (R369) -/

/-- What stops the heartbeat, beside reset: the power-fail warning, a lost PLL, a Monitor channel fault, lane exhaustion
and an invalid Cabinet. -/
def State.pairHealthy (s : State) : Bool :=
  !s.inReset && !s.mtr.frozen && s.clk.sysLock && s.clk.ptcLock && s.mon.a.fault.isNone && s.mon.b.fault.isNone &&
    !(s.regBit rLIF_SPSTAT 1) && s.cabValid

/-- PAIR_HB_OUT carries the heartbeat: while PAIR_EN is set and the device is healthy (R363). -/
def State.pairBeats (s : State) : Bool := s.pairOn && s.pairHealthy

/-! ### Fitness (R368) -/

/-- Every PAIR_GROUPS group runs in shadow with ALIGN_OK, or is locked to the angle. -/
def State.pairGroupsOk (s : State) : Bool :=
  (List.range 8).all fun g =>
    !bit s.pairGroups g || ((s.grp g).st == .running && (s.pwm.alignOk || s.grpSync g = 1))

/-- FIT. -/
def State.pairFit (s : State) : Bool :=
  s.pair.role = 2 && s.pair.hbOk && s.pair.genRx.isSome && decide (s.pair.age ≤ s.mirMax * s.mirDiv) && !s.pair.unfit &&
    s.pairGroupsOk

/-! ### Becoming active or standby (R364, R370) -/

/-- The device becomes standby: it holds its paired outputs high-impedance. -/
def State.pairStandby (s : State) : State :=
  s.setPair { s.pair with
    role := 2, zGroups := s.pairGroups, driving := 0, actOut := false, trigAt := none, tookOver := false, handover := none }

/-- The roles that the active device of the pair takes: its PAIR role and the FOLLOW roles. -/
def State.pairTakeRoles (s : State) (cause : Nat) : State :=
  s.each (s.pairRole :: s.pairFollow) fun s r => s.takeRole r (nextEpoch (s.role r).epoch) cause

/-- Both devices are active (R364): the one with PRIMARY clear releases, and if both carry PRIMARY the higher rank. -/
def State.pairDual (s : State) : State :=
  if s.pair.role = 3 && s.pair.actIn then
    let s := (s.setBit rPAIR_STAT 11).inc rPAIR_CNT_DUAL
    if !s.pairPrimary || (s.pair.peerPrimary && decide (s.trs.rank > s.partnerRank)) then s.pairStandby else s
  else s

/-- The device becomes active at ARM: its outputs drive at once. -/
def State.pairActive (s : State) : State :=
  (s.setPair { s.pair with role := 3, zGroups := 0, driving := s.pairGroups, actOut := true }).pairTakeRoles 0

/-- A takeover (R370): PAIR_ACT_OUT, the ROLE frames and armed outputs; the groups drive from their next reload. -/
def State.takeover (s : State) (cause : Nat) : State :=
  let s := s.setPair { s.pair with
    role := 3, actOut := true, trigAt := some s.clk.t, tookOver := true, cause := cause, driving := 0, handover := none
    rx := [] }
  s.pairTakeRoles cause

/-- FIT but for the heartbeat, whose loss is the trigger (R369). -/
def State.pairFitAt (s : State) : Bool := ({ s with pair := { s.pair with hbOk := true } } : State).pairFit

/-- A standby whose partner is gone, PAIR_ACT_IN low and the heartbeat lost, takes over if it is FIT and AUTO_TAKE is set
(R369). -/
def State.peerGone (s : State) : State :=
  if s.pair.role = 2 && s.pair.lost && !s.pair.actIn then
    (if s.pairFitAt && s.pairAutoTake then s.takeover 1 else s.setBit rPAIR_STAT 8)
  else s

/-! ### Commands of pair duty -/

/-- PAIR_ARM (R364): from Tier 2, with PAIR_EN. -/
def execPairArm (s : State) : Out :=
  .next (
    if s.pairOn && decide (s.tier ≥ 2) && s.pair.role = 0 && !s.pair.deposed then
      let s := s.setPair { s.pair with role := 1, zGroups := s.pairGroups, hbSeen := s.pair.hbOk }
      if !s.pairPrimary && s.pair.actIn then s.pairStandby else s
    else s)

/-- ARM_ACTIVE_TIMEOUT (R364): 50 µs after ARM. -/
def execArmActiveTimeout (s : State) : Out :=
  .next (
    if s.pair.role = 1 && s.pairPrimary then (if s.pair.actIn then s.pairStandby else s.pairActive) else s)

/-- PEER_ABSENT_TIMEOUT (R364): no heartbeat has appeared 500 µs after ARM. -/
def execPeerAbsentTimeout (s : State) : Out :=
  .next (
    if s.pair.role = 1 && !s.pairPrimary && !s.pair.hbSeen then (s.pairActive.setBit rPAIR_STAT 10).pairDual else s)

/-- PAIR_ACT_IN_CHANGE (R364, R369): a waiting device without PRIMARY follows its partner, two active devices resolve
which releases, and a standby may take over. -/
def execPairActInChange (level primary : Bool) (s : State) : Out :=
  .next (
    let s := s.setPair { s.pair with actIn := level, peerPrimary := primary }
    if level then (if s.pair.role = 1 && !s.pairPrimary then s.pairStandby else s.pairDual)
    else s.peerGone)

/-- HEARTBEAT_LOSS (R363, R369): while PAIR_ACT_IN stays high it sets HB_FAULT and triggers nothing. -/
def execHeartbeatLoss (s : State) : Out :=
  .next (
    let s := s.setPair { s.pair with hbOk := false, lost := true }
    if s.pair.actIn then s.setBit rPAIR_STAT 7 else s.peerGone)

/-- HEARTBEAT_RETURN (R363). -/
def execHeartbeatReturn (s : State) : Out :=
  .next (s.setPair { s.pair with hbOk := true, hbSeen := true, lost := false })

/-- TAKEOVER_DRIVE (R370): at its reload a group of the pair leaves high-impedance. -/
def execTakeoverDrive (g : Nat) (s : State) : Out :=
  .next (
    if s.pair.role = 3 && bit s.pairGroups g && bit s.pair.zGroups g && decide (g < 8) then
      let s' := s.setPair { s.pair with
        zGroups := s.pair.zGroups &&& (255 - 2 ^ g), driving := s.pair.driving ||| 2 ^ g, trigAt := none
        lastSw := match s.pair.trigAt with
          | some t => min 0xFFFFFFFF (divOpen 90 (s.clk.t - t : Nat) 400).toNat
          | none => s.pair.lastSw }
      if s.pair.trigAt.isSome then s'.inc rPAIR_CNT_SWITCH else s'
    else s)

/-- PAIR_HANDOVER (R371): refused under another epoch, and where the partner reports that it is not FIT. -/
def execPairHandover (epoch : BitVec 16) (s : State) : Out :=
  .next (
    if s.pair.role ≠ 3 then s
    else if (s.role s.pairRole).epoch ≠ epoch.toNat then s.stale
    else if !s.pair.partnerFit then s.setBit rPAIR_STAT 12
    else
      let p := ((s.grp s.pairGroup).pidx + 2 * s.mirDiv) % 2 ^ 32
      (s.setPair { s.pair with handover := some p }).trsSendTo s.partnerRank 0x05 epoch.toNat 0 (leBytes 4 p))

/-- HSW_FRAME (R371): the partner names the reload of a handover, or reports whether it is FIT. -/
def execHswFrame (f : TrsFrame) (msg : HswMsg) (s : State) : Out :=
  .next (
    if f.type ≠ 5 || f.src ≠ s.partnerRank || !s.pairOn then s
    else match msg with
      | .handover p => if s.pair.role = 2 then s.setPair { s.pair with handover := some p } else s
      | .fit ok => s.setPair { s.pair with partnerFit := ok })

/-- HANDOVER_SWITCH (R371): at the named reload the active's outputs go high-impedance and the standby's drive. -/
def execHandoverSwitch (s : State) : Out :=
  .next (
    if s.pair.handover != some (s.grp s.pairGroup).pidx then s
    else if s.pair.role = 3 then
      let s := s.pairStandby
      (s.setPair { s.pair with cause := 2 }).inc rPAIR_CNT_SWITCH
    else if s.pair.role = 2 then
      let s := s.pairActive
      (s.setPair { s.pair with cause := 2, handover := none }).inc rPAIR_CNT_SWITCH
    else s)

/-- PAIR_TAKE (R369): unless a paired group does not run. -/
def execPairTake (s : State) : Out :=
  .next (
    if s.pair.role = 2 && (List.range 8).all (fun g => !bit s.pairGroups g || (s.grp g).st == .running) then
      (s.takeover 3).pairDual
    else s)

/-- PAIR_REJOIN (R360): a deposed device returns as standby. -/
def execPairRejoin (s : State) : Out :=
  .next (
    if s.pairOn && s.pair.deposed then (s.setPair { s.pair with deposed := false }).pairStandby else s)

/-- PEER_HELD (R372). -/
def execPeerHeld (s : State) : Out :=
  .next (if s.pair.role = 3 && s.pair.tookOver && !s.pair.hbOk then s.setBit rPAIR_STAT 9 else s)

/-! ### Mirror records (R366, Tables 15.5, 15.6) -/

/-- A word of a mirror item; how many there are; and their fields. -/
def State.mirItem (s : State) (i k : Nat) : Nat := s.trsBank (8 + 4 * i + k)
def State.nItem (s : State) : Nat := min 16 (s.trsBank 5)
def State.mirKind (s : State) (i : Nat) : Nat := bits (s.mirItem i 0) 0 4
def State.mirCmp (s : State) (i : Nat) : Bool := bit (s.mirItem i 0) 4
def State.mirCtx (s : State) (i : Nat) : Nat := bits (s.mirItem i 0) 8 6

/-- The words that an item puts into the record: a meter count is two words. A region and bank choice is the region in
[15:0] and the bank in [31:16] (log 22). -/
def State.mirWords (s : State) (i : Nat) : List Word :=
  let c := s.ctx (s.mirCtx i)
  match s.mirKind i with
  | 1 => ((List.range 32).filter fun r => bit (s.mirItem i 1) r).map fun r => c.sReg r
  | 2 => (List.range (s.mirItem i 2)).map fun k => s.ldm (s.mirItem i 1 + k)
  | 3 => (List.range 29).flatMap fun n =>
      let v := Mtr.get0 s.mtr.acc n / 2 ^ 24
      [word (v % 2 ^ 32), word (v / 2 ^ 32)]
  | 4 => (List.range 8).map fun k =>
      word ((List.range 32).map fun b => 2 ^ b * b2n (s.evtEntry (32 * k + b)).armed).sum
  | 5 => [word (c.region.getD 0xFFFF % 65536 + 65536 * c.bank)]
  | 6 => [word c.bucket]
  | _ => []

/-- The bytes of a list of words, and the words of a list of bytes. -/
def wordsBytes (ws : List Word) : List Byte := ws.flatMap fun w => leBytes 4 w.toNat
def bytesWords (b : List Byte) : List Word := (List.range (b.length / 4)).map fun k => word (field b (4 * k) 4)

/-- How many words an item puts into the record. -/
def State.mirLen (s : State) (i : Nat) : Nat :=
  match s.mirKind i with
  | 1 => ((List.range 32).filter fun r => bit (s.mirItem i 1) r).length
  | 2 => s.mirItem i 2
  | 3 => 58
  | 4 => 8
  | _ => 1

/-- LEN of a record. -/
def State.recordLen (s : State) : Nat := 36 + 4 * ((List.range s.nItem).map s.mirLen).sum

/-- A context is in a run. -/
def State.ctxRuns (s : State) (n : Nat) : Bool := (s.ctx n).begun && (s.ctx n).st.inRun

/-- The contexts in a run that the items name. -/
def State.mirRuns (s : State) : List Nat :=
  ((List.range s.nItem).filter fun i => s.mirKind i == 1 || s.mirKind i == 5 || s.mirKind i == 6).map s.mirCtx
    |>.filter s.ctxRuns

/-- A context that an item names is in a run. -/
def State.mirBusy (s : State) : Bool := !s.mirRuns.isEmpty

/-- The header of the record captured at a reload. -/
def State.mirHeader (s : State) : List Byte :=
  let a := angWord s.ang.sch
  leBytes 4 s.pair.genTx ++ leBytes 2 (s.role s.pairRole).epoch ++ leBytes 2 s.recordLen ++
    leBytes 4 (s.grp s.pairGroup).pidx ++ leBytes 4 (a % 2 ^ 32) ++ leBytes 4 (a / 2 ^ 32 % 2 ^ 32) ++
    leBytes 4 s.pair.dispatches ++ leBytes 8 0

/-- The record leaves in MIRROR frames of 16 bytes. -/
def State.mirSend (s : State) (header : List Byte) : State :=
  let b := header ++ (List.range s.nItem).flatMap fun i => wordsBytes (s.mirWords i)
  let b := b ++ leBytes 4 (crc32c b)
  let s := s.setPair { s.pair with capture := none }
  s.each (List.range ((b.length + 15) / 16)) fun s k =>
    s.trsSendTo s.partnerRank 0x07 (s.role s.pairRole).epoch 0 (leBytes 2 (16 * k) ++ slice b (16 * k) 16)

/-- A capture is sent once the listed contexts that ran at its reload have ended that run (R366). -/
def State.mirReady (s : State) : State :=
  match s.pair.capture with
  | some (h, ns) =>
    let ns := ns.filter s.ctxRuns
    if ns.isEmpty then s.mirSend h else s.setPair { s.pair with capture := some (h, ns) }
  | none => s

/-- A reload of PAIR_GROUP: the active captures at every MIR_DIV-th, the standby keeps its meter for the record's. -/
def State.pairReload (s : State) (g : Nat) : State :=
  if !s.pairOn || g ≠ s.pairGroup then s
  else
    let n := s.pair.reloads + 1
    let s := s.setPair { s.pair with reloads := n, age := s.pair.age + 1 }
    if s.pair.role = 3 && n % s.mirDiv = 0 then
      let s := s.setPair { s.pair with genTx := (s.pair.genTx + 1) % 2 ^ 32 }
      (s.setPair { s.pair with capture := some (s.mirHeader, s.mirRuns) }).mirReady
    else if s.pair.role = 2 && (List.range s.nItem).any (fun i => s.mirKind i == 3) then
      let own := (List.range 29).map fun k => Mtr.get0 s.mtr.acc k
      s.setPair { s.pair with accAt := (((s.grp g).pidx, own) :: s.pair.accAt).take 256 }
    else s

/-- MIRROR_FRAME (R367): a part of a record under the PAIR role; the first frame of the next record discards an
incomplete one. -/
def execMirrorFrame (f : TrsFrame) (s : State) : Out :=
  .next (
    if f.type ≠ 7 || !s.pairOn then s
    else if !s.roleAccepts s.pairRole f then s.stale
    else
      let off := field f.payload 0 2
      let s := if off = 0 && !s.pair.rx.isEmpty then (s.setPair { s.pair with rx := [] }).inc rPAIR_CNT_GAP else s
      let rx := SMap.set (fun _ => []) s.pair.rx off (slice f.payload 2 16)
      let len := field (SMap.get (fun _ => []) rx 0) 6 2
      let b := ((List.range ((len + 15) / 16)).flatMap fun k => SMap.get (fun _ => []) rx (16 * k)).take len
      let s := s.setPair { s.pair with rx := rx }
      if len ≥ 36 && b.length = len then
        (if crc32c (b.take (len - 4)) = field b (len - 4) 4 then s.setPair { s.pair with rx := [], whole := some b }
         else (s.setPair { s.pair with rx := [] }).inc rPAIR_CNT_GAP)
      else s)

/-! ### Comparing and applying a record (R367, R368) -/

/-- The words of a record's items, item by item. -/
def State.recordItems (s : State) (b : List Byte) : List (List Word) :=
  ((List.range s.nItem).foldl (fun (a : Nat × List (List Word)) i =>
    (a.1 + 4 * s.mirLen i, a.2 ++ [bytesWords (slice b a.1 (4 * s.mirLen i))])) (0x20, [])).2

/-- The words that an item compares: of registers those in the compare mask, else all. -/
def State.mirCompared (s : State) (i k : Nat) : Bool :=
  if s.mirKind i = 1 then
    bit (s.mirItem i 2) (((List.range 32).filter fun r => bit (s.mirItem i 1) r).getD k 0)
  else true

/-- The words that differ, by their place in the record, and whether each may be latent. -/
def State.mirDiffs (s : State) (b : List Byte) : List (Nat × Bool) :=
  let place := fun i => ((List.range i).map s.mirLen).sum
  ((s.recordItems b).zipIdx).flatMap fun (ws, i) =>
    if s.mirCmp i then
      ((ws.zip (s.mirWords i)).zipIdx.filter fun p => p.1.1 != p.1.2 && s.mirCompared i p.2).map fun p =>
        (place i + p.2, s.mirKind i == 1 || s.mirKind i == 2)
    else []

/-- The comparison of R368; `fresh` names the words that firmware has read since the last record was applied. -/
def State.mirCompare (s : State) (b : List Byte) (fresh : List Nat) : State :=
  let d := s.mirDiffs b
  let latent := (d.filter fun p => p.2 && !fresh.contains p.1).length
  let bad := d.length - latent
  let s := if latent = 0 then s else (s.setBit rPAIR_STAT 5).count rPAIR_CNT_LATENT latent
  let s := s.count rPAIR_CNT_MISMATCH bad
  let mm := if bad = 0 then 0 else s.pair.mmRun + 1
  let ok := if bad = 0 then s.pair.okRun + 1 else 0
  s.setPair { s.pair with
    mmRun := mm, okRun := ok, unfit := if mm ≥ s.mmN then true else if ok ≥ s.mmN then false else s.pair.unfit }

/-- The record's meter counts and the standby's own increments since the capture reload (R367). -/
def State.mirMeter (s : State) (ws : List Word) (pidx : Nat) : State :=
  let own := ((s.pair.accAt.find? fun p => p.1 == pidx).map (·.2)).getD []
  let acc := (List.range 29).foldl (fun a n =>
    let v := (ws.getD (2 * n) 0).toNat + 2 ^ 32 * (ws.getD (2 * n + 1) 0).toNat
    let now := Mtr.get0 s.mtr.acc n
    let inc := if own.isEmpty then 0 else (now + 2 ^ 88 - own.getD n 0 % 2 ^ 88) % 2 ^ 88
    SMap.set (fun _ => 0) a n ((v * 2 ^ 24 + inc) % 2 ^ 88)) []
  s.setMtr { s.mtr with acc := acc }

/-- Replaces what an item names. -/
def State.mirPut (s : State) (i : Nat) (ws : List Word) (pidx : Nat) : State :=
  let n := s.mirCtx i
  let c := s.ctx n
  match s.mirKind i with
  | 1 =>
    let rs := (List.range 32).filter fun r => bit (s.mirItem i 1) r
    s.setCtx n ((rs.zip ws).foldl (fun c p => c.setS p.1 p.2) c)
  | 2 => s.setBytes (ldmBase + 4 * s.mirItem i 1) (wordsBytes ws)
  | 3 => s.mirMeter ws pidx
  | 4 => s.each (List.range 256) fun s k =>
      s.setEvtEntry k { s.evtEntry k with armed := (ws.getD (k / 32) 0).getLsbD (k % 32) }
  | 5 =>
    let w := (ws.getD 0 0).toNat
    s.setCtx n { c with
      region := if w % 65536 = 0xFFFF then none else some (w % 65536), bank := w / 65536
      bankBase := (s.bankBase (w / 65536)).getD 0, hasBank := (s.bankBase (w / 65536)).isSome }
  | 6 => s.setCtx n { c with bucket := (ws.getD 0 0).toNat }
  | _ => s

/-- An LDM range of the record lies in the write window of a context in a run. -/
def State.mirWindow (s : State) : Bool :=
  (List.range s.nItem).any fun i =>
    s.mirKind i == 2 && ctxIds.any fun n =>
      let c := s.ctx n
      s.ctxRuns n && decide (c.desc.wBase < 4 * (s.mirItem i 1 + s.mirItem i 2)) &&
        decide (4 * s.mirItem i 1 < c.desc.wBase + c.desc.wLen)

/-- MIRROR_APPLY (R367, R368): a complete record ahead of the last one applied, once no context stands in the way. -/
def execMirrorApply (fresh : List Nat) (s : State) : Out :=
  .next (
    match s.pair.whole with
    | none => s
    | some b =>
      let gen := field b 0 4
      let newer := match s.pair.genRx with
        | some g => aheadMod (2 ^ 32) g gen
        | none => true
      if s.pair.role ≠ 2 && s.pair.trigAt.isNone then s
      else if s.mirBusy || s.mirWindow then s
      else if !newer then s.setPair { s.pair with whole := none }
      else
        let s := s.mirCompare b fresh
        let s := ((s.recordItems b).zipIdx).foldl (fun s p => s.mirPut p.2 p.1 (field b 8 4)) s
        s.setPair { s.pair with whole := none, genRx := some gen, age := 0 })

/-- A TRESTLE bank commit (R373): clearing PAIR_EN ends the pair duty. -/
def State.pairCommit (s : State) : State :=
  if s.pairOn || s.pair.role = 0 then s
  else s.setPair { s.pair with role := 0, actOut := false, zGroups := 0, driving := 0, handover := none }

/-! ### Registers (Tables 15.12, 15.13) -/

def State.pairStat (s : State) : Nat :=
  s.pair.role + 4 * b2n (s.pair.zGroups != 0) + 8 * b2n s.pairFit + 16 * b2n s.pair.unfit + 64 * b2n s.pair.hbOk +
    2 ^ 13 * s.pair.cause

/-- The words of the PAIR window that follow from the state. -/
def State.pairWord (s : State) (off : Nat) : Option Word :=
  match off with
  | 8 => some (word s.pair.genTx)
  | 12 => some (word (s.pair.genRx.getD 0))
  | 16 => some (word s.pair.lastSw)
  | _ => none

end Sys2Proof.Machine
end

