-- ==== Sys2Proof/Machine/Trip.lean ====
section
/-!
DEFINITION. The commands of the trip matrix, the gate-driver fault inputs and the chopper (R214 to R225, R230 to R234),
and the consistency checks of TRIP (R229).
-/

namespace Sys2Proof.Machine

/-- A source code of Table 9.1. -/
def sourceDefined (src : Nat) : Bool := decide (src < 0x3D) || (decide (0x40 ≤ src) && decide (src < 0x78))

/-- TRIP_SOURCE_ACTIVE, TRIP_SOURCE_RELEASE (R216, R219). -/
def execTripSourceActive (src : Nat) (s : State) : Out := .next (if sourceDefined src then s.sourceOn src else s)
def execTripSourceRelease (src : Nat) (s : State) : Out := .next (if sourceDefined src then s.sourceOff src else s)

/-- ORDERED_DELAY_EXPIRY (R217): every output of the sequence stands at SAFE_LVL; the legs that a leg-local response
holds go FREE. -/
def execOrderedDelayExpiry (g : Nat) (s : State) : Out :=
  .next (
    if (s.grp g).seqRun then
      let s := s.setGrp g { s.grp g with seqRun := false }
      if (s.grp g).st == .running || (s.grp g).st == .frozen then
        s.each (s.groupLegs g) fun s l =>
          if (s.leg l).freed then s.each (s.legOuts l) fun s o => s.setDrive o .safeLvl else s
      else s.groupSafe g
    else s)

/-- One group of TRP_CLR (R220). -/
def State.tripClear (s : State) (g : Nat) : State :=
  if s.actedOn g then ((s.setBit rTRP_REFUSED g).setBit rTRP_STAT 1).inc rTRP_CNT_CLR_REF
  else (s.setGrp g { s.grp g with latches := [], pulses := [] }).groupUntrip g

/-- TRP_CLR. -/
def execTrpClr (mask : BitVec 8) (s : State) : Out :=
  .next (s.each ((List.range 8).filter fun g => mask.getLsbD g) State.tripClear)

/-- A refused release. -/
def State.tripRefuse (s : State) : State := (s.setBit rTRP_STAT 1).inc rTRP_CNT_CLR_REF

/-- DCK_RELEASE (R221). -/
def execDckRelease (s : State) : Out :=
  .next (if s.dckHeld then s.tripRefuse else { s with trp := { s.trp with dckOpen := false } })

/-- LEG_CLEAR (R225): the leg modulates again from its group's next reload. -/
def execLegClear (l : Nat) (s : State) : Out :=
  .next (
    if !(s.leg l).latched then s
    else if s.srcActive (0x12 + l) then s.tripRefuse
    else s.setLeg l { s.leg l with latched := false, ready := true })

/-! ### FLT_N (R222) and TRIP_IN (R439) -/

/-- FLT_N_CHANGE: the pin, active low, before its filter. -/
def execFltNChange (l : Nat) (high : Bool) (s : State) : Out :=
  .next (
    if l < 24 then
      s.setLeg l { s.leg l with pin := !high, pinAt := if (s.leg l).pin == !high then (s.leg l).pinAt else s.clk.t }
    else s)

/-- The pin has held its level for FLT_FILT × 20 ns, or 100 ns before an image is in force, trimmed to ±15 %. -/
def State.fltHeld (s : State) (l : Nat) : Bool :=
  let units := if s.hasSec secTrip then 8 * s.tripLeg l 0 1 else 40
  decide ((s.clk.t - (s.leg l).pinAt) * 100 ≥ 85 * units)

/-- FLT_FILTER_PASS: an assertion that begins inside a blanking window is ignored for the window; a release never is. -/
def execFltFilterPass (l : Nat) (high : Bool) (s : State) : Out :=
  let x := s.leg l
  .next (
    if decide (24 ≤ l) || x.filtered == !high || x.pin == high || !s.fltHeld l then s
    else if high then
      let s := s.setLeg l { x with filtered := false, ignored := false }
      if s.srcActive (0x12 + l) then s.fltOff l else s
    else if x.blanking then
      ((s.setLeg l { x with filtered := true, ignored := true }).inc rGDS_CNT_BLANK).setBit rGDS_STAT 1
    else (s.setLeg l { x with filtered := true }).fltOn l)

/-- FLT_BLANK_CLOSE. -/
def execFltBlankClose (l : Nat) (s : State) : Out :=
  let x := s.leg l
  .next (
    if x.blanking then
      let s := s.setLeg l { x with blanking := false, ignored := false }
      if x.filtered && x.ignored then s.fltOn l else s
    else s)

/-- TRIP_IN_CHANGE: the filtered pin, active high (R439). -/
def execTripInChange (n : Nat) (high : Bool) (s : State) : Out :=
  .next (if n < 8 then s.putSource (0x2A + n) high else s)

/-! ### Automatic clears (R225) -/

/-- AUTO_CLEAR: AC_WAIT has passed. -/
def execAutoClear (l : Nat) (s : State) : Out :=
  let x := s.leg l
  .next (
    if x.clearDue && !s.srcActive (0x12 + l) then
      (s.setLeg l { x with clearDue := false, ready := true, tries := x.tries + 1 }).inc rGDS_CNT_AC
    else s)

/-- TRY_COUNT_RESET. -/
def execTryCountReset (l : Nat) (s : State) : Out := .next (s.setLeg l { s.leg l with tries := 0 })

/-! ### Chopper commands -/

/-- CHP_CLEAR (R232): only while the chopper's group is STOPPED. -/
def execChpClear (s : State) : Out :=
  .next (match s.chpGroup with
    | some g =>
      if (s.grp g).st == .stopped && s.chp.kind != .none then
        ({ s with chp := { s.chp with kind := .none, openRun := 0, shortRun := 0, droop := [] } }).sourceOff 0x3C
      else s
    | none => s)

/-- DCOV2_STOP_STEP (R233). -/
def execDcov2StopStep (s : State) : Out := .next (s.dcov2Go 9)

/-- The effective threshold of DC_OV3 in VDDA / 4,096 steps: the image may only lower the fused one (R47, R228). -/
def State.dcov3Level (s : State) : Nat :=
  let fused := s.fuse 961 12
  let img := if s.hasSec secTrip then bits (field (s.sec secTrip) 2 2) 0 12 else 0
  if img = 0 then fused else min img fused

/-- DC_OV3_TRANSITION (R234): the filtered input, or the one that has proven its release, against the effective threshold and
the release level 20 mV below. A fused threshold of 0 disables the comparator. -/
def execDcOv3Transition (nV vddaNv : Int) (s : State) : Out :=
  let d := nV * 4096 - (s.dcov3Level : Int) * vddaNv
  let active := decide (0 < d) || (s.trp.dcov3 && !decide (d < -4096 * 20000000))
  .next (
    if s.cabValid && s.fuse 961 12 != 0 then
      ({ s with trp := { s.trp with dcov3 := active } }).putSource 0x33 active
    else s)

/-! ### Consistency checks (R229) -/

def State.checkTrip (s : State) : List (Nat × Bool) :=
  let p := s.sec secTrip
  let n := field p 0 1
  let rows := List.range (min n 64)
  let r := fun i off => field p (0x1C0 + 4 * i + off) 1
  let legs := List.range 24
  let f := s.tripLeg
  let cu := s.chpField
  let leg := cu 0 1
  let used := leg != 0xFF
  let ov2 := cu 0x19 1
  let order := s.dcov2List
  let ainUsed := fun ch =>
    ((List.range (min 1024 (field (s.sec secAnalog) 0 2))).any fun i => slotChannel (field (s.sec secAnalog) (0x218 + 2 * i) 2) == ch) ||
      (List.range 18).any fun k => s.cmpField k 0 1 == ch
  [ (1, decide (64 < n) || p.length != 0x1C0 + 4 * n)
  , (2, field p 1 1 != 0 || decide (0xFFF < field p 2 2) || field p 7 1 != 0 || !zeros p 0x0C 4 ||
      legs.any (fun l => decide (7 < f l 2 1) || decide (2 ^ 10 ≤ f l 6 2)) ||
      decide (3 < cu 1 1) || decide (255 < cu 2 2) || decide (255 < cu 4 2) || !zeros p (0x190 + 0x24) 12 ||
      rows.any fun i => !sourceDefined (r i 0) || bits (r i 2) 0 2 == 0 || decide (7 < r i 2) || r i 3 != 0)
  , (3, rows.any fun i => (List.range 8).any fun g => bit (r i 1) g && s.grpMode g == 0)
  , (4, legs.any fun l => decide (50 < f l 0 1) ||
      (s.legLocalOn l && s.acTries l != 0 && (f l 3 1 == 0 || f l 4 2 == 0)) ||
      ((s.legLocalOn l || s.diagOn l) && (s.legAt l).isNone))
  , (5, legs.any fun l => s.diagOn l &&
      (ainUsed (bits (s.diagWord l) 0 5) || decide (s.diagLimit l 1 < s.diagLimit l 0) || decide (s.diagLimit l 3 < s.diagLimit l 2)))
  , (6, used && (decide (23 < leg) || s.legType leg != tyCHP ||
      !(decide (s.chpSigned 8 < s.chpSigned 6) && decide (s.chpSigned 6 < s.chpSigned 10)) ||
      decide (5000 < cu 0x10 2) || cu 0x12 1 == 0 || cu 0x16 2 == 0 || decide (1000 < cu 0x16 2) ||
      [cu 0x18 1, ov2].any fun k => k != 0xFF && decide (17 < k)))
  , (7, ([cu 0x18 1, ov2].any fun k => k != 0xFF && (decide (17 < k) || !s.cmpAssigned k)) ||
      (ov2 != 0xFF && (hasDup order || order.any fun g => decide (7 < g) || s.grpMode g == 0)))
  , (8, hasDup (rows.map fun i => r i 0)) ]

end Sys2Proof.Machine
end

