-- ==== Sys2Proof/Machine/Checks.lean ====
section
/-!
DEFINITION. The consistency checks of LOOP_PROG and LOOP_COEF (R82, R362), REGIONS and CAND (R159), METER (R279), RECORDER
(R297) and HOLDUP (R391); and all checks of a commit by section (R40).
-/

namespace Sys2Proof.Machine

/-- A group that TOPOLOGY uses. -/
def State.groupUsed (s : State) (g : Nat) : Bool := decide (g < 8) && s.grpMode g != 0

/-! ### LOOP_PROG (R82) -/

/-- A window: multiples of 64 inside LDM; one of no length is absent. -/
def windowBad (base len : Nat) : Bool :=
  len != 0 && (base % 64 != 0 || len % 64 != 0 || decide (262144 < base + len))

/-- A bank that LOOP_COEF holds; 0 means none. -/
def State.bankThere (s : State) (id : Nat) : Bool :=
  id == 0 || (s.hasSec secLoopCoef && (bankIndex (s.sec secLoopCoef) id).isSome)

/-- DESIGN CHOICE (log 43): MODE[7:3] of a trace unit counts as reserved (DETAIL 4). -/
def State.checkLoopProg (s : State) : List (Nat × Bool) :=
  let p := s.sec secLoopProg
  let f := fun off n => field p off n
  let n := nCtx p
  let cw := codeWordsOf p
  let es := List.range (min n 63)
  let ds := es.map (descAt p)
  let e := fun i off len => f (0x30 + 32 * i + off) len
  let host := (hostWinBase p, hostWinLen p)
  let units := (List.range 4).filter fun u => s.trcBase u != 0xFFFFFFFF
  let gs := List.range 8
  [ (1, !within 1 n 63 || !within 1 cw 16384 || p.length != 0x30 + 32 * n + 8 * cw)
  , (2, hasDup (es.map fun i => e i 0 1) || es.any fun i => !within 1 (e i 0 1) 63)
  , (3, ds.any fun d => decide (cw ≤ d.entry) || (d.initEntry != 0xFFFF && decide (cw ≤ d.initEntry)))
  , (4, f 2 2 != 0 || (List.range 4).any (fun u => decide (7 < f (0x16 + 8 * u) 1) || f (0x17 + 8 * u) 1 != 0) ||
      es.any fun i => decide (7 < e i 1 1) || decide (2 ^ 9 ≤ e i 2 2) || (descAt p i).missAct == 3 || e i 11 1 != 0 ||
        decide (2 ^ 10 ≤ e i 12 2) || e i 0x1C 4 != 0)
  , (5, gs.any (fun g => decide (1 < (ds.filter fun d => bit d.stageGroups g).length)) ||
      gs.any fun g => !s.groupUsed g && ds.any fun d => bit d.stageGroups g)
  , (6, decide (1 < (ds.filter Desc.gen).length))
  , (7, decide (64 < (ds.map (·.ceQuota)).sum))
  , (8, ds.any fun d => !s.bankThere d.bank)
  , (9, windowBad host.1 host.2 || ds.any fun d => windowBad d.wBase d.wLen || areasMeet host (d.wBase, d.wLen))
  , (10, units.any (fun u => s.trcBase u % 16 != 0 || !within 16 (s.trcSize u) 32768) || anyMeet s.traceAreas ||
      s.traceAreas.any fun a => !hostVisible s.partitions a.1 a.2)
  , (11, ds.any fun d => bit d.adcTrig 9 && bits d.adcTrig 0 4 == 0) ]

/-! ### LOOP_COEF with the GRID and TRESTLE banks (R82, R238, R362) -/

/-- One mirror item, from its words (Table 15.5): reserved or out of range; beyond what exists. -/
def State.mirItemBad (s : State) (i : Nat) : Bool :=
  let k := s.mirKind i
  let a := s.mirItem i 1
  let b := s.mirItem i 2
  !within 1 k 6 || decide (2 ^ 14 ≤ s.mirItem i 0) || bits (s.mirItem i 0) 5 3 != 0 || s.mirItem i 3 != 0 ||
    (if k = 1 then a &&& b != b else if k = 2 then !within 1 b 1015 else a != 0 || b != 0)
def State.mirItemAway (s : State) (i : Nat) : Bool :=
  let k := s.mirKind i
  ((k == 1 || k == 5 || k == 6) && !s.ctxDefined (s.mirCtx i)) || (k == 2 && decide (65536 < s.mirItem i 1 + s.mirItem i 2))

/-- A carrier frequency in mHz: NCAR × 72 Hz, or FCAR. -/
def State.pairCarrier (s : State) (g : Nat) : Nat := if s.grpSync g = 1 then s.grpNcar g * 72000 else s.grpFcar g

def State.checkTrestle (s : State) : List (Nat × Bool) :=
  let w := s.trsBank
  let gs := List.range 8
  let items := List.range s.nItem
  let len := s.recordLen
  [ (9, bankLenOf (s.sec secLoopCoef) 1022 != 128 || w 0 != 1 || decide (2 ^ 4 ≤ w 1) || bits (w 2) 2 2 != 0 ||
      bits (w 2) 10 2 != 0 || bits (w 2) 15 1 != 0 || s.mirDiv != bits (w 2) 24 8 || decide (2 ^ 4 ≤ w 3) || decide (2 ^ 16 ≤ w 4) ||
      bits (w 4) 0 8 == 0 || bits (w 4) 8 8 == 0 || decide (16 < w 5) || w 6 != 0 || w 7 != 0 || items.any s.mirItemBad ||
      (List.range 16).any (fun i => decide (2 ^ 14 ≤ s.mirItem i 0) || s.mirItem i 3 != 0) ||
      (List.range 56).any fun k => w (72 + k) != 0)
  , (10, decide (4060 < 4 * (items.map s.mirLen).sum) || items.any s.mirItemAway)
  , (11, !bit s.pairGroups s.pairGroup || gs.any fun g => bit s.pairGroups g &&
      (!s.groupUsed g || (s.cabValid && (s.groupOuts g).any fun o => s.safeLvl o == 1 || s.safeLvl o == 2)))
  , (12, decide (s.mirDiv * 10 ^ 10 < s.pairCarrier s.pairGroup * (6 * ((len + 15) / 16) + 200))) ]

def State.checkLoopCoef (s : State) : List (Nat × Bool) :=
  let p := s.sec secLoopCoef
  let n := field p 0 2
  let ks := List.range (min n 1023)
  let f := fun k off len => field p (8 + 8 * k + off) len
  let total := (ks.map fun k => f k 4 4).sum
  let ids := ks.map fun k => f k 0 2
  [ (1, !within 1 n 1023 || p.length != 8 + 8 * n + 4 * total || !zeros p 2 6 || ks.any fun k => f k 2 2 != 0)
  , (2, hasDup ids || ids.any fun i => !within 1 i 1023)
  , (3, decide (16384 < total))
  , (4, s.hasSec secLoopProg && (List.range (nCtx (s.sec secLoopProg))).any fun i => !s.bankThere (descAt (s.sec secLoopProg) i).bank) ] ++
  (if s.gridOn then s.checkGrid (bankLenOf p 1023) (fun c => (s.desc c).any Desc.gen) else []) ++
  (if s.trsBankOn then s.checkTrestle else [])

/-! ### REGIONS and CAND (R159, Table 6.12) -/

/-- P of every free-running carrier is whole at an operating point. -/
def State.pointWhole (s : State) (k : Nat) : Bool :=
  let op := s.opPoint k
  let t := { s with clk := { s.clk with ndiv := op.1, rdiv := max 1 op.2 } }
  (List.range 8).all fun g => !s.groupUsed g || s.grpSync g == 1 || (t.freeP (s.grpFcar g)).2

/-- A field of a set-point channel out of its range (Table 6.11), be the channel on or off. -/
def State.sptBad (s : State) (ch : Nat) : Bool :=
  let f := s.sptField ch
  let mode := f 0 1
  let num := fun off => fToRat (word (f off 4))
  let below := match num 4, num 8 with
    | some a, some b => decide (a < b)
    | _, _ => false
  decide ((if ch = 0 then 1 else 2) < mode) || (decide (14 < f 1 1) && f 1 1 != 0xFF) || decide (1 < f 2 1) || !below ||
    decide (signed 32 (f 0x10 4) < signed 32 (f 0x0C 4)) || !within 1 (f 0x24 2) 1000 || !within 1 (f 0x26 2) 10000

/-- A box of one axis whose lower bound is above its upper bound, or a negative width. -/
def axisBad (fmt : Nat) (lo hi width : Word) : Bool :=
  (match fmtKey fmt lo, fmtKey fmt hi with
    | some a, some b => decide (b < a)
    | _, _ => true) ||
  (match fmtKey fmt width with
    | some a => decide (a < 0)
    | none => true)

def State.checkRegions (s : State) : List (Nat × Bool) :=
  let p := s.sec secRegions
  let f := fun off n => field p off n
  let ts := regionTables p
  let owner := f 1 1
  let regions := ts.flatMap fun o => (List.range (min 16 (f (o + 1) 1))).map fun r => (o, o + 32 + 64 * r)
  let bumps := regions.flatMap fun q => (List.range 4).map fun k => (q.2, k, q.2 + 0x20 + 8 * k)
  let src := fun o b => f (o + b) 1
  let wd := fun off => word (f off 4)
  [ (1, p.length != 112 + (ts.map fun o => 32 + 64 * f (o + 1) 1).sum || decide (63 < f 0 1))
  , (2, hasDup (ts.map fun o => f o 1) || ts.any fun o => !s.ctxDefined (f o 1))
  , (3, ts.any fun o => !within 1 (f (o + 1) 1) 16 || decide (f (o + 1) 1 ≤ f (o + 2) 1) || decide (f (o + 1) 1 ≤ f (o + 3) 1))
  , (4, ts.any fun o => [5, 8].any fun b => decide (5 < bits (src o b) 0 4) || bits (src o b) 4 2 == 3)
  , (5, regions.any fun q =>
      axisBad (bits (src q.1 5) 4 2) (wd q.2) (wd (q.2 + 4)) (wd (q.2 + 0x10)) ||
        axisBad (bits (src q.1 8) 4 2) (wd (q.2 + 8)) (wd (q.2 + 12)) (wd (q.2 + 0x14)))
  , (6, regions.any fun q => !s.bankThere (f (q.2 + 0x18) 2))
  , (7, !s.groupUsed (f 2 1) || decide (7 < f 2 1) || regions.any fun q =>
      let op := f (q.2 + 0x1A) 1
      op != 0xFF && (f q.1 1 != owner || decide (7 < op) || !(s.opValid op || (!s.hasSec secHoldup && op == 0)) || !s.pointWhole op))
  , (8, regions.any (fun q => decide (4 < f (q.2 + 0x1B) 1)) ||
      bumps.any fun b => decide (b.2.1 < f (b.1 + 0x1B) 1) && decide (31 < f b.2.2 1))
  , (9, s.sptBad 0 || s.sptBad 1)
  , (10, !zeros p 3 13 || [16, 64].any (fun o => f (o + 3) 1 != 0 || !zeros p (o + 0x28) 8) ||
      ts.any (fun o => decide (1 < f (o + 4) 1) || decide (63 < src o 5) || decide (63 < src o 8) || f (o + 9) 1 != 0 ||
        !zeros p (o + 0x0C) 20) ||
      regions.any (fun q => f (q.2 + 0x1C) 4 != 0) || bumps.any fun b => f (b.2.2 + 1) 1 != 0 || decide (2 ^ 14 ≤ f (b.2.2 + 2) 2)) ]

/-- A state code with a leg code of 5 or 6, or with bits beyond the legs (R134). -/
def codeBad (w : Nat) : Bool := decide (2 ^ 24 ≤ w) || (List.range 8).any fun j => bits w (3 * j) 3 == 5 || bits w (3 * j) 3 == 6

/-- Numbers that rise strictly. -/
def strictly : List Nat → Bool
  | a :: b :: l => decide (a < b) && strictly (b :: l)
  | _ => true

def State.checkCand (s : State) : List (Nat × Bool) :=
  let p := s.sec secCand
  let f := fun off n => field p off n
  let nt := f 0 1
  let np := f 1 1
  let ts := (List.range (min nt 8)).map fun t => 8 + 16 * t
  let plb := (List.range (min np 63)).map fun k => 8 + 16 * nt + 48 * k
  let base := fun o => f (o + 8) 4
  let ns := fun o => min 4096 (f (o + 2) 2)
  let nc := fun o => min 4096 (f (o + 4) 2)
  let stop := fun o => base o + 8 * ns o + 4 * nc o
  let idx := fun o => (List.range (ns o)).map fun k => base o + 8 * k
  let last := (ts.map stop).getLast?.getD 0
  [ (1, !within 1 nt 8 || decide (63 < np) || p.length != last ||
      ts.any (fun o => !within 1 (f (o + 2) 2) 4096 || !within 1 (f (o + 4) 2) 4096 || base o % 8 != 0 || f (o + 1) 1 != 0 ||
        f (o + 6) 2 != 0 || f (o + 12) 4 != 0) ||
      decide (base 8 < 8 + 16 * nt + 48 * np) || (ts.zip ts.tail).any (fun q => decide (base q.2 < stop q.1)) ||
      !zeros p 2 6 || plb.any fun o => decide (15 < f (o + 3) 1) || !zeros p (o + 0x0C) 4)
  , (2, hasDup (ts.map fun o => f o 1) || ts.any fun o => f o 1 == 0)
  , (3, ts.any fun o => !strictly ((idx o).map fun e => f e 4))
  , (4, ts.any fun o => (idx o).any fun e => !within 1 (f (e + 6) 2) 64 || decide (nc o < f (e + 4) 2 + f (e + 6) 2))
  , (5, ts.any fun o => (idx o).any (fun e => codeBad (f e 4)) ||
      (List.range (nc o)).any fun k => codeBad (f (base o + 8 * ns o + 4 * k) 4))
  , (6, decide (sramEnd - sramBase < ceBytes p))
  , (7, hasDup (plb.map fun o => f o 1) || plb.any fun o => !s.ctxDefined (f o 1))
  , (8, plb.any fun o => !within 1 (f (o + 1) 1) 2 || decide (f (o + 0xA) 2 < f (o + 8) 2) || f (o + 4) 2 == 0) ]

/-! ### METER (R279) -/

/-- A binary32 word above 0. -/
def posFloat (w : Nat) : Bool := within 1 w 0x7F7FFFFF

def State.checkMeter (s : State) : List (Nat × Bool) :=
  let p := s.sec secMeter
  let f := fun off n => field p off n
  [ (1, p.length != 64)
  , (2, decide (2 ^ 6 ≤ f 0 2) || bits (f 0 2) 2 2 == 3 || !within 1 (f 2 1) 16 || !within 1 (f 3 1) 60 || !within 4 (f 5 1) 16 ||
      f 6 2 != 0 || (List.range 8).any (fun k => !posFloat (f (8 + 4 * k) 4)) || f 0x28 4 % 32 != 0 || !within 4 (f 0x2C 2) 256 ||
      f 0x2E 2 != 0 || f 0x30 4 % 32 != 0 || !zeros p 0x34 12)
  , (3, !([10, 12, 15, 20, 25, 30, 50, 60, 100, 120].contains (f 4 1)))
  , (4, s.meterAreas.any (fun a => !hostVisible s.partitions a.1 a.2) || anyMeet s.meterAreas ||
      s.meterAreas.any fun a => s.traceAreas.any (areasMeet a)) ]

/-! ### RECORDER (R297) -/

/-- A Drawer record of a unit at its longest, with its record header. -/
def drawerLen (entry : List Byte) : Nat :=
  let n := field entry 8 4 + field entry 0x10 4
  let nch := field entry 4 1
  32 + 128 + n * recSampleLen nch + (if field entry 0 1 < 3 then 8 * ((n + 63) / 64) else 0) + 16 * nch

/-- The largest record that a stream can produce: DRAWER, LIFE and EVENT; HOST records are as long as the host asks. -/
def State.largestRecord (s : State) (i n : Nat) : Nat :=
  if i = 1 then ((List.range n).map fun u => drawerLen (recEntry (s.sec secRecorder) u)).foldl max 0
  else if i = 2 then (if s.hasSec secLifetime then 32 + 256 + 131072 else 0)
  else if i = 3 then 64 else 0

def State.checkRecorder (s : State) : List (Nat × Bool) :=
  let p := s.sec secRecorder
  let f := fun off n => field p off n
  let n := f 0 1
  let us := (List.range (min n 4)).map fun u => 0x60 + 384 * u
  let chans := us.flatMap fun o => (List.range (min 32 (f (o + 4) 1))).map fun k => f (o + 0x100 + 4 * k) 4
  let unitBad := fun (o : Nat) =>
    decide (3 < f o 1) || decide (7 < f (o + 1) 1) || f (o + 2) 2 == 0 || decide (32 < f (o + 4) 1) || decide (15 < f (o + 5) 1) ||
      !within 2 (f (o + 6) 1) 8 || f (o + 7) 1 != 0 || f (o + 0x0C) 4 == 0 || decide (f (o + 0x10) 4 < f (o + 0x0C) 4) ||
      bits (f (o + 0x14) 4) 27 5 != 0 || !zeros p (o + 0x18) 8 || !zeros p (o + 0xF0) 16 ||
      (List.range 4).any (fun k => decide (1 < f (o + 0x20 + 36 * k + 32) 4)) ||
      (List.range 4).any fun k => decide (3 < f (o + 0xB0 + 16 * k + 1) 1) || f (o + 0xB0 + 16 * k + 2) 2 != 0 ||
        f (o + 0xB0 + 16 * k + 12) 4 != 0
  [ (1, p.length != 0x60 + 384 * n)
  , (2, decide (4 < n) || !zeros p 1 3 || f 4 4 % 64 != 0 || decide (65535 < f 0x0C 4) ||
      (List.range 5).any (fun i => (decide (f (0x10 + 16 * i) 2 < 2) && !(i == 0 && f 0x10 2 == 0)) ||
        f (0x12 + 16 * i) 2 != 0 || f (0x1C + 16 * i) 4 != 0) ||
      us.any unitBad || chans.any (fun c => bits c 0 2 == 3) ||
      us.any fun o => (List.range 32).any fun k => bits (f (o + 0x100 + 4 * k) 4) 21 11 != 0)
  , (3, decide (1048576 < f 8 4) || decide (f 8 4 < ((List.range (min n 4)).map fun u =>
      field (recEntry p u) 6 1 * recBufLen (recEntry p u)).sum))
  , (4, decide (s.shf.pool.length < 8 + ((List.range 5).map fun i => f (0x10 + 16 * i) 2).sum))
  , (5, [1, 2, 3].any fun i => decide (s.depth i < s.largestRecord i (min n 4)))
  , (6, chans.any (fun c => (bits c 0 2 == 0 && decide (6 < bits c 2 16)) || (bits c 0 2 == 1 && decide (255 < bits c 2 16))) ||
      us.any fun o => (List.range 4).any fun k => bit (f (o + 0x14) 4) (20 + k) && decide (f (o + 4) 1 ≤ f (o + 0xB0 + 16 * k) 1))
  , (7, us.any fun o => f o 1 == 2 && !s.groupUsed (f (o + 1) 1)) ]

/-! ### HOLDUP (R391) -/

/-- An operating point breaks R381. -/
def pointBad (ndiv rdiv : Nat) : Bool :=
  !within 16 ndiv 1023 || !within 1 rdiv 25 || decide (25 * ndiv < 640 * rdiv) || decide (960 * rdiv < 25 * ndiv)

def State.checkHoldup (s : State) : List (Nat × Bool) :=
  let p := s.sec secHoldup
  let f := fun off n => field p off n
  let ops := List.range 8
  let vin := bit (f 0 2) 0
  let bulk := bit (f 0 2) 1
  let dc := match fToRat (word (f 0x1C 4)), fToRat (word (f 0x20 4)) with
    | some a, some b => decide (a < b)
    | _, _ => false
  let i := f 0x28 1
  let idle := (List.range 8).all fun g => (s.grp g).st == .stopped
  [ (1, p.length != 80)
  , (2, decide (3 < f 0 2) || (vin && (!within 500 (f 2 2) 2900 || !within 1 (f 4 2) 100 || !within 10 (f 6 2) 10000)) ||
      !within 3800 (f 8 2) 4400 ||
      (bulk && (!within 10 (f 0xA 2) 60000 || [0x0C, 0x10, 0x14].any (fun o => !posFloat (f o 4)) || !nonNegFloat (f 0x18 4))) ||
      !dc || f 0x26 2 != 0 || decide (7 < i) || !zeros p 0x29 7 ||
      ops.any fun k => bits (f (0x30 + 4 * k) 2) 10 5 != 0 || f (0x33 + 4 * k) 1 != 0)
  , (3, decide (7 < i) || !s.opValid i || ops.any fun k => s.opValid k && pointBad (s.opPoint k).1 (s.opPoint k).2)
  , (4, let a := 4 * f 0x24 2
      !s.hasSec secLoopProg || !(decide (hostWinBase (s.sec secLoopProg) ≤ a) &&
        decide (a < hostWinBase (s.sec secLoopProg) + hostWinLen (s.sec secLoopProg))))
  , (5, !idle && (!s.opValid s.clk.op || s.opPoint s.clk.op != (s.clk.ndiv, s.clk.rdiv))) ]

/-! ### The checks of a commit -/

/-- The checks of a section on the configuration that would be in force; the safety sections are the Monitor's. -/
def State.checkSection (s : State) (t : Nat) : List (Nat × Bool) :=
  match t with
  | 0x01 => s.checkTopology
  | 0x02 => s.checkLegs
  | 0x03 => s.checkAnalog
  | 0x04 => s.checkTrip
  | 0x05 => s.checkSched
  | 0x06 => s.checkLoopProg
  | 0x07 => s.checkLoopCoef
  | 0x08 => s.checkRegions
  | 0x09 => s.checkCand
  | 0x0C => s.checkMeter
  | 0x0D => s.checkRecorder
  | 0x0E => s.checkNetwork
  | 0x0F => s.checkHoldup
  | 0x10 => s.checkFans
  | 0x11 => s.checkLifetime
  | _ => []

/-- The first section, in the order of the type codes, that fails a check, with its lowest DETAIL. -/
def State.firstDisagree (s : State) (types : List Nat) : Option (Nat × Nat) :=
  ((List.range 0x12).filter types.contains).findSome? fun t => (firstFail (s.checkSection t)).map fun d => (t, d)

end Sys2Proof.Machine
end

