-- ==== Sys2Proof/Machine/Evt.lean ====
section
/-!
DEFINITION. The event scheduler (R60 to R70): firing and dispatch, host-controlled entries, the HOST_IRQ queue, and the
built-in metering strobe (R262).
-/

namespace Sys2Proof.Machine

def State.setEvt (s : State) (x : Evt) : State := { s with evt := x }

/-! ### Dispatch (R61, R66, R67) -/

/-- Entry `a` goes before entry `b`: by dispatch class, then by index. -/
def State.before (s : State) (a b : Nat) : Bool :=
  decide (s.entryAction a < s.entryAction b) || (s.entryAction a == s.entryAction b && decide (a < b))

/-- Inserts an entry into a list in dispatch order. -/
def State.insertEntry (s : State) (i : Nat) : List Nat → List Nat
  | [] => [i]
  | j :: l => if s.before i j then i :: j :: l else j :: s.insertEntry i l

/-- HOST_IRQ (R70): the code and the entry index enter the queue of 16, and the line is asserted until it is empty. -/
def State.hostIrq (s : State) (i : Nat) : State :=
  if s.evt.irqs.length < 16 then
    s.setEvt { s.evt with
      irqs := s.evt.irqs ++ [(bits (s.entryArg i) 8 8, i)], lines := s.evt.lines ||| 2 ^ bits (s.entryArg i) 0 1 }
  else s.setBit rEVT_STAT 4

/-- GPIO: toggles, sets or clears a pin; a pin that an enabled event channel owns is left to it (R182). -/
def State.gpioAct (s : State) (pin op : Nat) : State :=
  if s.pinOwned pin then s
  else
    let m : BitVec 16 := BitVec.ofNat 16 (2 ^ pin)
    let g := s.pins.gpio
    { s with pins := { s.pins with gpio := if op = 0 then g ^^^ m else if op = 1 then g ||| m else if op = 2 then g &&& ~~~m else g } }

/-- The launch time that an ETH_LAUNCH entry gives (R315): its due time on wall time, else 1,000 ns from now. -/
def State.launchTime (s : State) (i due : Nat) : Nat := if s.entryTb i = 2 then due else s.wallNs + 1000

/-- The action of an entry that was due at `due` (Table 3.6). -/
def State.dispatch (s : State) (i due : Nat) : State :=
  let s := s.setPair { s.pair with dispatches := (s.pair.dispatches + 1) % 2 ^ 32 }
  let a := s.entryArg i
  match s.entryAction i with
  | 1 => s.cmtRequest (bits a 0 3)
  | 2 => s.adcStart (bits a 0 4) (bits a 8 4) true
  | 3 => s.adcStart (bits a 0 4) (bits a 8 4) false
  | 4 => if bits a 0 2 = 0 then s.mtrStrobe else if bits a 0 2 = 1 then s.recStrobe else s
  | 5 => s.recEvent (bits a 0 4)
  | 6 => s.gpioAct (bits a 0 4) (bits a 4 2)
  | 7 => s.ethLaunch (bits a 0 3) (s.launchTime i due)
  | 8 => (s.request (bits a 0 6) 0 0).1
  | 9 => s.hostIrq i
  | _ => s

/-- Dispatches the first of the waiting entries, at most `n`; then the contexts that a sequence without slots completes are
requested (R83). -/
def State.dispatchUpTo (s : State) : Nat → State
  | 0 => s.adcRequests
  | n + 1 =>
    match s.evt.deferred with
    | [] => s.adcRequests
    | x :: rest =>
      let s := s.setEvt { s.evt with deferred := rest }
      (s.dispatch x.1 x.2).dispatchUpTo n

/-- An entry fires (R64, R68): a periodic entry moves on by its period, and an entry disarms after its last firing. -/
def State.fireEntry (s : State) (i : Nat) : State :=
  let e := s.evtEntry i
  let tb := s.entryTb i
  let wrap := fun t => if tb = 0 then t % 2 ^ 80 else if tb = 1 then t % 2 ^ 56 else t
  let step := if tb = 1 then s.entryPeriod i * 2 ^ 24 else s.entryPeriod i
  let periodic := s.entryPeriodic i
  let s := if e.crossed && !periodic then (s.setBit rEVT_STAT 1).inc rEVT_CNT_LATE else s
  let skip := e.crossed && periodic && decide (e.due + step < s.wallNs)
  let s := if skip then s.setBit rEVT_STAT 0 else s
  let next := if skip then e.due + ((s.wallNs - e.due) / max 1 step + 1) * step else wrap (e.due + step)
  let done := e.left == 1
  s.setEvtEntry i {
    armed := !done, due := if periodic then next else e.due, left := e.left - 1, absolute := e.absolute && !done }

/-- Where an entry's timebase stands, and its modulus. -/
def State.entryNow (s : State) (i : Nat) : Nat × Nat :=
  if s.entryTb i = 0 then (angWord s.ang.sch, 2 ^ 80)
  else if s.entryTb i = 1 then
    let x := s.grp (s.entryGroup i)
    let cnt := x.cntU / 2000000
    (x.pidx * 2 ^ 24 + cnt, 2 ^ 56)
  else (s.wallNs, wallMod)

/-- The instant for which an entry's action is issued now: a carrier PWM_COMMIT goes out 3 PTC cycles early, so that it lands
on the reload that it names (R24, R62), and a wall-time ETH_LAUNCH 2 µs early (R315). -/
def State.entryReach (s : State) (i : Nat) : Nat :=
  let x := s.grp (s.entryGroup i)
  if s.entryTb i = 1 ∧ s.entryAction i = 1 ∧ x.per ≤ x.cntU / 2000000 + 3 then (x.pidx + 1) % 2 ^ 32 * 2 ^ 24
  else if s.entryTb i = 2 ∧ s.entryAction i = 7 then (s.wallNs + 2000) % wallMod
  else (s.entryNow i).1

/-- An armed entry has come due (R65, R68): its timebase is at or past the due time. No angle entry fires in HOLD and no
carrier entry while its carrier stands; in a period of which P is not above the count, the entry is due at P − 1. -/
def State.entryDue (s : State) (i : Nat) : Bool :=
  let e := s.evtEntry i
  let x := s.grp (s.entryGroup i)
  let due := if s.entryTb i = 1 ∧ e.due / 2 ^ 24 = x.pidx then x.pidx * 2 ^ 24 + min (e.due % 2 ^ 24) (x.per - 1) else e.due
  e.armed && !aheadMod (s.entryNow i).2 (s.entryReach i) due &&
    (if s.entryTb i = 0 then s.ang.live && !s.angHold else if s.entryTb i = 1 then x.st == .running else s.tim.live)

/-- Some entries come due on one edge, in dispatch order: they fire, and those that earlier edges deferred go first; at most
4 actions go out (R66, R67). -/
def State.fireAll (s : State) (go : List Nat) : State :=
  let fired := go.map fun i => (i, (s.evtEntry i).due)
  let old := s.evt.deferred.length
  let s := s.each go State.fireEntry
  let s := (s.setEvt { s.evt with deferred := s.evt.deferred ++ fired }).dispatchUpTo 4
  let late := min go.length (go.length + old - min 4 (go.length + old))
  if late = 0 then s else (s.setBit rEVT_STAT 2).count rEVT_CNT_BURST late

/-- The entries of a list that are due, in dispatch order. -/
def State.dueOf (s : State) (l : List Nat) : List Nat :=
  (l.filter fun i => decide (i < s.nEntries) && s.entryDue i).foldl
    (fun l i => if l.contains i then l else s.insertEntry i l) []

/-- EVT_ENTRY_FIRE (R65 to R68): of the entries named, those that are due fire on one edge. -/
def execEvtEntryFire (due : List Nat) (s : State) : Out := .next (s.fireAll (s.dueOf due))

/-- Before a SCHED commit switches, the old schedule's entries that are due fire, and every action still deferred goes out
(Table 2.4). -/
def State.evtFlush (s : State) : State :=
  let s := s.fireAll (s.dueOf (List.range s.nEntries))
  s.dispatchUpTo s.evt.deferred.length

/-- The carrier PWM_COMMIT entries that name the reload at the start of period `pidx` of group `g` request it (R62). -/
def State.evtReload (s : State) (g pidx : Nat) : State :=
  s.each ((s.carrierEntries g).filter fun i =>
      s.entryAction i == 1 && !aheadMod (2 ^ 32) pidx ((s.evtEntry i).due / 2 ^ 24)) fun s i =>
    (s.fireEntry i).dispatch i (s.evtEntry i).due

/-- EVT_DEFERRED_DISPATCH (R67). -/
def execEvtDeferredDispatch (s : State) : Out := .next (s.dispatchUpTo 4)

/-- BUILTIN_STROBE (R262): until a SCHED section is in force. -/
def execBuiltinStrobe (s : State) : Out := .next (if s.hasSec secSched then s else s.mtrStrobe)

/-! ### Host-controlled entries (R69) -/

/-- An entry that the host may command. -/
def State.hostEntry (s : State) (i : Nat) : Bool := decide (i < s.nEntries) && s.entryHost i

/-- An entry that is due on the edge of its re-arming fires on its old time first. -/
def State.fireFirst (s : State) (i : Nat) : State := if s.entryDue i then s.fireAll [i] else s

/-- ARM_ABS. -/
def State.armAbs (s : State) (i t : Nat) : State :=
  if !s.hostEntry i then s.setBit rEVT_STAT 6
  else if s.entryTb i = 1 && (s.grp (s.entryGroup i)).st != .running then s.setBit rEVT_STAT 7
  else
    let now := s.entryNow i
    let due := timeOf (s.entryTb i) t
    if !aheadMod now.2 now.1 due then s.setBit rEVT_STAT 5
    else (s.fireFirst i).setEvtEntry i {
      armed := true, due := due, left := if s.entryPeriodic i then s.entryCount i else 1, absolute := true }

def execArmAbs (n : Nat) (t : BitVec 96) (s : State) : Out := .next (s.armAbs n t.toNat)

/-- ARM_REL. -/
def State.armHost (s : State) (i : Nat) : State :=
  if s.hostEntry i then (s.fireFirst i).armRel i else s.setBit rEVT_STAT 6
def execArmRel (i : Nat) (s : State) : Out := .next (s.armHost i)

/-- DISARM. -/
def State.disarm (s : State) (i : Nat) : State := if s.hostEntry i then s.setEvtEntry i {} else s.setBit rEVT_STAT 6
def execDisarm (i : Nat) (s : State) : Out := .next (s.disarm i)

/-! ### Registers (Tables 3.12, 3.13) -/

/-- EVT_IRQ_SRC: the head of the queue. -/
def State.evtIrqSrc (s : State) : Word :=
  match s.evt.irqs with
  | [] => 0
  | x :: _ => word (x.1 + 256 * x.2 + 2 ^ 31)

/-- EVT_IRQ_SRC_READ (R70): the head leaves the queue, and an empty queue asserts no line. -/
def State.evtIrqRead (s : State) : State :=
  s.setEvt { s.evt with irqs := s.evt.irqs.drop 1, lines := if s.evt.irqs.length ≤ 1 then 0 else s.evt.lines }
def execEvtIrqSrcRead (s : State) : Out := .next s.evtIrqRead

/-- The read-only bits of EVT_STAT. -/
def State.evtStat (s : State) : Nat :=
  8 * bits s.angStat 4 1 + 256 * ((List.range s.nEntries).filter fun i => (s.evtEntry i).armed).length

/-- EVT_PENDn. -/
def State.evtPend (s : State) (n : Nat) : Word :=
  word ((List.range 32).foldl (fun m k => m + 2 ^ k * b2n (s.evtEntry (32 * n + k)).armed) 0)

/-- At a commit and at boot EVT arms each entry that has ENABLE set; the old schedule's entries are dropped (R64). -/
def State.evtCommit (s : State) : State :=
  let s := s.setEvt { s.evt with entry := [], deferred := [] }
  s.each ((List.range s.nEntries).filter s.entryEnable) State.armRel

end Sys2Proof.Machine
end

