-- ==== Sys2Proof/Machine/Ce.lean ====
section
/-!
DEFINITION. The Candidate Evaluator (R134 to R144) and the Plausibility Checker (R152 to R154): the model block, the
neighbourhood tables, predictions, costs, selection, and what an evaluation's end and a comparison do.
-/

namespace Sys2Proof.Machine

/-! ### Exact values -/

/-- The exact sum of two values. -/
def exAdd (a b : FVal) : FVal :=
  match a, b with
  | .nan _, _ => .nan false
  | _, .nan _ => .nan false
  | .inf x, .inf y => if x = y then .inf x else .nan false
  | .inf x, _ => .inf x
  | _, .inf y => .inf y
  | .fin x m e, .fin y n f =>
    let e0 := min e f
    let v := fScaled x m e e0 + fScaled y n f e0
    .fin (decide (v < 0)) v.natAbs e0

def exZero : FVal := .fin false 0 0
def exMul (a b : FVal) : FVal := (fMulVal a b).getD (.nan false)
def exSub (a b : FVal) : FVal := exAdd a b.neg
def exSum (l : List FVal) : FVal := l.foldl exAdd exZero

def exAbs : FVal → FVal
  | .nan _ => .nan false
  | .inf _ => .inf false
  | .fin _ m e => .fin false m e

/-- The order of two values that are no NaN; false for a NaN. -/
def exLess (a b : FVal) : Bool := !a.isNan && !b.isNan && decide (fOrder a b < 0)

/-- One rounding to binary32. -/
def exRound (a : FVal) : Word := (fDeliver a).1

/-- The value of a word. -/
def exOf (w : Word) : FVal := (fDecode w).1

/-- A value over a positive integer, rounded once. -/
def exOver (a : FVal) (n : Nat) : Word :=
  match a with
  | .fin x m e =>
    let v : Int := if x then -(m : Int) else m
    if e ≥ 0 then fOfRat (v * 2 ^ e.toNat) n else fOfRat v (n * 2 ^ (-e).toNat)
  | v => exRound v

/-! ### The model block (Table 6.1) -/

/-- What an evaluation works on: its request and the words of its model block. -/
structure Model where
  req : EvalReq
  ws : List Word

def Model.wd (m : Model) (i : Nat) : Word := m.ws.getD i 0
def Model.shape (m : Model) (lo w : Nat) : Nat := bits (m.wd 0).toNat lo w
def Model.nx (m : Model) : Nat := m.shape 0 4
def Model.nl (m : Model) : Nat := m.shape 4 4
def Model.nd (m : Model) : Nat := m.shape 8 4
def Model.nlvl (m : Model) : Nat := m.shape 12 3
def Model.uscale (m : Model) : Nat := m.shape 16 4
def Model.nterm (m : Model) : Nat := m.shape 20 4
def Model.tid (m : Model) : Nat := bits (m.wd 1).toNat 0 8
def Model.h2n (m : Model) : Nat := bits (m.wd 1).toNat 8 4
def Model.curValid (m : Model) : Bool := (m.wd 2).getLsbD 24
def Model.curMap (m : Model) (j : Nat) : Nat := bits (m.wd 2).toNat (3 * j) 3
def Model.lvl (m : Model) (k : Nat) : FVal := exOf (m.wd (3 + k))
def Model.termCtrl (m : Model) (t : Nat) : Nat := (m.wd (200 + 4 * t)).toNat
def Model.termW (m : Model) (t : Nat) : FVal := exOf (m.wd (201 + 4 * t))
def Model.termParam (m : Model) (t : Nat) : FVal := exOf (m.wd (202 + 4 * t))
def Model.termType (m : Model) (t : Nat) : Nat := bits (m.termCtrl t) 0 4
def Model.terms (m : Model) : List Nat := List.range m.nterm
def Model.legs (m : Model) : List Nat := List.range m.nl
/-- The states of a term's MASK below NX. -/
def Model.mask (m : Model) (t : Nat) : List Nat := (List.range m.nx).filter fun i => bit (m.termCtrl t) (16 + i)

/-! ### Neighbourhood tables (R138, R139) -/

/-- The directory offset of the model's table. -/
def Model.table (m : Model) : Option Nat :=
  ((List.range (field m.req.cand 0 1)).map fun i => 8 + 16 * i).find? fun o => field m.req.cand o 1 == m.tid

def Model.dir (m : Model) (off n : Nat) : Nat := field m.req.cand ((m.table.getD 0) + off) n
def Model.nState (m : Model) : Nat := m.dir 2 2
def Model.base (m : Model) : Nat := m.dir 8 4

/-- The index entry of a state. -/
def Model.entry (m : Model) (st : Word) : Option Nat :=
  (List.range m.nState).find? fun k => field m.req.cand (m.base + 8 * k) 4 == st.toNat

/-- The candidates of an index entry, in list order. -/
def Model.list (m : Model) (k : Nat) : List Word :=
  let first := field m.req.cand (m.base + 8 * k + 4) 2
  (List.range (field m.req.cand (m.base + 8 * k + 6) 2)).map fun i =>
    word (field m.req.cand (m.base + 8 * m.nState + 4 * (first + i)) 4)

/-! ### Model errors (R136) -/

/-- The levels do not rise strictly. -/
def Model.levelsBad (m : Model) : Bool := (List.range (m.nlvl - 1)).any fun k => !exLess (m.lvl k) (m.lvl (k + 1))

/-- The reason of a model error: a code of CE_MERR, or 16 for an NTERM out of range, to which the manual gives none. -/
def Model.error (m : Model) : Option Nat :=
  let types := m.terms.map m.termType
  if m.nx = 0 ∨ 8 < m.nx then some 1
  else if m.nl = 0 ∨ 8 < m.nl then some 2
  else if 8 < m.nd then some 3
  else if m.nlvl < 2 ∨ 5 < m.nlvl ∨ m.levelsBad then some 4
  else if 7 < m.uscale ∧ m.uscale ≠ 15 then some 5
  else if m.nterm = 0 ∨ 8 < m.nterm then some 16
  else if types.any fun t => decide (6 < t) then some 6
  else if m.table.isNone then some 7
  else if m.req.cfg.h2 && (m.h2n == 0 || decide (8 < m.h2n)) then some 8
  else if m.terms.any fun t => exLess (m.termW t) exZero then some 9
  else if !m.curValid && types.contains 4 then some 10
  else none

/-! ### Prediction (R137) -/

/-- The code of leg `j`. -/
def legCodeOf (st : Word) (j : Nat) : Nat := bits st.toNat (3 * j) 3

/-- w of R137. -/
def Model.scale (m : Model) : FVal := if m.uscale = 15 then exOf fOne else exOf (m.req.d.getD m.uscale 0)

/-- u_j for a candidate state from the vector that holds the leg currents. -/
def Model.input (m : Model) (x : List Word) (st : Word) (j : Nat) : FVal :=
  if legCodeOf st j = 7 then
    let i := exOf (x.getD (m.curMap j) 0)
    if i.isNan then .nan false
    else if exLess exZero i then exMul m.scale (m.lvl 0)
    else if exLess i exZero then exMul m.scale (m.lvl (m.nlvl - 1))
    else exZero
  else exMul m.scale (m.lvl (legCodeOf st j))

/-- x̂ from a state vector under a candidate state. -/
def Model.predict (m : Model) (x : List Word) (st : Word) : List Word :=
  (List.range 8).map fun r =>
    if r < m.nx then
      let coef := fun (base c : Nat) => exOf (m.wd (base + 8 * r + c))
      exRound (exSum (
        ((List.range m.nx).map fun c => exMul (coef 8 c) (exOf (x.getD c 0))) ++
        (m.legs.map fun j => exMul (coef 72 j) (m.input x st j)) ++
        ((List.range m.nd).map fun c => exMul (coef 136 c) (exOf (m.req.d.getD c 0)))))
    else 0

/-- A candidate with a FREE leg is excluded without a current map. -/
def Model.excluded (m : Model) (st : Word) : Bool := !m.curValid && m.legs.any fun j => legCodeOf st j == 7

/-! ### Cost (R140) -/

/-- The switching distance of two leg codes. -/
def legDist (a b : Nat) : Nat := if a = b then 0 else if a = 7 || b = 7 then 1 else max a b - min a b

def exNat (n : Nat) : FVal := .fin false n 0

/-- The value of term `t`: `cur` holds the leg currents, `xh` the prediction, `st` the candidate and `prev` the state it
switches from. -/
def Model.term (m : Model) (cur xh : List Word) (st prev : Word) (t : Nat) : Word :=
  let w := m.termW t
  let err := fun i => exSub (exOf (xh.getD i 0)) (exOf (m.req.r.getD i 0))
  match m.termType t with
  | 1 => exRound (exMul w (exSum ((m.mask t).map fun i => exMul (err i) (err i))))
  | 2 => exRound (exMul w (exSum ((m.mask t).map fun i => exAbs (err i))))
  | 3 => exRound (exMul w (exNat (m.legs.map fun j => legDist (legCodeOf st j) (legCodeOf prev j)).sum))
  | 4 =>
    let mid := m.legs.filter fun j => m.nlvl % 2 == 1 && legCodeOf st j == (m.nlvl - 1) / 2
    let np := exSum (mid.map fun j => exOf (cur.getD (m.curMap j) 0))
    exRound (exMul w (exAbs (exAdd (exOf (xh.getD (bits (m.termCtrl t) 8 3) 0)) (exMul (m.termParam t) np))))
  | 5 => exOver (exMul w (exAbs (exSum (m.legs.map fun j => m.input cur st j)))) m.nl
  | 6 => exRound (exMul w (exSum ((m.mask t).map fun i =>
      let v := exSub (exAbs (exOf (xh.getD i 0))) (m.termParam t)
      if exLess v exZero then exZero else v)))
  | _ => 0

/-- The sum of the terms of one step, added in term order with binary32 addition. -/
def Model.stepCost (m : Model) (cur xh : List Word) (st prev : Word) : Word :=
  m.terms.foldl (fun a t => (fAdd a (m.term cur xh st prev t)).1) 0

/-- What a candidate came to: its state, x̂ at step 1 and its cost; a NaN counts as +∞ and is noted. -/
structure Cand where
  st : Word
  xh : List Word
  cost : Word
  nan : Bool

def plusInf : Word := 0x7F800000

/-- A cost with a NaN counted as +∞. -/
def costOf (c : Word) : Word × Bool := if (exOf c).isNan then (plusInf, true) else (c, false)

/-- The smallest of some costs; +∞ for none. -/
def minCost (l : List Word) : Word := l.foldl (fun a c => if exLess (exOf c) (exOf a) then c else a) plusInf

/-- The cost of one first-step candidate (R139, R140). -/
def Model.candidate (m : Model) (st : Word) : Cand :=
  let xh := m.predict m.req.x st
  let c1 := m.stepCost m.req.x xh st m.req.state0
  if m.excluded st then ⟨st, xh, plusInf, false⟩
  else if !m.req.cfg.h2 then
    let c := costOf c1
    ⟨st, xh, c.1, c.2⟩
  else match m.entry st with
    | none => ⟨st, xh, plusInf, false⟩
    | some k =>
      let second := ((m.list k).take m.h2n).map fun s2 =>
        if m.excluded s2 then (plusInf, false) else costOf (m.stepCost xh (m.predict xh s2) s2 st)
      let c := costOf (fAdd c1 (minCost (second.map (·.1)))).1
      ⟨st, xh, c.1, c.2 || second.any (·.2)⟩

/-! ### Selection (R141, R142) -/

def isFinite (w : Word) : Bool :=
  match exOf w with
  | .fin _ _ _ => true
  | _ => false

/-- The index of the smallest cost, the lowest on a tie, leaving one index out. -/
def bestOf (l : List Cand) (skip : Option Nat) : Option Nat :=
  (List.range l.length).foldl (fun b i =>
    if skip = some i then b
    else match b with
      | none => some i
      | some j =>
        match l[i]?, l[j]? with
        | some x, some y => if exLess (exOf x.cost) (exOf y.cost) then some i else b
        | _, _ => b) none

/-- num / den rounded to nearest; a tie is left open (log 5). -/
def nearestOpen (site : Nat) (num den : Int) : Int :=
  let r := num % den
  num / den + (if 2 * r > den ∨ (2 * r = den ∧ Config.roundUp site num den) then 1 else 0)

/-- The denominator of the split. -/
def Model.denOf (m : Model) (x1 x2 : List Word) : FVal :=
  let dx := fun i => exSub (exOf (x1.getD i 0)) (exOf (x2.getD i 0))
  exSum ((m.terms.filter fun t => m.termType t == 1).map fun t =>
    exMul (m.termW t) (exSum ((m.mask t).map fun i => exMul (dx i) (dx i))))

/-- δ in Q1.31, or none where its quotient is not defined by finite numbers. -/
def Model.delta (m : Model) (x1 x2 : List Word) : Option Word :=
  let ts := m.terms.filter fun t => m.termType t == 1
  let dx := fun i => exSub (exOf (x1.getD i 0)) (exOf (x2.getD i 0))
  let rx := fun i => exSub (exOf (m.req.r.getD i 0)) (exOf (x2.getD i 0))
  let sum := fun (f : Nat → FVal) => exSum (ts.map fun t => exMul (m.termW t) (exSum ((m.mask t).map f)))
  let num := sum fun i => exMul (rx i) (dx i)
  let den := m.denOf x1 x2
  if !exLess exZero den then some 0x7FFFFFFF
  else match num, den with
    | .fin a p e, .fin b q f =>
      let e0 := min e f
      let nn := fScaled a p e e0
      let dd := fScaled b q f e0
      some (wordOfInt (min 0x7FFFFFFF (nearestOpen 60 (clampInt 0 dd nn * 2 ^ 31) dd)))
    | _, _ => none

/-- x̂2 + δ (x̂1 − x̂2), rounded once. -/
def blend (delta : Word) (x1 x2 : List Word) : List Word :=
  if delta = 0x7FFFFFFF then x1
  else (List.range 8).map fun i =>
    let a := exOf (x1.getD i 0)
    let b := exOf (x2.getD i 0)
    exRound (exAdd b (exMul (.fin false delta.toNat (-31)) (exSub a b)))

/-! ### An evaluation -/

/-- Everything that an evaluation's end delivers. `free` stands for what the manual leaves open. -/
structure EvalOut where
  res : EvalResult
  words : SMap Word
  pred : List Word
  noState : Bool
  error : Option Nat
  nan : Bool

/-- The result words of Table 6.4. -/
def ceWordsOf (r : EvalResult) (status : Word) (x1 x2 : List Word) : SMap Word :=
  let put := fun (m : SMap Word) (e : Nat × Word) => SMap.set zeroWord m e.1 e.2
  let head := [(0x340, r.index), (0x341, r.code), (0x342, r.cost), (0x343, r.index2), (0x344, r.code2), (0x346, r.delta),
    (0x347, status)]
  let vec := fun (a : Nat) (x : List Word) => (List.range 8).map fun i => (a + i, x.getD i 0)
  (head ++ vec 0x350 x1 ++ vec 0x358 x2).foldl put []

/-- The status word 0x347. -/
def ceStatus (noState err none nan h2 : Bool) (k cycles : Nat) : Word :=
  word (1 + 2 * b2n noState + 4 * b2n err + 8 * b2n none + 16 * b2n nan + 32 * b2n h2 + 256 * k + 65536 * cycles)

/-- No valid candidate (R141): what its words hold beyond the index and the cost is open. -/
def noneOut (cfg : CandCfg) (opens : List Word) (noState nan : Bool) (err : Option Nat) (k cycles : Nat) : EvalOut :=
  let f := fun i => opens.getD i 0
  let r : EvalResult :=
    { cfg := cfg, index := 0xFFFFFFFF, code := f 0, cost := plusInf, index2 := 0xFFFFFFFF, code2 := f 1, delta := f 2, valid := false }
  let words := ceWordsOf r (ceStatus noState err.isSome true nan cfg.h2 k cycles)
    ((List.range 8).map fun i => f (3 + i)) ((List.range 8).map fun i => f (11 + i))
  { res := r, words := SMap.set zeroWord words 0x345 plusInf, pred := [], noState := noState, error := err, nan := nan }

/-- The evaluation of a request (R136 to R144). -/
def Model.evaluate (m : Model) (opens : List Word) : EvalOut :=
  let cfg := m.req.cfg
  match m.error with
  | some e => noneOut cfg opens false false (some e) 0 8
  | none =>
    let found := m.entry m.req.state0
    let cands := ((m.list (found.getD 0)).take cfg.nslot).map m.candidate
    let k := cands.length
    let cycles := if cfg.h2 then 104 + k * (6 + m.h2n) else 56 + k
    let nan := cands.any (·.nan)
    match bestOf cands none with
    | none => noneOut cfg opens found.isNone nan none k cycles
    | some i =>
      match cands[i]? with
      | none => noneOut cfg opens found.isNone nan none k cycles
      | some c1 =>
        if !isFinite c1.cost then noneOut cfg opens found.isNone nan none k cycles
        else
          let j := bestOf cands (some i)
          let c2 := (j.bind fun j => cands[j]?).getD ⟨c1.st, c1.xh, plusInf, false⟩
          let single := !isFinite c2.cost
          let tracked := m.terms.any fun t => m.termType t == 1
          let delta := if single || !tracked then 0x7FFFFFFF else (m.delta c1.xh c2.xh).getD (opens.getD 0 0)
          let same := single || !tracked || !exLess exZero (m.denOf c1.xh c2.xh)
          let r : EvalResult :=
            { cfg := cfg, index := word i, code := c1.st, cost := c1.cost
              index2 := match j with
                | some j => word j
                | none => 0xFFFFFFFF
              code2 := if same then c1.st else c2.st, delta := delta, valid := true }
          let words := ceWordsOf r (ceStatus found.isNone false false nan cfg.h2 k cycles) c1.xh c2.xh
          { res := r, words := SMap.set zeroWord (SMap.set zeroWord words 0x344 c2.st) 0x345 c2.cost
            pred := if cfg.modulated then blend delta c1.xh c2.xh else c1.xh
            noState := found.isNone, error := none, nan := nan }
/-- The model of a request as LCM holds it. -/
def State.modelOf (s : State) (e : EvalReq) : Model :=
  { req := e, ws := (List.range 232).map fun i => s.lcm (e.bankBase + 4 * (e.cfg.model + i)) }

/-- What an evaluation's end leaves in its context (R144, R152). -/
def Ctx.takeEval (c : Ctx) (e : EvalReq) (o : EvalOut) : Ctx :=
  let p : Prediction :=
    if o.res.valid && !e.discarded && !bit c.tripped e.cfg.group then { group := e.cfg.group, x := o.pred, use := .unused }
    else { group := e.cfg.group, x := [], use := .spoiled }
  let c := { c with preds := (p :: c.preds).take 2 }
  if e.discarded then c else { c with evalRes := some o.res, ceWords := o.words }

/-- CE_SERVICE_START (R88): the highest priority first, then the order of issue. -/
def execCeServiceStart (s : State) : Out :=
  .next (
    if s.ce.service.isSome then s
    else
      let best := s.ce.queue.foldl (fun (b : Option EvalReq) e => match b with
        | none => some e
        | some x => if e.prio > x.prio then some e else b) none
      match best with
      | none => s
      | some e =>
        let s := { s with ce := { queue := s.ce.queue.erase e, service := some e } }
        s.maxReg rCE_MAXWAIT (s.le.cyc - e.issued))

/-- The counters and flags of an evaluation's end. -/
def State.ceCount (s : State) (ctx : Nat) (o : EvalOut) : State :=
  let s := s.inc rCE_CNT_EVAL
  let s := if o.noState then (s.setBit rCE_STAT 0).inc rCE_CNT_NOSTATE else s
  let s := match o.error with
    | some e =>
      let f := s.takeFree
      let s := if e = 16 then f.2 else s
      let reason := if e = 16 then f.1.toNat % 16 else e
      ((s.setBit rCE_STAT 1).inc rCE_CNT_MODEL).setReg rCE_MERR (word (ctx + 256 * reason))
    | none => s
  let s := if o.res.valid then s else (s.setBit rCE_STAT 2).inc rCE_CNT_NONE
  if o.nan then s.setBit rCE_STAT 3 else s

/-- CE_EVALUATION_END (R143, R144). -/
def execCeEvaluationEnd (s : State) : Out :=
  .next (match s.ce.service with
    | none => s
    | some e =>
      let f := s.takeFrees 19
      let o := (s.modelOf e).evaluate f.1
      let s := { f.2 with ce := { f.2.ce with service := none } }
      let s := s.ceCount e.ctx o
      s.setCtx e.ctx ((s.ctx e.ctx).takeEval e o))

/-! ### Plausibility (R152, R153) -/

/-- The verdict on the states of MASK: how many were NaN, and whether one differs by more than its tolerance. -/
def plbJudge (p : List Byte) (o : Nat) (x pred : List Word) : Nat × Bool :=
  ((List.range 8).filter fun i => bit (field p (o + 2) 1) i).foldl (fun a i =>
    let v := exOf (x.getD i 0)
    if v.isNan then (a.1 + 1, a.2)
    else (a.1, a.2 || exLess (exOf (word (field p (o + 0x10 + 4 * i) 4))) (exAbs (exSub v (exOf (pred.getD i 0)))))) (0, false)

/-- The bucket reaches ACT: the reactions of REACT. -/
def State.plbReact (s : State) (n react : Nat) : State :=
  let s := s.setCtxBit rPLB_ACT_LO rPLB_ACT_HI n
  let s := if bit react 0 then s.irq 2 else s
  if bit react 2 then
    s.each ((List.range 8).filter fun g => bit (s.ctx n).desc.stageGroups g) fun s g => s.sourceOn (0x48 + g)
  else s

/-- The bucket takes a new value. -/
def State.plbBucket (s : State) (n new warn act react : Nat) : State :=
  let old := (s.ctx n).bucket
  let s := s.setCtx n { s.ctx n with bucket := new }
  let s := if old < max 1 warn ∧ warn ≤ new ∧ old < new then (s.setCtxBit rPLB_WARN_LO rPLB_WARN_HI n).setBit rPLB_STAT 0 else s
  if old < max 1 act ∧ act ≤ new ∧ old < new then s.plbReact n react else s

/-- The check at a CANDEVAL with the measured vector. -/
def State.plbCheck (s : State) (n : Nat) (x : List Word) : State :=
  let c := s.ctx n
  let p := c.cand
  match plbEntry p n with
  | none => s
  | some o =>
    let f := fun off k => field p (o + off) k
    match c.preds[f 1 1 - 1]? with
    | none => s.setCtx n { c with cntSkip := satInc c.cntSkip }
    | some q =>
      if q.use != .applied then s.setCtx n { c with cntSkip := satInc c.cntSkip }
      else
        let j := plbJudge p o x q.x
        let s := s.setCtx n { c with cntCmp := satInc c.cntCmp, cntNan := min 0xFFFFFFFF (c.cntNan + j.1) }
        if s.grd.rt && bit (f 3 1) 3 then s.setCtx n { s.ctx n with cntHold := satInc c.cntHold }
        else if j.2 then s.plbBucket n (min 65535 (c.bucket + f 4 2)) (f 8 2) (f 10 2) (f 3 1)
        else s.plbBucket n (c.bucket - f 6 2) (f 8 2) (f 10 2) (f 3 1)

/-- PLB_CLEAR of the selected context under its epoch (R154, R78). -/
def execPlbClear (epoch : BitVec 16) (s : State) : Out :=
  let n := bits (s.reg rPLB_CTX_SEL).toNat 0 6
  let c := s.ctx n
  .next (
    if n = 0 then s
    else if c.epoch ≠ epoch.toNat then
      ((s.setCtx n { c with cntStale := satInc c.cntStale }).setBit rLE_STAT 6).setBit rPLB_STAT 2
    else
      let s := s.setCtx n { c with bucket := 0 }
      let s := if n < 32 then s.clrBit rPLB_ACT_LO n else s.clrBit rPLB_ACT_HI (n - 32)
      s.each ((List.range 8).filter fun g => bit c.desc.stageGroups g && s.srcActive (0x48 + g)) fun s g =>
        s.sourceOff (0x48 + g))

/-- CE_ACTIVE. -/
def State.ceActive (s : State) : Word :=
  word ((match s.ce.service with
    | some e => e.ctx
    | none => 0) + 256 * min 63 s.ce.queue.length)

end Sys2Proof.Machine
end

