-- ==== Sys2Proof/Machine/LeIssue.lean ====
section
/-!
DEFINITION. How a Loop Engine instruction issues (R106, R109, R111): the running context, the order of exceptions, the
program counter; and the operations of the instructions that reach beyond a context's registers.
-/

namespace Sys2Proof.Machine

/-- What an instruction comes to: an exception, a state from which the next instruction follows, a taken branch to an
index, or a state that keeps the program counter (a wait, END, YIELD). -/
inductive LeRes where
  | exc (e : Exc)
  | ok (s : State)
  | jump (s : State) (t : Int)
  | stay (s : State)

/-- An instruction on the registers of its context alone. -/
def LeRes.reg (f : Ctx → Ctx) (s : State) (n : Nat) : LeRes := .ok (s.setCtx n (f (s.ctx n)))

/-- A branch on a condition of the registers. -/
def LeRes.branch (w : LeWord) (cond : Ctx → Bool) (s : State) (n : Nat) : LeRes :=
  if cond (s.ctx n) then .jump s (((s.ctx n).pc : Int) + w.imm.toInt) else .ok s

/-- The program counter of a context takes a value. -/
def State.setPc (s : State) (n pc : Nat) : State := s.setCtx n { s.ctx n with pc := pc }

/-- An instruction word issues in the running context (R106, R109): nothing where no context holds the lanes; else the
first exception of R109's order, or the instruction's effect. -/
def State.leIssue (s : State) (form : Form) (w : LeWord) (ecc : Ecc) (body : State → Nat → LeRes) : State :=
  let n := s.le.running
  let c := s.ctx n
  if n = 0 || !s.leOpen then s
  else if ecc = .fetch then s.raise n .ecc
  else if !form.legal w then s.raise n .illegal
  else if c.codeWords ≤ c.pc then s.raise n .pcRange
  else match body s n with
    | .exc e => s.raise n e
    | .jump t k =>
      if k < 0 ∨ (c.codeWords : Int) ≤ k then s.raise n .pcRange
      else if ecc = .data then s.raise n .ecc
      else t.setPc n k.toNat
    | .ok t => if ecc = .data then s.raise n .ecc else t.setPc n (c.pc + 1)
    | .stay t => if ecc = .data then s.raise n .ecc else t

/-! ### YIELD, SIG -/

/-- YIELD (R112): the context goes behind the READY contexts of its priority, if there is one. -/
def State.leYield (s : State) (n : Nat) : LeRes :=
  let c := s.ctx n
  let other := s.le.queue.any fun m => (s.ctx m).st == .ready && (s.ctx m).desc.prio == c.desc.prio
  if other then
    let s := s.dropLanes
    let s := s.setCtx n { s.ctx n with st := .ready, pc := c.pc + 1 }
    .stay (s.enqueue n)
  else .ok s

/-- SIG (R129). The program counter has moved on where the target displaces the issuing context. -/
def State.leSignal (s : State) (_n target : Nat) : State := (s.request target 3 0).1

/-! ### LD and ST (R118, R119) -/

/-- The space of an access. -/
def leSpace (w : LeWord) : Nat := bits w.imm.toNat 30 2

/-- The byte address of lane `i` before it wraps. -/
def Ctx.leAddr (c : Ctx) (w : LeWord) (i : Nat) : Int :=
  let a := (c.sReg w.a.toNat).toInt
  if w.v then a + signed 16 (bits w.imm.toNat 0 16) + (i : Int) * signed 14 (bits w.imm.toNat 16 14)
  else a + signed 30 (bits w.imm.toNat 0 30)

/-- ALIGN: an address of a taking-part lane, or the stride where one takes part, is no multiple of 4. -/
def Ctx.leMisaligned (c : Ctx) (w : LeWord) : Bool :=
  let t := c.taking w
  t.any (fun i => c.leAddr w i % 4 != 0) || (w.v && !t.isEmpty && signed 14 (bits w.imm.toNat 16 14) % 4 != 0)

/-- The LDM byte address of a lane. -/
def Ctx.ldmAddr (c : Ctx) (w : LeWord) (i : Nat) : Nat := (c.leAddr w i % 262144).toNat

/-- The word that a lane loads. -/
def State.leLoadWord (s : State) (c : Ctx) (w : LeWord) (i : Nat) : Word :=
  if leSpace w = 0 then s.ldm (c.ldmAddr w i / 4)
  else s.lcm (((c.bankBase : Int) + c.leAddr w i) % 65536).toNat

/-- LD. -/
def State.leLoad (w : LeWord) (s : State) (n : Nat) : LeRes :=
  let c := s.ctx n
  if c.leMisaligned w then .exc .align
  else .ok (s.setCtx n (c.mapLanes w fun i => (s.leLoadWord c w i, 0)))

/-- An LDM byte address lies in the context's write window. -/
def Ctx.inWindow (c : Ctx) (a : Nat) : Bool := decide (c.desc.wBase ≤ a) && decide (a < c.desc.wBase + c.desc.wLen)

/-- ST: the lanes store in ascending order, so the highest one stands. -/
def State.leStore (w : LeWord) (s : State) (n : Nat) : LeRes :=
  let c := s.ctx n
  let t := c.taking w
  if c.leMisaligned w then .exc .align
  else if leSpace w ≠ 0 then .exc .roSpace
  else if t.any fun i => !c.inWindow (c.ldmAddr w i) then .exc .ldmWrite
  else .ok (t.foldl (fun s i => s.setMemWord (ldmBase + c.ldmAddr w i) (c.src w w.d i)) s)

/-! ### Controller steps (R123 to R125) -/

/-- Coefficient `k` of lane `i`, from the context's bank. -/
def State.leCoefWord (s : State) (c : Ctx) (w : LeWord) (k i : Nat) : Int := (s.lcm (c.bankBase + 4 * leCoefAt w k i)).toInt

/-- PISTEP: the integrator to B, then the output to D. -/
def State.lePi (w : LeWord) (s : State) (n : Nat) : LeRes :=
  let c := s.ctx n
  .ok (s.setCtx n ((c.taking w).foldl (fun c' i =>
    let r := piStep w.n (s.leCoefWord c w 0 i) (s.leCoefWord c w 1 i) (s.leCoefWord c w 2 i) (s.leCoefWord c w 3 i)
      (c.src w w.a i).toInt (c.src w w.b i).toInt
    ((c'.setDst w w.b.toNat i r.1.2).setDst w w.d.toNat i r.1.1).addFlags r.2) c))

/-- PIBUMP. -/
def State.leBump (w : LeWord) (s : State) (n : Nat) : LeRes :=
  let c := s.ctx n
  .ok (s.setCtx n (c.mapLanes w fun i =>
    piBump w.n (s.leCoefWord c w 0 i) (c.src w w.a i).toInt (c.src w w.b i).toInt))

/-- BQSTEP: the output to D, then the states to B and B + 1. -/
def State.leBiquad (w : LeWord) (s : State) (n : Nat) : LeRes :=
  let c := s.ctx n
  let k := s.leCoefWord c w
  let z2 := fun i => if w.v then c.vReg (w.b.toNat + 1) i else c.sReg (w.b.toNat + 1)
  .ok (s.setCtx n ((c.taking w).foldl (fun c' i =>
    let r := bqStep w.n (k 0 i) (k 1 i) (k 2 i) (k 3 i) (k 4 i) (c.src w w.a i).toInt (c.src w w.b i).toInt (z2 i).toInt
    (((c'.setDst w w.d.toNat i r.1).setDst w w.b.toNat i r.2.1).setDst w (w.b.toNat + 1) i r.2.2.1).addFlags r.2.2.2) c))

/-! ### Waits (R87) -/

/-- A context waits: it keeps the lanes, or releases them where WAITREL is not 0 and the unit reports more time. -/
def State.leWait (s : State) (n remaining : Nat) : LeRes :=
  let c := s.ctx n
  if c.desc.waitRel ≠ 0 ∧ c.desc.waitRel < remaining then
    let s := s.dropLanes
    .stay (s.setCtx n { s.ctx n with st := .waiting, relWait := true })
  else .stay s

/-! ### RDRES, STAGE, IOST, COMMIT (R126 to R128) -/

/-- The word address of an I/O instruction from its offset register. -/
def ioAddr (c : Ctx) (w : LeWord) (f : BitVec 5) : Nat :=
  (bits w.imm.toNat 0 11 + (if w.imm.getLsbD 30 then (c.sReg f.toNat).toNat else 0)) % 2048

/-- The first exception of some words: an unlisted address comes before a right. -/
def firstIoExc (l : List (Option Exc)) : Option Exc :=
  if l.contains (some .ioAddr) then some .ioAddr else if l.contains (some .ioPerm) then some .ioPerm else none

/-- The I/O words of an instruction's lanes. -/
def ioLanes (c : Ctx) (w : LeWord) (base : Nat) : List (Nat × Nat) := (c.taking w).map fun i => (i, (base + i) % 2048)

/-- RDRES. DESIGN CHOICE (log 43): a vector base that is no multiple of 16 raises ALIGN even where no lane takes part; so of
STAGE and IOST. -/
def State.leRdres (w : LeWord) (remaining : Nat) (s : State) (n : Nat) : LeRes :=
  let c := s.ctx n
  let base := ioAddr c w w.a
  let l := ioLanes c w base
  if w.v && base % 16 != 0 then .exc .align
  else match firstIoExc (l.map fun x => ioReadExc x.2) with
    | some e => .exc e
    | none =>
      if w.imm.getLsbD 31 && l.any (fun x => s.ioBusy n x.2) then s.leWait n remaining
      else
        let s := l.foldl (fun s x => s.ioSnap n x.2) s
        .ok (s.setCtx n (l.foldl (fun c' x => c'.setDst w w.d.toNat x.1 (s.ioValue n x.2)) (s.ctx n)))

/-- STAGE and IOST: field A is the data, field B the offset register. -/
def State.leWrite (w : LeWord) (exc : Desc → Nat → Option Exc) (write : State → Nat → Nat → Word → State)
    (s : State) (n : Nat) : LeRes :=
  let c := s.ctx n
  let base := ioAddr c w w.b
  let l := ioLanes c w base
  if w.v && base % 16 != 0 then .exc .align
  else match firstIoExc (l.map fun x => exc c.desc x.2) with
    | some e => .exc e
    | none => .ok (l.foldl (fun s x => write s n x.2 (c.src w w.a x.1)) s)

/-- COMMIT. -/
def State.leCommitMask (w : LeWord) (s : State) (n : Nat) : LeRes :=
  let groups := (List.range 8).filter fun g => w.imm.getLsbD g
  if groups.any fun g => !bit (s.ctx n).desc.stageGroups g then .exc .ioPerm
  else .ok (groups.foldl (fun s g => s.sealGroup n g) s)

/-! ### CANDSET, CANDEVAL, CANDSEL (R130 to R132) -/

/-- The configuration that CANDSET's IMM gives. -/
def candCfg (imm : Word) : CandCfg :=
  let x := imm.toNat
  { nslot := bits x 0 8, group := bits x 8 3, h2 := bit x 11, modulated := bit x 12, wrt := bit x 13, model := bits x 14 14 }

/-- CANDSET. -/
def State.leCandset (w : LeWord) (s : State) (n : Nat) : LeRes :=
  let c := s.ctx n
  let k := candCfg w.imm
  if c.desc.ceQuota < k.nslot || (k.wrt && !bit c.desc.stageGroups k.group) then .exc .ioPerm
  else .ok (s.setCtx n { c with candset := some k })

/-- An evaluation of the context is queued or running. -/
def State.cePending (s : State) (n : Nat) : Bool :=
  s.ce.queue.any (fun e => e.ctx == n) || s.ce.service.any fun e => e.ctx == n

/-- CANDEVAL: the plausibility check of the context, then the request with what it captures. -/
def State.leCandeval (w : LeWord) (remaining : Nat) (s : State) (n : Nat) : LeRes :=
  let c := s.ctx n
  match c.candset with
  | none => .exc .ioPerm
  | some k =>
    if s.cePending n then s.leWait n remaining
    else
      let vec := fun (f : BitVec 5) => (List.range 8).map fun i => c.src w f i
      let s := s.plbCheck n (vec w.a)
      let e : EvalReq :=
        { ctx := n, prio := c.desc.prio, cfg := k, x := vec w.a, r := vec w.b, d := vec w.c
          state0 := SMap.get zeroWord c.state0 k.group, bankBase := c.bankBase, issued := s.le.cyc, discarded := false
          cand := c.cand }
      let s := { s with ce := { s.ce with queue := s.ce.queue ++ [e] } }
      .ok (s.setCtx n { s.ctx n with evalIssued := true, evalRes := none })

/-- The staging write of a result (R132, R142), and the mark on its prediction. -/
def State.stageResult (s : State) (n : Nat) (r : EvalResult) : State :=
  if !r.cfg.wrt || !r.valid then s
  else
    let g := r.cfg.group
    let s := s.stageWord g 0 r.code
    let s := if r.cfg.modulated then (s.stageWord g 1 r.code2).stageWord g 2 r.delta else s
    let c := (s.ctx n).markPreds g .staged .spoiled
    s.setCtx n { c with preds := match c.preds with
      | p :: ps => (if p.use = .unused then { p with use := .staged, words := if r.cfg.modulated then 3 else 1 } else p) :: ps
      | [] => [] }

/-- CANDSEL. -/
def State.leCandsel (w : LeWord) (remaining : Nat) (s : State) (n : Nat) : LeRes :=
  let c := s.ctx n
  if !c.evalIssued then .ok (s.setCtx n ((c.setS w.d.toNat 0xFFFFFFFF).setS (w.d.toNat + 1) 0))
  else match c.evalRes with
    | none => s.leWait n remaining
    | some r =>
      let s := s.stageResult n r
      .ok (s.setCtx n (((s.ctx n).setS w.d.toNat r.index).setS (w.d.toNat + 1) r.cost))

end Sys2Proof.Machine
end

