-- ==== Sys2Proof/Machine/Reload.lean ====
section
/-!
DEFINITION. What a period start of a leg group brings about in every unit (R175, R178): the period itself, the alignment
mark (R183), recorder clocks (R282) and the pair's record (R366); and END, after which a record may be complete.
-/

namespace Sys2Proof.Machine

/-- A MARK frame of the alignment master at a period start of its ALIGN_REF group: period index and P (Table 15.2). -/
def State.sendMark (s : State) (g : Nat) : State :=
  if s.hasSec secTopology && s.alignRef = g && s.holds 2 then
    s.trsSend 0x02 (s.role 2).epoch 0 (leBytes 4 (s.grp g).pidx ++ leBytes 4 (s.grp g).per)
  else s

/-- What other units do at a period start of group `g`. -/
def State.reloadHooks (s : State) (g : Nat) : State := ((s.sendMark g).recClock 2 g [] s.strobeMark).pairReload g

/-- RELOAD (R175): the switchings of the ending period have taken place, and the next period begins. -/
def execReload (g : Nat) (s : State) : Out :=
  .next (
    if (s.grp g).st == .running then
      let p16 : Int := 16 * ((s.grp g).per : Int)
      let s := s.each (s.groupLegs g) fun s l => s.flushLeg l p16
      let s := s.setGrp g { s.grp g with pidx := ((s.grp g).pidx + 1) % 2 ^ 32 }
      ((s.evtReload g (s.grp g).pidx).beginPeriod g false).reloadHooks g
    else s)

/-- GROUP_START_POINT (R178): an ARMED group that has reached its start point runs from count 0 of period index 0, or of the
master's index, its legs FREE until a seal is applied. -/
def execGroupStartPoint (g : Nat) (s : State) : Out :=
  .next (
    if (s.grp g).st == .armed && s.startDue g then
      let s := s.setGrp g { s.grp g with
        st := .running, pidx := if s.grpSync g = 2 then s.pwm.markPidx else 0, rot := 0, cntU := 0 }
      let s := s.each (s.groupOuts g) fun s o => s.setDrive o .off
      let s := s.each (s.groupLegs g) State.quietLeg
      let s := s.carrierStarted g
      ((s.evtReload g (s.grp g).pidx).beginPeriod g true).reloadHooks g
    else s)

/-- END (R113). -/
def execLeEnd (w : LeWord) (ecc : Ecc) (s : State) : Out :=
  .next (s.leIssue { v := .zero } w ecc fun s n => .stay (s.endRun n)).mirReady

end Sys2Proof.Machine
end

