-- ==== Sys2Proof/Machine/Tier.lean ====
section
/-!
DEFINITION. The service tiers (R379) with what follows from their change, the provisional DC voltage (R380), and the
commands that meet a tier's condition.
-/

namespace Sys2Proof.Machine

def State.setSys (s : State) (x : Sys) : State := { s with sys := x }
def State.setClk (s : State) (x : Clk) : State := { s with clk := x }

/-! ### Conditions (Table 16.2) -/

def State.pllsLocked (s : State) : Bool := s.clk.sysLock && s.clk.ptcLock && s.clk.ethLock
def State.adcCalDone (s : State) : Bool := s.regBit rADC_STAT 8
def State.sdmCalDone (s : State) : Bool := s.regBit rSDM_STAT 3
def State.lanesOk (s : State) : Bool := decide (laneCount s.le.failed ≤ 2) && !s.le.stopped

/-- The conditions of the tiers in order: the tier that each one holds up, whether it is met, and its HOLD code. -/
def State.tierConds (s : State) : List (Nat × Bool × Nat) :=
  [ (1, s.sys.guard, 1), (1, s.sys.pllBoot, 2), (1, s.sys.romDone, 3)
  , (2, s.pllsLocked, 2), (2, s.cabValid, 1), (2, s.lanesOk, 4), (2, s.hasSec secTopology, if s.sys.bootRefused then 6 else 5)
  , (2, s.mon.accepted, 6)
  , (3, s.adcCalDone, 7), (3, s.sdmCalDone, 8), (3, s.mon.confirmed, 9), (3, !s.clk.learning, 10) ]

/-- The first condition that is not met. -/
def State.tierUnmet (s : State) : Option (Nat × Bool × Nat) := s.tierConds.find? fun c => !c.2.1

/-- The highest tier whose conditions all hold. -/
def State.tierOf (s : State) : Nat :=
  match s.tierUnmet with
  | some c => c.1 - 1
  | none => 3

/-- SYS_STAT.HOLD. -/
def State.tierHold (s : State) : Nat :=
  if s.inReset then 0
  else match s.tierUnmet with
    | some c => c.2.2
    | none => 0

/-! ### Entry and loss of Tier 2 -/

/-- CLK learns every valid operating point (R382). -/
def State.learn (s : State) : State := s.setClk { s.clk with learning := true }

/-- The provisional DC voltage goes to LDM word MPP_LDM (R380); its rounding is left open (log 5). -/
def State.mppWrite (s : State) : State :=
  if !s.hasSec secHoldup then s
  else
    let p := s.sec secHoldup
    let lo := ratOf (word (field p 0x1C 4))
    let hi := ratOf (word (field p 0x20 4))
    s.setMemWord (ldmBase + 4 * field p 0x24 2) (fOpen 98 (15 * lo + s.sys.mppK * (hi - lo)) (15 * 2 ^ 149))

/-- Tier 2 begins. -/
def State.tier2Begin (s : State) : State :=
  let s := if s.sys.mppDone then s.mppWrite else s
  let s := { s with le := { s.le with run := true } }
  ((s.learn).calibrate true).fansBegin

/-- A context enters IDLE as under ABORT (R90, R379). -/
def State.ctxIdle (s : State) (n : Nat) : State :=
  let c := s.ctx n
  let s := s.setCtx n { c with pend := none }
  match c.st with
  | .disabled | .idle => s
  | .fault => (s.setCtx n { c with pend := none, st := .idle, initNext := false }).leFaultRefresh
  | .ready => if c.begun then s.endRun n else s.dropStart n
  | _ => s.endRun n

/-- The Loop Engine stops: RUN is clear first, so that nothing starts in the places that come free. -/
def State.leStop (s : State) : State :=
  let s := { s with le := { s.le with run := false } }
  let s := s.each ctxIds State.ctxIdle
  s.each (List.range 8) State.unstage

/-- Tier 2 is lost. The fans go on where only a lock is missing (R411). -/
def State.tier2End (s : State) : State :=
  let s := (s.leStop).calibrate false
  if !s.pllsLocked && s.cabValid && s.lanesOk && s.mon.accepted then s else s.fansOff

/-- The tier follows its conditions (R379). Entering Tier 2 starts CLK's learning, which holds Tier 3 back (R382). -/
def State.retier (s : State) : State :=
  let t := s.tierOf
  let old := s.tier
  let s := { s with tier := t }
  if old < 2 ∧ 2 ≤ t then { s.tier2Begin with tier := min 2 t }
  else if 2 ≤ old ∧ t < 2 then s.tier2End
  else s

/-! ### Commands -/

/-- ADC_CALIBRATION_DONE (R195): all five converters are calibrated while a calibration runs. -/
def execAdcCalibrationDone (s : State) : Out :=
  .next (if s.adc.calRun then ((s.calibrate false).setBit rADC_STAT 8).retier else s)

/-- SDM_CALIBRATION_DONE (R201). -/
def execSdmCalibrationDone (s : State) : Out := .next (s.setBit rSDM_STAT 3).retier

/-- SAF_CONFIRM_INV (R347). -/
def execSafConfirmInv (w : Word) (s : State) : Out := .next (s.confirmInv w).retier

/-- SELFTEST_CHUNK (R73): 64 of a lane's 4,096 cycles, in an idle slot; time that THM pauses is not idle (R407). `failed` is the signature's verdict, which counts in
the lane's last chunk. -/
def execSelftestChunk (failed : Bool) (s : State) : Out :=
  .next (match s.le.testLane with
    | none => s
    | some (lane, k) =>
      if s.le.running != 0 || s.thm.paused then s
      else if k < 63 then { s with le := { s.le with testLane := some (lane, k + 1) } }
      else if !failed then
        let s := if s.le.testAgain then { s with le := { s.le with retry := min 255 (s.le.retry + 1) } } else s
        s.nextLane lane
      else if s.le.testAgain then ((s.laneFail lane).nextLane lane).retier
      else { s with le := { s.le with testLane := some (lane, 0), testAgain := true } })

/-- BAND_LEARNING_DONE (R382): every valid point holds a code and CLK is back at PTC_INIT. -/
def execBandLearningDone (s : State) : Out :=
  .next (
    if !s.clk.learning then s
    else
      let ks := (List.range 8).filter fun k => s.opValid k || (!s.hasSec secHoldup && k == 0)
      let op := s.opPoint s.ptcInit
      let s := s.setClk { s.clk with
        learning := false, learned := ks.map fun k => (k, s.thm.tdie), op := s.ptcInit, ndiv := op.1, rdiv := max 1 op.2 }
      s.retier)

/-- MPP_SAMPLE_DONE (R380): the 16 steps sampled. -/
def execMppSampleDone (steps : List (BitVec 4)) (s : State) : Out :=
  .next (
    if !s.sys.romDone || s.sys.mppDone then s
    else
      let xs := steps.take 16
      let k := (List.range 16).find? fun k => decide (12 ≤ (xs.filter fun x => x.toNat == k).length)
      let s := s.setSys { s.sys with mppDone := true, mppK := k.getD 0, mppAmbig := k.isNone }
      if 2 ≤ s.tier then s.mppWrite else s)

end Sys2Proof.Machine
end

