-- ==== Sys2Proof/Machine/Img.lean ====
section
/-!
DEFINITION. The Zorgo image and the Cabinet (R30 to R47): checking, selecting, loading and committing an image, the clamp
notes, and the commands that burn and lock the Cabinet.
-/

namespace Sys2Proof.Machine

def State.setImg (s : State) (x : Img) : State := { s with img := x }

/-! ### The image (R30 to R33) -/

/-- A generation is ahead of another (R33). -/
def genAhead (a b : Nat) : Bool := within 1 ((a + 2 ^ 32 - b % 2 ^ 32) % 2 ^ 32) (2 ^ 31 - 1)

def structural (t : Nat) : Bool := within 1 t 4 || t == secMonProg || t == secSafety
def required (t : Nat) : Bool := within 1 t 6 || t == secMonProg || t == secSafety

/-- The offset of a section table entry. -/
def entryAt (i : Nat) : Nat := 0x40 + 24 * i
def secCountOf (b : List Byte) : Nat := field b 0x10 2

/-- The payload of an entry lies inside the image. -/
def entryInside (b : List Byte) (i : Nat) : Bool :=
  decide (field b (entryAt i + 4) 4 + field b (entryAt i + 8) 4 ≤ min (field b 8 4) b.length)

def entryPayload (b : List Byte) (i : Nat) : List Byte := slice b (field b (entryAt i + 4) 4) (field b (entryAt i + 8) 4)

/-- What breaks the layout rules of R30 and R32 and Tables 2.1 and 2.2. -/
def layoutBad (b : List Byte) : Bool :=
  let n := secCountOf b
  let len := field b 8 4
  let es := (List.range (min n 17)).map entryAt
  let f := fun o k => field b o k
  let types := es.map fun e => f e 1
  let starts := es.map fun e => f (e + 4) 4
  let stops := es.map fun e => f (e + 4) 4 + f (e + 8) 4
  decide (b.length < 64) || f 4 2 != 1 || f 6 2 != 64 || decide (524288 < len) || decide (b.length < len) ||
    !within 1 n 17 || decide (len < entryAt n) || decide (1 < f 0x12 2) || f 0x17 1 != 0 || !zeros b 0x30 12 ||
    hasDup types ||
    (es.any fun e =>
      let t := f e 1
      let mask := f (e + 2) 1
      !within 1 t 0x11 || f (e + 1) 1 != b2n (structural t) || f (e + 3) 1 != 0 || f (e + 4) 4 % 8 != 0 || f (e + 8) 4 == 0 ||
        f (e + 0x14) 2 != 1 || f (e + 0x16) 2 != 0 || ((t == secMonProg || t == secSafety) && mask != 0xFF) ||
        (!structural t && mask != 0) || decide (f (e + 4) 4 < entryAt n) || decide (len < f (e + 4) 4 + f (e + 8) 4) ||
        genAhead (f (e + 0xC) 4) (f 0xC 4)) ||
    ((stops.zip starts.tail).any fun q => decide (q.2 < q.1)) ||
    (!bit (f 0x12 2) 0 && (List.range 0x12).any fun t => required t && !types.contains t)

/-- The result of checking an image on its own (Table 2.8): 0 valid, else the lowest code that applies. -/
def imageResult (b : List Byte) : Nat :=
  let n := secCountOf b
  let crcBad := fun i => entryInside b i && crc32c (entryPayload b i) != field b (entryAt i + 0x10) 4
  if slice b 0 4 != [0x5A, 0x52, 0x47, 0x4F] then 1
  else if crc32c (slice b 0 60) != field b 0x3C 4 then 2
  else if within 1 n 17 && crc32c (slice b 0x40 (24 * n)) != field b 0x2C 4 then 3
  else if within 1 n 17 && (List.range n).any crcBad then 4
  else if layoutBad b then 5
  else if field b 0x14 2 != 0x9640 || decide (0xA1 < field b 0x16 1) then 6
  else 0

/-- The first section of an image whose CRC differs. -/
def badSection (b : List Byte) : Nat :=
  match (List.range (min 17 (secCountOf b))).find? fun i => entryInside b i && crc32c (entryPayload b i) != field b (entryAt i + 0x10) 4 with
  | some i => field b (entryAt i) 1
  | none => 0

/-- A valid image as IMG stages it. -/
def stagedOf (b : List Byte) : Staged :=
  { gen := field b 0xC 4, part := bit (field b 0x12 2) 0, safetyCheck := word (field b 0x18 4)
    secs := (List.range (secCountOf b)).map fun i =>
      { type := field b (entryAt i) 1, mask := field b (entryAt i + 2) 1, gen := field b (entryAt i + 0xC) 4
        payload := entryPayload b i } }

def Staged.sec (x : Staged) (t : Nat) : Option (List Byte) := (x.secs.find? fun y => y.type == t).map fun y => y.payload
def Staged.types (x : Staged) : List Nat := x.secs.map fun y => y.type

/-- The groups of the structural sections. -/
def Staged.mask (x : Staged) : Nat := x.secs.foldl (fun m y => m ||| y.mask) 0

/-- A section that the commit replaces or, in a full image, leaves out. -/
def Staged.touches (x : Staged) (t : Nat) : Bool := !x.part || x.types.contains t

/-- The state with the configuration that the image would put in force. -/
def State.withImage (s : State) (x : Staged) : State :=
  { s with cfg := x.secs.foldl (fun c y => SMap.set (fun _ => none) c y.type (some y.payload)) (if x.part then s.cfg else []) }

/-! ### Refusals and notes (R47) -/

def State.imgRefuse (s : State) (load : Bool) (reason section_ detail : Nat) : State :=
  let s := s.setImg { s.img with rej := word (reason + 256 * section_ + 65536 * (detail % 65536)) }
  s.setBit rIMG_STAT (if load then 8 else 7)

/-- Queues a clamp note. -/
def State.imgNote (s : State) (n : Nat × Nat × Nat) : State :=
  let s := s.setBit rIMG_STAT 9
  if s.img.notes.length < 16 then
    s.setImg { s.img with notes := s.img.notes ++ [word (n.1 + 256 * n.2.1 + 65536 * (n.2.2 % 256) + 2 ^ 31)] }
  else s.setBit rIMG_STAT 10

/-- Row `i` of the image is looser than a fused row of its source (R228). -/
def State.rowLooser (s : State) (i : Nat) : Bool :=
  match s.tripRows[i]? with
  | none => false
  | some r => ((List.range 12).filterMap s.fusedRow).any fun f =>
      f.1 == r.1 && ((f.2.1 &&& r.2.1 != 0 && (decide (bits r.2.2 0 2 < f.2.2) || !bit r.2.2 2)) || f.2.1 &&& r.2.1 != f.2.1)

/-- The values of the configuration that are looser than their fused counterparts: section, field code and index, in the
order of section, field and index (Table 2.6). -/
def State.clamps (s : State) : List (Nat × Nat × Nat) :=
  if !s.cabValid then []
  else
    let gs := List.range 8
    let os := List.range 48
    let out := fun o => field (s.sec secLegs) (0x88 + 2 * o) 2
    let fused := fun o => match fusePair s.cab o with
      | some k => k + 1
      | none => 0
    let level := fun o => if s.safeLvl o = 3 then 0 else s.safeLvl o
    let lvl := field (s.sec secTrip) 2 2 % 4096
    let top := if !s.hasSec secTopology || (s.sec secTopology).length != 264 then [] else
      (gs.filter fun g => s.grpMode g != 0 && (s.grpSync g == 0 || s.grpSync g == 2) && s.carMax g != 0 && decide (s.carMax g < s.grpFcar g)).map
        fun g => (secTopology, 3, g)
    let legs := if !s.hasSec secLegs || (s.sec secLegs).length != 0xE8 + 16 * s.nLeg then [] else
      ((gs.filter fun g => decide (s.grpTiming g 0 2 < s.dtFloor g)).map fun g => (secLegs, 1, g)) ++
      ((gs.filter fun g => decide (s.grpTiming g 2 2 < s.minpFloor g)).map fun g => (secLegs, 2, g)) ++
      ((gs.filter fun g => decide (s.shootFuse g < s.grpTiming g 5 1)).map fun g => (secLegs, 4, g)) ++
      ((os.filter fun o => bits (out o) 0 2 != level o).map fun o => (secLegs, 6, o)) ++
      ((os.filter fun o => bits (out o) 3 6 != fused o).map fun o => (secLegs, 7, o))
    let trip := if !s.hasSec secTrip || (s.sec secTrip).length != 0x1C0 + 4 * field (s.sec secTrip) 0 1 then [] else
      (((List.range s.tripRows.length).filter s.rowLooser).map fun i => (secTrip, 5, i)) ++
      (if s.fuse 961 12 != 0 && decide (s.fuse 961 12 < lvl) then [(secTrip, 9, 0)] else [])
    top ++ legs ++ trip

/-- Queues the notes of the sections that the image carries. -/
def State.noteClamps (s : State) (x : Staged) : State :=
  (((s.withImage x).clamps).filter fun n => x.types.contains n.1).foldl State.imgNote s

/-- IMG_NOTE, and IMG_NOTE_READ: the head of the queue leaves it. -/
def State.imgNoteHead (s : State) : Word := s.img.notes.head?.getD 0
def State.imgNoteRead (s : State) : State := s.setImg { s.img with notes := s.img.notes.drop 1 }
def execImgNoteRead (s : State) : Out := .next s.imgNoteRead

/-! ### Room for code and banks (R39, R81; log 6) -/

/-- A block of `n` words from `b` on is free. -/
def fitsAt (size : Nat) (occ : List (Nat × Nat)) (n b : Nat) : Bool :=
  decide (b + n ≤ size) && occ.all fun o => decide (o.2 = 0) || decide (b + n ≤ o.1) || decide (o.1 + o.2 ≤ b)

/-- A place for `n` words: one end of the space where it is free, else beside what is there. -/
def placeIn (choose : Nat) (size : Nat) (occ : List (Nat × Nat)) (n : Nat) : Option Nat :=
  let ends := ([0, size - n]).filter (fitsAt size occ n)
  let all := (occ.flatMap fun o => [o.1 + o.2, o.1 - n]).filter (fitsAt size occ n)
  let l := if ends.isEmpty then all else ends
  l[choose % max 1 l.length]?

/-- Contexts in a run hold the words that they started with. -/
def State.runs (s : State) : List Ctx := (ctxIds.map s.ctx).filter fun c => c.begun && c.st.inRun

def State.codeHeld (s : State) : List (Nat × Nat) :=
  (if s.hasSec secLoopProg then [(s.le.codeBase, codeWordsOf (s.sec secLoopProg))] else []) ++
    (s.runs.map fun c => (c.codeAt, c.codeWords))

/-- The words of all banks of a LOOP_COEF payload. -/
def coefTotal (p : List Byte) : Nat := bankOffset p (field p 0 2)

def State.coefHeld (s : State) : List (Nat × Nat) :=
  (if s.hasSec secLoopCoef then [(s.le.coefBase, coefTotal (s.sec secLoopCoef))] else []) ++
    ((s.runs.filter fun c => c.hasBank).map fun c => (c.bankBase / 4, c.bankLen))

/-- Finds room for the staged code and banks; none where it does not fit. -/
def State.placeStaged (s : State) (x : Staged) : Option Staged :=
  let code := match x.sec secLoopProg with
    | none => some s.le.codeBase
    | some p =>
      let n := codeWordsOf p
      placeIn (Config.placeCode x.gen n) 16384 s.codeHeld n
  let coef := match x.sec secLoopCoef with
    | none => some s.le.coefBase
    | some p =>
      let n := coefTotal p
      placeIn (Config.placeBanks x.gen n) 16384 s.coefHeld n
  match code, coef with
  | some a, some b => some { x with codeAt := a, coefAt := b }
  | _, _ => none

/-- Writes the staged code and banks to their places. -/
def State.writeStaged (s : State) (x : Staged) : State :=
  let s := match x.sec secLoopProg with
    | some p => s.setBytes (lpmBase + 8 * x.codeAt) ((p.drop (0x30 + 32 * nCtx p)).take (8 * codeWordsOf p))
    | none => s
  match x.sec secLoopCoef with
  | some p => s.setBytes (lcmBase + 4 * x.coefAt) ((p.drop (8 + 8 * field p 0 2)).take (4 * coefTotal p))
  | none => s

/-! ### What each block does at a commit -/

/-- TOPOLOGY or LEGS: the staging blocks take their defaults (R174), the affected groups also their FCAR and no block, outputs
that no leg names drive SAFE_LVL, and a spare output newly named is logged (R163, R402). -/
def State.pwmCommit (s old : State) (mask : Nat) : State :=
  let s := s.each (List.range 8) fun s g =>
    let st := SMap.set zeroWord (SMap.set zeroWord (SMap.set zeroWord [] 10 (word (s.grpQdef g))) 11 (word (s.grpEvdef g 0)))
      12 (word (s.grpEvdef g 1))
    let x := { s.grp g with stage := st, sealedStage := st }
    s.setGrp g (if bit mask g then { x with newSeal := none, lateSeal := none, block := none, fcar := s.grpFcar g } else x)
  let named := (List.range 24).flatMap s.legOuts
  let before := (List.range 24).flatMap old.legOuts
  let s := s.each ((List.range 48).filter fun o => !named.contains o) fun s o => s.setDrive o .safeLvl
  let used := ([44, 45, 46, 47].filter named.contains).length
  s.each ([44, 45, 46, 47].filter fun o => named.contains o && !before.contains o) fun s o =>
    -- the output that the leg's position named before, where it is known
    let was := (List.range 24).findSome? fun l => (List.range 8).findSome? fun k =>
      if s.legOut l k == some o then old.legOut l k else none
    match was with
    | some w => s.spareUsed 5 o w used (4 - used)
    | none => s.takeFree.2.spareUsed 5 o s.takeFree.1.toNat used (4 - used)

/-- TRIP: rows that the commit removes stop acting and rows that it adds see the sources that are active (Table 9.7). -/
def State.tripCommit (s : State) : State :=
  let s := s.each (List.range 8) fun s g =>
    (s.setGrp g { s.grp g with pulses := (s.grp g).pulses.filter fun p => (s.sourceAction p.1 g).1 != 0 }).groupUntrip g
  s.each ((List.range 128).filter s.srcActive) State.sourceOn

/-- GPIO balls become outputs, at low, and inputs again (R438). -/
def State.gpioCommit (s : State) : State :=
  let uses := fun pin => s.pinOwned pin || (List.range s.nEntries).any fun i =>
    s.entryEnable i && s.entryAction i == 6 && bits (s.entryArg i) 0 4 == pin
  let out : BitVec 16 := (List.range 16).foldl (fun m p => if uses p then m ||| BitVec.ofNat 16 (2 ^ p) else m) 0
  let fresh := out &&& ~~~s.pins.gpioOut
  { s with pins := { gpioOut := out, gpio := s.pins.gpio &&& ~~~fresh } }

/-- HOLDUP: every operating point is learned anew while all groups are STOPPED; else the codes of the points that the
commit changed are dropped (R382). -/
def State.holdupCommit (s old : State) : State :=
  if s.allStopped then s.learn
  else s.setClk { s.clk with learned := s.clk.learned.filter fun k => s.opPoint k.1 == old.opPoint k.1 && s.opValid k.1 }

/-- Every block takes its sections on one edge; `old` is the state before. -/
def State.applyImage (s old : State) (x : Staged) : State :=
  let t := x.touches
  let s := { s with le := { s.le with
    codeBase := if x.types.contains secLoopProg then x.codeAt else s.le.codeBase
    coefBase := if x.types.contains secLoopCoef then x.coefAt else s.le.coefBase } }
  let s := if t secTopology || t secLegs then s.pwmCommit old x.mask else s
  let s := if t secAnalog then (s.adcReconfigure).sdmReconfigure else s
  let s := if t secAnalog || t secTrip then s.cmpReconfigure old else s
  let s := if t secTrip then s.tripCommit else s
  let s := if t secSched then ((if old.hasSec secSched then s else s.mtrSchedCommit).evtCommit).angCommit else s
  let s := if t secTopology || t secSched then s.gpioCommit else s
  let s := if t secLoopProg then s.leCommit (old.sec secLoopProg) else s
  let s := if t secLoopCoef then (s.gridCommit (old.gridWord 1)).pairCommit else s
  let s := if t secRegions then s.each ctxIds fun s n => s.setCtx n { s.ctx n with region := none } else s
  let s := if x.types.contains secCand then
      s.setBytes (sramEnd - ceLen (s.sec secCand)) (ceTables (s.sec secCand)) else s
  let s := if t secCand then s.each ctxIds fun s n => s.setCtx n { s.ctx n with bucket := 0 } else s
  let s := if t secMeter then s.mtrCommit true else s
  let s := if t secRecorder then (s.recCommit).shfCommit else s
  let s := if t secNetwork then (s.timCommit old.slotCfg).ethCommit (old.rxBase, old.rxN) else s
  let s := if t secHoldup then s.holdupCommit old else s
  let s := if t secFans then s.fanCommit old else s
  let s := if t secLifetime then s.lifCommit (old.sec secLifetime) else s
  if x.types.contains secMonProg || x.types.contains secSafety then s.monAccept (s.sec secMonProg) (s.sec secSafety) else s

/-! ### The commit (R40) -/

/-- Why the commit is refused: reason, section and detail. -/
def State.commitRefusal (s : State) (x : Staged) : Option (Nat × Nat × Nat) :=
  let n := s.withImage x
  let safe := x.types.contains secMonProg || x.types.contains secSafety
  match n.firstDisagree x.types with
  | some (t, d) => some (6, t, d)
  | none =>
    if (List.range 8).any fun g => bit x.mask g && (s.grp g).st != .stopped then some (5, 0, 0)
    else if safe then
      let sec := fun t => SMap.get (fun _ => none) n.cfg t
      (n.monCheck (sec secMonProg) (sec secSafety) x.safetyCheck).map fun r => (9, r.2, r.1)
    else none

/-- The commit instant: everything or nothing. -/
def State.commitImage (s : State) (x : Staged) : State :=
  let s := s.setImg { s.img with pend := none, structPend := 0 }
  match s.commitRefusal x with
  | some (r, t, d) =>
    let s := s.imgRefuse false r t d
    (s.setSys { s.sys with bootRefused := !s.hasSec secTopology && r == 9 }).retier
  | none =>
    let s := (if x.touches secSched then s.evtFlush else s).noteClamps x
    let n := (s.withImage x).applyImage s x
    let gens := x.secs.foldl (fun m y => SMap.set (fun _ => 0) m y.type y.gen) (if x.part then s.img.secGen else [])
    (n.setImg { n.img with staged := none, gen := x.gen, secGen := gens, safetyCheck := x.safetyCheck }).retier

/-! ### Boot (R35) -/

/-- A copy on the Shelf: the bytes of its slot, and its result. -/
def State.copyBytes (s : State) (k : Nat) : List Byte :=
  s.bytes (shelfBase + 0x80000 * k) (min 524288 (max 64 (leNat (s.bytes (shelfBase + 0x80000 * k + 8) 4))))
def State.copyResult (s : State) (k : Nat) (readError : Bool) : Nat :=
  if readError then 7
  else
    let b := s.copyBytes k
    let r := imageResult b
    let x := stagedOf b
    let parts := partitionsOf x.sec
    if (r = 0 || r = 6) && (x.part || !partitionsFit parts (field ((x.sec secRecorder).getD []) 8 4)) then 5 else r

/-- IMG checks both copies and selects one (R33, R35). -/
def State.bootSelect (s : State) (aErr bErr : Bool) : State :=
  let ra := s.copyResult 0 aErr
  let rb := s.copyResult 1 bErr
  let gen := fun k => field (s.copyBytes k) 0xC 4
  let s := s.setImg { s.img with aRes := ra, bRes := rb }
  if ra ≠ 0 ∧ rb ≠ 0 then s.setImg { s.img with copy := 0, noImage := true, gen := 0 }
  else
    let k := if ra ≠ 0 then 1 else if rb ≠ 0 then 0 else if genAhead (gen 1) (gen 0) then 1 else 0
    let both := ra = 0 ∧ rb = 0
    let diff := (gen 0 + 2 ^ 32 - gen 1) % 2 ^ 32
    let s := if both ∧ diff = 0 then s.setBit rIMG_STAT 2 else if both ∧ diff = 2 ^ 31 then s.setBit rIMG_STAT 3 else s
    let s := s.setImg { s.img with copy := k + 1, gen := gen k, bootDue := true }
    s.noteClamps (stagedOf (s.copyBytes k))

/-- BOOT_IMAGE_COMMIT (R378). -/
def execBootImageCommit (s : State) : Out :=
  .next (
    if !s.sys.romDone || !s.img.bootDue then s
    else
      let s := s.setImg { s.img with bootDue := false }
      let x := stagedOf (s.copyBytes (s.img.copy - 1))
      match s.placeStaged x with
      | some x => (s.writeStaged x).commitImage x
      | none => s.imgRefuse false 7 0 0)

/-! ### Host commands (R37, R41) -/

/-- LOAD. -/
def execLoad (s : State) : Out :=
  .next (
    let a := (s.reg rIMG_SRC).toNat
    let onShelf := decide (shelfBase ≤ a) && decide (a < shelfBase + s.shf.mb * 2 ^ 20)
    if s.img.staged.isSome || s.img.loading.isSome || s.img.pend.isSome then s.imgRefuse true 2 0 0
    else if !onShelf && !hostVisible s.partitions a 1 then s.imgRefuse true 0xD 0 0
    else s.setImg { s.img with loading := some a })

/-- The image that a LOAD reads: no more than its memory holds. -/
def State.loadBytes (s : State) (a : Nat) : List Byte :=
  let top := if a < shelfBase then sramEnd else shelfBase + s.shf.mb * 2 ^ 20
  s.bytes a (min (top - a) (min 524288 (max 64 (leNat (s.bytes (a + 8) 4)))))

/-- The reason of IMG_REJ for a result of Table 2.8 (Table 2.10). DESIGN CHOICE (log 41): a wrong MAGIC (result 1), for which
Table 2.10 names no reason, draws LAYOUT, as the other header fields of the layout do. -/
def loadReason (r : Nat) : Nat := if r = 6 then 0xA else if 2 ≤ r ∧ r ≤ 4 then 0xC else 0xB

/-- LOAD_COMPLETE. -/
def execLoadComplete (s : State) : Out :=
  .next (match s.img.loading with
    | none => s
    | some a =>
      let s := s.setImg { s.img with loading := none }
      let b := s.loadBytes a
      let r := imageResult b
      if r ≠ 0 then s.imgRefuse true (loadReason r) (if r = 4 then badSection b else 0) 0
      else
        let x := stagedOf b
        let n := s.withImage x
        if x.part && !genAhead x.gen s.img.gen then s.imgRefuse true 3 0 0
        else if !partitionsFit n.partitions (field (n.sec secRecorder) 8 4) then s.imgRefuse true 0xB 0 0
        else match s.placeStaged x with
          | none => s.imgRefuse true 7 0 0
          | some x => ((s.writeStaged x).setImg { s.img with staged := some x }).noteClamps x)

/-- The 80-bit angle of the commit registers. -/
def State.commitAngle (s : State) : Nat :=
  (s.reg rIMG_CMT_ANG_FR).toNat + 2 ^ 32 * (s.reg rIMG_CMT_ANG_CYL).toNat + 2 ^ 64 * bits (s.reg rIMG_CMT_ANG_CYH).toNat 0 16

/-- COMMIT_AT. -/
def execCommitAt (s : State) : Out :=
  .next (
    if s.img.pend.isSome then s.imgRefuse false 2 0 0
    else match s.img.staged with
      | none => s.imgRefuse false 1 0 0
      | some x =>
        if !aheadMod (2 ^ 80) (angWord s.ang.sch) s.commitAngle then s.imgRefuse false 4 0 0
        else s.setImg { s.img with pend := some s.commitAngle, structPend := x.mask })

/-- COMMIT_NOW. -/
def execCommitNow (s : State) : Out :=
  .next (
    if s.img.pend.isSome then s.imgRefuse false 2 0 0
    else match s.img.staged with
      | none => s.imgRefuse false 1 0 0
      | some x => s.commitImage x)

/-- COMMIT_INSTANT: the scheduling angle has reached the commit angle; before, nothing is due. -/
def execCommitInstant (s : State) : Out :=
  .next (match s.img.pend, s.img.staged with
    | some a, some x => if aheadMod (2 ^ 80) (angWord s.ang.sch) a then s else s.commitImage x
    | _, _ => s)

/-- CANCEL and DISCARD. -/
def State.commitCancel (s : State) : State := s.setImg { s.img with pend := none, structPend := 0 }
def execCancel (s : State) : Out := .next s.commitCancel
def execDiscard (s : State) : Out :=
  .next (let s := s.commitCancel
    s.setImg { s.img with staged := none, loading := none })

/-- The power-fail warning: a LOAD is abandoned and a pending commit cancelled (R389, Table 2.4). -/
def State.imgPowerFail (s : State) : State :=
  let s := if s.img.loading.isSome then (s.setImg { s.img with loading := none, staged := none }).imgRefuse true 8 0 0 else s
  if s.img.pend.isSome then s.commitCancel.imgRefuse false 8 0 0 else s

/-! ### The Cabinet (R44 to R46) -/

/-- The burn data, bits [991:0]. -/
def State.burnData (s : State) : Nat := ((List.range 31).map fun i => 2 ^ (32 * i) * (s.reg (rIMG_CAB_DATA i)).toNat).sum

/-- The refusal code of a BURN, 0 where it is accepted. -/
def State.burnRefuse (s : State) (key : BitVec 16) (vddOk : Bool) : Nat :=
  let d : BitVec 1024 := BitVec.ofNat 1024 s.burnData
  if s.img.burned then 1
  else if (List.range 8).any fun g => (s.grp g).st.live then 2
  else if decide (s.thm.tdie < 0) || decide (85 * 256 < s.thm.tdie) || !vddOk || s.hu.pf then 3
  else if key ≠ 0xC4B1 then 4
  else if s.cabLocked then 5
  else if bits s.burnData 0 8 ≠ 1 || !pairsSymmetric d then 6
  else 0

/-- BURN. A burn in progress takes no further command. -/
def execBurn (key : BitVec 16) (vddOk : Bool) (s : State) : Out :=
  .next (
    if s.img.burning then s
    else
      let r := s.burnRefuse key vddOk
      if r = 0 then s.setImg { s.img with burning := true, cabRefusal := 0 } else s.setImg { s.img with cabRefusal := r })

/-- The data with its CAB_CRC, as it should read back. DESIGN CHOICE (log 41): the data are those that IMG_CAB_DATA holds when
the burn completes, so a host that writes them meanwhile fails the verification. -/
def State.burnWhole (s : State) : BitVec 1024 :=
  BitVec.ofNat 1024 (s.burnData + 2 ^ 992 * crc32c (leBytes 124 s.burnData))

/-- BURN_COMPLETE: what the 1,024 fuses read back. -/
def execBurnComplete (back : BitVec 1024) (s : State) : Out :=
  .next (
    if !s.img.burning then s
    else
      let ok := back == s.burnWhole
      { s with fuses := back, img := { s.img with burning := false, burned := ok, verifyFail := !ok } })

/-- LOCK: after a verified BURN, both bits of LOCK are burned. DESIGN CHOICE (log 41): CAB_CRC stands as it was burned, so
unless the data had both bits set, the next boot finds it wrong and reads LOCK all the same (R44). The spec gives the refusal before a verified BURN no code:
its value is free (log 4). -/
def execLock (key : BitVec 16) (s : State) : Out :=
  .next (
    if s.img.burning then s
    else if s.cabLocked then s.setImg { s.img with cabRefusal := 5 }
    else if key ≠ 0xC4B1 then s.setImg { s.img with cabRefusal := 4 }
    else if !s.img.burned then
      let f := s.takeFree
      f.2.setImg { f.2.img with cabRefusal := f.1.toNat % 16 }
    else { s with fuses := s.fuses ||| BitVec.ofNat 1024 (3 * 2 ^ 975), img := { s.img with cabRefusal := 0 } })

/-! ### Registers (Tables 2.7, 2.8) -/

/-- The read-only bits of IMG_STAT. -/
def State.imgStat (s : State) : Nat :=
  s.img.copy + 16 * b2n s.img.noImage + 32 * b2n s.img.staged.isSome + 64 * b2n s.img.pend.isSome + 2 ^ 11 * b2n s.cabValid +
    2 ^ 12 * b2n s.cabLocked + 2 ^ 13 * s.img.aRes + 2 ^ 16 * s.img.bRes + 2 ^ 19 * s.cabRes

/-- The words of the IMG window that follow from the state. -/
def State.imgWord (s : State) (off : Nat) : Option Word :=
  if off = 4 then some (word s.img.gen)
  else if off = 0x1C then some s.img.rej
  else if off = 0x20 then some s.imgNoteHead
  else if off = 0x184 then
    some (word (b2n s.img.burning + 2 * b2n s.img.burned + 4 * b2n s.img.verifyFail + 8 * b2n s.cabLocked + 16 * s.img.cabRefusal))
  else if 0x200 ≤ off ∧ off < 0x280 then some (word (bits s.cab.toNat (8 * (off - 0x200)) 32))
  else none

end Sys2Proof.Machine
end

