-- ==== Sys2Proof/Machine/Boot.lean ====
section
/-!
DEFINITION. Release from reset, the boot sequence and the resets (R374 to R378, R437, R440, R459).
-/

namespace Sys2Proof.Machine

/-! ### Entering reset -/

/-- What lies in the NVM and on the Shelf survives every reset (R376). -/
def keptMem (m : List Host.Cell) : List Host.Cell :=
  m.filter fun c => (decide (0x00400000 ≤ c.1) && decide (c.1 < 0x00440000)) || decide (shelfBase ≤ c.1)

/-- The whole device is reset but the always-on domain, the NVM, the fuses and the flash (R376). The queue is no part of
the device, and the free values go on (log 4). -/
def State.enterReset (s : State) (cause : Nat) : State :=
  let r := State.reset
  { r with
    pending := s.pending
    free := s.free
    mem := keptMem s.mem
    fuses := s.fuses
    shf := s.shfReset.shf
    sys := { r.sys with
      resetN := s.sys.resetN
      cause := if s.sys.aonLost then 0 else cause
      long := s.sys.long
      heldMs := s.sys.heldMs
      aonLost := s.sys.aonLost } }

/-- A group's action on a reset by RESET_N or software (R437); a sequence under way goes on. -/
def State.resetGroup (s : State) (g : Nat) : State :=
  let x := s.grp g
  if x.st == .stopped || (s.groupOuts g).all (fun o => s.drive o == .safeLvl) then s
  else
    let s := if x.st.live then (s.setGrp g { x with st := .safe, cmtReq := false }).carrierStopped g else s
    if (s.grp g).seqRun then s else s.groupDown g

/-- The ordered sequence of some group is under way. -/
def State.sequencing (s : State) : Bool := (List.range 8).any fun g => (s.grp g).seqRun

/-- The emergency save holds a reset back: within 60 µs of the warning edge, and not yet complete (R377). -/
def State.saveHolds (s : State) : Bool :=
  s.hu.pf && decide (s.clk.t ≤ s.hu.pfAt + 24000) && s.mtr.save.any (·.emergency)

/-- A reset by RESET_N or software: it takes effect after the actions of every group, and after the emergency save
that R377 waits for. -/
def State.orderlyReset (s : State) (cause : Nat) : State :=
  if s.inReset then s
  else
    let s := (s.each (List.range 8) State.resetGroup).pairTrigger
    if s.sequencing || s.saveHolds then
      s.setSys { s.sys with pendingReset := some (s.sys.pendingReset.getD cause) }
    else s.enterReset cause

/-! ### Commands: reset -/

/-- RESET_N_ASSERT (R375). -/
def execResetNAssert (s : State) : Out := .next ((s.setSys { s.sys with resetN := true }).orderlyReset 1)

/-- RESET_N_RELEASE: the always-on domain records how long RESET_N was held, in ms. -/
def execResetNRelease (heldMs : Nat) (s : State) : Out :=
  .next (if s.sys.resetN then s.setSys { s.sys with resetN := false, heldMs := min 65535 heldMs } else s)

/-- RESET_LONG (R375). -/
def execResetLong (s : State) : Out := .next (if s.sys.resetN then s.setSys { s.sys with long := true } else s)

/-- SOFTWARE_RESET (R376). -/
def State.softReset (s : State) (key : BitVec 16) : State := if key = 0x5E7B then s.orderlyReset 4 else s

def execSoftwareReset (key : BitVec 16) (s : State) : Out := .next (s.softReset key)

/-- RESET_ENTRY (R437): the deferred reset takes effect once the sequences and the emergency save have ended, at the latest
60 µs after the warning (R377). -/
def execResetEntry (s : State) : Out :=
  .next (match s.sys.pendingReset with
    | some cause => if s.sequencing || s.saveHolds then s else s.enterReset cause
    | none => s)

/-- BROWNOUT_RESET (R374): HU_FAST where `store` is set, another supply otherwise. It is never deferred. -/
def execBrownoutReset (store : Bool) (s : State) : Out :=
  .next (if s.inReset then s else s.enterReset (if store then 2 else 3))

/-- VDD_AON_LOSS (R376): the always-on domain is cleared, and the reset in force or the next one is power-on. -/
def execVddAonLoss (s : State) : Out :=
  .next (s.setSys { s.sys with aonLost := true, cause := 0, long := false, heldMs := 0 })

/-! ### Commands: boot (Table 16.1) -/

/-- RELEASE: the RC oscillator starts, SHF_RESET_N goes low (R440) and the Cabinet is sensed (R44). DESIGN CHOICE (log 41):
BURNED reads 1 where the Cabinet as sensed passes its CRC, so a damaged one counts as not burned. -/
def execRelease (s : State) : Out :=
  .next (
    if !s.inReset || s.sys.resetN then s
    else
      let s := { s with inReset := false, cab := s.fuses, cabRes := cabResult s.fuses }
      let s := s.setImg { s.img with burned := s.cabRes != 1 }
      s.setSys { s.sys with aonLost := false, shfRstLow := true })

/-- SHF_RESET_PULSE_END (R440). -/
def execShfResetPulseEnd (s : State) : Out := .next (s.setSys { s.sys with shfRstLow := false })

/-- TIER0_GUARD: the comparators start (R208), DC_OV3 is active (R234) and the PLL searches begin. -/
def execTier0Guard (s : State) : Out :=
  .next (
    if s.inReset || s.sys.guard then s
    else
      let s := s.setSys { s.sys with guard := true }
      let s := s.each (List.range 18) State.cmpBegin
      let s := { s with trp := { s.trp with dcov3 := true } }
      (if s.cabValid && s.fuse 961 12 != 0 then s.sourceOn 0x33 else s).retier)

/-- PLL_BOOT_LOCK: the three PLLs are locked and SYSCLK moves to the SYS PLL. -/
def execPllBootLock (s : State) : Out :=
  .next (
    if !s.sys.guard || s.sys.pllBoot then s
    else
      let s := s.setSys { s.sys with pllBoot := true }
      (s.setClk { s.clk with
        sysLock := true, ptcLock := true, ethLock := true, refOk := true, fallback := false
        learned := [(0, s.thm.tdie)] }).retier)

/-- SAVE_INT at boot: that of the image which IMG selects, else one of its range (log 4). -/
def State.bootSaveInt (s : State) : Nat × State :=
  let due := if s.img.bootDue then (stagedOf (s.copyBytes (s.img.copy - 1))).sec secMeter else none
  match due with
  | some p => (field p 3 1, s)
  | none => let (w, s) := s.takeFree; (w.toNat % 60 + 1, s)

/-- The Shelf parameter table: the size of a device that R290 serves, in MB. -/
def State.shelfTable (s : State) (table : Option Nat) : State :=
  match table with
  | some mb => if 64 ≤ mb ∧ mb ≤ 256 then s.setShf { s.shf with mb := mb, unsupported := false }
      else s.setShf { s.shf with unsupported := true }
  | none => s.setShf { s.shf with unsupported := true }

/-- BOOT_ROM_DONE: the lanes that failed the self-test, those that passed it only on the repeat (R74), whether
copies A and B gave read errors, and the size that the Shelf parameter table gives. Tier 1 begins. -/
def execBootRomDone (lanes retried : BitVec 18) (aErr bErr : Bool) (table : Option Nat) (s : State) : Out :=
  .next (
    if !s.sys.pllBoot || s.sys.romDone then s
    else
      let s := (s.each ((List.range 18).filter fun i => lanes.getLsbD i) State.laneFail).laneRemap
      let s := { s with le := { s.le with
        passes := 1, retry := min 255 (s.le.retry + laneCount (retried &&& ~~~lanes).toNat) } }
      let s := ((s.remapBoot).recBoot).shelfTable table
      let s := (s.lifRestore).bootSelect aErr bErr
      let (saveInt, s) := s.bootSaveInt
      let s := s.mtrRestore saveInt
      let s := s.setSys { s.sys with romDone := true }
      (((s.timBegin).angBegin).monBegin).retier)

end Sys2Proof.Machine
end

