-- ==== Sys2Proof/Machine/Clock.lean ====
section
/-!
DEFINITION. The clocks (R381 to R383, Table 16.3) and the PTC hops (R150, R180).
-/

namespace Sys2Proof.Machine

/-! ### Loss of lock -/

/-- CLK_STAT.LOSS and the PLL's counter. -/
def State.lossNoted (s : State) (cnt : Nat) : State := (s.setBit rCLK_STAT 5).inc cnt

/-- The SYS PLL is lost: SYSCLK runs from the RC oscillator and the Loop Engine stops. -/
def State.sysLoss (s : State) : State :=
  if !s.clk.sysLock then s
  else
    let s := (s.setClk { s.clk with sysLock := false, fallback := true }).lossNoted rCLK_CNT_SYSLOSS
    let s := s.each (List.range 8) fun s g => (s.groupLoss g 5 false).diagAbort g
    let s := { s with ang := { s.ang with valid := false, pass := 0 } }
    (((((s.angSelect).adcClockLoss).sdmClock true).pairTrigger).retier)

/-- The PTC PLL is lost; so it is when a hop fails to lock, which leaves the PLL at the new point (log 32). -/
def State.ptcLoss (s : State) : State :=
  if !s.clk.ptcLock then s
  else
    let point := s.clk.hopTo.getD s.clk.op
    let p := if s.clk.hopTo.isSome then s.opPoint point else (s.clk.ndiv, s.clk.rdiv)
    let s := s.setClk { s.clk with ptcLock := false, op := point, hopTo := none, ndiv := p.1, rdiv := max 1 p.2 }
    let s := s.lossNoted rCLK_CNT_PTCLOSS
    let s := s.each (List.range 8) fun s g =>
      if (s.grp g).tripHop then (s.setGrp g { s.grp g with st := .tripped, tripHop := false }).groupUntrip g
      else (s.groupLoss g 4 false).diagAbort g
    (({ s with pwm := { s.pwm with alignOk := false } }).pairTrigger).retier

/-- The ETH PLL is lost: the MACs and the Trestle transmitters stop and TIM enters HOLDOVER. -/
def State.ethLoss (s : State) : State :=
  if !s.clk.ethLock then s
  else
    let s := (s.setClk { s.clk with ethLock := false }).lossNoted rCLK_CNT_ETHLOSS
    (s.timHoldover).retier

/-- SYS_LOCK_LOSS, PTC_LOCK_LOSS and ETH_LOCK_LOSS. -/
def execSysLockLoss (s : State) : Out := .next s.sysLoss
def execPtcLockLoss (s : State) : Out := .next s.ptcLoss
def execEthLockLoss (s : State) : Out := .next s.ethLoss

/-- REFERENCE_LOSS: all three PLLs count as lost. -/
def execReferenceLoss (s : State) : Out :=
  .next (((s.setClk { s.clk with refOk := false, search := 0 }).sysLoss).ptcLoss.ethLoss)

/-- REFERENCE_RETURN. -/
def execReferenceReturn (s : State) : Out :=
  .next (if s.sys.pllBoot then s.setClk { s.clk with refOk := true } else s)

/-! ### Search and return -/

/-- The lost PLLs: 0 SYS, 1 PTC, 2 ETH. -/
def Clk.lost (k : Clk) : Nat := b2n (!k.sysLock) + 2 * b2n (!k.ptcLock) + 4 * b2n (!k.ethLock)

/-- PLL_SEARCH: every PLL that is lost starts a new full search, while the reference is present. -/
def execPllSearch (s : State) : Out :=
  .next (if s.sys.pllBoot && s.clk.refOk then s.setClk { s.clk with search := s.clk.lost } else s)

/-- The band code learned for an operating point, at the die temperature of now (R382). -/
def State.codeLearned (s : State) (op : Nat) : State :=
  s.setClk { s.clk with learned := (s.clk.learned.filter fun k => k.1 != op) ++ [(op, s.thm.tdie)] }

def State.sysReturn (s : State) : State :=
  let s := s.setClk { s.clk with sysLock := true, fallback := false }
  let s := s.each (List.range 8) fun s g => (s.groupReturn g 5).groupLossAgain g
  ((s.sdmClock false).angSelect).retier

def State.ptcReturn (s : State) : State :=
  let s := (s.setClk { s.clk with ptcLock := true }).codeLearned s.clk.op
  (s.each (List.range 8) fun s g => (s.groupReturn g 4).groupLossAgain g).retier

/-- PLL_LOCK_RETURN: a search that is under way succeeds. -/
def execPllLockReturn (pll : Pll) (s : State) : Out :=
  .next (
    let n := match pll with
      | .sys => 0
      | .ptc => 1
      | .eth => 2
    if !bit s.clk.search n || !bit s.clk.lost n then s
    else
      let s := s.setClk { s.clk with search := putNatBit s.clk.search n false }
      match pll with
      | .sys => s.sysReturn
      | .ptc => s.ptcReturn
      | .eth => (s.setClk { s.clk with ethLock := true }).retier)

/-! ### Hops (R150, R180, R382) -/

/-- A stored code serves while the die stays within 40 °C of where it was learned. -/
def State.codeUsable (s : State) (op : Nat) : Bool :=
  s.clk.learned.any fun k => k.1 == op && decide ((s.thm.tdie - k.2).natAbs ≤ 40 * 256)

/-- PTC_HOP: the hop that GS requested begins at a boundary of PTC_GROUP. -/
def execPtcHop (s : State) : Out :=
  .next (match s.gs.hop with
    | none => s
    | some op =>
      let g := field (s.sec secRegions) 2 1 % 8
      if !s.clk.ptcLock || s.clk.learning || s.clk.hopTo.isSome || (s.grp g).st != .running then s
      else
        let s := { s with gs := { s.gs with hop := none } }
        (s.setClk { s.clk with hopTo := some op }).freezeAll)

/-- PTC_HOP_RESUME: the PLL has locked after `ns` nanoseconds. -/
def execPtcHopResume (ns : Nat) (s : State) : Out :=
  .next (match s.clk.hopTo with
    | none => s
    | some op =>
      let s := if s.codeUsable op then s else s.codeLearned op
      let p := s.opPoint op
      let s := s.setClk { s.clk with op := op, hopTo := none, hopLast := min 0xFFFFFFFF ns }
      ((s.inc rCLK_CNT_HOP).setBit rGS_STAT 4).resumeAll p.1 (max 1 p.2))

/-! ### CLK registers (Tables 16.8 and 16.11) -/

def State.clkStat (s : State) : Nat :=
  let k := s.clk
  b2n k.sysLock + 2 * b2n k.ptcLock + 4 * b2n k.ethLock + 8 * b2n k.refOk + 16 * b2n k.fallback + 64 * b2n k.learning

/-- fPTC in kHz; where it is no whole number its rounding is open (log 5). -/
def State.fptcKhz (s : State) : Nat := (divOpen 99 (25000 * s.clk.ndiv : Nat) (max 1 s.clk.rdiv : Nat)).toNat

def State.clkWord (s : State) (a : Nat) : Option Word :=
  if a = rCLK_PTC then some (word (s.clk.op % 8 + 256 * s.fptcKhz))
  else if a = rCLK_LEARNED then some (word ((List.range 8).foldl (fun m k => m + 2 ^ k * b2n (s.clk.learned.any fun x => x.1 == k)) 0))
  else if a = rCLK_HOP_LAST then some (word s.clk.hopLast)
  else none

end Sys2Proof.Machine
end

