-- ==== Sys2Proof/Machine/Hu.lean ====
section
/-!
DEFINITION. The hold-up stores: the power-fail warning (R385, R386), the chest store's energy and the transmission grants
(R387, R388).
-/

namespace Sys2Proof.Machine

def State.setHu (s : State) (x : Hu) : State := { s with hu := x }

/-! ### HOLDUP in force (R390) -/

def State.vinEn (s : State) : Bool := !s.hasSec secHoldup || bit (field (s.sec secHoldup) 0 2) 0
def State.pfLvl (s : State) : Nat := if s.hasSec secHoldup then field (s.sec secHoldup) 2 2 else 1000
def State.huWarn (s : State) : Nat := if s.hasSec secHoldup then field (s.sec secHoldup) 8 2 else 4200
def State.bulkEn (s : State) : Bool := s.hasSec secHoldup && bit (field (s.sec secHoldup) 0 2) 1

/-! ### The chest store -/

/-- V_bulk in units of 2^-149 µV, for a voltage of HU_BULK in µV. -/
def State.vBulk (s : State) (uv : Nat) : Int := ratOf (word (field (s.sec secHoldup) 0x10 4)) * uv

/-- VCUT in the same units. -/
def State.vCut (s : State) : Int := ratOf (word (field (s.sec secHoldup) 0x14 4)) * 1000000

def State.belowCut (s : State) (uv : Nat) : Bool := decide (s.vBulk uv < s.vCut)

/-- E as a numerator over `energyDen`, in joules. -/
def State.energyNum (s : State) : Int :=
  if s.belowCut s.hu.bulkUv then 0
  else ratOf (word (field (s.sec secHoldup) 0xC 4)) * (s.vBulk s.hu.bulkUv ^ 2 - s.vCut ^ 2)
def energyDen : Nat := 2 * 2 ^ 149 * (2 ^ 149 * 1000000) ^ 2

/-- E is at least the burst energy plus MARGIN. -/
def State.energyCovers (s : State) (mJ : Nat) : Bool :=
  decide ((mJ * 2 ^ 149 + 1000 * ratOf (word (field (s.sec secHoldup) 0x18 4))) * (energyDen : Int) ≤ s.energyNum * (1000 * 2 ^ 149))

/-- HU_LOAD_EN (R388). -/
def State.loadEn (s : State) : Bool := (!s.hu.pf || s.hu.held) && (!s.bulkEn || !s.hu.cut) && !s.inReset

/-- A grant in force ends with a result. -/
def State.grantEnd (s : State) (result : Nat) : State :=
  if s.hu.held then s.setHu { s.hu with grant := result, held := false } else s

/-- HU_BULK_CONVERSION (R385, R388): the store is converted, and a fall below VCUT cuts the loads and aborts a grant.
The registers keep the rounding open (log 5). -/
def execHuBulkConversion (code : BitVec 10) (s : State) : Out :=
  .next (
    let uv := Config.bulkUv code
    let was := s.belowCut s.hu.bulkUv
    let s := s.setHu { s.hu with bulkUv := uv }
    if !s.bulkEn then s
    else
      let s := s.setReg rHU_BULK_V (fOpen 100 (s.vBulk uv) (2 ^ 149 * 1000000))
      let s := s.setReg rHU_EAVAIL (fOpen 101 s.energyNum energyDen)
      if s.belowCut uv then
        let s := s.setHu { s.hu with cut := true }
        if !was && s.hu.held then ((s.grantEnd 5).setBit rHU_STAT 6).inc rHU_CNT_ABORT else s
      else if 21 * s.vCut ≤ 20 * s.vBulk uv then s.setHu { s.hu with cut := false }
      else s)

/-- HU_FAST_SAMPLE (R385), in mV. -/
def execHuFastSample (mv : Nat) (s : State) : Out := .next (s.setHu { s.hu with fastMv := mv })

/-! ### The warning (Table 16.5) -/

/-- VIN_SENSE at some µV is below PF_LVL, and HU_FAST below HU_WARN (R385). -/
def State.vinLow (s : State) (uv : Nat) : Bool := s.vinEn && decide (uv < 1000 * s.pfLvl)
def State.fastLow (s : State) (uv : Nat) : Bool := decide (uv < 1000 * s.huWarn)

/-- POWER_FAIL_WARNING: VIN_SENSE below PF_LVL, HU_FAST below HU_WARN or both raise it on the edge W. -/
def execPowerFailWarning (vinUv fastUv : Nat) (s : State) : Out :=
  .next (
    if s.inReset || s.hu.pf || !(s.vinLow vinUv || s.fastLow fastUv) then s
    else
      let s := s.setHu { s.hu with pf := true, srcVin := s.vinLow vinUv, srcFast := s.fastLow fastUv, pfAt := s.clk.t }
      let s := (((s.setBit rHU_STAT 1).clrBit rHU_STAT 7).inc rHU_CNT_PF).irq 6
      ((((((s.mtrPowerFail).recPowerFail).shfPowerFail).pairTrigger).fanPowerFail).imgPowerFail))

/-- POWER_FAIL_WITHDRAW: with VIN_SENSE above 1.05 × PF_LVL and HU_FAST at HU_START, 4.50 V, the stopped work resumes. -/
def execPowerFailWithdraw (vinUv fastUv : Nat) (s : State) : Out :=
  .next (
    if !s.hu.pf || (s.vinEn && decide (vinUv ≤ 1050 * s.pfLvl)) || decide (fastUv < 4500000) then s
    else
      let s := s.setHu { s.hu with pf := false, pfLast := min 0xFFFFFFFF ((s.clk.t - s.hu.pfAt) / 400) }
      ((((s.mtrResume).recResume).shfResume).fanResume))

/-! ### Grants (R387) -/

/-- GRANT_REQUEST: the burst energy in mJ. -/
def State.grantRequest (s : State) (mJ : Nat) : State :=
  if s.bulkEn && !s.hu.held && s.energyCovers mJ then s.setHu { s.hu with grant := 1, held := true, mJ := mJ }
  else s.setHu { s.hu with grant := 2, mJ := mJ }

def execGrantRequest (mJ : BitVec 24) (s : State) : Out := .next (s.grantRequest mJ.toNat)

/-- GRANT_DONE and GRANT_EXPIRY. -/
def execGrantDone (s : State) : Out := .next (s.grantEnd 3)
def execGrantExpiry (s : State) : Out := .next (s.grantEnd 4)

/-! ### Registers (Tables 16.12 and 16.13) -/

def State.huStat (s : State) : Nat :=
  b2n s.hu.pf + 4 * b2n s.hu.srcVin + 8 * b2n s.hu.srcFast + 16 * b2n s.loadEn +
    32 * b2n (s.bulkEn && s.belowCut s.hu.bulkUv)

def State.huWord (s : State) (a : Nat) : Option Word :=
  if a = rHU_FAST_MV then some (word s.hu.fastMv)
  else if a = rHU_GRANT then some (word (s.hu.grant + 256 * s.hu.mJ))
  else if a = rHU_PF_LAST then some (word s.hu.pfLast)
  else none

end Sys2Proof.Machine
end

