-- ==== Sys2Proof/Machine/RegRead.lean ====
section
/-!
DEFINITION. What a register reads (R7, R25, R101): the read-only words and bits that follow from the state beside the
stored word, and what a read changes.
-/

namespace Sys2Proof.Machine

/-- A mask over consecutive numbers. -/
def maskOf (n : Nat) (f : Nat → Bool) : Nat := ((List.range n).map fun k => 2 ^ k * b2n (f k)).sum

/-! ### LE (Tables 4.13 to 4.16) -/

def CtxSt.code : CtxSt → Nat
  | .disabled => 0
  | .idle => 1
  | .ready => 2
  | .running => 3
  | .preempted => 4
  | .waiting => 5
  | .fault => 6

/-- The context that LE_CTX_SEL selects. -/
def State.leSel (s : State) : Nat := bits (s.reg rLE_CTX_SEL).toNat 0 6

def State.leStat (s : State) : Nat :=
  b2n s.le.run + 2 * b2n s.le.halted + 4 * b2n s.le.stopped + 2 ^ 16 * s.le.running +
    2 ^ 24 * (if s.le.running = 0 then 0 else (s.ctx s.le.running).desc.prio)

def State.leLane (s : State) : Nat :=
  let n := laneCount s.le.failed
  s.le.failed + 2 ^ 18 * min 2 n + 2 ^ 20 * b2n (decide (2 < n)) + 2 ^ 24 * s.le.retry

def State.ctxState (s : State) (n : Nat) : Nat :=
  let c := s.ctx n
  c.st.code + 8 * b2n c.pend.isSome + 16 * ((s.desc n).getD {}).prio + 128 * b2n c.disPend + 256 * (c.pc % 2 ^ 14)

def State.faultMask (s : State) (half : Nat) : Nat := maskOf 32 fun k => (s.ctx (32 * half + k)).st == .fault

def State.leWord (s : State) (off : Nat) : Option Word :=
  let c := s.ctx s.leSel
  match off with
  | 0x004 => some (word s.leLane)
  | 0x008 => some (word s.le.passes)
  | 0x010 => some (word s.le.cyc)
  | 0x014 => some s.le.cycHi
  | 0x028 => some (word (s.faultMask 0))
  | 0x02C => some (word (s.faultMask 1))
  | 0x048 => some (word (s.ctxState s.leSel))
  | 0x04C => some (word (c.excCode + 16 * (c.excPc % 2 ^ 14)))
  | 0x050 => some (word c.cntStart)
  | 0x054 => some (word c.cntOvr)
  | 0x058 => some (word c.cntMiss)
  | 0x05C => some (word c.cntStale)
  | 0x060 => some (word c.maxLat)
  | 0x064 => some (word c.maxExe)
  | 0x068 => some (word (c.epoch % 65536))
  | _ => none

/-- The RC counters of the selected context. -/
def State.leClear (s : State) (off : Nat) : State :=
  let n := s.leSel
  let c := s.ctx n
  s.setCtx n (match off with
    | 0x050 => { c with cntStart := 0 }
    | 0x054 => { c with cntOvr := 0 }
    | 0x058 => { c with cntMiss := 0 }
    | 0x05C => { c with cntStale := 0 }
    | 0x060 => { c with maxLat := 0 }
    | 0x064 => { c with maxExe := 0 }
    | _ => c)

/-! ### ANG, EVT, CE, GS, PLB, SPT -/

def State.angWord' (s : State) (off : Nat) : Option Word :=
  let a := s.ang
  if 0x10 ≤ off ∧ off < 0x40 then
    let k := (off - 0x10) / 16
    let high := if k = 0 then a.snapMeas else if k = 1 then a.snapSch else a.snapGen
    match off % 16 with
    | 0 => some (word (s.angleOf k))
    | 4 => some (word high)
    | 8 => some (word (bits high 32 16))
    | _ => none
  else match off with
    | 0x40 => some (word a.freq)
    | 0x44 => some a.rocof
    | 0x48 => some (word a.vpos)
    | 0x4C => some (word a.vneg)
    | 0x50 => some (wordOfInt a.err)
    | 0x54 => some (wordOfInt a.jump)
    | _ => none

def State.evtWord (s : State) (off : Nat) : Option Word :=
  if 0x20 ≤ off ∧ off < 0x40 then some (s.evtPend ((off - 0x20) / 4))
  else if off = 0x40 then some s.evtIrqSrc
  else none

def State.ceWord (s : State) (off : Nat) : Option Word :=
  if off = 0x18 then some (word ((s.ce.service.map (·.ctx)).getD 0 + 256 * s.ce.queue.length)) else none

def State.gsWord (s : State) (off : Nat) : Option Word :=
  if off = 8 then some (s.gsRegion (bits (s.reg rGS_CTX_SEL).toNat 0 6)) else none

def State.plbSel (s : State) : Nat := bits (s.reg rPLB_CTX_SEL).toNat 0 6

def State.plbStat (s : State) : Nat := 2 * b2n (s.reg rPLB_ACT_LO != 0 || s.reg rPLB_ACT_HI != 0)

def State.plbWord (s : State) (off : Nat) : Option Word :=
  let c := s.ctx s.plbSel
  match off with
  | 0x0C => some (word c.bucket)
  | 0x20 => some (word c.cntCmp)
  | 0x24 => some (word c.cntSkip)
  | 0x28 => some (word c.cntNan)
  | 0x2C => some (word c.cntHold)
  | _ => none

def State.plbClear (s : State) (off : Nat) : State :=
  let n := s.plbSel
  let c := s.ctx n
  s.setCtx n (match off with
    | 0x20 => { c with cntCmp := 0 }
    | 0x24 => { c with cntSkip := 0 }
    | 0x28 => { c with cntNan := 0 }
    | 0x2C => { c with cntHold := 0 }
    | _ => c)

def State.sptReg (s : State) (off : Nat) : Option Word :=
  match off with
  | 0x04 => some s.spt.a.raw
  | 0x08 => some (wordOfInt s.spt.a.out)
  | 0x0C => some s.spt.p.raw
  | 0x10 => some (wordOfInt s.spt.p.out)
  | _ => none

/-! ### PWM (Tables 7.9 to 7.11) -/

def GSt.code : GSt → Nat
  | .stopped => 0
  | .armed => 1
  | .running => 2
  | .frozen => 3
  | .tripped => 4
  | .safe => 5

def State.pwmStat (s : State) : Nat :=
  b2n s.clk.ptcLock + 2 * b2n s.le.halted + 4 * b2n s.pwm.alignAct + 8 * b2n s.pwm.alignOk + 16 * b2n s.clk.hopTo.isSome

def State.groupStat (s : State) (g : Nat) : Nat :=
  let x := s.grp g
  x.st.code + 256 * b2n x.lockFree + 512 * b2n x.lockLag + 1024 * b2n x.half + 65536 * x.cause

/-- The ball levels of some outputs; the board sets the level of a ball that nothing drives (log 4). -/
def State.ballLevels (s : State) (from_ n : Nat) : Word :=
  let z := (Config.openReg (rPWM_OUT_LO + from_) s.clk.t).toNat
  word (maskOf n fun k => match s.outLvl (from_ + k) with
    | .high => true
    | .low => false
    | .z => bit z k)

def State.groupReg (s : State) (g off : Nat) : Option Word :=
  let x := s.grp g
  match off with
  | 0x08 => some (word (b2n (x.newSeal.isSome || x.lateSeal.isSome) + 2 * b2n x.cmtReq))
  | 0x0C => some (word (x.cntU / 2000000 % 2 ^ 24 + 2 ^ 24 * (x.cntU * 16 / 2000000 % 16)))
  | 0x10 => some x.pidxSnap
  | 0x14 => some (word x.per)
  | 0x18 => some (s.groupCode g)
  | _ => none

def State.pwmWord (s : State) (off : Nat) : Option Word :=
  if off = 0x0C then some (wordOfInt (divOpen 103 s.pwm.alignErr 1000))
  else if off = 0x14 then some (s.ballLevels 0 32)
  else if off = 0x18 then some (s.ballLevels 32 16)
  else if 0x100 ≤ off ∧ off < 0x300 then s.groupReg ((off - 0x100) / 0x40) ((off - 0x100) % 0x40)
  else none

/-! ### ADC, SDM, CMP -/

def State.adcStat (s : State) : Nat := 16 * b2n s.adc.armed.isSome + 32 * b2n (s.servedBy 4).isSome

def State.adcWord (s : State) (off : Nat) : Option Word :=
  match off with
  | 0x04 => some (word ((List.range 4).map fun c => 8 ^ c * s.adcMap c).sum)
  | 0x0C => some (word (maskOf 5 fun p => (s.phys p).failed))
  | _ => none

def State.sdmStat (s : State) : Nat :=
  2 * b2n ((List.range 7).any fun k => decide (0 < (s.sdmCh k).hold) && (s.sdmCh k).holdReason == 5)

def State.sdmWord (s : State) (off : Nat) : Option Word :=
  if 4 ≤ off ∧ off < 0x20 then
    let c := s.sdmCh (off / 4 - 1)
    some (c.ctlNew.getD c.ctl)
  else none

/-- The logical comparator that a spare serves, 0x1F for none. -/
def State.spareServes (s : State) (p : Nat) : Nat := ((List.range 18).find? fun n => s.cmpAssigned n && s.cmpPhys n == p).getD 0x1F

def State.cmpWord (s : State) (off : Nat) : Option Word :=
  match off with
  | 0x04 => some (s.cmpMask (·.out))
  | 0x08 => some (s.cmpMask (·.undet))
  | 0x0C => some (word (s.spareServes 16 + 32 * s.spareServes 17 + 1024 * s.cmps.failed))
  | _ => none

/-! ### TRP, GDS, CHP -/

def State.trpStat (s : State) : Nat := 64 * b2n s.trp.dcov3 + 128 * b2n s.cabValid

def State.trpWord (s : State) (off : Nat) : Option Word :=
  if 0x10 ≤ off ∧ off < 0x20 then some (word (bits s.trp.active.toNat (8 * (off - 0x10)) 32))
  else match off with
    | 0x20 => some (word (maskOf 8 fun g => !(s.grp g).latches.isEmpty))
    | 0x24 => some (word (maskOf 24 fun l => (s.leg l).freed))
    | 0x28 => some (word (maskOf 24 fun l => (s.leg l).latched))
    | 0x2C => some (word (b2n s.trp.dckOpen + 2 * b2n s.dckHeld))
    | _ => none

def State.gdsStat (s : State) : Nat := 8 * b2n (s.trp.test.isSome || !s.trp.testQueue.isEmpty)

def State.gdsWord (s : State) (off : Nat) : Option Word :=
  match off with
  | 0x04 => some (word (maskOf 24 fun l => (s.leg l).filtered))
  | 0x08 => some (word s.trp.diagFail)
  | 0x10 => some (word s.trp.diagLast)
  | 0x14 => some (word s.trp.diagV)
  | _ => none

def ChpKind.code : ChpKind → Nat
  | .none => 0
  | .openCircuit => 1
  | .shortCurrent => 2
  | .shortDroop => 3

/-- A comparator that the chopper block names is active. -/
def State.chpCmp (s : State) (off : Nat) : Bool :=
  let n := s.chpField off 1
  s.hasSec secTrip && decide (n < 18) && (s.cmp n).out

def State.chpStat (s : State) : Nat :=
  let idle := match s.chpGroup with
    | some g => (s.grp g).st != .running
    | none => true
  b2n s.chp.active + 2 * b2n idle + 4 * b2n (s.chp.kind != .none) + 8 * s.chp.kind.code + 32 * b2n (s.chpCmp 0x18) +
    64 * b2n (s.chpCmp 0x19) + 128 * b2n s.chp.dcov2.isSome

def State.chpWord (s : State) (off : Nat) : Option Word :=
  match off with
  | 0x04 => some (word s.chp.duty)
  | 0x0C => some (word (unsigned 16 s.chp.lastV + 65536 * unsigned 16 s.chp.lastI))
  | _ => none

/-! ### GRD, ISL -/

def State.grdReg (s : State) (off : Nat) : Option Word :=
  let g := s.grd
  match off with
  | 0x18 => some (wordOfInt g.vmin)
  | 0x1C => some (wordOfInt g.vmax)
  | 0x20 => some (word (timerMs g.tv))
  | 0x24 => some (word (timerMs g.tf))
  | 0x28 => some (wordOfInt g.p)
  | 0x2C => some (wordOfInt g.q)
  | 0x30 => some (word g.reconMs)
  | 0x34 => some (word g.cause)
  | _ => none

def State.islReg (s : State) (off : Nat) : Option Word :=
  match off with
  | 0x04 => some (wordOfInt s.isl.z)
  | 0x08 => some s.chipWord
  | 0x0C => some (word s.isl.passive)
  | _ => none

/-! ### SYS, HST -/

def State.sysWord (s : State) (off : Nat) : Option Word :=
  match off with
  | 0x04 => some (word (s.tier + 4 * s.tierHold))
  | 0x08 => some (word (b2n s.sys.long + 2 * s.sys.cause + 65536 * s.sys.heldMs))
  | 0x10 => some (word (bits Config.dieId.toNat 0 32))
  | 0x14 => some s.sys.dieHi
  | 0x18 => some (word (s.sys.mppK + 16 * b2n s.sys.mppAmbig))
  | _ => none

def State.hstWord (s : State) (off : Nat) : Option Word :=
  if off = 0x10 then some (word (s.host.tags.length + 256 * s.host.queue.length)) else none

/-! ### The whole map (Table 19.4) -/

/-- The window of a register address: its offset and the words that follow from the state. -/
def State.derivedWord (s : State) (a : Nat) : Option Word :=
  let off := a % 0x1000
  if a < 0x1000 then s.sysWord a
  else if a < 0x2000 then s.clkWord a
  else if a < 0x10000 then none
  else match a / 0x1000 - 0x10 with
    | 0 => s.angWord' off
    | 1 => s.evtWord off
    | 2 => s.leWord off
    | 3 => s.ceWord off
    | 4 => s.gsWord off
    | 5 => s.plbWord off
    | 6 => s.sptReg off
    | 7 => s.pwmWord off
    | 8 => s.adcWord off
    | 9 => s.sdmWord off
    | 10 => s.cmpWord off
    | 11 => s.trpWord off
    | 12 => s.gdsWord off
    | 13 => s.chpWord off
    | 14 => s.grdReg off
    | 15 => s.islReg off
    | 16 => s.mtrWord off
    | 17 => s.recWord off
    | 18 => s.shfWord off
    | 19 => s.timWord off
    | 20 => s.ethWord a
    | 21 => s.monWord a
    | 22 => s.monWord a
    | 23 => s.trsWord off
    | 24 => s.pairWord off
    | 25 => s.imgWord off
    | 26 => s.huWord a
    | 27 => s.lifWord off
    | 28 => s.thmWord off
    | 29 => s.fanWord off
    | 30 => s.hstWord off
    | _ => none

/-- The read-only bits of a status register, beside its stored event bits. -/
def State.derivedBits (s : State) (a : Nat) : Nat :=
  if a = rCLK_STAT then s.clkStat
  else if a = rSPT_STAT then s.sptStat
  else if a = rHST_STAT then 16 * b2n (s.holds 3)
  else if a = rHST_IRQ_SRC then b2n (!s.host.queue.isEmpty)
  else if a = rLIF_SPSTAT then s.rowWorst * 2 ^ 16
  else if 0x17100 ≤ a ∧ a < 0x17300 ∧ a % 0x40 = 4 then s.groupStat ((a - 0x17100) / 0x40)
  else if a < 0x10000 || a % 0x1000 ≠ 0 then 0
  else match a / 0x1000 - 0x10 with
    | 0 => s.angStat
    | 1 => s.evtStat
    | 2 => s.leStat
    | 3 => 16 * b2n s.ce.service.isSome
    | 4 => s.gsStat
    | 5 => s.plbStat
    | 7 => s.pwmStat
    | 8 => s.adcStat
    | 9 => s.sdmStat
    | 11 => s.trpStat
    | 12 => s.gdsStat
    | 13 => s.chpStat
    | 14 => s.grdStat
    | 15 => s.islStat
    | 16 => s.mtrStat
    | 17 => s.recStat
    | 18 => s.shfStat
    | 19 => s.timStat
    | 20 => s.ethStat
    | 21 => s.monStat
    | 22 => s.safStat
    | 23 => s.trsStat
    | 24 => s.pairStat
    | 25 => s.imgStat
    | 26 => s.huStat
    | 27 => s.lifStat
    | 28 => s.thmStat
    | _ => 0

/-- The word that a register reads. An offset that no register occupies reads 0 (R425). -/
def State.regVal (s : State) (a : Nat) : Word := (s.derivedWord a).getD (s.reg a ||| word (s.derivedBits a))

/-! ### What a read changes -/

/-- A read of an RC register clears it (R7). A queue head leaves its queue. -/
def State.rcClear (s : State) (a : Nat) : State :=
  if a = rIMG_NOTE then s.imgNoteRead
  else if a = rEVT_IRQ_SRC then s.evtIrqRead
  else if a = rLIF_SPLOG then s.splogRead
  else if rLE_CTX_CNT_START ≤ a ∧ a ≤ rLE_CTX_MAXEXE then s.leClear (a % 0x1000)
  else if rPLB_CNT_CMP ≤ a ∧ a ≤ rPLB_CNT_HOLD then s.plbClear (a % 0x1000)
  else if a = rTHM_TMAX then s.setThm { s.thm with tmax := none }
  else if 0x2B040 ≤ a ∧ a < 0x2B140 ∧ a % 0x20 = 0x10 then
    let p := (a - 0x2B040) / 0x20
    s.setLifPos p { s.lifPos p with tjMax := none }
  else s.setReg a 0

/-- The copies that a read of a low half takes (R71, R101, R266, R300, R392). -/
def State.readSnap (s : State) (a : Nat) : State :=
  if a = rLE_CYC_LO then { s with le := { s.le with cycHi := word (s.le.cyc / 2 ^ 32) } }
  else if a = rTIM_NS then s.setTim { s.tim with snapSec := s.wallNs / 1000000000 }
  else if a = rSYS_DIEID_LO then s.setSys { s.sys with dieHi := word (bits Config.dieId.toNat 32 32) }
  else if a = rANG_MEAS_FR then { s with ang := { s.ang with snapMeas := s.ang.measWord / 2 ^ 32 } }
  else if a = rANG_SCH_FR then { s with ang := { s.ang with snapSch := angWord s.ang.sch / 2 ^ 32 } }
  else if a = rANG_GEN_FR then { s with ang := { s.ang with snapGen := angWord s.ang.gen / 2 ^ 32 } }
  else if 0x17100 ≤ a ∧ a < 0x17300 ∧ a % 0x40 = 0x0C then
    let g := (a - 0x17100) / 0x40
    s.setGrp g { s.grp g with pidxSnap := word (s.grp g).pidx }
  else if a = rMTR_SNAP_SEC_LO then s.mtrCopy 29
  else if a = rMTR_UNC_LO then s.mtrCopy 28
  else if 0x20040 ≤ a ∧ a < 0x20120 ∧ a % 8 = 0 then s.mtrCopy ((a - 0x20040) / 8)
  else if 0x2B040 ≤ a ∧ a < 0x2B140 ∧ a % 0x20 = 0x08 then
    let p := (a - 0x2B040) / 0x20
    s.setLifPos p { s.lifPos p with dmgHi := word ((s.lifPos p).dmg / 2 ^ 32) }
  else s

/-- A read of one register: its word, and the state after it. -/
def State.readReg (s : State) (a : Nat) : Word × State :=
  (s.regVal a, if (regRow a).rc then s.rcClear a else s.readSnap a)

end Sys2Proof.Machine
end

