-- ==== Sys2Proof/Machine/RegWrite.lean ====
section
/-!
DEFINITION. What a write of a register does (R7, R8): by its access type, or by the command that the register gives.
-/

namespace Sys2Proof.Machine

/-- The state that a command leaves; every command goes on. -/
def stateOf (o : Out) (s : State) : State :=
  match o with
  | .next t => t
  | _ => s

/-- A write by access type: RW bits take the value, a 1 clears a W1C bit, all else is ignored (R7, R8). -/
def State.regStore (s : State) (a : Nat) (v : Word) : State :=
  let r := regRow a
  let old := s.reg a
  let rw := word r.rw
  let w1c := word r.w1c
  s.setReg a (((old &&& ~~~ rw) ||| (v &&& rw)) &&& ~~~ (v &&& w1c))

/-! ### Command registers -/

/-- The OP field and the upper half, which holds a KEY or an EPOCH. -/
def opField (v : Word) : Nat := bits v.toNat 0 2
def upperHalf (v : Word) : BitVec 16 := v.extractLsb' 16 16

/-- IMG_CMD and IMG_CAB_CMD (Tables 2.7 and 2.9). -/
def State.imgCmd (s : State) (v : Word) : State :=
  match bits v.toNat 0 4 with
  | 1 => stateOf (execLoad s) s
  | 2 => stateOf (execCommitAt s) s
  | 3 => stateOf (execCommitNow s) s
  | 4 => stateOf (execCancel s) s
  | 5 => stateOf (execDiscard s) s
  | _ => s

def State.cabCmd (s : State) (v : Word) : State :=
  match bits v.toNat 0 4 with
  | 1 => stateOf (execBurn (upperHalf v) (Config.vddIo33Ok s.clk.t) s) s
  | 2 => stateOf (execLock (upperHalf v) s) s
  | _ => s

/-- EVT_HOST_CMD (R69). -/
def State.evtCmd (s : State) (v : Word) : State :=
  let i := bits (s.reg rEVT_HOST_IDX).toNat 0 8
  let t := (s.reg rEVT_HOST_T0).toNat + 2 ^ 32 * (s.reg rEVT_HOST_T1).toNat + 2 ^ 64 * (s.reg rEVT_HOST_T2).toNat
  match opField v with
  | 1 => s.armAbs i t
  | 2 => s.armHost i
  | 3 => s.disarm i
  | _ => s

/-- LE_CTX_CMD (Table 4.17). -/
def State.leCmd (s : State) (v : Word) : State :=
  match opField v with
  | 1 => s.ctxCmd (upperHalf v) State.ctxEnable
  | 2 => s.ctxCmd (upperHalf v) State.ctxDisable
  | 3 => s.ctxCmd (upperHalf v) State.ctxClear
  | _ => s

/-- PWM_Gn_CTL. With START and STOP on one edge STOP acts and START is refused with NOT_STOPPED (R181). -/
def State.groupCmd (s : State) (g : Nat) (v : Word) : State :=
  match opField v with
  | 1 => s.groupStart g
  | 2 => s.groupStop g 1
  | 3 => (s.groupStop g 1).noteRefuse g 8
  | _ => s

/-- ADC_CMD, TRP_CMD and GDS_DIAG_CMD. -/
def State.adcCmd (s : State) (v : Word) : State :=
  match opField v with
  | 1 => stateOf (execSwap (bits v.toNat 4 2) s) s
  | 2 => stateOf (execRestore (bits v.toNat 4 2) s) s
  | _ => s

def State.trpCmd (s : State) (v : Word) : State :=
  match opField v with
  | 1 => stateOf (execDckRelease s) s
  | 2 => stateOf (execLegClear (bits v.toNat 8 5) s) s
  | _ => s

def State.gdsCmd (s : State) (v : Word) : State :=
  let s := if v.getLsbD 5 then s.diagAsk [bits v.toNat 0 5] else s
  if v.getLsbD 6 then s.diagAsk (List.range 24) else s

/-- GRD_CMD. -/
def State.grdCmd (s : State) (v : Word) : State :=
  match bits v.toNat 0 3 with
  | 1 => stateOf (execGrdGf s) s
  | 2 => stateOf (execGrdGfl s) s
  | 3 => stateOf (execGrdCease s) s
  | 4 => stateOf (execGrdResume s) s
  | _ => s

/-- MTR_CMD, REC_CMD and SHF_CMD. -/
def State.mtrCmd (s : State) (v : Word) : State :=
  match opField v with
  | 1 => stateOf (execSnap s) s
  | 2 => s.saveStart 3
  | 3 => stateOf (execClearAcc (upperHalf v) s) s
  | _ => s

def State.recCmd (s : State) (v : Word) : State :=
  let m := v.extractLsb' 4 4
  match opField v with
  | 1 => stateOf (execRecCmdTrigger m s) s
  | 2 => stateOf (execRecArm m s) s
  | 3 => stateOf (execRecDisarm m s) s
  | _ => s

def State.shfCmd (s : State) (v : Word) : State :=
  match opField v with
  | 1 => stateOf (execLoc (bits v.toNat 4 3) s) s
  | 2 => stateOf (execAppend s) s
  | _ => s

/-- TIM_CMD. -/
def State.timCmd (s : State) (v : Word) : State :=
  match opField v with
  | 1 => stateOf (execResync s) s
  | 2 => stateOf (execSwitch (bits v.toNat 4 1) s) s
  | 3 => s.timHoldover
  | _ => s

/-- PAIR_CMD (R359: HANDOVER is addressed under the PAIR role's epoch). -/
def State.pairCmd (s : State) (v : Word) : State :=
  match bits v.toNat 0 3 with
  | 1 => stateOf (execPairArm s) s
  | 2 => stateOf (execPairHandover (upperHalf v) s) s
  | 3 => stateOf (execPairTake s) s
  | 4 => stateOf (execPairRejoin s) s
  | _ => s

/-- LIF_CMD and FAN_Cn_CMD. -/
def State.lifCmd (s : State) (v : Word) : State :=
  match opField v with
  | 1 => s.lifRecord
  | 2 => stateOf (execLifClear (bits v.toNat 2 3) (upperHalf v) s) s
  | _ => s

def State.fanCmd (s : State) (c : Nat) (v : Word) : State :=
  match opField v with
  | 1 => stateOf (execFanStart c s) s
  | 2 => s.fanStop c
  | _ => s

/-! ### A write of any register -/

/-- The registers whose write is a command. -/
def State.regCommand (s : State) (a : Nat) (v : Word) : Option State :=
  let n := v.toNat
  if a = rSYS_CMD then some (if v.getLsbD 0 then s.softReset (upperHalf v) else s)
  else if a = rSYS_RST then some (if v.getLsbD 0 then s.setSys { s.sys with long := false } else s)
  else if a = rIMG_CMD then some (s.imgCmd v)
  else if a = rIMG_CAB_CMD then some (s.cabCmd v)
  else if a = rANG_SRC then some (stateOf (execAngSrcWrite v s) s)
  else if a = rEVT_HOST_CMD then some (s.evtCmd v)
  else if a = rLE_CTX_CMD then some (s.leCmd v)
  else if a = rPLB_CMD then some (if opField v = 1 then stateOf (execPlbClear (upperHalf v) s) s else s)
  else if a = rPWM_START then some (s.pwmStart (n % 256))
  else if a = rPWM_STOP then some (s.pwmStop (n % 256))
  else if 0x17100 ≤ a ∧ a < 0x17300 ∧ a % 0x40 = 0 then some (s.groupCmd ((a - 0x17100) / 0x40) v)
  else if 0x17100 ≤ a ∧ a < 0x17300 ∧ a % 0x40 = 8 then
    some (if v.getLsbD 0 then s.cmtRequest ((a - 0x17100) / 0x40) else s)
  else if a = rADC_CMD then some (s.adcCmd v)
  else if rSDM_CH0_CTL ≤ a ∧ a ≤ rSDM_CH6_CTL then some (stateOf (execSdmCtlWrite ((a - rSDM_CH0_CTL) / 4) v s) s)
  else if a = rTRP_CLR then some (stateOf (execTrpClr (v.extractLsb' 0 8) s) s)
  else if a = rTRP_CMD then some (s.trpCmd v)
  else if a = rGDS_DIAG_CMD then some (s.gdsCmd v)
  else if a = rCHP_CMD then some (if v.getLsbD 0 then stateOf (execChpClear s) s else s)
  else if a = rGRD_CMD then some (s.grdCmd v)
  else if a = rMTR_CMD then some (s.mtrCmd v)
  else if a = rREC_CMD then some (s.recCmd v)
  else if a = rSHF_CMD then some (s.shfCmd v)
  else if a = rTIM_CMD then some (s.timCmd v)
  else if 0x23080 ≤ a ∧ a < 0x230C0 ∧ a % 0x10 = 0xC then some (s.ttWrite ((a - 0x23080) / 0x10) v)
  else if a = rETH_TXQ_DB then some (stateOf (execTxqDoorbell (v.extractLsb' 0 8) s) s)
  else if a = rSAF_CONFIRM then some (stateOf (execSafConfirm v s) s)
  else if a = rSAF_CONFIRM_INV then some (s.confirmInv v).retier
  else if a = rTRS_CMD then some (if v.getLsbD 0 then stateOf (execEnumerate s) s else s)
  else if a = rTRS_ROLE_CMD then some (stateOf (execRoleAssign (bits n 0 3) (bits n 8 6) (upperHalf v) s) s)
  else if a = rPAIR_CMD then some (s.pairCmd v)
  else if a = rHU_GRANT_REQ then some (if v.getLsbD 31 then s.grantEnd 3 else s.grantRequest (n % 2 ^ 24))
  else if a = rLIF_CMD then some (s.lifCmd v)
  else if a = rFAN_Cn_CMD 0 then some (s.fanCmd 0 v)
  else if a = rFAN_Cn_CMD 1 then some (s.fanCmd 1 v)
  else if a = rFAN_Cn_SET 0 then some (s.fanSet 0 v)
  else if a = rFAN_Cn_SET 1 then some (s.fanSet 1 v)
  else none

/-- A write of one register. -/
def State.regWrite (s : State) (a : Nat) (v : Word) : State := (s.regCommand a v).getD (s.regStore a v)

/-! ### Commands -/

/-- READ_CLEAR (R7): the word returned stays in `host.data`. -/
def execReadClear (addr : Word) (s : State) : Out :=
  let r := s.readReg addr.toNat
  .next { r.2 with host := { r.2.host with data := r.1 } }

/-- REGISTER_WRITE (R7). -/
def execRegisterWrite (addr value : Word) (s : State) : Out := .next (s.regWrite addr.toNat value)

/-- DIEID_READ (R392). -/
def execDieidRead (s : State) : Out := .next (s.readSnap rSYS_DIEID_LO)

end Sys2Proof.Machine
end

