-- ==== Sys2Proof/Machine/Host.lean ====
section
/-!
DEFINITION. The host interface (R421 to R431): requests, their checks and responses, doorbells, and requests carried
through the Trestle.
-/

namespace Sys2Proof

open Machine

/-- The OP and ROLE fields of CMD. -/
def HostReq.op (q : HostReq) : Nat := bits q.cmd.toNat 0 4
def HostReq.byRole (q : HostReq) : Bool := q.cmd.getLsbD 4
def HostReq.roleNo (q : HostReq) : Nat := bits q.role.toNat 0 3
def HostReq.roleEpoch (q : HostReq) : Nat := bits q.role.toNat 16 16

/-- The payload of an HREQ frame. -/
def HostReq.payload (q : HostReq) : List Byte :=
  leBytes 1 q.tag.toNat ++ leBytes 1 q.cmd.toNat ++ leBytes 2 (q.len.toNat + 1024 * q.rank.toNat) ++ leBytes 4 q.addr.toNat ++
    leBytes 4 q.role.toNat

end Sys2Proof

namespace Sys2Proof.Machine

def State.setHost (s : State) (x : Hst) : State := { s with host := x }

/-! ### Responses (Tables 19.2 and 19.3) -/

def stOk : Nat := 0x00
def stCrc : Nat := 0x01
def stFrame : Nat := 0x02
def stAddr : Nat := 0x03
def stAlign : Nat := 0x04
def stLen : Nat := 0x05
def stOp : Nat := 0x06
def stRoleStale : Nat := 0x07
def stDbRefused : Nat := 0x08
def stUnreach : Nat := 0x09
def stTimeout : Nat := 0x0A

/-- What the execution of a request answers. -/
structure Answer where
  status : Nat
  detail : Nat
  words : List Word := []

/-- A response joins the queue. -/
def State.respond (s : State) (tag rank : Nat) (x : Answer) : State :=
  s.setHost { s.host with
    queue := s.host.queue ++ [{ status := x.status, tag := tag, rank := rank, detail := x.detail, words := x.words }] }

/-- The bytes of a response: header, data and CRC (R422, R424). -/
def HostResp.bytes (r : HostResp) : List Byte :=
  let b := leBytes 1 r.status ++ leBytes 1 r.tag ++ leBytes 2 (r.words.length + 1024 * r.rank) ++ leBytes 4 r.detail ++
    r.words.flatMap fun w => leBytes 4 w.toNat
  b ++ leBytes 2 (crc16 b)

/-- The host interface answers from the boot lock of the PLLs on (Table 16.1). -/
def State.hostUp (s : State) : Bool := s.sys.pllBoot && !s.inReset

/-! ### Addresses (R25, R26, R425) -/

/-- The bytes of NVM that host writes do not reach: the save, commissioning and remap areas (R274, R346, R404). -/
def nvmKept (a : Nat) : Bool :=
  decide (a < 0x00402000) || (decide (0x00402100 ≤ a) && decide (a < 0x00402180)) ||
    (decide (0x00402200 ≤ a) && decide (a < 0x00402B04))

/-- A word of LDM inside the host window. -/
def State.inHostWin (s : State) (a : Nat) : Bool :=
  let p := s.sec secLoopProg
  let o := a - ldmBase
  s.hasSec secLoopProg && decide (hostWinBase p ≤ o) && decide (o < hostWinBase p + hostWinLen p)

/-- A Shelf offset that the host may write: BOOT, outside the copy that is the one loaded (R36, R290). -/
def State.bootWritable (s : State) (o : Nat) : Bool :=
  decide (o < 0x100000) && !(s.img.copy != 0 && o / 0x80000 + 1 == s.img.copy)

/-- The device accepts a host access to the word at an address. -/
def State.hostMay (s : State) (write : Bool) (a : Nat) : Bool :=
  if a < 0x00010000 then true
  else if a < 0x00100000 then decide (a < 0x0002F000)
  else if a < 0x00120000 then !write
  else if a < 0x00140000 then false
  else if a < 0x00180000 then !write || s.inHostWin a
  else if a < 0x00190000 then !write
  else if a < 0x00200000 then false
  else if a < 0x00380000 then !write || hostVisible s.partitions a 4
  else if a < 0x00400000 then false
  else if a < 0x00440000 then !write || !nvmKept a
  else if a < 0x01000000 then false
  else decide (a < shelfBase + s.shf.mb * 2 ^ 20) && !s.shf.unsupported && (!write || s.bootWritable (a - shelfBase))

/-- The addresses of a request, in order. -/
def reqAddrs (q : HostReq) : List Nat := (List.range q.len.toNat).map fun i => q.addr.toNat + 4 * i

/-- One word read or written. -/
def State.readWord (s : State) (a : Nat) : Word × State := if a < 0x00100000 then s.readReg a else (s.memWord a, s)
def State.writeWord (s : State) (a : Nat) (v : Word) : State :=
  if a < 0x00100000 then s.regWrite a v else s.setMemWord a v

/-- The words of a READ, one after the other; the newest first. -/
def State.readWords (s : State) (l : List Nat) : List Word × State :=
  l.foldl (fun x a => let r := x.2.readWord a; (r.1 :: x.1, r.2)) ([], s)

/-- The words of a WRITE. -/
def State.writeWords (s : State) : List (Nat × Word) → State
  | [] => s
  | x :: xs => (s.writeWord x.1 x.2).writeWords xs

/-- The current epoch of the context or role that a command register names under another epoch: such a command executes
nothing and is answered ROLE_STALE (R78, R359, Table 19.3). -/
def State.staleEpoch (s : State) (a : Nat) (v : Word) : Option Nat :=
  let e := bits v.toNat 16 16
  let other := fun now : Nat => if now = e then none else some (now % 65536)
  if a = rLE_CTX_CMD ∧ opField v ≠ 0 ∧ s.leSel ≠ 0 then other (s.ctx s.leSel).epoch
  else if a = rPLB_CMD ∧ opField v = 1 ∧ bits (s.reg rPLB_CTX_SEL).toNat 0 6 ≠ 0 then
    other (s.ctx (bits (s.reg rPLB_CTX_SEL).toNat 0 6)).epoch
  else if a = rTRS_ROLE_CMD then other (s.role (bits v.toNat 0 3)).epoch
  else if a = rPAIR_CMD ∧ bits v.toNat 0 3 = 2 ∧ s.pair.role = 3 then other (s.role s.pairRole).epoch
  else none

/-- The first stale command among the words of a WRITE, each judged as its turn comes. -/
def State.staleWrite (s : State) : List (Nat × Word) → Option Nat
  | [] => none
  | x :: xs => match s.staleEpoch x.1 x.2 with
    | some e => some e
    | none => (s.writeWord x.1 x.2).staleWrite xs

/-! ### Execution -/

/-- The length, alignment and range checks of a READ or WRITE, in this order (log 35). -/
def State.rangeRefusal (s : State) (q : HostReq) (write : Bool) : Option Answer :=
  let n := q.len.toNat
  if n = 0 ∨ 256 < n then some { status := stLen, detail := n }
  else if q.addr.toNat % 4 ≠ 0 then some { status := stAlign, detail := q.addr.toNat }
  else match (reqAddrs q).find? fun a => !s.hostMay write a with
    | some a => some { status := stAddr, detail := a % 2 ^ 32 }
    | none => none

/-- A DOORBELL (R426). -/
def State.doorbell (s : State) (q : HostReq) : Answer × State :=
  let n := bits q.addr.toNat 0 6
  if q.len.toNat ≠ 2 then ({ status := stLen, detail := q.len.toNat }, s)
  else if !s.ctxDefined n || !((s.desc n).getD {}).doorbell then ({ status := stDbRefused, detail := n }, s)
  else
    let c := s.ctx n
    if bits (q.data.getD 0 0).toNat 0 16 ≠ c.epoch % 65536 then
      ({ status := stRoleStale, detail := c.epoch % 65536 },
        (s.setCtx n { c with cntStale := satInc c.cntStale }).setBit rLE_STAT 6)
    else
      let r := s.request n 2 (q.data.getD 1 0)
      ({ status := stOk, detail := b2n r.2 }, r.1)

/-- A request executes on this device. -/
def State.hostExec (s : State) (q : HostReq) : Answer × State :=
  match q.op with
  | 1 =>
    match s.rangeRefusal q false with
    | some x => (x, s)
    | none => let r := s.readWords (reqAddrs q); ({ status := stOk, detail := 0, words := r.1.reverse }, r.2)
  | 2 =>
    match s.rangeRefusal q true with
    | some x => (x, s)
    | none =>
      let l := (reqAddrs q).zip q.data
      (match s.staleWrite l with
        | some e => { status := stRoleStale, detail := e }
        | none => { status := stOk, detail := 0 }, s.writeWords l)
  | 3 => s.doorbell q
  | _ => ({ status := stOp, detail := q.cmd.toNat }, s)

/-- A request addressed to this device; one to a role executes only while this device holds the role at that epoch
(R428). -/
def State.hostHere (s : State) (q : HostReq) : Answer × State :=
  if q.byRole && !(s.holds q.roleNo && (s.role q.roleNo).epoch == q.roleEpoch) then
    ({ status := stRoleStale, detail := (s.role q.roleNo).epoch }, s.stale)
  else s.hostExec q

/-! ### Carrying through the ring (R427) -/

/-- The data words of HDATA frames, three a frame, with their index; a frame's fields are the model's (log 36). -/
def hdataFrames (tag : Nat) (ws : List Word) : List (List Byte) :=
  (List.range ((ws.length + 2) / 3)).map fun k =>
    leBytes 1 tag ++ leBytes 1 (3 * k) ++ (List.range 3).flatMap fun j => leBytes 4 (ws.getD (3 * k + j) 0).toNat

/-- The request that an HREQ frame carries. -/
def reqOf (p : List Byte) : HostReq :=
  { tag := BitVec.ofNat 6 (field p 0 1), cmd := BitVec.ofNat 8 (field p 1 1), len := BitVec.ofNat 10 (field p 2 2)
    rank := BitVec.ofNat 6 (field p 2 2 / 1024), addr := word (field p 4 4), role := word (field p 8 4), data := [] }

/-- The frames of a remote request, to the rank that shall execute it. -/
def State.carry (s : State) (q : HostReq) (rank : Nat) : State :=
  let s := s.trsSendTo rank 0x08 0 0 q.payload
  (hdataFrames q.tag.toNat q.data).foldl (fun s b => s.trsSendTo rank 0x0A 0 0 b) s

/-- The target of a request: none where it is out of reach (R427, R428). -/
def State.target (s : State) (q : HostReq) : Option Nat :=
  let root := s.trs.enumDone && s.holds 3
  if q.byRole then
    if s.holds q.roleNo then some s.trs.rank
    else if root && (s.role q.roleNo).assigned then some (s.role q.roleNo).holder
    else none
  else if !s.trs.enumDone then (if q.rank = 0 then some s.trs.rank else none)
  else if q.rank.toNat = s.trs.rank || root then some q.rank.toNat
  else none

/-- A request, its frame checked: the tag is outstanding until its response is fetched whole (R423). -/
def State.hostRequest (s : State) (q : HostReq) : State :=
  let tag := q.tag.toNat
  if !s.hostUp then s
  else if s.host.tags.contains tag then ((s.setBit rHST_STAT 2).inc rHST_CNT_REUSE).irq 11
  else
    let s := s.setHost { s.host with tags := tag :: s.host.tags }
    match s.target q with
    | none => s.respond tag s.trs.rank { status := stUnreach, detail := q.rank.toNat }
    | some r =>
      if r = s.trs.rank then let x := s.hostHere q; x.2.respond tag s.trs.rank x.1
      else
        let there := decide (r ≤ s.trs.found)
        let s := s.setHost { s.host with remote := s.host.remote ++ [{ req := q, rank := r, there := there }] }
        if there then s.carry q r else s

/-- READ, WRITE and DOORBELL requests; one with a reserved OP comes as READ and answers OP. -/
def execRead (q : HostReq) (s : State) : Out := .next (if q.op = 2 ∨ q.op = 3 then s else s.hostRequest q)
def execWrite (q : HostReq) (s : State) : Out := .next (if q.op = 2 then s.hostRequest q else s)
def execDoorbell (q : HostReq) (s : State) : Out := .next (if q.op = 3 then s.hostRequest q else s)

/-- REQUEST_FRAME_ERROR (R422): a wrong CRC, else a wrong length; `tag` is the tag byte received. -/
def execRequestFrameError (crc : Bool) (tag : Byte) (s : State) : Out :=
  .next (
    if !s.hostUp then s
    else
      let s := (if crc then (s.setBit rHST_STAT 0).inc rHST_CNT_CRC else (s.setBit rHST_STAT 1).inc rHST_CNT_FRAME).irq 11
      s.respond 0xFF s.trs.rank { status := if crc then stCrc else stFrame, detail := tag.toNat })

/-- UNKNOWN_FRAME (R421). -/
def execUnknownFrame (s : State) : Out :=
  .next (if s.hostUp then ((s.setBit rHST_STAT 1).inc rHST_CNT_FRAME).irq 11 else s)

/-- FETCH (R424): the oldest response, of which the host clocks out `bytes` bytes; it leaves the queue only whole. -/
def execFetch (bytes : Nat) (s : State) : Out :=
  .next (
    if !s.hostUp then s
    else match s.host.queue with
      | [] => s.setHost { s.host with out := List.replicate (min 8 bytes) 0xFF }
      | r :: rest =>
        let b := r.bytes
        let s := s.setHost { s.host with out := b.take bytes }
        if b.length ≤ bytes then
          s.setHost { s.host with queue := rest, tags := s.host.tags.filter (· != r.tag) }
        else s)

/-! ### The ring's side -/

/-- The answer to a remote request: its HRSP frame and, after a READ, the data. -/
def State.sendAnswer (s : State) (dst tag : Nat) (x : Answer) : State :=
  let head := leBytes 1 x.status ++ leBytes 1 tag ++ leBytes 2 (x.words.length + 1024 * s.trs.rank) ++ leBytes 4 x.detail
  let s := s.trsSendTo dst 0x09 0 0 head
  (hdataFrames tag x.words).foldl (fun s b => s.trsSendTo dst 0x0A 0 1 b) s

/-- A remote request executes here. -/
def State.remoteExec (s : State) (src : Nat) (q : HostReq) : State :=
  let x := s.hostHere q
  x.2.sendAnswer src q.tag.toNat x.1

/-- HREQ_FRAME: a READ executes at once, a WRITE or DOORBELL once its data are here. -/
def execHreqFrame (f : TrsFrame) (s : State) : Out :=
  .next (
    let q := reqOf f.payload
    if f.type ≠ 0x08 ∨ f.dst ≠ s.trs.rank then s
    else if (q.op = 2 ∨ q.op = 3) ∧ q.len.toNat ≠ 0 then
      let rest := s.host.inbound.filter fun x => x.src != f.src || x.req.tag != q.tag
      s.setHost { s.host with inbound := rest ++ [{ src := f.src, req := q }] }
    else s.remoteExec f.src q)

/-- The words of an HDATA frame that lie below a length, by index. -/
def frameWords (p : List Byte) (len : Nat) : List (Nat × Word) :=
  let i := field p 1 1
  ((List.range 3).map fun j => (i + j, word (field p (2 + 4 * j) 4))).filter fun x => decide (x.1 < len)

/-- The words gathered, in order; none while one is missing. -/
def gathered (xs : List (Nat × Word)) (len : Nat) : Option (List Word) :=
  (List.range len).mapM fun i => (xs.find? fun x => x.1 == i).map (·.2)

/-- Data of a request that this device shall execute. -/
def State.inboundData (s : State) (f : TrsFrame) : State :=
  match s.host.inbound.find? fun x => x.src == f.src && x.req.tag.toNat == field f.payload 0 1 with
  | none => s
  | some x =>
    let ws := x.words ++ frameWords f.payload x.req.len.toNat
    let rest := s.host.inbound.filter (· != x)
    match gathered ws x.req.len.toNat with
    | some data => (s.setHost { s.host with inbound := rest }).remoteExec x.src { x.req with data := data }
    | none => s.setHost { s.host with inbound := rest ++ [{ x with words := ws }] }

/-- A remote request is complete. -/
def State.remoteDone (s : State) (x : Remote) (a : Answer) : State :=
  (s.setHost { s.host with remote := s.host.remote.filter (· != x) }).respond x.req.tag.toNat x.rank a

/-- The root's entry of a tag. -/
def State.remoteOf (s : State) (tag : Nat) : Option Remote := s.host.remote.find? fun x => x.req.tag.toNat == tag

/-- Data of a READ that the root carried. -/
def State.remoteData (s : State) (f : TrsFrame) : State :=
  match s.remoteOf (field f.payload 0 1) with
  | none => s
  | some x =>
    match x.head with
    | none => s
    | some (status, detail, len) =>
      let ws := x.words ++ frameWords f.payload len
      match gathered ws len with
      | some data => s.remoteDone x { status := status, detail := detail, words := data }
      | none => s.setHost { s.host with remote := s.host.remote.map fun y => if y = x then { x with words := ws } else y }

/-- HDATA_FRAME: FLG tells write data from read data (log 36). -/
def execHdataFrame (f : TrsFrame) (s : State) : Out :=
  .next (
    if f.type ≠ 0x0A ∨ f.dst ≠ s.trs.rank then s
    else if bit f.flg 0 then s.remoteData f
    else s.inboundData f)

/-- HRSP_FRAME: the answer that the root waits for; one that comes after its time is discarded and counted. -/
def execHrspFrame (f : TrsFrame) (s : State) : Out :=
  .next (
    if f.type ≠ 0x09 ∨ f.dst ≠ s.trs.rank then s
    else
      let p := f.payload
      match s.remoteOf (field p 1 1) with
      | none => s.inc rHST_CNT_LATE
      | some x =>
        let len := bits (field p 2 2) 0 10
        if x.head.isSome || x.rank ≠ f.src then s.inc rHST_CNT_LATE
        else if len = 0 then s.remoteDone x { status := field p 0 1, detail := field p 4 4 }
        else
          s.setHost { s.host with remote := s.host.remote.map fun y =>
            if y = x then { x with head := some (field p 0 1, field p 4 4, len) } else y })

/-- REMOTE_TIMEOUT: no HRSP within 500 µs of the HREQ; so too where its data do not all arrive. -/
def execRemoteTimeout (tag : BitVec 6) (s : State) : Out :=
  .next (match s.remoteOf tag.toNat with
    | none => s
    | some x =>
      if x.there then
        ((s.setBit rHST_STAT 3).inc rHST_CNT_TOUT).remoteDone x { status := stTimeout, detail := x.rank }
      else s)

/-- UNREACH_TIMEOUT: the rank is absent from the ring. -/
def execUnreachTimeout (tag : BitVec 6) (s : State) : Out :=
  .next (match s.remoteOf tag.toNat with
    | none => s
    | some x => if x.there then s else s.remoteDone x { status := stUnreach, detail := x.rank })

end Sys2Proof.Machine
end

