-- ==== Sys2Proof/Machine/Jtag.lean ====
section
/-!
DEFINITION. The functional levels of the balls (Table 20.2) and the JTAG port (R441, R376).
-/

namespace Sys2Proof

/-- The balls that keep their functional level during EXTEST (R441). -/
def Ball.kept : Ball → Bool
  | .pwm _ | .genA | .genB | .rlyA | .rlyB | .dckOpen | .fan _ _ | .huLoadEn => true
  | _ => false

end Sys2Proof

namespace Sys2Proof.Machine

def Lvl.of (b : Bool) : Lvl := if b then .high else .low

/-! ### Ball levels (Table 20.2) -/

/-- An interrupt line is asserted: a masked source, or an EVT entry (R429, R70). -/
def State.irqLine (s : State) (k : Nat) : Bool :=
  s.hostUp && (s.regVal rHST_IRQ_SRC &&& s.reg (if k = 0 then rHST_IRQ_MASK_A else rHST_IRQ_MASK_B) != 0 ||
    bit s.evt.lines k)

/-- An open-drain ball that sinks or is released. -/
def openDrain (sinks : Bool) : Lvl := if sinks then .low else .z

/-- The level that a ball of Table 20.2 takes outside reset; `none` where it carries a waveform or a bus protocol. -/
def State.ballDriven (s : State) : Ball → Option Lvl
  | .pwm n => some (s.outLvl n)
  | .gpio n => some (if s.pins.gpioOut.getLsbD n then .of (s.pins.gpio.getLsbD n) else .z)
  | .fan c k =>
    let x := s.fanCh c
    let on := (s.fanOuts c).getD k false
    if on && decide (3 ≤ x.st) then none else some (.of on)
  | .dckOpen => some (.of s.trp.dckOpen)
  | .genA => some (.of (bit s.monBalls 0))
  | .genB => if bit s.monBalls 1 then none else some .low
  | .rlyA => some (.of (bit s.monBalls 2))
  | .rlyB => some (.of (bit s.monBalls 3))
  | .pairHbOut => if s.pairBeats then none else some .low
  | .pairActOut => some (.of s.pair.actOut)
  | .irqA => some (openDrain (s.irqLine 0))
  | .irqB => some (openDrain (s.irqLine 1))
  | .huLoadEn => some (.of s.loadEn)
  | .pllLockA => if s.clk.sysLock && s.clk.ptcLock && s.clk.ethLock && decide (1 ≤ s.tier) then none else some .low
  | .shfResetN => some (.of (!s.sys.shfRstLow))
  | .shfCsN | .shfSck | .shfIo _ => none
  | .hstIo _ => some .z
  | .eth mac _ => if s.macOn mac then none else some .low
  | .trs _ => if s.clk.ethLock then none else some .z

/-- The functional level of a ball: every output is high-impedance in reset (Table 20.2, R384). -/
def State.ballOut (s : State) (b : Ball) : Option Lvl := if s.inReset then some .z else s.ballDriven b

/-- EXTEST is executed as BYPASS (R441). -/
def State.extestBlocked (s : State) : Bool :=
  s.cabLocked || (List.range 8).any fun g => (s.grp g).st != .stopped

/-- EXTEST drives the preloaded levels now. -/
def State.extestOn (s : State) : Bool := s.jtag.ir == .extest && !s.extestBlocked

/-- The level of a ball, with EXTEST in force or not. -/
def State.ballLvl (s : State) (b : Ball) : Option Lvl :=
  if s.extestOn && !b.kept then
    match s.jtag.preload.find? fun p => p.1 == b with
    | some p => some (.of p.2)
    | none => s.ballOut b
  else s.ballOut b

/-! ### The port (R441) -/

def State.setJtag (s : State) (x : Jtag) : State := { s with jtag := x }

/-- JTAG_BYPASS: one bit between TDI and TDO, which starts at 0. -/
def execJtagBypass (s : State) : Out := .next (s.setJtag { s.jtag with ir := .bypass, dr := 0 })

/-- The identity code (R441). -/
def idcode : Word := 0xA9640A6B

/-- JTAG_IDCODE. -/
def execJtagIdcode (s : State) : Out := .next (s.setJtag { s.jtag with ir := .idcode, dr := idcode })

/-- The level that stands on a ball: a GPIO ball that is an input shows the level the board gives it (R438). -/
def State.ballSeen (s : State) (b : Ball) : Option Lvl :=
  match b with
  | .gpio n =>
    if s.ballLvl b == some .z then some (.of (s.pins.gpio.getLsbD n)) else s.ballLvl b
  | _ => s.ballLvl b

/-- The level that a boundary cell observes on its ball; a waveform's level at one instant is open (log 4). -/
def State.cellLevel (s : State) (b : Ball) (i : Nat) : Lvl :=
  (s.ballSeen b).getD (.of ((Config.openReg i s.clk.t).getLsbD 0))

/-- JTAG_SAMPLE_PRELOAD: the cells named observe their balls and then hold the levels shifted in. -/
def execJtagSamplePreload (load : List (Ball × Bool)) (s : State) : Out :=
  .next (s.setJtag { s.jtag with
    ir := .samplePreload
    sample := load.zipIdx.map fun p => (p.1.1, s.cellLevel p.1.1 p.2)
    preload := load ++ s.jtag.preload.filter fun p => !load.any fun q => q.1 == p.1 })

/-- JTAG_EXTEST: it acts as BYPASS while LOCK is burned or a group is not STOPPED. -/
def execJtagExtest (s : State) : Out :=
  .next (if s.extestBlocked then s.setJtag { s.jtag with ir := .extest, dr := 0 } else s.setJtag { s.jtag with ir := .extest })

/-- TRST_N_ASSERT: the JTAG logic alone is reset (R376); its instruction is IDCODE. -/
def execTrstNAssert (s : State) : Out := .next (s.setJtag {})

end Sys2Proof.Machine
end

