-- ==== Sys2Proof/Machine/LeInstr.lean ====
section
/-!
DEFINITION. The Loop Engine instructions (R111 to R132), one meaning each over the shared issue of an instruction: its
form (R104, R105), its operation and its exceptions.
-/

namespace Sys2Proof.Machine

/-! ### Control (Table 5.5) -/

/-- NOP. -/
def execLeNop (w : LeWord) (ecc : Ecc) (s : State) : Out :=
  .next (s.leIssue { v := .zero } w ecc (LeRes.reg fun c => c))

/-- YIELD (R112). -/
def execLeYield (w : LeWord) (ecc : Ecc) (s : State) : Out :=
  .next (s.leIssue { v := .zero } w ecc State.leYield)

/-- BR. -/
def execLeBr (w : LeWord) (ecc : Ecc) (s : State) : Out :=
  .next (s.leIssue { v := .zero } w ecc (LeRes.branch w fun _ => true))

/-- BEQZ. -/
def execLeBeqz (w : LeWord) (ecc : Ecc) (s : State) : Out :=
  .next (s.leIssue { v := .zero, a := .scalar } w ecc (LeRes.branch w fun c => c.sReg w.a.toNat == 0))

/-- BNEZ. -/
def execLeBnez (w : LeWord) (ecc : Ecc) (s : State) : Out :=
  .next (s.leIssue { v := .zero, a := .scalar } w ecc (LeRes.branch w fun c => c.sReg w.a.toNat != 0))

/-- BLTZ. -/
def execLeBltz (w : LeWord) (ecc : Ecc) (s : State) : Out :=
  .next (s.leIssue { v := .zero, a := .scalar } w ecc (LeRes.branch w fun c => decide ((c.sReg w.a.toNat).toInt < 0)))

/-- BGEZ. -/
def execLeBgez (w : LeWord) (ecc : Ecc) (s : State) : Out :=
  .next (s.leIssue { v := .zero, a := .scalar } w ecc (LeRes.branch w fun c => decide ((c.sReg w.a.toNat).toInt ≥ 0)))

/-- DBNZ: the register is decremented, taken or not. -/
def execLeDbnz (w : LeWord) (ecc : Ecc) (s : State) : Out :=
  .next (s.leIssue { v := .zero, a := .scalar } w ecc fun s n =>
    let c := (s.ctx n).setS w.a.toNat ((s.ctx n).sReg w.a.toNat - 1)
    let t := s.setCtx n c
    if c.sReg w.a.toNat != 0 then .jump t ((c.pc : Int) + w.imm.toInt) else .ok t)

/-- BPANY. -/
def execLeBpany (w : LeWord) (ecc : Ecc) (s : State) : Out :=
  .next (s.leIssue { v := .zero, a := .pred } w ecc (LeRes.branch w fun c => c.pReg w.a.toNat != 0))

/-- BPALL. -/
def execLeBpall (w : LeWord) (ecc : Ecc) (s : State) : Out :=
  .next (s.leIssue { v := .zero, a := .pred } w ecc (LeRes.branch w fun c => c.pReg w.a.toNat == 0xFFFF))

/-- JAL. -/
def execLeJal (w : LeWord) (ecc : Ecc) (s : State) : Out :=
  .next (s.leIssue { v := .zero, d := .scalar } w ecc fun s n =>
    let c := s.ctx n
    .jump (s.setCtx n (c.setS w.d.toNat (word (c.pc + 1)))) ((c.pc : Int) + w.imm.toInt))

/-- JR: an index within the code block. -/
def execLeJr (w : LeWord) (ecc : Ecc) (s : State) : Out :=
  .next (s.leIssue { v := .zero, a := .scalar } w ecc fun s n => .jump s ((s.ctx n).sReg w.a.toNat).toInt)

/-! ### Integer and fixed point (Table 5.6) -/

/-- ADD. -/
def execLeAdd (w : LeWord) (ecc : Ecc) (s : State) : Out :=
  .next (s.leIssue { s := .opt, p := true, d := .dst, a := .src, b := .src } w ecc (LeRes.reg fun c => c.mapFixed w 0 fun a b => a + b))

/-- SUB. -/
def execLeSub (w : LeWord) (ecc : Ecc) (s : State) : Out :=
  .next (s.leIssue { s := .opt, p := true, d := .dst, a := .src, b := .src } w ecc (LeRes.reg fun c => c.mapFixed w 0 fun a b => a - b))

/-- NEG. -/
def execLeNeg (w : LeWord) (ecc : Ecc) (s : State) : Out :=
  .next (s.leIssue { s := .opt, p := true, d := .dst, a := .src } w ecc (LeRes.reg fun c => c.mapFixed w 0 fun a _ => -a))

/-- ABS. -/
def execLeAbs (w : LeWord) (ecc : Ecc) (s : State) : Out :=
  .next (s.leIssue { s := .opt, p := true, d := .dst, a := .src } w ecc (LeRes.reg fun c => c.mapFixed w 0 fun a _ => (a.natAbs : Int)))

/-- MIN. -/
def execLeMin (w : LeWord) (ecc : Ecc) (s : State) : Out :=
  .next (s.leIssue { p := true, d := .dst, a := .src, b := .src } w ecc (LeRes.reg fun c => c.mapFixed w 0 fun a b => min a b))

/-- MAX. -/
def execLeMax (w : LeWord) (ecc : Ecc) (s : State) : Out :=
  .next (s.leIssue { p := true, d := .dst, a := .src, b := .src } w ecc (LeRes.reg fun c => c.mapFixed w 0 fun a b => max a b))

/-- CLAMP. -/
def execLeClamp (w : LeWord) (ecc : Ecc) (s : State) : Out :=
  .next (s.leIssue { p := true, d := .dst, a := .src, b := .src, c := .src } w ecc (LeRes.reg fun c => c.mapLanes w fun i =>
    (wordOfInt (min (max (c.src w w.a i).toInt (c.src w w.b i).toInt) (c.src w w.c i).toInt), 0)))

/-- MUL. -/
def execLeMul (w : LeWord) (ecc : Ecc) (s : State) : Out :=
  .next (s.leIssue { s := .opt, n := .opt, p := true, d := .dst, a := .src, b := .src } w ecc (LeRes.reg fun c => c.mapFixed w (leSh6 w) fun a b => a * b))

/-- ADDI. -/
def execLeAddi (w : LeWord) (ecc : Ecc) (s : State) : Out :=
  .next (s.leIssue { s := .opt, p := true, d := .dst, a := .src } w ecc (LeRes.reg fun c => c.mapFixed w 0 fun a _ => a + w.imm.toInt))

/-- AND. -/
def execLeAnd (w : LeWord) (ecc : Ecc) (s : State) : Out :=
  .next (s.leIssue { p := true, d := .dst, a := .src, b := .src } w ecc (LeRes.reg fun c => c.mapPlain w fun a b => a &&& b))

/-- OR. -/
def execLeOr (w : LeWord) (ecc : Ecc) (s : State) : Out :=
  .next (s.leIssue { p := true, d := .dst, a := .src, b := .src } w ecc (LeRes.reg fun c => c.mapPlain w fun a b => a ||| b))

/-- XOR. -/
def execLeXor (w : LeWord) (ecc : Ecc) (s : State) : Out :=
  .next (s.leIssue { p := true, d := .dst, a := .src, b := .src } w ecc (LeRes.reg fun c => c.mapPlain w fun a b => a ^^^ b))

/-- NOT. -/
def execLeNot (w : LeWord) (ecc : Ecc) (s : State) : Out :=
  .next (s.leIssue { p := true, d := .dst, a := .src } w ecc (LeRes.reg fun c => c.mapPlain w fun a _ => ~~~ a))

/-- SHL. -/
def execLeShl (w : LeWord) (ecc : Ecc) (s : State) : Out :=
  .next (s.leIssue { s := .opt, p := true, d := .dst, a := .src } w ecc (LeRes.reg fun c => c.mapFixed w 0 fun a _ => a * 2 ^ leSh5 w))

/-- SHR. -/
def execLeShr (w : LeWord) (ecc : Ecc) (s : State) : Out :=
  .next (s.leIssue { p := true, d := .dst, a := .src } w ecc (LeRes.reg fun c => c.mapPlain w fun a _ => a >>> leSh5 w))

/-- SRA. -/
def execLeSra (w : LeWord) (ecc : Ecc) (s : State) : Out :=
  .next (s.leIssue { n := .opt, p := true, d := .dst, a := .src } w ecc (LeRes.reg fun c => c.mapFixed w (leSh5 w) fun a _ => a))

/-! ### Accumulators (Table 5.7) -/

/-- MAC. -/
def execLeMac (w : LeWord) (ecc : Ecc) (s : State) : Out :=
  .next (s.leIssue { p := true, d := .acc, a := .src, b := .src } w ecc (LeRes.reg fun c => c.mapAcc w fun x a b => x + a * b))

/-- MSU. -/
def execLeMsu (w : LeWord) (ecc : Ecc) (s : State) : Out :=
  .next (s.leIssue { p := true, d := .acc, a := .src, b := .src } w ecc (LeRes.reg fun c => c.mapAcc w fun x a b => x - a * b))

/-- ACCSET. -/
def execLeAccset (w : LeWord) (ecc : Ecc) (s : State) : Out :=
  .next (s.leIssue { p := true, d := .acc, a := .src } w ecc (LeRes.reg fun c => c.mapAcc w fun _ a _ => a * 2 ^ leSh6 w))

/-- ACCRD. -/
def execLeAccrd (w : LeWord) (ecc : Ecc) (s : State) : Out :=
  .next (s.leIssue { s := .opt, n := .opt, p := true, d := .dst, a := .acc } w ecc (LeRes.reg fun c => c.accRead w))

/-! ### Compares and predicates (Table 5.8) -/

/-- CMPEQ. -/
def execLeCmpeq (w : LeWord) (ecc : Ecc) (s : State) : Out :=
  .next (s.leIssue { p := true, d := .cmpDst, a := .src, b := .src } w ecc (LeRes.reg fun c => c.compare w fun a b => (a == b, 0)))

/-- CMPLT. -/
def execLeCmplt (w : LeWord) (ecc : Ecc) (s : State) : Out :=
  .next (s.leIssue { p := true, d := .cmpDst, a := .src, b := .src } w ecc (LeRes.reg fun c => c.compare w fun a b => (decide (a.toInt < b.toInt), 0)))

/-- CMPLE. -/
def execLeCmple (w : LeWord) (ecc : Ecc) (s : State) : Out :=
  .next (s.leIssue { p := true, d := .cmpDst, a := .src, b := .src } w ecc (LeRes.reg fun c => c.compare w fun a b => (decide (a.toInt ≤ b.toInt), 0)))

/-- CMPLTU. -/
def execLeCmpltu (w : LeWord) (ecc : Ecc) (s : State) : Out :=
  .next (s.leIssue { p := true, d := .cmpDst, a := .src, b := .src } w ecc (LeRes.reg fun c => c.compare w fun a b => (decide (a.toNat < b.toNat), 0)))

/-- FCMPEQ. -/
def execLeFcmpeq (w : LeWord) (ecc : Ecc) (s : State) : Out :=
  .next (s.leIssue { p := true, d := .cmpDst, a := .src, b := .src } w ecc (LeRes.reg fun c => c.compare w (fCmp fun o => decide (o = 0))))

/-- FCMPLT. -/
def execLeFcmplt (w : LeWord) (ecc : Ecc) (s : State) : Out :=
  .next (s.leIssue { p := true, d := .cmpDst, a := .src, b := .src } w ecc (LeRes.reg fun c => c.compare w (fCmp fun o => decide (o < 0))))

/-- FCMPLE. -/
def execLeFcmple (w : LeWord) (ecc : Ecc) (s : State) : Out :=
  .next (s.leIssue { p := true, d := .cmpDst, a := .src, b := .src } w ecc (LeRes.reg fun c => c.compare w (fCmp fun o => decide (o ≤ 0))))

/-- PAND. -/
def execLePand (w : LeWord) (ecc : Ecc) (s : State) : Out :=
  .next (s.leIssue { v := .zero, d := .pred, a := .pred, b := .pred } w ecc (LeRes.reg fun c => c.setP w.d.toNat (c.pReg w.a.toNat &&& c.pReg w.b.toNat)))

/-- POR. -/
def execLePor (w : LeWord) (ecc : Ecc) (s : State) : Out :=
  .next (s.leIssue { v := .zero, d := .pred, a := .pred, b := .pred } w ecc (LeRes.reg fun c => c.setP w.d.toNat (c.pReg w.a.toNat ||| c.pReg w.b.toNat)))

/-- PXOR. -/
def execLePxor (w : LeWord) (ecc : Ecc) (s : State) : Out :=
  .next (s.leIssue { v := .zero, d := .pred, a := .pred, b := .pred } w ecc (LeRes.reg fun c => c.setP w.d.toNat (c.pReg w.a.toNat ^^^ c.pReg w.b.toNat)))

/-- PNOT. -/
def execLePnot (w : LeWord) (ecc : Ecc) (s : State) : Out :=
  .next (s.leIssue { v := .zero, d := .pred, a := .pred } w ecc (LeRes.reg fun c => c.setP w.d.toNat (~~~ c.pReg w.a.toNat)))

/-- PSET. -/
def execLePset (w : LeWord) (ecc : Ecc) (s : State) : Out :=
  .next (s.leIssue { v := .zero, d := .pred } w ecc (LeRes.reg fun c => c.setP w.d.toNat (BitVec.ofNat 16 w.imm.toNat)))

/-- PTOS. -/
def execLePtos (w : LeWord) (ecc : Ecc) (s : State) : Out :=
  .next (s.leIssue { v := .zero, d := .scalar, a := .pred } w ecc (LeRes.reg fun c => c.setS w.d.toNat (word (c.pReg w.a.toNat).toNat)))

/-- STOP: a predicate from a scalar. -/
def execLeStop (w : LeWord) (ecc : Ecc) (s : State) : Out :=
  .next (s.leIssue { v := .zero, d := .pred, a := .scalar } w ecc (LeRes.reg fun c => c.setP w.d.toNat (BitVec.ofNat 16 (c.sReg w.a.toNat).toNat)))

/-- SEL. -/
def execLeSel (w : LeWord) (ecc : Ecc) (s : State) : Out :=
  .next (s.leIssue { d := .dst, a := .src, b := .src, c := .selC } w ecc (LeRes.reg fun c => c.select w))

/-! ### Binary32 (Table 5.9) -/

/-- FADD. -/
def execLeFadd (w : LeWord) (ecc : Ecc) (s : State) : Out :=
  .next (s.leIssue { p := true, d := .dst, a := .src, b := .src } w ecc (LeRes.reg fun c => c.mapLanes w fun i => fAdd (c.src w w.a i) (c.src w w.b i)))

/-- FSUB. -/
def execLeFsub (w : LeWord) (ecc : Ecc) (s : State) : Out :=
  .next (s.leIssue { p := true, d := .dst, a := .src, b := .src } w ecc (LeRes.reg fun c => c.mapLanes w fun i => fSub (c.src w w.a i) (c.src w w.b i)))

/-- FMUL. -/
def execLeFmul (w : LeWord) (ecc : Ecc) (s : State) : Out :=
  .next (s.leIssue { p := true, d := .dst, a := .src, b := .src } w ecc (LeRes.reg fun c => c.mapLanes w fun i => fMul (c.src w w.a i) (c.src w w.b i)))

/-- FMA. -/
def execLeFma (w : LeWord) (ecc : Ecc) (s : State) : Out :=
  .next (s.leIssue { p := true, d := .dst, a := .src, b := .src, c := .src } w ecc (LeRes.reg fun c => c.mapLanes w fun i =>
    fFma (c.src w w.a i) (c.src w w.b i) (c.src w w.c i)))

/-- FMIN. -/
def execLeFmin (w : LeWord) (ecc : Ecc) (s : State) : Out :=
  .next (s.leIssue { p := true, d := .dst, a := .src, b := .src } w ecc (LeRes.reg fun c => c.mapLanes w fun i => fMinMax false (c.src w w.a i) (c.src w w.b i)))

/-- FMAX. -/
def execLeFmax (w : LeWord) (ecc : Ecc) (s : State) : Out :=
  .next (s.leIssue { p := true, d := .dst, a := .src, b := .src } w ecc (LeRes.reg fun c => c.mapLanes w fun i => fMinMax true (c.src w w.a i) (c.src w w.b i)))

/-- FABS. -/
def execLeFabs (w : LeWord) (ecc : Ecc) (s : State) : Out :=
  .next (s.leIssue { p := true, d := .dst, a := .src } w ecc (LeRes.reg fun c => c.mapPlain w fun a _ => fAbs a))

/-- FNEG. -/
def execLeFneg (w : LeWord) (ecc : Ecc) (s : State) : Out :=
  .next (s.leIssue { p := true, d := .dst, a := .src } w ecc (LeRes.reg fun c => c.mapPlain w fun a _ => fNeg a))

/-- FCVTF. -/
def execLeFcvtf (w : LeWord) (ecc : Ecc) (s : State) : Out :=
  .next (s.leIssue { p := true, d := .dst, a := .src } w ecc (LeRes.reg fun c => c.mapLanes w fun i => fFromInt (c.src w w.a i).toInt (leSh6 w)))

/-- FCVTX. -/
def execLeFcvtx (w : LeWord) (ecc : Ecc) (s : State) : Out :=
  .next (s.leIssue { s := .one, n := .opt, p := true, d := .dst, a := .src } w ecc (LeRes.reg fun c => c.mapLanes w fun i => fToInt w.n (c.src w w.a i) (leSh6 w)))

/-! ### Memory and data movement (Table 5.10) -/

/-- LD (R118, R119). -/
def execLeLd (w : LeWord) (ecc : Ecc) (s : State) : Out :=
  .next (s.leIssue { p := true, d := .dst, a := .scalar, bad := decide (2 ≤ leSpace w) } w ecc (State.leLoad w))

/-- ST (R118, R119). -/
def execLeSt (w : LeWord) (ecc : Ecc) (s : State) : Out :=
  .next (s.leIssue { p := true, d := .src, a := .scalar, bad := leSpace w == 3 } w ecc (State.leStore w))

/-- LI. -/
def execLeLi (w : LeWord) (ecc : Ecc) (s : State) : Out :=
  .next (s.leIssue { d := .dst } w ecc (LeRes.reg fun c => c.mapLanes w fun _ => (w.imm, 0)))

/-- MOV. -/
def execLeMov (w : LeWord) (ecc : Ecc) (s : State) : Out :=
  .next (s.leIssue { p := true, d := .dst, a := .src } w ecc (LeRes.reg fun c => c.mapPlain w fun a _ => a))

/-- VEXT. -/
def execLeVext (w : LeWord) (ecc : Ecc) (s : State) : Out :=
  .next (s.leIssue { v := .one, d := .scalar, a := .src } w ecc (LeRes.reg fun c => c.setS w.d.toNat (c.src w w.a (bits w.imm.toNat 0 4))))

/-- VINS. -/
def execLeVins (w : LeWord) (ecc : Ecc) (s : State) : Out :=
  .next (s.leIssue { v := .one, d := .vdst, a := .scalar } w ecc (LeRes.reg fun c => c.setV w.d.toNat (bits w.imm.toNat 0 4) (c.sReg w.a.toNat)))

/-- RSUM. -/
def execLeRsum (w : LeWord) (ecc : Ecc) (s : State) : Out :=
  .next (s.leIssue { v := .one, s := .opt, p := true, d := .scalar, a := .src } w ecc (LeRes.reg fun c => c.laneSum w))

/-- VIDX. -/
def execLeVidx (w : LeWord) (ecc : Ecc) (s : State) : Out :=
  .next (s.leIssue { v := .one, d := .vdst } w ecc (LeRes.reg fun c => c.mapLanes w fun i => (word i, 0)))

/-- GETF. -/
def execLeGetf (w : LeWord) (ecc : Ecc) (s : State) : Out :=
  .next (s.leIssue { v := .zero, d := .scalar } w ecc (LeRes.reg fun c => c.setS w.d.toNat c.flags))

/-- CLRF. -/
def execLeClrf (w : LeWord) (ecc : Ecc) (s : State) : Out :=
  .next (s.leIssue { v := .zero } w ecc (LeRes.reg fun c => { c with flags := c.flags &&& ~~~ (w.imm &&& 31) }))

/-! ### Fused instructions (Table 5.11) -/

/-- CLARKE. -/
def execLeClarke (w : LeWord) (ecc : Ecc) (s : State) : Out :=
  .next (s.leIssue { s := .opt, n := .opt, d := .pairDst, a := .src, b := .src, c := .src } w ecc (LeRes.reg fun c => c.mapPair w fun i =>
    clarke w (c.src w w.a i).toInt (c.src w w.b i).toInt (c.src w w.c i).toInt))

/-- SINCOS. -/
def execLeSincos (w : LeWord) (ecc : Ecc) (s : State) : Out :=
  .next (s.leIssue { d := .pairDst, a := .src } w ecc (LeRes.reg fun c => c.mapPair w fun i => (sinCos (c.src w w.a i), 0)))

/-- PARK. -/
def execLePark (w : LeWord) (ecc : Ecc) (s : State) : Out :=
  .next (s.leIssue { s := .opt, n := .opt, d := .pairDst, a := .src, b := .src, c := .src } w ecc (LeRes.reg fun c => c.mapPair w fun i =>
    park false w (c.src w w.a i).toInt (c.src w w.b i).toInt (c.src w w.c i)))

/-- IPARK. -/
def execLeIpark (w : LeWord) (ecc : Ecc) (s : State) : Out :=
  .next (s.leIssue { s := .opt, n := .opt, d := .pairDst, a := .src, b := .src, c := .src } w ecc (LeRes.reg fun c => c.mapPair w fun i =>
    park true w (c.src w w.a i).toInt (c.src w w.b i).toInt (c.src w w.c i)))

/-- ATAN2. -/
def execLeAtan2 (w : LeWord) (ecc : Ecc) (s : State) : Out :=
  .next (s.leIssue { d := .dst, a := .src, b := .src } w ecc (LeRes.reg fun c => c.mapPlain w atan2))

/-- SQRT. -/
def execLeSqrt (w : LeWord) (ecc : Ecc) (s : State) : Out :=
  .next (s.leIssue { d := .dst, a := .src } w ecc (LeRes.reg fun c => c.mapLanes w fun i => fSqrt (c.src w w.a i)))

/-- RECIP. -/
def execLeRecip (w : LeWord) (ecc : Ecc) (s : State) : Out :=
  .next (s.leIssue { d := .dst, a := .src } w ecc (LeRes.reg fun c => c.mapLanes w fun i => fRecip (c.src w w.a i)))

/-- PISTEP (R123). -/
def execLePistep (w : LeWord) (ecc : Ecc) (s : State) : Out :=
  .next (s.leIssue { s := .one, n := .opt, d := .dst, a := .src, b := .dst } w ecc (State.lePi w))

/-- PIBUMP (R124). -/
def execLePibump (w : LeWord) (ecc : Ecc) (s : State) : Out :=
  .next (s.leIssue { s := .one, n := .opt, d := .dst, a := .src, b := .src } w ecc (State.leBump w))

/-- BQSTEP (R125). -/
def execLeBqstep (w : LeWord) (ecc : Ecc) (s : State) : Out :=
  .next (s.leIssue { s := .one, n := .opt, d := .dst, a := .src, b := .pairDst } w ecc (State.leBiquad w))

/-! ### I/O and staging (R126 to R129) -/

/-- RDRES; `remaining` is the time in cycles that the producer reports. -/
def execLeRdres (w : LeWord) (ecc : Ecc) (remaining : Nat) (s : State) : Out :=
  .next (s.leIssue { p := true, d := .dst, a := .scalar } w ecc (State.leRdres w remaining))

/-- STAGE. -/
def execLeStage (w : LeWord) (ecc : Ecc) (s : State) : Out :=
  .next (s.leIssue { p := true, a := .src, b := .scalar } w ecc (State.leWrite w ioStageExc State.ioStage))

/-- IOST. -/
def execLeIost (w : LeWord) (ecc : Ecc) (s : State) : Out :=
  .next (s.leIssue { p := true, a := .src, b := .scalar } w ecc (State.leWrite w ioWriteExc State.ioWrite))

/-- COMMIT (R128). -/
def execLeCommit (w : LeWord) (ecc : Ecc) (s : State) : Out :=
  .next (s.leIssue { v := .zero } w ecc (State.leCommitMask w))

/-- TRC (R129). -/
def execLeTrc (w : LeWord) (ecc : Ecc) (s : State) : Out :=
  .next (s.leIssue { v := .zero, a := .scalar, b := .scalar } w ecc fun s n =>
    .ok (s.trace n 0 (leBytes 4 ((s.ctx n).sReg w.a.toNat).toNat ++ leBytes 4 ((s.ctx n).sReg w.b.toNat).toNat)))

/-- SIG (R129). -/
def execLeSig (w : LeWord) (ecc : Ecc) (s : State) : Out :=
  .next (s.leIssue { v := .zero, bad := bits w.imm.toNat 0 6 == 0 } w ecc fun s n => .ok (s.leSignal n (bits w.imm.toNat 0 6)))

/-! ### Candidate Evaluator instructions (R130 to R132) -/

/-- CANDSET. -/
def execLeCandset (w : LeWord) (ecc : Ecc) (s : State) : Out :=
  .next (s.leIssue { v := .zero, bad := bits w.imm.toNat 0 8 == 0 } w ecc (State.leCandset w))

/-- CANDEVAL; `remaining` is what an evaluation in progress still takes. -/
def execLeCandeval (w : LeWord) (ecc : Ecc) (remaining : Nat) (s : State) : Out :=
  .next (s.leIssue { v := .one, a := .src, b := .src, c := .src } w ecc (State.leCandeval w remaining))

/-- CANDSEL; `remaining` is what the evaluation still takes. -/
def execLeCandsel (w : LeWord) (ecc : Ecc) (remaining : Nat) (s : State) : Out :=
  .next (s.leIssue { v := .zero, d := .sPair } w ecc (State.leCandsel w remaining))

/-- RESERVED_OPCODE (R110): a code that Table 5.3 does not list. -/
def execReservedOpcode (w : LeWord) (ecc : Ecc) (s : State) : Out :=
  .next (s.leIssue { bad := true } w ecc (LeRes.reg fun c => c))

end Sys2Proof.Machine
end

