-- ==== Sys2Proof/Machine/Time.lean ====
section
/-!
DEFINITION. The passage of time: one edge of SYSCLK, and the edges up to an ANG update (R48, R52, R101, R299).
-/

namespace Sys2Proof.Machine

/-- The frequency of SYSCLK: the SYS PLL's, or the RC oscillator's (R23, R383). -/
def State.sysHz (s : State) : Nat := if s.clk.fallback then 50000000 else 400000000

/-- The length of one SYSCLK cycle in units of 2.5 ns. -/
def State.edgeUnits (s : State) : Nat := if s.clk.fallback then 8 else 1

/-- A carrier's count over some units of 2.5 ns: fPTC = 25 MHz × NDIV / RDIV; it waits at P − 1 for its reload, which takes it
to 0 (R12, log 27). -/
def State.carrierRun (s : State) (units g : Nat) : State :=
  let x := s.grp g
  if x.st = .running then
    let inc := (divOpen 104 (125000 * units * s.clk.ndiv : Nat) (max 1 s.clk.rdiv : Nat)).toNat
    s.setGrp g { x with cntU := max x.cntU (min (x.per * 2000000 - 1) (x.cntU + inc)) }
  else s

/-- The carriers of the groups that run, while the PTC PLL is locked and no hop is in progress. -/
def State.carriersRun (s : State) (units : Nat) : State :=
  if s.clk.ptcLock && s.clk.hopTo.isNone then s.each (List.range 8) fun s g => s.carrierRun units g else s

/-- The counts of SYSCLK cycles: the model's own time, and LE_CYC (R101). -/
def State.countEdge (s : State) : State :=
  { s with clk := { s.clk with t := s.clk.t + s.edgeUnits }, le := { s.le with cyc := (s.le.cyc + 1) % 2 ^ 64 } }

/-- The recorder's sample clock of SYSCLK divided by 400 (R282). -/
def State.recTick (s : State) : State := if s.le.cyc % 400 = 0 then s.recClock 3 0 [] s.strobeMark else s

/-- One edge of SYSCLK; in reset the oscillator stands still (R374). -/
def State.edge (s : State) : State :=
  if s.inReset then s
  else
    let t0 := s.clk.t
    let w0 := s.wallNs
    let u := s.edgeUnits
    let s := ((s.angEdge s.sysHz).angJump).countEdge
    (((((s.carriersRun u).timTicks (s.clk.t * 5 / 8 - t0 * 5 / 8)).pmuTick w0).recTick).recEdge).traceDrains.mirReady

/-- Some edges of SYSCLK, one after the other. -/
def State.edges : Nat → State → State
  | 0, s => s
  | n + 1, s => State.edges n s.edge

/-- The SYSCLK edges from now to 10 µs after the last ANG update. -/
def State.edgesToUpdate (s : State) : Nat := (s.ang.updAt + 4000 - s.clk.t + s.edgeUnits - 1) / s.edgeUnits

/-- ANG_UPDATE (R48): the time up to it passes; then ANG updates and, on its outputs, GRD (R239). -/
def execAngUpdate (s : State) : Out :=
  .next (
    if s.inReset then s
    else
      let s := s.edges s.edgesToUpdate
      let s := { s with ang := { s.ang with updAt := s.clk.t } }
      s.angUpdate.grdAngUpdate)

end Sys2Proof.Machine
end

