-- ==== Sys2Proof/Machine/Dispatch.lean ====
section
/-!
DEFINITION. The command dispatch: one arm for each row of the table.
-/

namespace Sys2Proof.Machine

/-- The effect of a command on everything but the queue. -/
def exec (i : Instr) (s : State) : Host.Outcome State Fault Refusal :=
  match i with
  | .release => Sys2Proof.Machine.execRelease s
  | .tier0Guard => Sys2Proof.Machine.execTier0Guard s
  | .pllBootLock => Sys2Proof.Machine.execPllBootLock s
  | .bootRomDone lanes retried aErr bErr table => Sys2Proof.Machine.execBootRomDone lanes retried aErr bErr table s
  | .bootImageCommit => Sys2Proof.Machine.execBootImageCommit s
  | .mppSampleDone steps => Sys2Proof.Machine.execMppSampleDone steps s
  | .brownoutReset store => Sys2Proof.Machine.execBrownoutReset store s
  | .resetNAssert => Sys2Proof.Machine.execResetNAssert s
  | .resetNRelease heldMs => Sys2Proof.Machine.execResetNRelease heldMs s
  | .resetLong => Sys2Proof.Machine.execResetLong s
  | .softwareReset key => Sys2Proof.Machine.execSoftwareReset key s
  | .resetEntry => Sys2Proof.Machine.execResetEntry s
  | .load => Sys2Proof.Machine.execLoad s
  | .loadComplete => Sys2Proof.Machine.execLoadComplete s
  | .commitAt => Sys2Proof.Machine.execCommitAt s
  | .commitNow => Sys2Proof.Machine.execCommitNow s
  | .cancel => Sys2Proof.Machine.execCancel s
  | .discard => Sys2Proof.Machine.execDiscard s
  | .commitInstant => Sys2Proof.Machine.execCommitInstant s
  | .burn key vddOk => Sys2Proof.Machine.execBurn key vddOk s
  | .burnComplete back => Sys2Proof.Machine.execBurnComplete back s
  | .lock key => Sys2Proof.Machine.execLock key s
  | .imgNoteRead => Sys2Proof.Machine.execImgNoteRead s
  | .angUpdate => Sys2Proof.Machine.execAngUpdate s
  | .trackingValid => Sys2Proof.Machine.execTrackingValid s
  | .angSrcWrite w => Sys2Proof.Machine.execAngSrcWrite w s
  | .genStale => Sys2Proof.Machine.execGenStale s
  | .masterMiss => Sys2Proof.Machine.execMasterMiss s
  | .angSnapshotRead which => Sys2Proof.Machine.execAngSnapshotRead which s
  | .evtEntryFire due => Sys2Proof.Machine.execEvtEntryFire due s
  | .evtDeferredDispatch => Sys2Proof.Machine.execEvtDeferredDispatch s
  | .builtinStrobe => Sys2Proof.Machine.execBuiltinStrobe s
  | .armAbs n t => Sys2Proof.Machine.execArmAbs n t s
  | .armRel n => Sys2Proof.Machine.execArmRel n s
  | .disarm n => Sys2Proof.Machine.execDisarm n s
  | .evtIrqSrcRead => Sys2Proof.Machine.execEvtIrqSrcRead s
  | .contextSwitch => Sys2Proof.Machine.execContextSwitch s
  | .deadlineMiss n waiting => Sys2Proof.Machine.execDeadlineMiss n waiting s
  | .waitDataArrived n => Sys2Proof.Machine.execWaitDataArrived n s
  | .jtagHalt => Sys2Proof.Machine.execJtagHalt s
  | .jtagRelease => Sys2Proof.Machine.execJtagRelease s
  | .laneSelftestStart => Sys2Proof.Machine.execLaneSelftestStart s
  | .selftestChunk failed => Sys2Proof.Machine.execSelftestChunk failed s
  | .laneRemapApply => Sys2Proof.Machine.execLaneRemapApply s
  | .ltestLate => Sys2Proof.Machine.execLtestLate s
  | .ctxEnable epoch => Sys2Proof.Machine.execCtxEnable epoch s
  | .ctxDisable epoch => Sys2Proof.Machine.execCtxDisable epoch s
  | .ctxClearFault epoch => Sys2Proof.Machine.execCtxClearFault epoch s
  | .leCycRead => Sys2Proof.Machine.execLeCycRead s
  | .leNop w ecc => Sys2Proof.Machine.execLeNop w ecc s
  | .leEnd w ecc => Sys2Proof.Machine.execLeEnd w ecc s
  | .leYield w ecc => Sys2Proof.Machine.execLeYield w ecc s
  | .leBr w ecc => Sys2Proof.Machine.execLeBr w ecc s
  | .leBeqz w ecc => Sys2Proof.Machine.execLeBeqz w ecc s
  | .leBnez w ecc => Sys2Proof.Machine.execLeBnez w ecc s
  | .leBltz w ecc => Sys2Proof.Machine.execLeBltz w ecc s
  | .leBgez w ecc => Sys2Proof.Machine.execLeBgez w ecc s
  | .leDbnz w ecc => Sys2Proof.Machine.execLeDbnz w ecc s
  | .leBpany w ecc => Sys2Proof.Machine.execLeBpany w ecc s
  | .leBpall w ecc => Sys2Proof.Machine.execLeBpall w ecc s
  | .leJal w ecc => Sys2Proof.Machine.execLeJal w ecc s
  | .leJr w ecc => Sys2Proof.Machine.execLeJr w ecc s
  | .leAdd w ecc => Sys2Proof.Machine.execLeAdd w ecc s
  | .leSub w ecc => Sys2Proof.Machine.execLeSub w ecc s
  | .leNeg w ecc => Sys2Proof.Machine.execLeNeg w ecc s
  | .leAbs w ecc => Sys2Proof.Machine.execLeAbs w ecc s
  | .leMin w ecc => Sys2Proof.Machine.execLeMin w ecc s
  | .leMax w ecc => Sys2Proof.Machine.execLeMax w ecc s
  | .leClamp w ecc => Sys2Proof.Machine.execLeClamp w ecc s
  | .leMul w ecc => Sys2Proof.Machine.execLeMul w ecc s
  | .leAddi w ecc => Sys2Proof.Machine.execLeAddi w ecc s
  | .leAnd w ecc => Sys2Proof.Machine.execLeAnd w ecc s
  | .leOr w ecc => Sys2Proof.Machine.execLeOr w ecc s
  | .leXor w ecc => Sys2Proof.Machine.execLeXor w ecc s
  | .leNot w ecc => Sys2Proof.Machine.execLeNot w ecc s
  | .leShl w ecc => Sys2Proof.Machine.execLeShl w ecc s
  | .leShr w ecc => Sys2Proof.Machine.execLeShr w ecc s
  | .leSra w ecc => Sys2Proof.Machine.execLeSra w ecc s
  | .leMac w ecc => Sys2Proof.Machine.execLeMac w ecc s
  | .leMsu w ecc => Sys2Proof.Machine.execLeMsu w ecc s
  | .leAccset w ecc => Sys2Proof.Machine.execLeAccset w ecc s
  | .leAccrd w ecc => Sys2Proof.Machine.execLeAccrd w ecc s
  | .leCmpeq w ecc => Sys2Proof.Machine.execLeCmpeq w ecc s
  | .leCmplt w ecc => Sys2Proof.Machine.execLeCmplt w ecc s
  | .leCmple w ecc => Sys2Proof.Machine.execLeCmple w ecc s
  | .leCmpltu w ecc => Sys2Proof.Machine.execLeCmpltu w ecc s
  | .leFcmpeq w ecc => Sys2Proof.Machine.execLeFcmpeq w ecc s
  | .leFcmplt w ecc => Sys2Proof.Machine.execLeFcmplt w ecc s
  | .leFcmple w ecc => Sys2Proof.Machine.execLeFcmple w ecc s
  | .lePand w ecc => Sys2Proof.Machine.execLePand w ecc s
  | .lePor w ecc => Sys2Proof.Machine.execLePor w ecc s
  | .lePxor w ecc => Sys2Proof.Machine.execLePxor w ecc s
  | .lePnot w ecc => Sys2Proof.Machine.execLePnot w ecc s
  | .lePset w ecc => Sys2Proof.Machine.execLePset w ecc s
  | .lePtos w ecc => Sys2Proof.Machine.execLePtos w ecc s
  | .leStop w ecc => Sys2Proof.Machine.execLeStop w ecc s
  | .leSel w ecc => Sys2Proof.Machine.execLeSel w ecc s
  | .leFadd w ecc => Sys2Proof.Machine.execLeFadd w ecc s
  | .leFsub w ecc => Sys2Proof.Machine.execLeFsub w ecc s
  | .leFmul w ecc => Sys2Proof.Machine.execLeFmul w ecc s
  | .leFma w ecc => Sys2Proof.Machine.execLeFma w ecc s
  | .leFmin w ecc => Sys2Proof.Machine.execLeFmin w ecc s
  | .leFmax w ecc => Sys2Proof.Machine.execLeFmax w ecc s
  | .leFabs w ecc => Sys2Proof.Machine.execLeFabs w ecc s
  | .leFneg w ecc => Sys2Proof.Machine.execLeFneg w ecc s
  | .leFcvtf w ecc => Sys2Proof.Machine.execLeFcvtf w ecc s
  | .leFcvtx w ecc => Sys2Proof.Machine.execLeFcvtx w ecc s
  | .leLd w ecc => Sys2Proof.Machine.execLeLd w ecc s
  | .leSt w ecc => Sys2Proof.Machine.execLeSt w ecc s
  | .leLi w ecc => Sys2Proof.Machine.execLeLi w ecc s
  | .leMov w ecc => Sys2Proof.Machine.execLeMov w ecc s
  | .leVext w ecc => Sys2Proof.Machine.execLeVext w ecc s
  | .leVins w ecc => Sys2Proof.Machine.execLeVins w ecc s
  | .leRsum w ecc => Sys2Proof.Machine.execLeRsum w ecc s
  | .leVidx w ecc => Sys2Proof.Machine.execLeVidx w ecc s
  | .leGetf w ecc => Sys2Proof.Machine.execLeGetf w ecc s
  | .leClrf w ecc => Sys2Proof.Machine.execLeClrf w ecc s
  | .leClarke w ecc => Sys2Proof.Machine.execLeClarke w ecc s
  | .leSincos w ecc => Sys2Proof.Machine.execLeSincos w ecc s
  | .lePark w ecc => Sys2Proof.Machine.execLePark w ecc s
  | .leIpark w ecc => Sys2Proof.Machine.execLeIpark w ecc s
  | .leAtan2 w ecc => Sys2Proof.Machine.execLeAtan2 w ecc s
  | .leSqrt w ecc => Sys2Proof.Machine.execLeSqrt w ecc s
  | .leRecip w ecc => Sys2Proof.Machine.execLeRecip w ecc s
  | .lePistep w ecc => Sys2Proof.Machine.execLePistep w ecc s
  | .lePibump w ecc => Sys2Proof.Machine.execLePibump w ecc s
  | .leBqstep w ecc => Sys2Proof.Machine.execLeBqstep w ecc s
  | .leRdres w ecc remaining => Sys2Proof.Machine.execLeRdres w ecc remaining s
  | .leStage w ecc => Sys2Proof.Machine.execLeStage w ecc s
  | .leIost w ecc => Sys2Proof.Machine.execLeIost w ecc s
  | .leCommit w ecc => Sys2Proof.Machine.execLeCommit w ecc s
  | .leTrc w ecc => Sys2Proof.Machine.execLeTrc w ecc s
  | .leSig w ecc => Sys2Proof.Machine.execLeSig w ecc s
  | .leCandset w ecc => Sys2Proof.Machine.execLeCandset w ecc s
  | .leCandeval w ecc remaining => Sys2Proof.Machine.execLeCandeval w ecc remaining s
  | .leCandsel w ecc remaining => Sys2Proof.Machine.execLeCandsel w ecc remaining s
  | .ceServiceStart => Sys2Proof.Machine.execCeServiceStart s
  | .ceEvaluationEnd => Sys2Proof.Machine.execCeEvaluationEnd s
  | .plbClear epoch => Sys2Proof.Machine.execPlbClear epoch s
  | .setpointUpdate code => Sys2Proof.Machine.execSetpointUpdate code s
  | .setpPEdge rising since => Sys2Proof.Machine.execSetpPEdge rising since s
  | .setpointLos pulse => Sys2Proof.Machine.execSetpointLos pulse s
  | .setpointRecover pulse => Sys2Proof.Machine.execSetpointRecover pulse s
  | .groupStart g => Sys2Proof.Machine.execGroupStart g s
  | .pwmStart mask => Sys2Proof.Machine.execPwmStart mask s
  | .groupStop g => Sys2Proof.Machine.execGroupStop g s
  | .pwmStop mask => Sys2Proof.Machine.execPwmStop mask s
  | .groupStartPoint g => Sys2Proof.Machine.execGroupStartPoint g s
  | .reload g => Sys2Proof.Machine.execReload g s
  | .pwmCmtRequest g => Sys2Proof.Machine.execPwmCmtRequest g s
  | .shootBlock o => Sys2Proof.Machine.execShootBlock o s
  | .ptcHop => Sys2Proof.Machine.execPtcHop s
  | .ptcHopResume ns => Sys2Proof.Machine.execPtcHopResume ns s
  | .eventChannelFire g ch => Sys2Proof.Machine.execEventChannelFire g ch s
  | .markFrame f err => Sys2Proof.Machine.execMarkFrame f err s
  | .alignPhaseStep => Sys2Proof.Machine.execAlignPhaseStep s
  | .alignLoss => Sys2Proof.Machine.execAlignLoss s
  | .pwmCntRead g => Sys2Proof.Machine.execPwmCntRead g s
  | .sarSlotResult c nV => Sys2Proof.Machine.execSarSlotResult c nV s
  | .adcCalibrationDone => Sys2Proof.Machine.execAdcCalibrationDone s
  | .calCoeffApply mask => Sys2Proof.Machine.execCalCoeffApply mask s
  | .sdmCalibrationDone => Sys2Proof.Machine.execSdmCalibrationDone s
  | .referenceCheck p vref vdda agnd done => Sys2Proof.Machine.execReferenceCheck p vref vdda agnd done s
  | .refchkLate p => Sys2Proof.Machine.execRefchkLate p s
  | .swap c => Sys2Proof.Machine.execSwap c s
  | .restore c => Sys2Proof.Machine.execRestore c s
  | .swapApply => Sys2Proof.Machine.execSwapApply s
  | .restoreApply => Sys2Proof.Machine.execRestoreApply s
  | .sdmOutput k x => Sys2Proof.Machine.execSdmOutput k x s
  | .sdmCtlWrite k w => Sys2Proof.Machine.execSdmCtlWrite k w s
  | .mtrResample stream => Sys2Proof.Machine.execMtrResample stream s
  | .comparatorRawChange n nV vddaNv => Sys2Proof.Machine.execComparatorRawChange n nV vddaNv s
  | .comparatorFilteredChange n => Sys2Proof.Machine.execComparatorFilteredChange n s
  | .tripSourceReleaseProof n => Sys2Proof.Machine.execTripSourceReleaseProof n s
  | .shadowMove p => Sys2Proof.Machine.execShadowMove p s
  | .shadowDisagree p => Sys2Proof.Machine.execShadowDisagree p s
  | .shadowMeasurement p rel => Sys2Proof.Machine.execShadowMeasurement p rel s
  | .tripSourceActive src => Sys2Proof.Machine.execTripSourceActive src s
  | .tripSourceRelease src => Sys2Proof.Machine.execTripSourceRelease src s
  | .orderedDelayExpiry g => Sys2Proof.Machine.execOrderedDelayExpiry g s
  | .trpClr mask => Sys2Proof.Machine.execTrpClr mask s
  | .dckRelease => Sys2Proof.Machine.execDckRelease s
  | .legClear l => Sys2Proof.Machine.execLegClear l s
  | .fltNChange l high => Sys2Proof.Machine.execFltNChange l high s
  | .fltFilterPass l high => Sys2Proof.Machine.execFltFilterPass l high s
  | .fltBlankClose l => Sys2Proof.Machine.execFltBlankClose l s
  | .tripInChange n high => Sys2Proof.Machine.execTripInChange n high s
  | .autoClear l => Sys2Proof.Machine.execAutoClear l s
  | .tryCountReset l => Sys2Proof.Machine.execTryCountReset l s
  | .diagTestLeg l => Sys2Proof.Machine.execDiagTestLeg l s
  | .diagTestAll => Sys2Proof.Machine.execDiagTestAll s
  | .diagPeriodic l => Sys2Proof.Machine.execDiagPeriodic l s
  | .diagSecondConversion v => Sys2Proof.Machine.execDiagSecondConversion v s
  | .diagNoSlot => Sys2Proof.Machine.execDiagNoSlot s
  | .chpClear => Sys2Proof.Machine.execChpClear s
  | .dcov2StopStep => Sys2Proof.Machine.execDcov2StopStep s
  | .dcOv3Transition nV vddaNv => Sys2Proof.Machine.execDcOv3Transition nV vddaNv s
  | .grdUpdate => Sys2Proof.Machine.execGrdUpdate s
  | .rideTimerStop frequency => Sys2Proof.Machine.execRideTimerStop frequency s
  | .rtTailExpiry => Sys2Proof.Machine.execRtTailExpiry s
  | .rtMaxExpiry => Sys2Proof.Machine.execRtMaxExpiry s
  | .tholdExpiry => Sys2Proof.Machine.execTholdExpiry s
  | .limitingClear => Sys2Proof.Machine.execLimitingClear s
  | .grdGf => Sys2Proof.Machine.execGrdGf s
  | .gfTransferTimeout => Sys2Proof.Machine.execGfTransferTimeout s
  | .grdGfl => Sys2Proof.Machine.execGrdGfl s
  | .gflTransfer => Sys2Proof.Machine.execGflTransfer s
  | .grdCease => Sys2Proof.Machine.execGrdCease s
  | .grdResume => Sys2Proof.Machine.execGrdResume s
  | .reconOk => Sys2Proof.Machine.execReconOk s
  | .passiveWindowDecision window => Sys2Proof.Machine.execPassiveWindowDecision window s
  | .chipApply => Sys2Proof.Machine.execChipApply s
  | .aggregationWindowEnd => Sys2Proof.Machine.execAggregationWindowEnd s
  | .pmuReport => Sys2Proof.Machine.execPmuReport s
  | .snap => Sys2Proof.Machine.execSnap s
  | .save => Sys2Proof.Machine.execSave s
  | .clearAcc key => Sys2Proof.Machine.execClearAcc key s
  | .periodicSave => Sys2Proof.Machine.execPeriodicSave s
  | .saveWriteDone ok => Sys2Proof.Machine.execSaveWriteDone ok s
  | .emergencySaveDone ok => Sys2Proof.Machine.execEmergencySaveDone ok s
  | .mtrAccRead r => Sys2Proof.Machine.execMtrAccRead r s
  | .recSample n => Sys2Proof.Machine.execRecSample n s
  | .recTrigger n kind index => Sys2Proof.Machine.execRecTrigger n kind index s
  | .recCmdTrigger mask => Sys2Proof.Machine.execRecCmdTrigger mask s
  | .recArm mask => Sys2Proof.Machine.execRecArm mask s
  | .recDisarm mask => Sys2Proof.Machine.execRecDisarm mask s
  | .drawerSeal n => Sys2Proof.Machine.execDrawerSeal n s
  | .recRearm n => Sys2Proof.Machine.execRecRearm n s
  | .xtrigFrame f => Sys2Proof.Machine.execXtrigFrame f s
  | .drawerStored n => Sys2Proof.Machine.execDrawerStored n s
  | .shfRecordBegin => Sys2Proof.Machine.execShfRecordBegin s
  | .shfPageDone boot ok => Sys2Proof.Machine.execShfPageDone boot ok s
  | .shfEraseDone ok => Sys2Proof.Machine.execShfEraseDone ok s
  | .wearLevelMove => Sys2Proof.Machine.execWearLevelMove s
  | .loc stream => Sys2Proof.Machine.execLoc stream s
  | .append => Sys2Proof.Machine.execAppend s
  | .ethFrameReceive f => Sys2Proof.Machine.execEthFrameReceive f s
  | .followUpTimeout slot => Sys2Proof.Machine.execFollowUpTimeout slot s
  | .ptpMasterLoss slot => Sys2Proof.Machine.execPtpMasterLoss slot s
  | .pdelayReqSend mac => Sys2Proof.Machine.execPdelayReqSend mac s
  | .resync => Sys2Proof.Machine.execResync s
  | .switch slot => Sys2Proof.Machine.execSwitch slot s
  | .timHold => Sys2Proof.Machine.execTimHold s
  | .ethLinkChange mac link => Sys2Proof.Machine.execEthLinkChange mac link s
  | .holdoverUpdate => Sys2Proof.Machine.execHoldoverUpdate s
  | .revertSwitch => Sys2Proof.Machine.execRevertSwitch s
  | .txqDoorbell mask => Sys2Proof.Machine.execTxqDoorbell mask s
  | .timedLaunch q => Sys2Proof.Machine.execTimedLaunch q s
  | .immediateTransmit mac => Sys2Proof.Machine.execImmediateTransmit mac s
  | .frameLaunched mac => Sys2Proof.Machine.execFrameLaunched mac s
  | .timeTriggerArm n w => Sys2Proof.Machine.execTimeTriggerArm n w s
  | .timeTriggerFire n => Sys2Proof.Machine.execTimeTriggerFire n s
  | .timNsRead => Sys2Proof.Machine.execTimNsRead s
  | .monitorTick rb parity => Sys2Proof.Machine.execMonitorTick rb parity s
  | .splitComplete => Sys2Proof.Machine.execSplitComplete s
  | .lockstepSweep => Sys2Proof.Machine.execLockstepSweep s
  | .clockCheck ppm => Sys2Proof.Machine.execClockCheck ppm s
  | .adcmConversion k nanovolts => Sys2Proof.Machine.execAdcmConversion k nanovolts s
  | .offPulseTestStart j => Sys2Proof.Machine.execOffPulseTestStart j s
  | .offPulseDropCheck j active => Sys2Proof.Machine.execOffPulseDropCheck j active s
  | .offPulseReturn j => Sys2Proof.Machine.execOffPulseReturn j s
  | .offPulseReturnCheck j active => Sys2Proof.Machine.execOffPulseReturnCheck j active s
  | .contactMismatch j => Sys2Proof.Machine.execContactMismatch j s
  | .safeChannelTimeout k => Sys2Proof.Machine.execSafeChannelTimeout k s
  | .safConfirm w => Sys2Proof.Machine.execSafConfirm w s
  | .safConfirmInv w => Sys2Proof.Machine.execSafConfirmInv w s
  | .monNop core w => Sys2Proof.Machine.execMonNop core w s
  | .monAdd core w => Sys2Proof.Machine.execMonAdd core w s
  | .monSub core w => Sys2Proof.Machine.execMonSub core w s
  | .monAnd core w => Sys2Proof.Machine.execMonAnd core w s
  | .monOr core w => Sys2Proof.Machine.execMonOr core w s
  | .monXor core w => Sys2Proof.Machine.execMonXor core w s
  | .monAddi core w => Sys2Proof.Machine.execMonAddi core w s
  | .monShl core w => Sys2Proof.Machine.execMonShl core w s
  | .monShr core w => Sys2Proof.Machine.execMonShr core w s
  | .monSra core w => Sys2Proof.Machine.execMonSra core w s
  | .monLi core w => Sys2Proof.Machine.execMonLi core w s
  | .monAbsd core w => Sys2Proof.Machine.execMonAbsd core w s
  | .monCmpeq core w => Sys2Proof.Machine.execMonCmpeq core w s
  | .monCmplt core w => Sys2Proof.Machine.execMonCmplt core w s
  | .monCmpltu core w => Sys2Proof.Machine.execMonCmpltu core w s
  | .monLd core w => Sys2Proof.Machine.execMonLd core w s
  | .monSt core w => Sys2Proof.Machine.execMonSt core w s
  | .monBr core w => Sys2Proof.Machine.execMonBr core w s
  | .monBeqz core w => Sys2Proof.Machine.execMonBeqz core w s
  | .monBnez core w => Sys2Proof.Machine.execMonBnez core w s
  | .monJal core w => Sys2Proof.Machine.execMonJal core w s
  | .monJr core w => Sys2Proof.Machine.execMonJr core w s
  | .monIn core w => Sys2Proof.Machine.execMonIn core w s
  | .monOutGen core w => Sys2Proof.Machine.execMonOutGen core w s
  | .monOutRly core w => Sys2Proof.Machine.execMonOutRly core w s
  | .monOutMonOff core w => Sys2Proof.Machine.execMonOutMonOff core w s
  | .monOutUser core w => Sys2Proof.Machine.execMonOutUser core w s
  | .monOutSplit core w => Sys2Proof.Machine.execMonOutSplit core w s
  | .monOutStlData core w => Sys2Proof.Machine.execMonOutStlData core w s
  | .monOutStlSend core w => Sys2Proof.Machine.execMonOutStlSend core w s
  | .monPub core w => Sys2Proof.Machine.execMonPub core w s
  | .monXchg core w => Sys2Proof.Machine.execMonXchg core w s
  | .monWait core w => Sys2Proof.Machine.execMonWait core w s
  | .monSafe core w => Sys2Proof.Machine.execMonSafe core w s
  | .trestleLinkDown ringB => Sys2Proof.Machine.execTrestleLinkDown ringB s
  | .linkWrap ringB => Sys2Proof.Machine.execLinkWrap ringB s
  | .linkUnwrap ringB => Sys2Proof.Machine.execLinkUnwrap ringB s
  | .enumerate => Sys2Proof.Machine.execEnumerate s
  | .enumerationDone rank found ok => Sys2Proof.Machine.execEnumerationDone rank found ok s
  | .trestleFrameForward f good => Sys2Proof.Machine.execTrestleFrameForward f good s
  | .angleFrame f => Sys2Proof.Machine.execAngleFrame f s
  | .angleSend => Sys2Proof.Machine.execAngleSend s
  | .timeFrame f => Sys2Proof.Machine.execTimeFrame f s
  | .timeSend => Sys2Proof.Machine.execTimeSend s
  | .roleFrame f => Sys2Proof.Machine.execRoleFrame f s
  | .hswFrame f msg => Sys2Proof.Machine.execHswFrame f msg s
  | .mirrorFrame f => Sys2Proof.Machine.execMirrorFrame f s
  | .hreqFrame f => Sys2Proof.Machine.execHreqFrame f s
  | .hrspFrame f => Sys2Proof.Machine.execHrspFrame f s
  | .hdataFrame f => Sys2Proof.Machine.execHdataFrame f s
  | .dlyFrame ringB back => Sys2Proof.Machine.execDlyFrame ringB back s
  | .dlySend ringB => Sys2Proof.Machine.execDlySend ringB s
  | .roleAssign role holder epoch => Sys2Proof.Machine.execRoleAssign role holder epoch s
  | .pairArm => Sys2Proof.Machine.execPairArm s
  | .armActiveTimeout => Sys2Proof.Machine.execArmActiveTimeout s
  | .peerAbsentTimeout => Sys2Proof.Machine.execPeerAbsentTimeout s
  | .pairActInChange level primary => Sys2Proof.Machine.execPairActInChange level primary s
  | .heartbeatLoss => Sys2Proof.Machine.execHeartbeatLoss s
  | .takeoverDrive g => Sys2Proof.Machine.execTakeoverDrive g s
  | .pairHandover epoch => Sys2Proof.Machine.execPairHandover epoch s
  | .handoverSwitch => Sys2Proof.Machine.execHandoverSwitch s
  | .pairTake => Sys2Proof.Machine.execPairTake s
  | .pairRejoin => Sys2Proof.Machine.execPairRejoin s
  | .mirrorApply fresh => Sys2Proof.Machine.execMirrorApply fresh s
  | .peerHeld => Sys2Proof.Machine.execPeerHeld s
  | .sysLockLoss => Sys2Proof.Machine.execSysLockLoss s
  | .ptcLockLoss => Sys2Proof.Machine.execPtcLockLoss s
  | .ethLockLoss => Sys2Proof.Machine.execEthLockLoss s
  | .referenceLoss => Sys2Proof.Machine.execReferenceLoss s
  | .pllLockReturn pll => Sys2Proof.Machine.execPllLockReturn pll s
  | .pllSearch => Sys2Proof.Machine.execPllSearch s
  | .bandLearningDone => Sys2Proof.Machine.execBandLearningDone s
  | .powerFailWarning vinUv fastUv => Sys2Proof.Machine.execPowerFailWarning vinUv fastUv s
  | .powerFailWithdraw vinUv fastUv => Sys2Proof.Machine.execPowerFailWithdraw vinUv fastUv s
  | .huFastSample mv => Sys2Proof.Machine.execHuFastSample mv s
  | .huBulkConversion code => Sys2Proof.Machine.execHuBulkConversion code s
  | .grantRequest mJ => Sys2Proof.Machine.execGrantRequest mJ s
  | .grantDone => Sys2Proof.Machine.execGrantDone s
  | .grantExpiry => Sys2Proof.Machine.execGrantExpiry s
  | .dieidRead => Sys2Proof.Machine.execDieidRead s
  | .lifStep => Sys2Proof.Machine.execLifStep s
  | .lifeRecord => Sys2Proof.Machine.execLifeRecord s
  | .lifWrite => Sys2Proof.Machine.execLifWrite s
  | .lifClear p key => Sys2Proof.Machine.execLifClear p key s
  | .eccCorrected bank row => Sys2Proof.Machine.execEccCorrected bank row s
  | .rowRemapDone bank row failed => Sys2Proof.Machine.execRowRemapDone bank row failed s
  | .rowTrackExpiry bank row => Sys2Proof.Machine.execRowTrackExpiry bank row s
  | .lifSplogRead => Sys2Proof.Machine.execLifSplogRead s
  | .thmUpdate x => Sys2Proof.Machine.execThmUpdate x s
  | .pauseToggle => Sys2Proof.Machine.execPauseToggle s
  | .rcTrim => Sys2Proof.Machine.execRcTrim s
  | .refCompUpdate => Sys2Proof.Machine.execRefCompUpdate s
  | .compGainApply => Sys2Proof.Machine.execCompGainApply s
  | .fanStart c => Sys2Proof.Machine.execFanStart c s
  | .fanStop c => Sys2Proof.Machine.execFanStop c s
  | .fanSetWrite c v => Sys2Proof.Machine.execFanSetWrite c v s
  | .observeEnd c => Sys2Proof.Machine.execObserveEnd c s
  | .brakePhaseEnd c => Sys2Proof.Machine.execBrakePhaseEnd c s
  | .brakeMaxExpiry c => Sys2Proof.Machine.execBrakeMaxExpiry c s
  | .alignEnd c => Sys2Proof.Machine.execAlignEnd c s
  | .rampTimeout c => Sys2Proof.Machine.execRampTimeout c s
  | .bemfCrossing c phase rising dt => Sys2Proof.Machine.execBemfCrossing c phase rising dt s
  | .retryWaitExpiry c => Sys2Proof.Machine.execRetryWaitExpiry c s
  | .retryCountReset c => Sys2Proof.Machine.execRetryCountReset c s
  | .fanPiStep c => Sys2Proof.Machine.execFanPiStep c s
  | .stallCrossingTimeout c => Sys2Proof.Machine.execStallCrossingTimeout c s
  | .stallSpeedTimeout c => Sys2Proof.Machine.execStallSpeedTimeout c s
  | .read q => Sys2Proof.Machine.execRead q s
  | .write q => Sys2Proof.Machine.execWrite q s
  | .doorbell q => Sys2Proof.Machine.execDoorbell q s
  | .requestFrameError crc tag => Sys2Proof.Machine.execRequestFrameError crc tag s
  | .fetch bytes => Sys2Proof.Machine.execFetch bytes s
  | .unknownFrame => Sys2Proof.Machine.execUnknownFrame s
  | .remoteTimeout tag => Sys2Proof.Machine.execRemoteTimeout tag s
  | .unreachTimeout tag => Sys2Proof.Machine.execUnreachTimeout tag s
  | .shfResetPulseEnd => Sys2Proof.Machine.execShfResetPulseEnd s
  | .jtagBypass => Sys2Proof.Machine.execJtagBypass s
  | .jtagIdcode => Sys2Proof.Machine.execJtagIdcode s
  | .jtagSamplePreload load => Sys2Proof.Machine.execJtagSamplePreload load s
  | .jtagExtest => Sys2Proof.Machine.execJtagExtest s
  | .trstNAssert => Sys2Proof.Machine.execTrstNAssert s
  | .readClear addr => Sys2Proof.Machine.execReadClear addr s
  | .registerWrite addr value => Sys2Proof.Machine.execRegisterWrite addr value s
  | .reservedOpcode w ecc => Sys2Proof.Machine.execReservedOpcode w ecc s
  | .pwmEdge l => Sys2Proof.Machine.execPwmEdge l s
  | .heartbeatReturn => Sys2Proof.Machine.execHeartbeatReturn s
  | .referenceReturn => Sys2Proof.Machine.execReferenceReturn s
  | .vddAonLoss => Sys2Proof.Machine.execVddAonLoss s
  | .trestleFrameSend ringB => Sys2Proof.Machine.execTrestleFrameSend ringB s
  | .diagFirstConversion v => Sys2Proof.Machine.execDiagFirstConversion v s
  | .openLoopCommutation c dt => Sys2Proof.Machine.execOpenLoopCommutation c dt s

end Sys2Proof.Machine
end

