-- ==== Sys2Proof/Safety.lean ====
section
/-!
DEFINITION. What counts as a safe run: a step that answers a next state whose memory and register store keep their
canonical form.
-/

namespace Sys2Proof.Machine

/-- The canonical form of everything that is stored sparsely and indexed by address. -/
def State.wf (s : State) : Bool := SMap.wf memReset s.mem && SMap.wf regReset s.regs

/-- A step that neither faults nor is refused. -/
def completes (s : State) : Bool :=
  match step s with
  | .next _ => true
  | _ => false

end Sys2Proof.Machine
end

