-- ==== Sys2Proof/Machine/Comp.lean ====
section
/-!
DEFINITION. The components of the state, and when two states agree on one: the vocabulary of the frames.
-/

namespace Sys2Proof.Machine

/-- The components of `State`, one for each field. -/
inductive Comp where
  | pending | free | regs | mem | cfg | fuses | cab | cabRes
  | tier | inReset | clk | le | ce | gs | spt | pwm
  | trp | chp | adc | sdm | cmps | ang | evt | grd
  | isl | lif | thm | mtr | recd | shf | trs | pair
  | mon | tim | eth | pins | img | sys | hu | host
  | jtag | fan | spareLog | evq
  deriving DecidableEq, Repr

/-- The two states agree on the component. -/
def Comp.same : Comp → State → State → Prop
  | .pending, r, s => s.pending = r.pending
  | .free, r, s => s.free = r.free
  | .regs, r, s => s.regs = r.regs
  | .mem, r, s => s.mem = r.mem
  | .cfg, r, s => s.cfg = r.cfg
  | .fuses, r, s => s.fuses = r.fuses
  | .cab, r, s => s.cab = r.cab
  | .cabRes, r, s => s.cabRes = r.cabRes
  | .tier, r, s => s.tier = r.tier
  | .inReset, r, s => s.inReset = r.inReset
  | .clk, r, s => s.clk = r.clk
  | .le, r, s => s.le = r.le
  | .ce, r, s => s.ce = r.ce
  | .gs, r, s => s.gs = r.gs
  | .spt, r, s => s.spt = r.spt
  | .pwm, r, s => s.pwm = r.pwm
  | .trp, r, s => s.trp = r.trp
  | .chp, r, s => s.chp = r.chp
  | .adc, r, s => s.adc = r.adc
  | .sdm, r, s => s.sdm = r.sdm
  | .cmps, r, s => s.cmps = r.cmps
  | .ang, r, s => s.ang = r.ang
  | .evt, r, s => s.evt = r.evt
  | .grd, r, s => s.grd = r.grd
  | .isl, r, s => s.isl = r.isl
  | .lif, r, s => s.lif = r.lif
  | .thm, r, s => s.thm = r.thm
  | .mtr, r, s => s.mtr = r.mtr
  | .recd, r, s => s.recd = r.recd
  | .shf, r, s => s.shf = r.shf
  | .trs, r, s => s.trs = r.trs
  | .pair, r, s => s.pair = r.pair
  | .mon, r, s => s.mon = r.mon
  | .tim, r, s => s.tim = r.tim
  | .eth, r, s => s.eth = r.eth
  | .pins, r, s => s.pins = r.pins
  | .img, r, s => s.img = r.img
  | .sys, r, s => s.sys = r.sys
  | .hu, r, s => s.hu = r.hu
  | .host, r, s => s.host = r.host
  | .jtag, r, s => s.jtag = r.jtag
  | .fan, r, s => s.fan = r.fan
  | .spareLog, r, s => s.spareLog = r.spareLog
  | .evq, r, s => s.evq = r.evq

/-- The place of a component in a mask. -/
def Comp.idx : Comp → Nat
  | .pending => 0
  | .free => 1
  | .regs => 2
  | .mem => 3
  | .cfg => 4
  | .fuses => 5
  | .cab => 6
  | .cabRes => 7
  | .tier => 8
  | .inReset => 9
  | .clk => 10
  | .le => 11
  | .ce => 12
  | .gs => 13
  | .spt => 14
  | .pwm => 15
  | .trp => 16
  | .chp => 17
  | .adc => 18
  | .sdm => 19
  | .cmps => 20
  | .ang => 21
  | .evt => 22
  | .grd => 23
  | .isl => 24
  | .lif => 25
  | .thm => 26
  | .mtr => 27
  | .recd => 28
  | .shf => 29
  | .trs => 30
  | .pair => 31
  | .mon => 32
  | .tim => 33
  | .eth => 34
  | .pins => 35
  | .img => 36
  | .sys => 37
  | .hu => 38
  | .host => 39
  | .jtag => 40
  | .fan => 41
  | .spareLog => 42
  | .evq => 43

/-- The mask of a list of components. -/
def Comp.mask (l : List Comp) : Nat := l.foldl (fun m x => m ||| 2 ^ x.idx) 0

end Sys2Proof.Machine
end

