-- ==== Sys2Proof/Machine/Frames.lean ====
section
/-!
DEFINITION. The frame of each command: the components of the state that it may change.
-/

namespace Sys2Proof.Machine

/-- Every component. -/
def Comp.all : List Comp :=
  [.pending, .free, .regs, .mem, .cfg, .fuses, .cab, .cabRes, .tier, .inReset,
   .clk, .le, .ce, .gs, .spt, .pwm, .trp, .chp, .adc, .sdm,
   .cmps, .ang, .evt, .grd, .isl, .lif, .thm, .mtr, .recd, .shf,
   .trs, .pair, .mon, .tim, .eth, .pins, .img, .sys, .hu, .host,
   .jtag, .fan, .spareLog, .evq]

/-- Every component but those of a list. -/
def Comp.allBut (l : List Comp) : List Comp := all.filter fun x => !l.contains x

/-- The components that a command may change; it leaves every other one as it was. -/
def touched (c : Instr) : List Comp :=
  match c with
  | .deadlineMiss _ _ | .leNop _ _ | .leYield _ _ | .leBr _ _ | .leBeqz _ _ | .leBnez _ _ | .leBltz _ _ |
    .leBgez _ _ | .leDbnz _ _ | .leBpany _ _ | .leBpall _ _ | .leJal _ _ | .leJr _ _ | .leAdd _ _ | .leSub _ _ |
    .leNeg _ _ | .leAbs _ _ | .leMin _ _ | .leMax _ _ | .leClamp _ _ | .leMul _ _ | .leAddi _ _ | .leAnd _ _ |
    .leOr _ _ | .leXor _ _ | .leNot _ _ | .leShl _ _ | .leShr _ _ | .leSra _ _ | .leMac _ _ | .leMsu _ _ |
    .leAccset _ _ | .leAccrd _ _ | .leCmpeq _ _ | .leCmplt _ _ | .leCmple _ _ | .leCmpltu _ _ | .leFcmpeq _ _ |
    .leFcmplt _ _ | .leFcmple _ _ | .lePand _ _ | .lePor _ _ | .lePxor _ _ | .lePnot _ _ | .lePset _ _ | .lePtos _ _ |
    .leStop _ _ | .leSel _ _ | .leFadd _ _ | .leFsub _ _ | .leFmul _ _ | .leFma _ _ | .leFmin _ _ | .leFmax _ _ |
    .leFabs _ _ | .leFneg _ _ | .leFcvtf _ _ | .leFcvtx _ _ | .leLd _ _ | .leLi _ _ | .leMov _ _ | .leVext _ _ |
    .leVins _ _ | .leRsum _ _ | .leVidx _ _ | .leGetf _ _ | .leClrf _ _ | .leClarke _ _ | .leSincos _ _ |
    .lePark _ _ | .leIpark _ _ | .leAtan2 _ _ | .leSqrt _ _ | .leRecip _ _ | .lePistep _ _ | .lePibump _ _ |
    .leBqstep _ _ | .leRdres _ _ _ | .leStage _ _ | .leCommit _ _ | .leTrc _ _ | .leSig _ _ | .leCandset _ _ |
    .leCandeval _ _ _ | .leCandsel _ _ _ | .reservedOpcode _ _ =>
      [.regs, .le, .ce, .pwm, .trp, .evt]
  | .monNop _ _ | .monAdd _ _ | .monSub _ _ | .monAnd _ _ | .monOr _ _ | .monXor _ _ | .monAddi _ _ | .monShl _ _ |
    .monShr _ _ | .monSra _ _ | .monLi _ _ | .monAbsd _ _ | .monCmpeq _ _ | .monCmplt _ _ | .monCmpltu _ _ |
    .monLd _ _ | .monSt _ _ | .monBr _ _ | .monBeqz _ _ | .monBnez _ _ | .monJal _ _ | .monJr _ _ | .monIn _ _ |
    .monOutGen _ _ | .monOutRly _ _ | .monOutMonOff _ _ | .monOutUser _ _ | .monOutSplit _ _ | .monOutStlData _ _ |
    .monOutStlSend _ _ | .monPub _ _ | .monXchg _ _ | .monWait _ _ | .monSafe _ _ =>
      [.regs, .le, .pwm, .trp, .evt, .pair, .mon, .eth]
  | .groupStart _ | .pwmStart _ | .shootBlock _ | .tripSourceActive _ | .fltFilterPass _ _ | .fltBlankClose _ |
    .tripInChange _ _ | .diagSecondConversion _ | .diagNoSlot | .dcOv3Transition _ _ =>
      [.regs, .le, .pwm, .trp, .evt]
  | .trestleLinkDown _ | .linkUnwrap _ | .enumerate | .angleSend | .dlyFrame _ _ | .dlySend _ | .trestleFrameSend _ =>
      [.trs]
  | .roleFrame _ | .peerAbsentTimeout | .pairActInChange _ _ | .heartbeatLoss | .pairHandover _ | .handoverSwitch |
    .pairTake =>
      [.regs, .trs, .pair]
  | .fanStart _ | .fanSetWrite _ _ | .brakeMaxExpiry _ | .rampTimeout _ | .retryWaitExpiry _ |
    .stallCrossingTimeout _ | .stallSpeedTimeout _ =>
      [.regs, .fan]
  | .angSrcWrite _ | .genStale | .ltestLate | .refchkLate _ | .peerHeld | .unknownFrame =>
      [.regs]
  | .pwmCmtRequest _ | .pwmCntRead _ | .orderedDelayExpiry _ | .fltNChange _ _ | .tryCountReset _ | .pwmEdge _ =>
      [.pwm]
  | .markFrame _ _ | .alignPhaseStep | .alignLoss | .trpClr _ | .legClear _ | .autoClear _ =>
      [.regs, .pwm]
  | .grdUpdate | .tholdExpiry | .gfTransferTimeout | .grdCease | .passiveWindowDecision _ | .chipApply =>
      [.regs, .pwm, .evt, .grd, .isl]
  | .splitComplete | .adcmConversion _ _ | .offPulseTestStart _ | .offPulseDropCheck _ _ | .offPulseReturn _ |
    .contactMismatch _ =>
      [.mon]
  | .hreqFrame _ | .hdataFrame _ | .read _ | .write _ | .doorbell _ | .registerWrite _ _ =>
      Comp.allBut [.pending]
  | .fanStop _ | .brakePhaseEnd _ | .alignEnd _ | .retryCountReset _ | .fanPiStep _ | .openLoopCommutation _ _ =>
      [.fan]
  | .recTrigger _ _ _ | .recCmdTrigger _ | .recArm _ | .recRearm _ | .xtrigFrame _ =>
      [.regs, .recd]
  | .jtagBypass | .jtagIdcode | .jtagSamplePreload _ | .jtagExtest | .trstNAssert =>
      [.jtag]
  | .brownoutReset _ | .resetNAssert | .softwareReset _ | .resetEntry =>
      Comp.allBut [.pending, .free, .fuses]
  | .resetNRelease _ | .resetLong | .shfResetPulseEnd | .vddAonLoss =>
      [.sys]
  | .cancel | .discard | .burn _ _ | .imgNoteRead =>
      [.img]
  | .evtEntryFire _ | .evtDeferredDispatch | .armAbs _ _ | .armRel _ =>
      [.free, .regs, .le, .pwm, .adc, .evt, .mtr, .recd, .pair, .eth, .pins]
  | .diagTestLeg _ | .diagTestAll | .diagPeriodic _ | .diagFirstConversion _ =>
      [.trp]
  | .followUpTimeout _ | .resync | .holdoverUpdate | .timNsRead =>
      [.tim]
  | .linkWrap _ | .enumerationDone _ _ _ | .trestleFrameForward _ _ | .roleAssign _ _ _ =>
      [.regs, .trs]
  | .hswFrame _ _ | .pairArm | .pairRejoin | .heartbeatReturn =>
      [.pair]
  | .huFastSample _ | .grantRequest _ | .grantDone | .grantExpiry =>
      [.hu]
  | .bootImageCommit | .commitNow | .commitInstant =>
      [.free, .regs, .mem, .cfg, .tier, .clk, .le, .ce, .pwm, .trp, .chp, .adc, .sdm, .cmps, .evt, .isl, .lif, .mtr,
       .recd, .shf, .pair, .mon, .tim, .eth, .pins, .img, .sys, .fan, .spareLog, .evq]
  | .setpointUpdate _ | .setpPEdge _ _ | .setpointRecover _ =>
      [.spt]
  | .adcCalibrationDone | .sdmCalibrationDone | .bandLearningDone =>
      [.regs, .mem, .tier, .clk, .le, .ce, .pwm, .trp, .adc, .fan]
  | .limitingClear | .grdGfl | .reconOk =>
      [.grd]
  | .ptpMasterLoss _ | .switch _ | .timHold =>
      [.free, .regs, .tim]
  | .offPulseReturnCheck _ _ | .safeChannelTimeout _ | .safConfirm _ =>
      [.regs, .mon]
  | .hrspFrame _ | .requestFrameError _ _ | .remoteTimeout _ =>
      [.regs, .host]
  | .load | .commitAt =>
      [.regs, .img]
  | .trackingValid | .masterMiss =>
      [.regs, .ang]
  | .builtinStrobe | .mtrAccRead _ =>
      [.mtr]
  | .waitDataArrived _ | .ctxEnable _ =>
      [.regs, .le]
  | .laneSelftestStart | .leCycRead =>
      [.le]
  | .ctxClearFault _ | .plbClear _ =>
      [.regs, .le, .pwm, .trp]
  | .groupStop _ | .pwmStop _ =>
      [.regs, .pwm, .evt]
  | .groupStartPoint _ | .reload _ =>
      [.free, .regs, .le, .pwm, .chp, .adc, .evt, .mtr, .recd, .trs, .pair, .eth, .pins]
  | .referenceCheck _ _ _ _ _ | .swapApply =>
      [.regs, .adc, .spareLog, .evq]
  | .swap _ | .restore _ =>
      [.regs, .adc]
  | .sdmOutput _ _ | .sdmCtlWrite _ _ =>
      [.regs, .sdm]
  | .comparatorRawChange _ _ _ | .shadowMove _ =>
      [.cmps]
  | .rideTimerStop _ | .grdResume =>
      [.regs, .grd, .isl]
  | .rtTailExpiry | .rtMaxExpiry =>
      [.grd, .isl]
  | .grdGf | .gflTransfer =>
      [.regs, .grd]
  | .aggregationWindowEnd | .clearAcc _ =>
      [.free, .regs, .mem, .mtr]
  | .save | .periodicSave =>
      [.free, .mem, .mtr]
  | .saveWriteDone _ | .emergencySaveDone _ =>
      [.free, .regs, .mem, .mtr, .spareLog, .evq]
  | .loc _ | .append =>
      [.regs, .shf]
  | .revertSwitch | .timeTriggerArm _ _ =>
      [.regs, .tim]
  | .txqDoorbell _ | .timedLaunch _ =>
      [.regs, .mem, .eth]
  | .lockstepSweep | .clockCheck _ =>
      [.regs, .le, .pwm, .trp, .evt, .pair, .mon]
  | .mirrorFrame _ | .takeoverDrive _ =>
      [.regs, .pair]
  | .pllSearch | .referenceReturn =>
      [.clk]
  | .lifeRecord | .lifWrite =>
      [.lif, .shf]
  | .eccCorrected _ _ | .rowTrackExpiry _ _ =>
      [.lif]
  | .rcTrim | .refCompUpdate =>
      [.free, .thm]
  | .observeEnd _ | .bemfCrossing _ _ _ _ =>
      [.free, .fan]
  | .fetch _ | .unreachTimeout _ =>
      [.host]
  | .release =>
      [.cab, .cabRes, .inReset, .img, .sys]
  | .tier0Guard =>
      [.regs, .mem, .tier, .clk, .le, .ce, .pwm, .trp, .chp, .adc, .cmps, .evt, .sys, .fan]
  | .pllBootLock =>
      [.regs, .mem, .tier, .clk, .le, .ce, .pwm, .trp, .adc, .sys, .fan]
  | .bootRomDone _ _ _ _ _ =>
      [.free, .regs, .mem, .cfg, .tier, .clk, .le, .ce, .pwm, .trp, .adc, .ang, .evt, .lif, .mtr, .recd, .shf, .pair,
       .tim, .img, .sys, .fan, .spareLog, .evq]
  | .mppSampleDone _ =>
      [.mem, .sys]
  | .loadComplete =>
      [.regs, .mem, .cfg, .img]
  | .burnComplete _ =>
      [.fuses, .img]
  | .lock _ =>
      [.free, .fuses, .img]
  | .angUpdate =>
      [.free, .regs, .mem, .clk, .le, .pwm, .ang, .grd, .isl, .mtr, .recd, .trs, .pair, .tim]
  | .angSnapshotRead _ =>
      [.ang]
  | .disarm _ =>
      [.regs, .evt]
  | .evtIrqSrcRead =>
      [.evt]
  | .contextSwitch =>
      [.regs, .le, .gs, .grd]
  | .jtagHalt =>
      [.le, .pwm, .evt]
  | .jtagRelease =>
      [.regs, .le, .pwm, .evt]
  | .selftestChunk _ =>
      [.regs, .mem, .tier, .clk, .le, .ce, .pwm, .trp, .adc, .evt, .pair, .fan, .spareLog, .evq]
  | .laneRemapApply =>
      [.regs, .le, .spareLog, .evq]
  | .ctxDisable _ =>
      [.regs, .le, .ce, .pwm, .trp]
  | .leEnd _ _ =>
      [.regs, .le, .ce, .pwm, .trp, .evt, .trs, .pair]
  | .leSt _ _ =>
      [.regs, .mem, .le, .ce, .pwm, .trp, .evt]
  | .leIost _ _ =>
      [.regs, .le, .ce, .pwm, .trp, .ang, .evt, .grd, .isl, .lif]
  | .ceServiceStart =>
      [.regs, .ce]
  | .ceEvaluationEnd =>
      [.free, .regs, .le, .ce]
  | .setpointLos _ =>
      [.regs, .spt]
  | .ptcHop =>
      [.clk, .gs, .pwm]
  | .ptcHopResume _ =>
      [.regs, .clk, .pwm]
  | .eventChannelFire _ _ =>
      [.pwm, .pins]
  | .sarSlotResult _ _ =>
      [.regs, .le, .pwm, .trp, .chp, .adc, .evt]
  | .calCoeffApply _ =>
      [.adc]
  | .restoreApply =>
      [.free, .regs, .adc, .spareLog, .evq]
  | .mtrResample _ =>
      [.free, .regs, .sdm, .mtr, .recd]
  | .comparatorFilteredChange _ =>
      [.free, .regs, .le, .pwm, .trp, .chp, .adc, .cmps, .evt]
  | .tripSourceReleaseProof _ =>
      [.pwm, .trp, .cmps]
  | .shadowDisagree _ =>
      [.regs, .cmps]
  | .shadowMeasurement _ _ =>
      [.free, .regs, .le, .pwm, .trp, .chp, .adc, .cmps, .evt, .spareLog, .evq]
  | .tripSourceRelease _ =>
      [.pwm, .trp]
  | .dckRelease =>
      [.regs, .trp]
  | .chpClear =>
      [.pwm, .trp, .chp]
  | .dcov2StopStep =>
      [.regs, .pwm, .chp, .evt]
  | .pmuReport =>
      [.regs, .mem, .mtr]
  | .snap =>
      [.regs, .mtr]
  | .recSample _ =>
      [.free, .recd, .trs]
  | .recDisarm _ =>
      [.recd]
  | .drawerSeal _ =>
      [.free, .regs, .mem, .recd, .shf]
  | .drawerStored _ =>
      [.regs, .mem, .recd]
  | .shfRecordBegin =>
      [.regs, .shf, .evq]
  | .shfPageDone _ _ =>
      [.regs, .mem, .recd, .shf, .spareLog, .evq]
  | .shfEraseDone _ =>
      [.regs, .mem, .shf, .spareLog, .evq]
  | .wearLevelMove =>
      [.mem, .shf]
  | .ethFrameReceive _ =>
      [.free, .regs, .mem, .evt, .mon, .tim, .eth]
  | .pdelayReqSend _ =>
      [.tim, .eth]
  | .ethLinkChange _ _ =>
      [.free, .regs, .tim, .eth]
  | .immediateTransmit _ =>
      [.eth]
  | .frameLaunched _ =>
      [.regs, .mem, .tim, .eth]
  | .timeTriggerFire _ =>
      [.regs, .le, .pwm, .trp, .evt, .tim]
  | .monitorTick _ _ =>
      [.free, .regs, .le, .pwm, .trp, .evt, .pair, .mon]
  | .safConfirmInv _ =>
      [.regs, .mem, .tier, .clk, .le, .ce, .pwm, .trp, .adc, .mon, .fan]
  | .angleFrame _ =>
      [.regs, .ang, .trs]
  | .timeFrame _ =>
      [.free, .regs, .evt, .tim]
  | .timeSend =>
      [.free, .trs]
  | .armActiveTimeout =>
      [.trs, .pair]
  | .mirrorApply _ =>
      [.regs, .mem, .le, .evt, .mtr, .pair]
  | .sysLockLoss =>
      [.regs, .mem, .tier, .clk, .le, .ce, .pwm, .trp, .adc, .sdm, .ang, .evt, .pair, .fan]
  | .ptcLockLoss =>
      [.regs, .mem, .tier, .clk, .le, .ce, .pwm, .trp, .adc, .evt, .pair, .fan]
  | .ethLockLoss =>
      [.free, .regs, .mem, .tier, .clk, .le, .ce, .pwm, .trp, .adc, .tim, .fan]
  | .referenceLoss =>
      [.free, .regs, .mem, .tier, .clk, .le, .ce, .pwm, .trp, .adc, .sdm, .ang, .evt, .pair, .tim, .fan]
  | .pllLockReturn _ =>
      [.regs, .mem, .tier, .clk, .le, .ce, .pwm, .trp, .adc, .sdm, .ang, .evt, .fan]
  | .powerFailWarning _ _ =>
      [.free, .regs, .mem, .mtr, .recd, .shf, .pair, .img, .hu, .fan]
  | .powerFailWithdraw _ _ =>
      [.regs, .mtr, .recd, .shf, .hu, .fan]
  | .huBulkConversion _ =>
      [.regs, .hu]
  | .dieidRead =>
      [.le, .pwm, .ang, .lif, .mtr, .tim, .sys]
  | .lifStep =>
      [.free, .regs, .mem, .lif, .evq]
  | .lifClear _ _ =>
      [.regs, .mem, .lif]
  | .rowRemapDone _ _ _ =>
      [.regs, .mem, .le, .lif, .mon, .spareLog, .evq]
  | .lifSplogRead =>
      [.spareLog]
  | .thmUpdate _ =>
      [.free, .regs, .thm, .shf]
  | .pauseToggle =>
      [.regs, .thm, .shf]
  | .compGainApply =>
      [.thm]
  | .readClear _ =>
      [.regs, .le, .pwm, .ang, .evt, .lif, .thm, .mtr, .tim, .img, .sys, .host, .spareLog]

end Sys2Proof.Machine
end

