-- ==== Sys2Proof/Machine/Claims.lean ====
section
/-!
DEFINITION. The vocabulary of the statements: what a command does, and what an instruction of the Loop Engine leaves in
the registers of its context.
-/

namespace Sys2Proof.Machine

/-- The command answers a next state of which `p` holds. -/
def Does (c : Instr) (s : State) (p : State → Prop) : Prop := ∃ t, exec c s = .next t ∧ p t

/-- The command answers a next state in which the service tier has followed its conditions, from a state of which `p`
holds. -/
def Retiers (c : Instr) (s : State) (p : State → Prop) : Prop := ∃ u, exec c s = .next u.retier ∧ p u

/-- The state that a command leaves: the next state that it answers, or the same state where it answers none. -/
def State.after (s : State) (c : Instr) : State :=
  match exec c s with
  | .next t => t
  | _ => s

/-- The context that holds the lanes. -/
def State.cur (s : State) : Ctx := s.ctx s.le.running

/-- A context holds the lanes, contexts may issue, the word has a permitted form and lies in the code block. -/
def Issues (s : State) (f : Form) (w : LeWord) : Prop :=
  s.le.running ≠ 0 ∧ s.leOpen = true ∧ f.legal w = true ∧ s.cur.pc < s.cur.codeWords

/-- The same, as a test. -/
def issues (s : State) (f : Form) (w : LeWord) : Bool :=
  s.le.running != 0 && s.leOpen && f.legal w && decide (s.cur.pc < s.cur.codeWords)

/-- The state in which the context that holds the lanes has become `c` and stands at instruction index `pc`. -/
def State.afterLe (s : State) (c : Ctx) (pc : Nat) : State :=
  (s.setCtx s.le.running c).setPc s.le.running pc

/-- The data register `r` of lane `i` in the form of the word: a vector lane, or a scalar. -/
def Ctx.data (c : Ctx) (w : LeWord) (r i : Nat) : Word := if w.v then c.vReg r i else c.sReg r

/-- What a data instruction leaves: `g` gives the new word of register `r` in lane `i`, where there is one; every other
data register, every accumulator, predicate and all else stand; the flags gain `fl`; the next instruction follows. -/
def DataResult (s t : State) (w : LeWord) (g : Nat → Nat → Option Word) (fl : Word) : Prop :=
  let c := s.cur
  let c' := t.ctx s.le.running
  (∀ r, ∀ i ∈ leLanes w, c'.data w r i = (g r i).getD (c.data w r i)) ∧
  (if w.v then c'.s = c.s else c'.v = c.v) ∧
  c'.flags = c.flags ||| fl ∧
  t = s.afterLe { c with s := c'.s, v := c'.v, flags := c'.flags } (c.pc + 1)

/-- The flags that the lanes taking part give. -/
def laneFlags (s : State) (w : LeWord) (f : Nat → Word) : Word :=
  (s.cur.taking w).foldl (fun m i => m ||| f i) 0

/-- One result and its flags for each lane that takes part, to register D. -/
def LaneResult (s t : State) (w : LeWord) (f : Nat → Word × Word) : Prop :=
  DataResult s t w (fun r i => if r = w.d.toNat ∧ i ∈ s.cur.taking w then some (f i).1 else none)
    (laneFlags s w fun i => (f i).2)

/-- A pair of results for each lane that takes part, to registers D and D + 1. -/
def PairResult (s t : State) (w : LeWord) (f : Nat → (Word × Word) × Word) : Prop :=
  DataResult s t w
    (fun r i => if i ∈ s.cur.taking w then
        (if r = w.d.toNat + 1 then some (f i).1.2 else if r = w.d.toNat then some (f i).1.1 else none)
      else none)
    (laneFlags s w fun i => (f i).2)

/-- The numbers of the data sources A, B and C of lane `i`. -/
def State.opA (s : State) (w : LeWord) (i : Nat) : Word := s.cur.src w w.a i
def State.opB (s : State) (w : LeWord) (i : Nat) : Word := s.cur.src w w.b i
def State.opC (s : State) (w : LeWord) (i : Nat) : Word := s.cur.src w w.c i

/-- The two frames of this device that carry a payload, of 18 bytes with zeros behind, to every device: one for each ring, each on
the other ring where its own is wrapped (R351, R354). -/
def State.broadcast (s : State) (type epoch flg : Nat) (payload : List Byte) : List TrsFrame :=
  [{ type := type, src := s.trs.rank, dst := 0xFF, hops := 0, ringB := s.trs.wrapB, wrapped := s.trs.wrapB
     epoch := epoch, accd := 0, flg := flg, payload := slice payload 0 18 },
   { type := type, src := s.trs.rank, dst := 0xFF, hops := 0, ringB := !s.trs.wrapA, wrapped := s.trs.wrapA
     epoch := epoch, accd := 0, flg := flg, payload := slice payload 0 18 }]

/-- A frame of this device for one device. -/
def State.unicast (s : State) (dst type epoch flg : Nat) (payload : List Byte) : TrsFrame :=
  { type := type, src := s.trs.rank, dst := dst, hops := 0, ringB := false, wrapped := false, epoch := epoch, accd := 0
    flg := flg, payload := slice payload 0 18 }

/-- The announcement of a role that this device takes (R359). -/
def State.roleNews (s : State) (r cause : Nat) : List TrsFrame :=
  s.broadcast 4 (nextEpoch (s.role r).epoch) 0 (leBytes 1 r ++ leBytes 1 s.trs.rank ++
    leBytes 2 (nextEpoch (s.role r).epoch) ++ leBytes 1 (s.role r).holder ++ leBytes 1 cause)

/-! ### The host port -/

/-- A request with a free tag, at a port that answers (R423). -/
def State.fresh (s : State) (q : HostReq) : Bool := s.hostUp && !s.host.tags.contains q.tag.toNat

/-- This device is the one that executes the request: it names its rank, rank 0 before enumeration, or a role that this device
holds under the epoch given (R427, R428). -/
def State.ours (s : State) (q : HostReq) : Bool :=
  if q.byRole then s.holds q.roleNo && (s.role q.roleNo).epoch == q.roleEpoch
  else if s.trs.enumDone then q.rank.toNat == s.trs.rank else q.rank == 0

/-- The tag of the request has become outstanding. -/
def State.tagged (s : State) (q : HostReq) : State := s.setHost { s.host with tags := q.tag.toNat :: s.host.tags }

/-- A response to the request has joined the queue behind those that wait (Table 19.2). -/
def State.answered (s : State) (q : HostReq) (status detail : Nat) (words : List Word) : State :=
  s.setHost { s.host with queue := s.host.queue ++
    [{ status := status, tag := q.tag.toNat, rank := s.trs.rank, detail := detail, words := words }] }

/-- The length and the alignment are accepted, and so is every word of the range (R425). -/
abbrev State.inReach (s : State) (q : HostReq) (write : Bool) : Prop :=
  0 < q.len.toNat ∧ q.len.toNat ≤ 256 ∧ q.addr.toNat % 4 = 0 ∧ ∀ k < q.len.toNat, s.hostMay write (q.addr.toNat + 4 * k) = true

/-- The word at an address that a READ returns. -/
def State.hostWord (s : State) (a : Nat) : Word := if a < 0x00100000 then s.regVal a else s.memWord a

/-- A read of the word at an address has no effect besides: it clears nothing and copies nothing. -/
abbrev State.readsStill (s : State) (a : Nat) : Prop := a < 0x00100000 → (regRow a).rc = false ∧ s.readSnap a = s

/-! ### The Monitor -/

/-- A core of the Monitor may run and its program counter lies in the program, the word has no ECC error and its unused
fields are 0, and no cell that it reads is marked and still differs. -/
def MonIssues (s : State) (i : Nat) (w : MonWord) (legal : Bool) (reads : List Nat) : Prop :=
  s.monReady i = true ∧ (s.core i).pc < monNWords s.mon.prog ∧ w.ecc = false ∧ legal = true ∧
    s.monLatentHit i reads = false

/-- The core after an instruction's effect: its cells, its buffer, its program counter and its cycles. -/
def MonCore.after (c : MonCore) (e : MonEff) : MonCore :=
  let c1 := c.reads e.reads
  let c2 := match e.write with
    | some x => c1.put x.1 x.2
    | none => c1
  let c3 := match e.out with
    | .pub k v => { c2 with buf := SMap.set (fun _ => 0) c2.buf k v }
    | _ => c2
  { c3 with pc := (e.next.getD (c.pc + 1)).toNat, cycles := c3.cycles + e.cycles, waiting := e.wait }

/-- The state after an instruction of core `i`: its core, and what it puts out. -/
def State.monAfter (s : State) (i : Nat) (e : MonEff) : State :=
  (s.setCore i ((s.core i).after e)).monPutOut i (s.core i).pc e.out

end Sys2Proof.Machine
end

