-- ==== Sys2Proof/Machine/Program.lean ====
section
/-!
DEFINITION. What the programs in force name next: the Loop Engine instruction at the program counter of the context that
holds the lanes, read from the code memory (R79, R103), and the instruction at a Monitor core's (R330, R342). Whoever
sends the block its commands sends these while a program runs; the meanings themselves take any word (log 23).
-/

namespace Sys2Proof.Machine

/-- The instruction word at an index of the code memory, least significant byte first (R103). -/
def State.lpm (s : State) (index : Nat) : BitVec 64 := BitVec.ofNat 64 (leNat (s.bytes (lpmBase + 8 * index) 8))

/-- True when the running context's program issues this command next. -/
def State.leNext (s : State) (i : Instr) : Bool := leSpells (s.lpm ((s.ctx s.le.running).codeAt + (s.ctx s.le.running).pc)) i

/-- True when a core's program issues this command next. -/
def State.monNext (s : State) (core : Nat) (i : Instr) : Bool :=
  monSpells (word (field s.mon.prog (16 + 4 * (s.core core).pc) 4)) i

end Sys2Proof.Machine
end

