-- ==== Sys2Proof/Certificates/Slice0/Obligations.lean ====
section
/-!
DEFINITION. The statements for the provers.
-/

open Sys2Proof Sys2Proof.Machine


/-- RELEASE senses the Cabinet from the fuses and drives SHF_RESET_N low. RESET_N, a software reset with the KEY and a
brownout put the device in reset once no ordered sequence and no emergency save holds them back; else the reset waits,
and RESET_ENTRY enters it. RESET_N_RELEASE records the hold, RESET_LONG sets its flag, the Shelf reset pulse ends, and
a loss of VDD_AON clears the always-on domain. -/
def Obligations.ResetsAndReleaseComplete : Prop :=
  -- RELEASE
  (∀ s : State,
      s.inReset = true → s.sys.resetN = false →
      Does .release s fun t => t.inReset = false ∧ t.cab = s.fuses ∧ t.cabRes = cabResult s.fuses ∧ t.sys.shfRstLow =
        true ∧ t.sys.aonLost = false) ∧
  -- RESET_N_ASSERT
  (∀ (s u : State),
      s.inReset = false →
      u = ((s.setSys { s.sys with resetN := true }).each (List.range 8) State.resetGroup).pairTrigger →
      u.sequencing = false → u.saveHolds = false →
      exec .resetNAssert s = .next (u.enterReset 1)) ∧
  -- RESET_N_ASSERT
  (∀ (s u : State),
      s.inReset = false →
      u = ((s.setSys { s.sys with resetN := true }).each (List.range 8) State.resetGroup).pairTrigger →
      (u.sequencing = true ∨ u.saveHolds = true) →
      exec .resetNAssert s = .next (u.setSys { u.sys with pendingReset := some (u.sys.pendingReset.getD 1) })) ∧
  -- SOFTWARE_RESET
  (∀ (s u : State),
      s.inReset = false → u = (s.each (List.range 8) State.resetGroup).pairTrigger → u.sequencing = false →
      u.saveHolds = false →
      exec (.softwareReset 0x5E7B) s = .next (u.enterReset 4)) ∧
  -- RESET_ENTRY
  (∀ (s : State) (cause : Nat),
      s.sys.pendingReset = some cause → s.sequencing = false → s.saveHolds = false →
      exec .resetEntry s = .next (s.enterReset cause)) ∧
  -- RESET_ENTRY
  (∀ s : State, (s.sequencing = true ∨ s.saveHolds = true) → exec .resetEntry s = .next s) ∧
  -- BROWNOUT_RESET
  (∀ (s : State) (store : Bool),
      s.inReset = false →
      exec (.brownoutReset store) s = .next (s.enterReset (if store then 2 else 3))) ∧
  -- RESET_N_RELEASE
  (∀ (s : State) (ms : Nat),
      s.sys.resetN = true →
      exec (.resetNRelease ms) s = .next (s.setSys { s.sys with resetN := false, heldMs := min 65535 ms })) ∧
  -- RESET_LONG
  (∀ s : State, s.sys.resetN = true → exec .resetLong s = .next (s.setSys { s.sys with long := true })) ∧
  -- SHF_RESET_PULSE_END
  (∀ s : State, exec .shfResetPulseEnd s = .next (s.setSys { s.sys with shfRstLow := false })) ∧
  -- VDD_AON_LOSS
  (∀ s : State,
      exec .vddAonLoss s = .next (s.setSys { s.sys with aonLost := true, cause := 0, long := false, heldMs := 0 }))

/-- Entering reset keeps every byte of the NVM and of the Shelf and the fuses, and the queue; every other byte of
memory reads as after power-on, every register reads its reset value, and the tier is 0. The power-on contents and the
reset values that the spec does not give are the model's choices (log 2, log 3). -/
def Obligations.ResetKeepsNvmAndShelf : Prop :=
  (∀ (s : State) (cause a : Nat),
      s.wf = true → ((0x00400000 ≤ a ∧ a < 0x00440000) ∨ 0x01000000 ≤ a) →
      (s.enterReset cause).byte a = s.byte a) ∧
  (∀ (s : State) (cause a : Nat),
      s.wf = true → (¬((0x00400000 ≤ a ∧ a < 0x00440000) ∨ 0x01000000 ≤ a)) →
      (s.enterReset cause).byte a = memReset a) ∧
  (∀ (s : State) (cause a : Nat),
      (s.enterReset cause).reg a = regReset a ∧ (s.enterReset cause).fuses = s.fuses ∧ (s.enterReset cause).pending =
        s.pending ∧ (s.enterReset cause).tier = 0 ∧ (s.enterReset cause).inReset = true)

/-- Tier 0 Guard begins with the 18 comparators and DC_OV3 active; the three PLLs lock and SYSCLK leaves the RC
oscillator; the boot ROM steps complete; the selected image is written and committed where it fits; and the tier
follows after each. -/
def Obligations.BootStepsComplete : Prop :=
  -- TIER0_GUARD
  (∀ (s u : State),
      s.inReset = false → s.sys.guard = false →
      u = (s.setSys { s.sys with guard := true }).each (List.range 18) State.cmpBegin → u.cabValid = true →
      u.fuse 961 12 ≠ 0 →
      exec .tier0Guard s = .next (({ u with trp := { u.trp with dcov3 := true } }).sourceOn 0x33).retier) ∧
  -- TIER0_GUARD
  (∀ (s u : State),
      s.inReset = false → s.sys.guard = false →
      u = (s.setSys { s.sys with guard := true }).each (List.range 18) State.cmpBegin →
      (u.cabValid = false ∨ u.fuse 961 12 = 0) →
      exec .tier0Guard s = .next ({ u with trp := { u.trp with dcov3 := true } }).retier) ∧
  -- PLL_BOOT_LOCK
  (∀ s : State,
      s.sys.guard = true → s.sys.pllBoot = false →
      Retiers .pllBootLock s fun u => u.sys.pllBoot = true ∧ u.clk.sysLock = true ∧ u.clk.ptcLock = true ∧
        u.clk.ethLock = true ∧ u.clk.refOk = true ∧ u.clk.fallback = false ∧ u.clk.learned = [(0, s.thm.tdie)]) ∧
  -- BOOT_ROM_DONE
  (∀ (s : State) (lanes retried : BitVec 18) (aErr bErr : Bool) (table : Option Nat),
      s.sys.pllBoot = true → s.sys.romDone = false →
      Retiers (.bootRomDone lanes retried aErr bErr table) s fun u => u.sys.romDone = true ∧ u.mon.accepted = s.mon.accepted
        ∧ u.fuses = s.fuses) ∧
  -- BOOT_IMAGE_COMMIT
  (∀ (s : State) (x : Staged),
      s.sys.romDone = true → s.img.bootDue = true →
      (s.setImg { s.img with bootDue := false }).placeStaged (stagedOf (s.copyBytes (s.img.copy - 1))) = some x →
      exec .bootImageCommit s = .next (((s.setImg { s.img with bootDue := false }).writeStaged x).commitImage x)) ∧
  -- BOOT_IMAGE_COMMIT
  (∀ s : State,
      s.sys.romDone = true → s.img.bootDue = true →
      (s.setImg { s.img with bootDue := false }).placeStaged (stagedOf (s.copyBytes (s.img.copy - 1))) = none →
      exec .bootImageCommit s = .next ((s.setImg { s.img with bootDue := false }).imgRefuse false 7 0 0))

/-- With the boot ROM steps complete and the tier below 2, MPP_SAMPLE_DONE takes the step that appears in at least 12
of the 16 samples; where no step reaches 12 it takes step 0 and sets SYS_MPP.AMBIG. Nothing else changes. -/
def Obligations.MppStepIsTaken : Prop :=
  -- MPP_SAMPLE_DONE
  (∀ (s : State) (steps : List (BitVec 4)) (k : Nat),
      s.sys.romDone = true → s.sys.mppDone = false → s.tier < 2 → steps.length = 16 →
      (12 ≤ (steps.filter fun x => x.toNat == k).length) →
      exec (.mppSampleDone steps) s = .next (s.setSys { s.sys with mppDone := true, mppK := k, mppAmbig := false })) ∧
  -- MPP_SAMPLE_DONE
  (∀ (s : State) (steps : List (BitVec 4)),
      s.sys.romDone = true → s.sys.mppDone = false → s.tier < 2 → steps.length = 16 →
      (∀ k, (steps.filter fun x => x.toNat == k).length < 12) →
      exec (.mppSampleDone steps) s = .next (s.setSys { s.sys with mppDone := true, mppK := 0, mppAmbig := true }))

/-- Where the tier follows its conditions it becomes the highest tier all of whose conditions hold; entering Tier 2
starts the learning of the operating points, which holds Tier 3 back, so that Tier 2 is entered first. -/
def Obligations.TierFollowsItsConditions : Prop :=
  (∀ s : State, (2 ≤ s.tier ∨ s.tierOf < 2) → s.retier.tier = s.tierOf) ∧
  (∀ s : State,
      s.tier < 2 → 2 ≤ s.tierOf →
      s.retier.tier = 2 ∧ s.retier.clk.learning = true ∧ s.retier.le.run = true ∧ s.retier.adc.calRun = true)

/-- A LOAD of an image that a Shelf address names begins while nothing is staged, loading or pending; a good image is
staged; COMMIT_AT arms a commit at an angle ahead; COMMIT_NOW and the commit instant run the commit; CANCEL and
DISCARD withdraw it; and reading IMG_NOTE takes the head of its queue. -/
def Obligations.ImageCommandsComplete : Prop :=
  -- LOAD
  (∀ s : State,
      s.img.staged = none → s.img.loading = none → s.img.pend = none → shelfBase ≤ (s.reg rIMG_SRC).toNat →
      (s.reg rIMG_SRC).toNat < shelfBase + s.shf.mb * 2 ^ 20 →
      exec .load s = .next (s.setImg { s.img with loading := some (s.reg rIMG_SRC).toNat })) ∧
  -- LOAD_COMPLETE
  (∀ (s u : State) (x y : Staged) (a : Nat),
      s.img.loading = some a → u = s.setImg { s.img with loading := none } → imageResult (u.loadBytes a) = 0 →
      x = stagedOf (u.loadBytes a) → (x.part = false ∨ genAhead x.gen s.img.gen = true) →
      partitionsFit (u.withImage x).partitions (field ((u.withImage x).sec secRecorder) 8 4) = true →
      u.placeStaged x = some y →
      exec .loadComplete s = .next (((u.writeStaged y).setImg { u.img with staged := some y }).noteClamps y)) ∧
  -- COMMIT_AT
  (∀ (s : State) (x : Staged),
      s.img.pend = none → s.img.staged = some x → aheadMod (2 ^ 80) (angWord s.ang.sch) s.commitAngle = true →
      exec .commitAt s = .next (s.setImg { s.img with pend := some s.commitAngle, structPend := x.mask })) ∧
  -- COMMIT_NOW
  (∀ (s : State) (x : Staged),
      s.img.pend = none → s.img.staged = some x →
      exec .commitNow s = .next (s.commitImage x)) ∧
  -- COMMIT_INSTANT
  (∀ (s : State) (x : Staged) (a : Nat),
      s.img.pend = some a → s.img.staged = some x → aheadMod (2 ^ 80) (angWord s.ang.sch) a = false →
      exec .commitInstant s = .next (s.commitImage x)) ∧
  -- CANCEL
  (∀ s : State, exec .cancel s = .next (s.setImg { s.img with pend := none, structPend := 0 })) ∧
  -- DISCARD
  (∀ s : State,
      exec .discard s = .next (s.setImg { s.img with
          pend := none, structPend := 0, staged := none, loading := none })) ∧
  -- IMG_NOTE_READ
  (∀ s : State, exec .imgNoteRead s = .next (s.setImg { s.img with notes := s.img.notes.drop 1 }))

/-- A commit that is refused leaves every section in force as it was, and IMG_REJ names the reason. A commit that is
not refused puts every staged section in force at once. -/
def Obligations.CommitIsAllOrNothing : Prop :=
  (∀ (s : State) (x : Staged) (r t d : Nat),
      (s.setImg { s.img with pend := none, structPend := 0 }).commitRefusal x = some (r, t, d) →
      (s.commitImage x).cfg = s.cfg ∧ (s.commitImage x).img.staged = s.img.staged ∧ (s.commitImage x).img.rej = word
        (r + 256 * t + 65536 * (d % 65536))) ∧
  (∀ (s : State) (x : Staged),
      (s.setImg { s.img with pend := none, structPend := 0 }).commitRefusal x = none →
      (s.commitImage x).cfg = (s.withImage x).cfg ∧ (s.commitImage x).img.staged = none ∧ (s.commitImage x).img.gen =
        x.gen)

/-- A BURN with the KEY, on a blank Cabinet, with the groups stopped, the die between 0 and 85 degrees, VDD_IO33 in
range, no warning, LOCK unburned and a well-formed pairing, starts the burn; any other condition stores its refusal.
The completion writes the fuses as read back and reports whether they match. LOCK after a verified burn sets its two
fuses. -/
def Obligations.CabinetCommandsComplete : Prop :=
  -- BURN
  (∀ (s : State),
      s.img.burning = false → s.burnRefuse 0xC4B1 true = 0 →
      exec (.burn 0xC4B1 true) s = .next (s.setImg { s.img with burning := true, cabRefusal := 0 })) ∧
  -- BURN
  (∀ (s : State) (key : BitVec 16) (vdd : Bool),
      s.img.burning = false → s.burnRefuse key vdd ≠ 0 →
      exec (.burn key vdd) s = .next (s.setImg { s.img with cabRefusal := s.burnRefuse key vdd })) ∧
  -- BURN_COMPLETE
  (∀ (s : State) (back : BitVec 1024),
      s.img.burning = true →
      exec (.burnComplete back) s = .next { s with
          fuses := back, img := { s.img with
            burning := false, burned := back == s.burnWhole, verifyFail := !(back == s.burnWhole) } }) ∧
  -- LOCK
  (∀ s : State,
      s.img.burning = false → s.img.burned = true → s.cabLocked = false →
      Does (.lock 0xC4B1) s fun t => t.cabLocked = true ∧ t.img.cabRefusal = 0 ∧ ∀ i, i < 975 ∨ 977 ≤ i →
        t.fuses.getLsbD i = s.fuses.getLsbD i)

/-- An ANG update brings the angles to its instant and evaluates them, GRD after them. Tracking becomes valid after
100 passing updates, and the measured angle then takes the tracked one at once; before any SCHED commit the first lock
settles FNOM at the nearer of 50 Hz and 60 Hz (at exactly 55 Hz the lower one is the model's choice, log 37). ANG_SRC
keeps the requested source; a stale generated angle sets its bit, and so does a master missed for MASTER_MISS angle words
in a row, one every 1 µs; each _FR read snapshots the cycle count of its own angle. -/
def Obligations.AngleCommandsComplete : Prop :=
  -- ANG_UPDATE
  (∀ s u : State,
      s.inReset = false → u = s.edges s.edgesToUpdate →
      exec .angUpdate s = .next (({ u with ang := { u.ang with updAt := u.clk.t } } : State).angUpdate).grdAngUpdate) ∧
  -- TRACKING_VALID
  (∀ s : State,
      s.ang.valid = false → 100 ≤ s.ang.pass → (s.ang.seen = true ∨ s.hasSec secSched = true) →
      exec .trackingValid s = .next ({ s with
          ang := { s.ang with
            valid := true, seen := true, validAt := s.ang.sch, freq := s.ang.tracked, meas := s.ang.trkTh } } :
        State).angSelect.angJump) ∧
  -- TRACKING_VALID
  (∀ s : State,
      s.ang.valid = false → 100 ≤ s.ang.pass → s.ang.seen = false → s.hasSec secSched = false →
      exec .trackingValid s = .next ({ s with
          ang := { s.ang with
            valid := true, seen := true, validAt := s.ang.sch, freq := s.ang.tracked, meas := s.ang.trkTh,
            fnom := if s.ang.tracked > 55 * 2 ^ 24 then 60 * 2 ^ 24 else 50 * 2 ^ 24 } } : State).angSelect.angJump) ∧
  -- ANG_SRC_WRITE
  (∀ (s : State) (w : Word), exec (.angSrcWrite w) s = .next (s.setReg rANG_SRC (w &&& 3))) ∧
  -- GEN_STALE
  (∀ s : State, s.ang.src = 1 → exec .genStale s = .next (s.setBit rANG_STAT 11)) ∧
  -- MASTER_MISS
  (∀ s : State,
      s.ang.masOk = true → s.ang.masAt + 400 * s.masterMiss ≤ s.clk.t →
      exec .masterMiss s = .next ((({ s with ang := { s.ang with masOk := false } } : State).setBit rANG_STAT
        5).angSelect.angJump)) ∧
  -- ANG_SNAPSHOT_READ
  (∀ s : State,
      exec (.angSnapshotRead .measured) s = .next { s with
          ang := { s.ang with snapMeas := s.ang.measWord / 2 ^ 32 } } ∧ exec (.angSnapshotRead .scheduling) s = .next
        { s with ang := { s.ang with snapSch := angWord s.ang.sch / 2 ^ 32 } } ∧ exec (.angSnapshotRead .generated) s
        = .next { s with ang := { s.ang with snapGen := angWord s.ang.gen / 2 ^ 32 } })

/-- On one edge of SYSCLK the scheduling angle advances at the frequency of the source times k, where k is 0 while e
lies below the negative of JTHR and otherwise grows with e, which is limited to JTHR either way; a value that is no
whole unit is rounded in the direction left open (log 5). While e is 0 it advances by exactly the frequency's step. -/
def Obligations.SchedulingAngleSlews : Prop :=
  (∀ (s : State) (hz : Nat),
      s.ang.live = true → s.ang.e < -(s.jthr : Int) →
      (s.angEdge hz).ang.sch = s.ang.sch % 2 ^ 96) ∧
  (∀ (s : State) (hz : Nat),
      s.ang.live = true → s.ang.e = 0 → 0 < s.jthr → 0 < hz →
      (s.angEdge hz).ang.sch = (s.ang.sch + (divOpen 2 ((s.angFreq : Int) * 2 ^ 24 * (32 * (s.jthr : Int))) ((hz :
        Int) * 32 * (s.jthr : Int))).toNat) % 2 ^ 96)

/-- An armed entry that comes due alone, with none waiting, fires and dispatches; an entry that is not due fires nothing;
a deferred entry is dispatched on a later edge, the first of the queue before the rest; the built-in strobe runs metering
until a SCHED section is in force; ARM_ABS arms a host entry at a due time ahead, ARM_REL arms and DISARM disarms one, an
entry that is due at that instant firing on its old time first; a foreign entry is refused; reading EVT_IRQ_SRC takes the
head of its queue. -/
def Obligations.EventCommandsComplete : Prop :=
  -- EVT_ENTRY_FIRE
  (∀ (s : State) (i : Nat),
      s.evt.deferred = [] → i < s.nEntries → s.entryDue i = true →
      exec (.evtEntryFire [i]) s = .next (((s.fireEntry i).setEvt {
          (s.fireEntry i).evt with deferred := [(i, (s.evtEntry i).due)] }).dispatchUpTo 4)) ∧
  -- EVT_ENTRY_FIRE
  (∀ (s : State) (i : Nat),
      s.evt.deferred = [] → s.entryDue i = false →
      exec (.evtEntryFire [i]) s = .next ((s.setEvt { s.evt with deferred := [] }).dispatchUpTo 4)) ∧
  -- EVT_DEFERRED_DISPATCH
  (∀ (s : State) (i due : Nat) (rest : List (Nat × Nat)),
      s.evt.deferred = (i, due) :: rest →
      exec .evtDeferredDispatch s = .next (((s.setEvt { s.evt with deferred := rest }).dispatch i due).dispatchUpTo
        3)) ∧
  -- BUILTIN_STROBE
  (∀ s : State, s.hasSec secSched = false → exec .builtinStrobe s = .next s.mtrStrobe) ∧
  -- ARM_ABS
  (∀ (s : State) (i : Nat) (t : BitVec 96),
      s.hostEntry i = true → (s.entryTb i ≠ 1 ∨ (s.grp (s.entryGroup i)).st = .running) →
      aheadMod (s.entryNow i).2 (s.entryNow i).1 (timeOf (s.entryTb i) t.toNat) = true →
      exec (.armAbs i t) s = .next ((s.fireFirst i).setEvtEntry i {
          armed := true, due := timeOf (s.entryTb i) t.toNat, left := if s.entryPeriodic i then s.entryCount i else
            1, absolute := true })) ∧
  -- ARM_REL
  (∀ (s : State) (i : Nat), s.hostEntry i = true → exec (.armRel i) s = .next ((s.fireFirst i).armRel i)) ∧
  (∀ (s : State) (i : Nat), s.entryDue i = false → s.fireFirst i = s) ∧
  -- DISARM
  (∀ (s : State) (i : Nat), s.hostEntry i = true → exec (.disarm i) s = .next (s.setEvtEntry i {})) ∧
  -- ARM_ABS ARM_REL DISARM
  (∀ (s : State) (i : Nat) (t : BitVec 96),
      s.hostEntry i = false →
      exec (.armAbs i t) s = .next (s.setBit rEVT_STAT 6) ∧ exec (.armRel i) s = .next (s.setBit rEVT_STAT 6) ∧ exec
        (.disarm i) s = .next (s.setBit rEVT_STAT 6)) ∧
  -- EVT_IRQ_SRC_READ
  (∀ s : State, exec .evtIrqSrcRead s = .next (s.setEvt { s.evt with
      irqs := s.evt.irqs.drop 1, lines := if s.evt.irqs.length ≤ 1 then 0 else s.evt.lines }))

/-- The lanes go to the READY or PREEMPTED context of highest priority; arriving data makes a waiting context READY;
an expired budget marks the start once and raises the miss; a JTAG halt and its release stop and resume every context
and free the groups; the lane self-test starts, a mapping change waits for idle lanes, and LE_CTX_CMD acts under the
context's epoch, a stale epoch being counted. Reading LE_CYC snapshots its upper half. -/
def Obligations.ContextCommandsComplete : Prop :=
  -- CONTEXT_SWITCH
  (∀ (s : State) (n : Nat),
      s.leOpen = true → s.le.running = 0 → s.best = some n → (s.ctx n).begun = true →
      exec .contextSwitch s = .next (({ s.dequeue n with le := { (s.dequeue n).le with running := n } } :
        State).resumeRun n)) ∧
  -- CONTEXT_SWITCH
  (∀ (s : State) (n : Nat),
      s.leOpen = true → s.le.running = 0 → s.best = some n → (s.ctx n).begun = false →
      exec .contextSwitch s = .next (({ s.dequeue n with le := { (s.dequeue n).le with running := n } } :
        State).beginRun n)) ∧
  -- WAIT_DATA_ARRIVED
  (∀ (s : State) (n : Nat),
      (s.ctx n).st = .waiting →
      exec (.waitDataArrived n) s = .next ((s.setCtx n { s.ctx n with st := .ready }).enqueue n).displace) ∧
  -- DEADLINE_MISS
  (∀ (s : State) (n : Nat),
      (s.ctx n).desc.budget ≠ 0 → s.le.halted = false → (s.ctx n).st.inRun = true →
      (s.ctx n).req.missed = false → (s.ctx n).desc.missAct = 0 →
      exec (.deadlineMiss n false) s = .next ((s.setCtx n {
          s.ctx n with req := { (s.ctx n).req with missed := true } }).missRaise n)) ∧
  -- JTAG_HALT
  (∀ s : State,
      s.le.halted = false →
      exec .jtagHalt s = .next (({ s with le := { s.le with halted := true } } : State).each (List.range 8) fun s g
        => s.groupLoss g 3 true)) ∧
  -- JTAG_RELEASE
  (∀ s : State,
      s.le.halted = true →
      exec .jtagRelease s = .next (({ s with le := { s.le with halted := false } } : State).each (List.range 8) fun s
        g => (s.groupReturn g 3).groupLossAgain g)) ∧
  -- LANE_SELFTEST_START
  (∀ s : State,
      s.le.testLane = none →
      exec .laneSelftestStart s = .next { s with le := { s.le with testLane := some (0, 0), testAgain := false } }) ∧
  -- LANE_REMAP_APPLY
  (∀ s : State,
      s.le.running = 0 → s.le.mapped ≠ s.le.failed →
      Does .laneRemapApply s fun t => t.le.mapped = s.le.failed ∧ t.regBit rLE_STAT 8 = true) ∧
  -- LTEST_LATE
  (∀ s : State, s.le.testLane.isSome = true → exec .ltestLate s = .next (s.setBit rLE_STAT 7)) ∧
  -- CTX_ENABLE
  (∀ (s : State) (n : Nat) (e : BitVec 16),
      n = bits (s.reg rLE_CTX_SEL).toNat 0 6 → n ≠ 0 → (s.ctx n).epoch = e.toNat → (s.ctx n).st = .disabled →
      (s.desc n).isSome = true →
      exec (.ctxEnable e) s = .next (s.setCtx n { s.ctx n with st := .idle, initNext := false })) ∧
  -- CTX_DISABLE
  (∀ (s : State) (n : Nat) (e : BitVec 16),
      n = bits (s.reg rLE_CTX_SEL).toNat 0 6 → n ≠ 0 → (s.ctx n).epoch = e.toNat → (s.ctx n).st = .idle →
      exec (.ctxDisable e) s = .next (s.setCtx n { s.ctx n with st := .disabled }).leFaultRefresh) ∧
  -- CTX_DISABLE
  (∀ (s : State) (n : Nat) (e : BitVec 16),
      n = bits (s.reg rLE_CTX_SEL).toNat 0 6 → n ≠ 0 → (s.ctx n).epoch = e.toNat →
      ((s.ctx n).st = .running ∨ (s.ctx n).st = .preempted ∨ (s.ctx n).st = .waiting) →
      exec (.ctxDisable e) s = .next (s.setCtx n { s.ctx n with pend := none, disPend := true })) ∧
  -- CTX_CLEAR_FAULT
  (∀ (s : State) (n : Nat) (e : BitVec 16),
      n = bits (s.reg rLE_CTX_SEL).toNat 0 6 → n ≠ 0 → (s.ctx n).epoch = e.toNat → (s.ctx n).st = .fault →
      exec (.ctxClearFault e) s = .next (s.setCtx n { s.ctx n with st := .idle, initNext := false }).leFaultRefresh) ∧
  -- CTX_ENABLE CTX_DISABLE CTX_CLEAR_FAULT
  (∀ (s u : State) (n : Nat) (e : BitVec 16),
      n = bits (s.reg rLE_CTX_SEL).toNat 0 6 → n ≠ 0 → (s.ctx n).epoch ≠ e.toNat →
      u = (s.setCtx n { s.ctx n with cntStale := satInc (s.ctx n).cntStale }).setBit rLE_STAT 6 →
      exec (.ctxEnable e) s = .next u ∧ exec (.ctxDisable e) s = .next u ∧ exec (.ctxClearFault e) s = .next u) ∧
  -- LE_CYC_READ
  (∀ s : State, exec .leCycRead s = .next { s with le := { s.le with cycHi := word (s.le.cyc / 2 ^ 32) } })

/-- ADD, SUB, NEG, ABS, MIN, MAX, CLAMP, MUL, ADDI, SHL and SRA in a permitted form give each lane that takes part the
exact result of Table 5.6, rounded and fitted under R108, with SAT where it was clamped; every other register, lane
and predicate stands, and the next instruction follows. -/
def Obligations.FixedPointInstructions : Prop :=
  -- ADD
  (∀ (s : State) (w : LeWord),
      Issues s { s := .opt, p := true, d := .dst, a := .src, b := .src } w →
      Does (.leAdd w .clean) s fun t => LaneResult s t w fun i => fit32 w.s ((s.opA w i).toInt + (s.opB w i).toInt)) ∧
  -- SUB
  (∀ (s : State) (w : LeWord),
      Issues s { s := .opt, p := true, d := .dst, a := .src, b := .src } w →
      Does (.leSub w .clean) s fun t => LaneResult s t w fun i => fit32 w.s ((s.opA w i).toInt - (s.opB w i).toInt)) ∧
  -- NEG
  (∀ (s : State) (w : LeWord),
      Issues s { s := .opt, p := true, d := .dst, a := .src } w →
      Does (.leNeg w .clean) s fun t => LaneResult s t w fun i => fit32 w.s (-(s.opA w i).toInt)) ∧
  -- ABS
  (∀ (s : State) (w : LeWord),
      Issues s { s := .opt, p := true, d := .dst, a := .src } w →
      Does (.leAbs w .clean) s fun t => LaneResult s t w fun i => fit32 w.s ((s.opA w i).toInt.natAbs : Int)) ∧
  -- MIN
  (∀ (s : State) (w : LeWord),
      Issues s { p := true, d := .dst, a := .src, b := .src } w →
      Does (.leMin w .clean) s fun t => LaneResult s t w fun i => fit32 false (min (s.opA w i).toInt (s.opB w
        i).toInt)) ∧
  -- MAX
  (∀ (s : State) (w : LeWord),
      Issues s { p := true, d := .dst, a := .src, b := .src } w →
      Does (.leMax w .clean) s fun t => LaneResult s t w fun i => fit32 false (max (s.opA w i).toInt (s.opB w
        i).toInt)) ∧
  -- CLAMP
  (∀ (s : State) (w : LeWord),
      Issues s { p := true, d := .dst, a := .src, b := .src, c := .src } w →
      Does (.leClamp w .clean) s fun t => LaneResult s t w fun i => (wordOfInt (min (max (s.opA w i).toInt (s.opB w
        i).toInt) (s.opC w i).toInt), 0)) ∧
  -- MUL
  (∀ (s : State) (w : LeWord),
      Issues s { s := .opt, n := .opt, p := true, d := .dst, a := .src, b := .src } w →
      Does (.leMul w .clean) s fun t => LaneResult s t w fun i => fit32 w.s (roundShift w.n ((s.opA w i).toInt *
        (s.opB w i).toInt) (bits w.imm.toNat 0 6))) ∧
  -- ADDI
  (∀ (s : State) (w : LeWord),
      Issues s { s := .opt, p := true, d := .dst, a := .src } w →
      Does (.leAddi w .clean) s fun t => LaneResult s t w fun i => fit32 w.s ((s.opA w i).toInt + w.imm.toInt)) ∧
  -- SHL
  (∀ (s : State) (w : LeWord),
      Issues s { s := .opt, p := true, d := .dst, a := .src } w →
      Does (.leShl w .clean) s fun t => LaneResult s t w fun i => fit32 w.s ((s.opA w i).toInt * 2 ^ bits w.imm.toNat
        0 5)) ∧
  -- SRA
  (∀ (s : State) (w : LeWord),
      Issues s { n := .opt, p := true, d := .dst, a := .src } w →
      Does (.leSra w .clean) s fun t => LaneResult s t w fun i => fit32 w.s (roundShift w.n (s.opA w i).toInt (bits
        w.imm.toNat 0 5)))

/-- AND, OR, XOR, NOT, SHR, LI, MOV, VIDX and SEL give each lane that takes part the word of Tables 5.6, 5.8 and 5.10
and set no flag; every other register and lane stands, and the next instruction follows. -/
def Obligations.BitwiseAndMoveInstructions : Prop :=
  -- AND
  (∀ (s : State) (w : LeWord),
      Issues s { p := true, d := .dst, a := .src, b := .src } w →
      Does (.leAnd w .clean) s fun t => LaneResult s t w fun i => (s.opA w i &&& s.opB w i, 0)) ∧
  -- OR
  (∀ (s : State) (w : LeWord),
      Issues s { p := true, d := .dst, a := .src, b := .src } w →
      Does (.leOr w .clean) s fun t => LaneResult s t w fun i => (s.opA w i ||| s.opB w i, 0)) ∧
  -- XOR
  (∀ (s : State) (w : LeWord),
      Issues s { p := true, d := .dst, a := .src, b := .src } w →
      Does (.leXor w .clean) s fun t => LaneResult s t w fun i => (s.opA w i ^^^ s.opB w i, 0)) ∧
  -- NOT
  (∀ (s : State) (w : LeWord),
      Issues s { p := true, d := .dst, a := .src } w →
      Does (.leNot w .clean) s fun t => LaneResult s t w fun i => (~~~ s.opA w i, 0)) ∧
  -- SHR
  (∀ (s : State) (w : LeWord),
      Issues s { p := true, d := .dst, a := .src } w →
      Does (.leShr w .clean) s fun t => LaneResult s t w fun i => (s.opA w i >>> bits w.imm.toNat 0 5, 0)) ∧
  -- LI
  (∀ (s : State) (w : LeWord),
      Issues s { d := .dst } w →
      Does (.leLi w .clean) s fun t => LaneResult s t w fun _ => (w.imm, 0)) ∧
  -- MOV
  (∀ (s : State) (w : LeWord),
      Issues s { p := true, d := .dst, a := .src } w →
      Does (.leMov w .clean) s fun t => LaneResult s t w fun i => (s.opA w i, 0)) ∧
  -- VIDX
  (∀ (s : State) (w : LeWord),
      Issues s { v := .one, d := .vdst } w →
      Does (.leVidx w .clean) s fun t => LaneResult s t w fun i => (word i, 0)) ∧
  -- SEL
  (∀ (s : State) (w : LeWord),
      Issues s { d := .dst, a := .src, b := .src, c := .selC } w →
      Does (.leSel w .clean) s fun t => LaneResult s t w fun i => (if (if w.v then (s.cur.pReg w.c.toNat).getLsbD i
        else s.cur.sReg w.c.toNat != 0) then s.opA w i else s.opB w i, 0))

/-- FADD, FSUB, FMUL, FMA, FMIN, FMAX, FABS, FNEG, FCVTF, FCVTX, SQRT, RECIP and ATAN2 give each lane that takes part
their result with its flags; every other register and lane stands, and the next instruction follows. -/
def Obligations.FloatInstructions : Prop :=
  -- FADD
  (∀ (s : State) (w : LeWord),
      Issues s { p := true, d := .dst, a := .src, b := .src } w →
      Does (.leFadd w .clean) s fun t => LaneResult s t w fun i => fAdd (s.opA w i) (s.opB w i)) ∧
  -- FSUB
  (∀ (s : State) (w : LeWord),
      Issues s { p := true, d := .dst, a := .src, b := .src } w →
      Does (.leFsub w .clean) s fun t => LaneResult s t w fun i => fSub (s.opA w i) (s.opB w i)) ∧
  -- FMUL
  (∀ (s : State) (w : LeWord),
      Issues s { p := true, d := .dst, a := .src, b := .src } w →
      Does (.leFmul w .clean) s fun t => LaneResult s t w fun i => fMul (s.opA w i) (s.opB w i)) ∧
  -- FMA
  (∀ (s : State) (w : LeWord),
      Issues s { p := true, d := .dst, a := .src, b := .src, c := .src } w →
      Does (.leFma w .clean) s fun t => LaneResult s t w fun i => fFma (s.opA w i) (s.opB w i) (s.opC w i)) ∧
  -- FMIN
  (∀ (s : State) (w : LeWord),
      Issues s { p := true, d := .dst, a := .src, b := .src } w →
      Does (.leFmin w .clean) s fun t => LaneResult s t w fun i => fMinMax false (s.opA w i) (s.opB w i)) ∧
  -- FMAX
  (∀ (s : State) (w : LeWord),
      Issues s { p := true, d := .dst, a := .src, b := .src } w →
      Does (.leFmax w .clean) s fun t => LaneResult s t w fun i => fMinMax true (s.opA w i) (s.opB w i)) ∧
  -- FABS
  (∀ (s : State) (w : LeWord),
      Issues s { p := true, d := .dst, a := .src } w →
      Does (.leFabs w .clean) s fun t => LaneResult s t w fun i => (s.opA w i &&& 0x7FFFFFFF, 0)) ∧
  -- FNEG
  (∀ (s : State) (w : LeWord),
      Issues s { p := true, d := .dst, a := .src } w →
      Does (.leFneg w .clean) s fun t => LaneResult s t w fun i => (s.opA w i ^^^ 0x80000000, 0)) ∧
  -- FCVTF
  (∀ (s : State) (w : LeWord),
      Issues s { p := true, d := .dst, a := .src } w →
      Does (.leFcvtf w .clean) s fun t => LaneResult s t w fun i => fFromInt (s.opA w i).toInt (bits w.imm.toNat 0
        6)) ∧
  -- FCVTX
  (∀ (s : State) (w : LeWord),
      Issues s { s := .one, n := .opt, p := true, d := .dst, a := .src } w →
      Does (.leFcvtx w .clean) s fun t => LaneResult s t w fun i => fToInt w.n (s.opA w i) (bits w.imm.toNat 0 6)) ∧
  -- SQRT
  (∀ (s : State) (w : LeWord),
      Issues s { d := .dst, a := .src } w →
      Does (.leSqrt w .clean) s fun t => LaneResult s t w fun i => fSqrt (s.opA w i)) ∧
  -- RECIP
  (∀ (s : State) (w : LeWord),
      Issues s { d := .dst, a := .src } w →
      Does (.leRecip w .clean) s fun t => LaneResult s t w fun i => fDiv 0x3F800000 (s.opA w i)) ∧
  -- ATAN2
  (∀ (s : State) (w : LeWord),
      Issues s { d := .dst, a := .src, b := .src } w →
      Does (.leAtan2 w .clean) s fun t => LaneResult s t w fun i => (atan2 (s.opA w i) (s.opB w i), 0))

/-- CLARKE, SINCOS, PARK and IPARK write registers D and D + 1 of each lane from the exact values rounded once; PIBUMP
writes D; PISTEP writes the integrator to B and the output to D; BQSTEP writes the output to D and the states to B and
B + 1. Where D of a PISTEP names B the output stands, which follows the order of the rule's steps (log 37). -/
def Obligations.FusedInstructions : Prop :=
  -- CLARKE
  (∀ (s : State) (w : LeWord),
      Issues s { s := .opt, n := .opt, d := .pairDst, a := .src, b := .src, c := .src } w →
      Does (.leClarke w .clean) s fun t => PairResult s t w fun i => clarke w (s.opA w i).toInt (s.opB w i).toInt
        (s.opC w i).toInt) ∧
  -- SINCOS
  (∀ (s : State) (w : LeWord),
      Issues s { d := .pairDst, a := .src } w →
      Does (.leSincos w .clean) s fun t => PairResult s t w fun i => (sinCos (s.opA w i), 0)) ∧
  -- PARK
  (∀ (s : State) (w : LeWord),
      Issues s { s := .opt, n := .opt, d := .pairDst, a := .src, b := .src, c := .src } w →
      Does (.lePark w .clean) s fun t => PairResult s t w fun i => park false w (s.opA w i).toInt (s.opB w i).toInt
        (s.opC w i)) ∧
  -- IPARK
  (∀ (s : State) (w : LeWord),
      Issues s { s := .opt, n := .opt, d := .pairDst, a := .src, b := .src, c := .src } w →
      Does (.leIpark w .clean) s fun t => PairResult s t w fun i => park true w (s.opA w i).toInt (s.opB w i).toInt
        (s.opC w i)) ∧
  -- PIBUMP
  (∀ (s : State) (w : LeWord),
      Issues s { s := .one, n := .opt, d := .dst, a := .src, b := .src } w →
      Does (.lePibump w .clean) s fun t => LaneResult s t w fun i => piBump w.n (s.leCoefWord s.cur w 0 i) (s.opA w
        i).toInt (s.opB w i).toInt) ∧
  -- PISTEP
  (∀ (s : State) (w : LeWord) (r : Nat → (Word × Word) × Word),
      Issues s { s := .one, n := .opt, d := .dst, a := .src, b := .dst } w →
      (∀ i, r i = piStep w.n (s.leCoefWord s.cur w 0 i) (s.leCoefWord s.cur w 1 i) (s.leCoefWord s.cur w 2 i)
        (s.leCoefWord s.cur w 3 i) (s.opA w i).toInt (s.opB w i).toInt) →
      Does (.lePistep w .clean) s fun t => DataResult s t w (fun k i => if i ∈ s.cur.taking w then (if k = w.d.toNat
        then some (r i).1.1 else if k = w.b.toNat then some (r i).1.2 else none) else none) (laneFlags s w fun i =>
        (r i).2)) ∧
  -- BQSTEP
  (∀ (s : State) (w : LeWord) (z : Nat → Word) (r : Nat → Word × Word × Word × Word),
      Issues s { s := .one, n := .opt, d := .dst, a := .src, b := .pairDst } w →
      (∀ i, z i = if w.v then s.cur.vReg (w.b.toNat + 1) i else s.cur.sReg (w.b.toNat + 1)) →
      (∀ i, r i = bqStep w.n (s.leCoefWord s.cur w 0 i) (s.leCoefWord s.cur w 1 i) (s.leCoefWord s.cur w 2 i)
        (s.leCoefWord s.cur w 3 i) (s.leCoefWord s.cur w 4 i) (s.opA w i).toInt (s.opB w i).toInt (z i).toInt) →
      Does (.leBqstep w .clean) s fun t => DataResult s t w (fun k i => if i ∈ s.cur.taking w then (if k = w.b.toNat
        + 1 then some (r i).2.2.1 else if k = w.b.toNat then some (r i).2.1 else if k = w.d.toNat then some (r i).1
        else none) else none) (laneFlags s w fun i => (r i).2.2.2))

/-- NOP goes on. BR, BEQZ, BNEZ, BLTZ, BGEZ, BPANY and BPALL go to pc + imm where their condition holds and the target
lies in the code block, else to the next instruction. DBNZ decrements its register, taken or not. JAL writes pc + 1 to
D and jumps; JR jumps to the index in A. A target outside the code block raises PC_RANGE. -/
def Obligations.BranchInstructions : Prop :=
  -- NOP
  (∀ (s : State) (w : LeWord),
      Issues s { v := .zero } w →
      exec (.leNop w .clean) s = .next (s.afterLe s.cur (s.cur.pc + 1))) ∧
  -- BR
  (∀ (s : State) (w : LeWord),
      Issues s { v := .zero } w → 0 ≤ (s.cur.pc : Int) + w.imm.toInt →
      (s.cur.pc : Int) + w.imm.toInt < s.cur.codeWords →
      exec (.leBr w .clean) s = .next (s.setPc s.le.running ((s.cur.pc : Int) + w.imm.toInt).toNat)) ∧
  -- BEQZ
  (∀ (s : State) (w : LeWord),
      Issues s { v := .zero, a := .scalar } w →
      (s.cur.sReg w.a.toNat = 0 → 0 ≤ ((s.cur.pc : Int) + w.imm.toInt) ∧ ((s.cur.pc : Int) + w.imm.toInt) <
        s.cur.codeWords) →
      exec (.leBeqz w .clean) s = .next (s.setPc s.le.running (if s.cur.sReg w.a.toNat = 0 then ((s.cur.pc : Int) +
        w.imm.toInt).toNat else s.cur.pc + 1))) ∧
  -- BNEZ
  (∀ (s : State) (w : LeWord),
      Issues s { v := .zero, a := .scalar } w →
      (s.cur.sReg w.a.toNat ≠ 0 → 0 ≤ ((s.cur.pc : Int) + w.imm.toInt) ∧ ((s.cur.pc : Int) + w.imm.toInt) <
        s.cur.codeWords) →
      exec (.leBnez w .clean) s = .next (s.setPc s.le.running (if s.cur.sReg w.a.toNat ≠ 0 then ((s.cur.pc : Int) +
        w.imm.toInt).toNat else s.cur.pc + 1))) ∧
  -- BLTZ
  (∀ (s : State) (w : LeWord),
      Issues s { v := .zero, a := .scalar } w →
      ((s.cur.sReg w.a.toNat).toInt < 0 → 0 ≤ ((s.cur.pc : Int) + w.imm.toInt) ∧ ((s.cur.pc : Int) + w.imm.toInt) <
        s.cur.codeWords) →
      exec (.leBltz w .clean) s = .next (s.setPc s.le.running (if (s.cur.sReg w.a.toNat).toInt < 0 then ((s.cur.pc :
        Int) + w.imm.toInt).toNat else s.cur.pc + 1))) ∧
  -- BGEZ
  (∀ (s : State) (w : LeWord),
      Issues s { v := .zero, a := .scalar } w →
      (0 ≤ (s.cur.sReg w.a.toNat).toInt → 0 ≤ ((s.cur.pc : Int) + w.imm.toInt) ∧ ((s.cur.pc : Int) + w.imm.toInt) <
        s.cur.codeWords) →
      exec (.leBgez w .clean) s = .next (s.setPc s.le.running (if 0 ≤ (s.cur.sReg w.a.toNat).toInt then ((s.cur.pc :
        Int) + w.imm.toInt).toNat else s.cur.pc + 1))) ∧
  -- BPANY
  (∀ (s : State) (w : LeWord),
      Issues s { v := .zero, a := .pred } w →
      (s.cur.pReg w.a.toNat ≠ 0 → 0 ≤ ((s.cur.pc : Int) + w.imm.toInt) ∧ ((s.cur.pc : Int) + w.imm.toInt) <
        s.cur.codeWords) →
      exec (.leBpany w .clean) s = .next (s.setPc s.le.running (if s.cur.pReg w.a.toNat ≠ 0 then ((s.cur.pc : Int) +
        w.imm.toInt).toNat else s.cur.pc + 1))) ∧
  -- BPALL
  (∀ (s : State) (w : LeWord),
      Issues s { v := .zero, a := .pred } w →
      (s.cur.pReg w.a.toNat = 0xFFFF → 0 ≤ ((s.cur.pc : Int) + w.imm.toInt) ∧ ((s.cur.pc : Int) + w.imm.toInt) <
        s.cur.codeWords) →
      exec (.leBpall w .clean) s = .next (s.setPc s.le.running (if s.cur.pReg w.a.toNat = 0xFFFF then ((s.cur.pc :
        Int) + w.imm.toInt).toNat else s.cur.pc + 1))) ∧
  -- BR
  (∀ (s : State) (w : LeWord),
      Issues s { v := .zero } w →
      ((s.cur.codeWords : Int) ≤ (s.cur.pc : Int) + w.imm.toInt ∨ (s.cur.pc : Int) + w.imm.toInt < 0) →
      exec (.leBr w .clean) s = .next (s.raise s.le.running .pcRange)) ∧
  -- DBNZ
  (∀ (s : State) (w : LeWord),
      Issues s { v := .zero, a := .scalar } w →
      (s.cur.sReg w.a.toNat ≠ 1 → 0 ≤ (s.cur.pc : Int) + w.imm.toInt ∧ (s.cur.pc : Int) + w.imm.toInt <
        s.cur.codeWords) →
      exec (.leDbnz w .clean) s = .next (s.afterLe (s.cur.setS w.a.toNat (s.cur.sReg w.a.toNat - 1)) (if s.cur.sReg
        w.a.toNat ≠ 1 then ((s.cur.pc : Int) + w.imm.toInt).toNat else s.cur.pc + 1))) ∧
  -- JAL
  (∀ (s : State) (w : LeWord),
      Issues s { v := .zero, d := .scalar } w → 0 ≤ (s.cur.pc : Int) + w.imm.toInt →
      (s.cur.pc : Int) + w.imm.toInt < s.cur.codeWords →
      exec (.leJal w .clean) s = .next (s.afterLe (s.cur.setS w.d.toNat (word (s.cur.pc + 1))) ((s.cur.pc : Int) +
        w.imm.toInt).toNat)) ∧
  -- JR
  (∀ (s : State) (w : LeWord),
      Issues s { v := .zero, a := .scalar } w → 0 ≤ (s.cur.sReg w.a.toNat).toInt →
      (s.cur.sReg w.a.toNat).toInt < s.cur.codeWords →
      exec (.leJr w .clean) s = .next (s.setPc s.le.running (s.cur.sReg w.a.toNat).toInt.toNat))

/-- MAC, MSU, ACCSET and ACCRD act on the accumulators at their full scale; the compares give a predicate bit for each
lane that takes part, or 1 or 0 in a scalar; PAND, POR, PXOR, PNOT and PSET write a predicate, PTOS and STOP copy
between a predicate and a scalar; VEXT, VINS and RSUM read or write elements, GETF reads the sticky flags and CLRF
clears those of its mask. Only the named register and flags change, and the next instruction follows. -/
def Obligations.PredicateAndAccumulatorInstructions : Prop :=
  -- MAC
  (∀ (s : State) (w : LeWord),
      Issues s { p := true, d := .acc, a := .src, b := .src } w →
      exec (.leMac w .clean) s = .next (s.afterLe (s.cur.mapAcc w fun x a b => x + a * b) (s.cur.pc + 1))) ∧
  -- MSU
  (∀ (s : State) (w : LeWord),
      Issues s { p := true, d := .acc, a := .src, b := .src } w →
      exec (.leMsu w .clean) s = .next (s.afterLe (s.cur.mapAcc w fun x a b => x - a * b) (s.cur.pc + 1))) ∧
  -- ACCSET
  (∀ (s : State) (w : LeWord),
      Issues s { p := true, d := .acc, a := .src } w →
      exec (.leAccset w .clean) s = .next (s.afterLe (s.cur.mapAcc w fun _ a _ => a * 2 ^ bits w.imm.toNat 0 6)
        (s.cur.pc + 1))) ∧
  -- ACCRD
  (∀ (s : State) (w : LeWord),
      Issues s { s := .opt, n := .opt, p := true, d := .dst, a := .acc } w →
      Does (.leAccrd w .clean) s fun t => LaneResult s t w fun i => fit32 w.s (roundShift w.n (s.cur.accReg w.a.toNat
        i).toInt (bits w.imm.toNat 0 6))) ∧
  -- CMPEQ
  (∀ (s : State) (w : LeWord),
      Issues s { p := true, d := .cmpDst, a := .src, b := .src } w →
      exec (.leCmpeq w .clean) s = .next (s.afterLe (s.cur.compare w fun a b => (a == b, 0)) (s.cur.pc + 1))) ∧
  -- CMPLT
  (∀ (s : State) (w : LeWord),
      Issues s { p := true, d := .cmpDst, a := .src, b := .src } w →
      exec (.leCmplt w .clean) s = .next (s.afterLe (s.cur.compare w fun a b => (decide (a.toInt < b.toInt), 0))
        (s.cur.pc + 1))) ∧
  -- CMPLE
  (∀ (s : State) (w : LeWord),
      Issues s { p := true, d := .cmpDst, a := .src, b := .src } w →
      exec (.leCmple w .clean) s = .next (s.afterLe (s.cur.compare w fun a b => (decide (a.toInt ≤ b.toInt), 0))
        (s.cur.pc + 1))) ∧
  -- CMPLTU
  (∀ (s : State) (w : LeWord),
      Issues s { p := true, d := .cmpDst, a := .src, b := .src } w →
      exec (.leCmpltu w .clean) s = .next (s.afterLe (s.cur.compare w fun a b => (decide (a.toNat < b.toNat), 0))
        (s.cur.pc + 1))) ∧
  -- FCMPEQ
  (∀ (s : State) (w : LeWord),
      Issues s { p := true, d := .cmpDst, a := .src, b := .src } w →
      exec (.leFcmpeq w .clean) s = .next (s.afterLe (s.cur.compare w (fCmp fun o => decide (o = 0))) (s.cur.pc +
        1))) ∧
  -- FCMPLT
  (∀ (s : State) (w : LeWord),
      Issues s { p := true, d := .cmpDst, a := .src, b := .src } w →
      exec (.leFcmplt w .clean) s = .next (s.afterLe (s.cur.compare w (fCmp fun o => decide (o < 0))) (s.cur.pc +
        1))) ∧
  -- FCMPLE
  (∀ (s : State) (w : LeWord),
      Issues s { p := true, d := .cmpDst, a := .src, b := .src } w →
      exec (.leFcmple w .clean) s = .next (s.afterLe (s.cur.compare w (fCmp fun o => decide (o ≤ 0))) (s.cur.pc +
        1))) ∧
  -- PAND
  (∀ (s : State) (w : LeWord),
      Issues s { v := .zero, d := .pred, a := .pred, b := .pred } w →
      exec (.lePand w .clean) s = .next (s.afterLe (s.cur.setP w.d.toNat (s.cur.pReg w.a.toNat &&& s.cur.pReg
        w.b.toNat)) (s.cur.pc + 1))) ∧
  -- POR
  (∀ (s : State) (w : LeWord),
      Issues s { v := .zero, d := .pred, a := .pred, b := .pred } w →
      exec (.lePor w .clean) s = .next (s.afterLe (s.cur.setP w.d.toNat (s.cur.pReg w.a.toNat ||| s.cur.pReg
        w.b.toNat)) (s.cur.pc + 1))) ∧
  -- PXOR
  (∀ (s : State) (w : LeWord),
      Issues s { v := .zero, d := .pred, a := .pred, b := .pred } w →
      exec (.lePxor w .clean) s = .next (s.afterLe (s.cur.setP w.d.toNat (s.cur.pReg w.a.toNat ^^^ s.cur.pReg
        w.b.toNat)) (s.cur.pc + 1))) ∧
  -- PNOT
  (∀ (s : State) (w : LeWord),
      Issues s { v := .zero, d := .pred, a := .pred } w →
      exec (.lePnot w .clean) s = .next (s.afterLe (s.cur.setP w.d.toNat (~~~ s.cur.pReg w.a.toNat)) (s.cur.pc + 1))) ∧
  -- PSET
  (∀ (s : State) (w : LeWord),
      Issues s { v := .zero, d := .pred } w →
      exec (.lePset w .clean) s = .next (s.afterLe (s.cur.setP w.d.toNat (BitVec.ofNat 16 w.imm.toNat)) (s.cur.pc +
        1))) ∧
  -- PTOS
  (∀ (s : State) (w : LeWord),
      Issues s { v := .zero, d := .scalar, a := .pred } w →
      exec (.lePtos w .clean) s = .next (s.afterLe (s.cur.setS w.d.toNat (word (s.cur.pReg w.a.toNat).toNat))
        (s.cur.pc + 1))) ∧
  -- STOP
  (∀ (s : State) (w : LeWord),
      Issues s { v := .zero, d := .pred, a := .scalar } w →
      exec (.leStop w .clean) s = .next (s.afterLe (s.cur.setP w.d.toNat (BitVec.ofNat 16 (s.cur.sReg
        w.a.toNat).toNat)) (s.cur.pc + 1))) ∧
  -- VEXT
  (∀ (s : State) (w : LeWord),
      Issues s { v := .one, d := .scalar, a := .src } w →
      exec (.leVext w .clean) s = .next (s.afterLe (s.cur.setS w.d.toNat (s.opA w (bits w.imm.toNat 0 4))) (s.cur.pc
        + 1))) ∧
  -- VINS
  (∀ (s : State) (w : LeWord),
      Issues s { v := .one, d := .vdst, a := .scalar } w →
      exec (.leVins w .clean) s = .next (s.afterLe (s.cur.setV w.d.toNat (bits w.imm.toNat 0 4) (s.cur.sReg
        w.a.toNat)) (s.cur.pc + 1))) ∧
  -- RSUM
  (∀ (s : State) (w : LeWord),
      Issues s { v := .one, s := .opt, p := true, d := .scalar, a := .src } w →
      exec (.leRsum w .clean) s = .next (s.afterLe (s.cur.laneSum w) (s.cur.pc + 1))) ∧
  -- GETF
  (∀ (s : State) (w : LeWord),
      Issues s { v := .zero, d := .scalar } w →
      exec (.leGetf w .clean) s = .next (s.afterLe (s.cur.setS w.d.toNat s.cur.flags) (s.cur.pc + 1))) ∧
  -- CLRF
  (∀ (s : State) (w : LeWord),
      Issues s { v := .zero } w →
      exec (.leClrf w .clean) s = .next (s.afterLe ({ s.cur with flags := s.cur.flags &&& ~~~ (w.imm &&& 31) })
        (s.cur.pc + 1)))

/-- In the vector form of a compare, bit i of the predicate becomes the result of lane i where lane i takes part and
stands where it does not. In the scalar form the scalar becomes 1 or 0. In an accumulator instruction each lane that
takes part receives the exact sum, held at the 80-bit bounds, and every other accumulator lane stands. -/
def Obligations.CompareAndAccumulatorLanes : Prop :=
  (∀ (c : Ctx) (w : LeWord) (f : Word → Word → Bool × Word) (i : Nat),
      w.v = true → i < 16 →
      ((c.compare w f).pReg w.d.toNat).getLsbD i = if i ∈ c.taking w then (f (c.src w w.a i) (c.src w w.b i)).1 else
        (c.pReg w.d.toNat).getLsbD i) ∧
  (∀ (c : Ctx) (w : LeWord) (f : Word → Word → Bool × Word),
      w.v = false →
      (c.compare w f).sReg w.d.toNat = if (f (c.sReg w.a.toNat) (c.sReg w.b.toNat)).1 then 1 else 0) ∧
  (∀ (c : Ctx) (w : LeWord) (f : Int → Int → Int → Int) (k i : Nat),
      i < 16 → i ∈ leLanes w →
      (c.mapAcc w f).accReg k i = if k = w.d.toNat ∧ i ∈ c.taking w then BitVec.ofInt 80 (clampInt (-(2 ^ 79)) (2 ^
        79 - 1) (f (c.accReg k i).toInt (c.src w w.a i).toInt (c.src w w.b i).toInt)) else c.accReg k i)

/-- LD loads each lane that takes part from the LDM or the context's bank. ST stores them in rising order within the
context's window. RDRES takes its snapshots and reads the words; STAGE and IOST write each word; COMMIT seals the
groups of its mask; TRC writes a record, SIG requests a start. CANDSET keeps its configuration, CANDEVAL queues the
evaluation, CANDSEL reads its result. Each goes on to the next instruction. END ends the run, and YIELD goes behind
the READY contexts of its priority. A reserved opcode raises ILLEGAL. -/
def Obligations.MemoryAndStagingInstructions : Prop :=
  -- LD
  (∀ (s : State) (w : LeWord),
      Issues s { p := true, d := .dst, a := .scalar, bad := decide (2 ≤ leSpace w) } w →
      s.cur.leMisaligned w = false →
      Does (.leLd w .clean) s fun t => LaneResult s t w fun i => (s.leLoadWord s.cur w i, 0)) ∧
  -- ST
  (∀ (s : State) (w : LeWord),
      Issues s { p := true, d := .src, a := .scalar, bad := leSpace w == 3 } w → s.cur.leMisaligned w = false →
      leSpace w = 0 → (s.cur.taking w).all (fun i => s.cur.inWindow (s.cur.ldmAddr w i)) = true →
      exec (.leSt w .clean) s = .next (((s.cur.taking w).foldl (fun t i => t.setMemWord (ldmBase + s.cur.ldmAddr w i)
        (s.cur.src w w.d i)) s).setPc s.le.running (s.cur.pc + 1))) ∧
  -- RDRES
  (∀ (s u : State) (w : LeWord) (r : Nat) (l : List (Nat × Nat)),
      Issues s { p := true, d := .dst, a := .scalar } w → l = ioLanes s.cur w (ioAddr s.cur w w.a) →
      (w.v = true → ioAddr s.cur w w.a % 16 = 0) → (firstIoExc (l.map fun x => ioReadExc x.2) = none) →
      l.any (fun x => s.ioBusy s.le.running x.2) = false →
      u = l.foldl (fun t x => t.ioSnap s.le.running x.2) s →
      exec (.leRdres w .clean r) s = .next ((u.setCtx s.le.running (l.foldl (fun c x => c.setDst w w.d.toNat x.1
        (u.ioValue s.le.running x.2)) (u.ctx s.le.running))).setPc s.le.running (s.cur.pc + 1))) ∧
  -- STAGE
  (∀ (s : State) (w : LeWord) (l : List (Nat × Nat)),
      Issues s { p := true, a := .src, b := .scalar } w → l = ioLanes s.cur w (ioAddr s.cur w w.b) →
      (w.v = true → ioAddr s.cur w w.b % 16 = 0) →
      (firstIoExc (l.map fun x => ioStageExc s.cur.desc x.2) = none) →
      exec (.leStage w .clean) s = .next ((l.foldl (fun t x => t.stageWord ((x.2 - 0x200) / 32) (x.2 % 32) (s.cur.src
        w w.a x.1)) s).setPc s.le.running (s.cur.pc + 1))) ∧
  -- IOST
  (∀ (s : State) (w : LeWord) (l : List (Nat × Nat)),
      Issues s { p := true, a := .src, b := .scalar } w → l = ioLanes s.cur w (ioAddr s.cur w w.b) →
      (w.v = true → ioAddr s.cur w w.b % 16 = 0) →
      (firstIoExc (l.map fun x => ioWriteExc s.cur.desc x.2) = none) →
      exec (.leIost w .clean) s = .next ((l.foldl (fun t x => t.ioWrite s.le.running x.2 (s.cur.src w w.a x.1))
        s).setPc s.le.running (s.cur.pc + 1))) ∧
  -- COMMIT
  (∀ (s : State) (w : LeWord) (gs : List Nat),
      Issues s { v := .zero } w → (gs = (List.range 8).filter fun g => w.imm.getLsbD g) →
      gs.all (fun g => bit s.cur.desc.stageGroups g) = true →
      exec (.leCommit w .clean) s = .next ((gs.foldl (fun t g => t.sealGroup s.le.running g) s).setPc s.le.running
        (s.cur.pc + 1))) ∧
  -- TRC
  (∀ (s : State) (w : LeWord),
      Issues s { v := .zero, a := .scalar, b := .scalar } w →
      exec (.leTrc w .clean) s = .next ((s.trace s.le.running 0 (leBytes 4 (s.cur.sReg w.a.toNat).toNat ++ leBytes 4
        (s.cur.sReg w.b.toNat).toNat)).setPc s.le.running (s.cur.pc + 1))) ∧
  -- SIG
  (∀ (s : State) (w : LeWord),
      Issues s { v := .zero, bad := bits w.imm.toNat 0 6 == 0 } w →
      exec (.leSig w .clean) s = .next ((s.request (bits w.imm.toNat 0 6) 3 0).1.setPc s.le.running (s.cur.pc + 1))) ∧
  -- CANDSET
  (∀ (s : State) (w : LeWord),
      Issues s { v := .zero, bad := bits w.imm.toNat 0 8 == 0 } w → bits w.imm.toNat 0 8 ≤ s.cur.desc.ceQuota →
      ((candCfg w.imm).wrt = true → bit s.cur.desc.stageGroups (candCfg w.imm).group = true) →
      exec (.leCandset w .clean) s = .next (s.afterLe { s.cur with candset := some (candCfg w.imm) } (s.cur.pc + 1))) ∧
  -- CANDEVAL
  (∀ (s u : State) (w : LeWord) (k : CandCfg) (r : Nat),
      Issues s { v := .one, a := .src, b := .src, c := .src } w → s.cur.candset = some k →
      s.cePending s.le.running = false →
      (u = s.plbCheck s.le.running ((List.range 8).map fun i => s.cur.src w w.a i)) →
      Does (.leCandeval w .clean r) s fun t => (∃ e : EvalReq, t.ce.queue = u.ce.queue ++ [e] ∧ e.ctx = s.le.running
        ∧ e.cfg = k ∧ e.x = ((List.range 8).map fun i => s.cur.src w w.a i) ∧ e.r = ((List.range 8).map fun i =>
        s.cur.src w w.b i) ∧ e.d = ((List.range 8).map fun i => s.cur.src w w.c i)) ∧ (t.ctx s.le.running).evalIssued
        = true ∧ (t.ctx s.le.running).pc = s.cur.pc + 1) ∧
  -- CANDSEL
  (∀ (s u : State) (w : LeWord) (r : EvalResult) (m : Nat),
      Issues s { v := .zero, d := .sPair } w → s.cur.evalIssued = true → s.cur.evalRes = some r →
      u = s.stageResult s.le.running r →
      exec (.leCandsel w .clean m) s = .next ((u.setCtx s.le.running (((u.ctx s.le.running).setS w.d.toNat
        r.index).setS (w.d.toNat + 1) r.cost)).setPc s.le.running (s.cur.pc + 1))) ∧
  -- END
  (∀ (s : State) (w : LeWord),
      Issues s { v := .zero } w →
      exec (.leEnd w .clean) s = .next (s.endRun s.le.running).mirReady) ∧
  -- YIELD
  (∀ (s : State) (w : LeWord),
      Issues s { v := .zero } w →
      s.le.queue.any (fun m => (s.ctx m).st == .ready && (s.ctx m).desc.prio == s.cur.desc.prio) = false →
      exec (.leYield w .clean) s = .next (s.setPc s.le.running (s.cur.pc + 1))) ∧
  -- YIELD
  (∀ (s : State) (w : LeWord),
      Issues s { v := .zero } w →
      s.le.queue.any (fun m => (s.ctx m).st == .ready && (s.ctx m).desc.prio == s.cur.desc.prio) = true →
      exec (.leYield w .clean) s = .next ((s.dropLanes.setCtx s.le.running {
          s.dropLanes.ctx s.le.running with st := .ready, pc := s.cur.pc + 1 }).enqueue s.le.running)) ∧
  -- RESERVED_OPCODE
  (∀ (s : State) (w : LeWord),
      s.le.running ≠ 0 → s.leOpen = true →
      exec (.reservedOpcode w .clean) s = .next (s.raise s.le.running .illegal))

/-- Where ST stores, every byte of memory outside the words of the lanes that take part reads as before. Each such
word of the LDM holds the data of the highest lane that stores to it. No register, flag or staging word changes. -/
def Obligations.StoreWritesItsWordsOnly : Prop :=
  (∀ (s : State) (w : LeWord) (a : Nat),
      Issues s { p := true, d := .src, a := .scalar, bad := leSpace w == 3 } w → s.cur.leMisaligned w = false →
      leSpace w = 0 → (s.cur.taking w).all (fun i => s.cur.inWindow (s.cur.ldmAddr w i)) = true →
      (∀ i ∈ s.cur.taking w, a < ldmBase + s.cur.ldmAddr w i ∨ ldmBase + s.cur.ldmAddr w i + 4 ≤ a) →
      Does (.leSt w .clean) s fun t => t.byte a = s.byte a ∧ t.regs = s.regs ∧ t.pwm = s.pwm ∧ (t.ctx
        s.le.running).flags = s.cur.flags ∧ (t.ctx s.le.running).s = s.cur.s ∧ (t.ctx s.le.running).v = s.cur.v) ∧
  (∀ (s : State) (w : LeWord) (i : Nat),
      Issues s { p := true, d := .src, a := .scalar, bad := leSpace w == 3 } w → s.cur.leMisaligned w = false →
      leSpace w = 0 → (s.cur.taking w).all (fun i => s.cur.inWindow (s.cur.ldmAddr w i)) = true →
      i ∈ s.cur.taking w → (∀ j ∈ s.cur.taking w, i < j → s.cur.ldmAddr w j ≠ s.cur.ldmAddr w i) →
      Does (.leSt w .clean) s fun t => t.memWord (ldmBase + s.cur.ldmAddr w i) = s.cur.src w w.d i)

/-- An instruction that meets an error on fetch raises ECC, whatever else is wrong with it; one without a permitted
form raises ILLEGAL before any other cause; an ECC error on its data raises ECC and discards its effect. The context
enters FAULT with the code and the index of the instruction, keeps its registers, and leaves the lanes. -/
def Obligations.ExceptionsLeaveNoEffect : Prop :=
  (∀ (s : State) (w : LeWord) (f : Form) (body : State → Nat → LeRes),
      s.le.running ≠ 0 → s.leOpen = true →
      s.leIssue f w .fetch body = s.raise s.le.running .ecc) ∧
  (∀ (s : State) (w : LeWord) (f : Form) (body : State → Nat → LeRes) (e : Ecc),
      s.le.running ≠ 0 → s.leOpen = true → e ≠ .fetch → f.legal w = false →
      s.leIssue f w e body = s.raise s.le.running .illegal) ∧
  (∀ (s t : State) (w : LeWord) (f : Form) (body : State → Nat → LeRes),
      Issues s f w → body s s.le.running = .ok t →
      s.leIssue f w .data body = s.raise s.le.running .ecc) ∧
  (∀ (s : State) (n : Nat) (e : Exc),
      n = s.le.running → n ≠ 0 →
      ((s.raise n e).ctx n).st = .fault ∧ ((s.raise n e).ctx n).excCode = e.code ∧ ((s.raise n e).ctx n).excPc =
        (s.ctx n).pc ∧ ((s.raise n e).ctx n).s = (s.ctx n).s ∧ ((s.raise n e).ctx n).v = (s.ctx n).v ∧ ((s.raise n
        e).ctx n).pend = none ∧ (s.raise n e).le.running = 0)

/-- The evaluator takes the waiting request of highest priority, the earliest among equals, and its wait is recorded;
the end of an evaluation frees it, counts it and gives the context its result. An edge of SETP_P measures its period,
an update evaluates each enabled channel, a raw value outside its window sets LOS with its flag and count, and a
return clears LOS. -/
def Obligations.EvaluatorAndSetPointCommandsComplete : Prop :=
  -- CE_SERVICE_START
  (∀ (s : State) (l m : List EvalReq) (e : EvalReq),
      s.ce.service = none → s.ce.queue = l ++ e :: m → (∀ x ∈ l, x.prio < e.prio) → (∀ x ∈ m, x.prio ≤ e.prio) →
      exec .ceServiceStart s = .next (({ s with ce := { queue := l ++ m, service := some e } } : State).maxReg
        rCE_MAXWAIT (s.le.cyc - e.issued))) ∧
  -- CE_EVALUATION_END
  (∀ (s u : State) (e : EvalReq) (o : EvalOut),
      s.ce.service = some e → o = (s.modelOf e).evaluate (s.takeFrees 19).1 →
      u = (({ (s.takeFrees 19).2 with ce := { s.ce with service := none } } : State).ceCount e.ctx o) →
      exec .ceEvaluationEnd s = .next (u.setCtx e.ctx ((u.ctx e.ctx).takeEval e o))) ∧
  -- SETPOINT_UPDATE
  (∀ (s : State) (v : BitVec 12),
      s.sptMode 0 = 0 → s.sptMode 1 = 0 →
      exec (.setpointUpdate v) s = .next ({ s with spt := { s.spt with quiet := s.spt.quiet + 1 } } : State)) ∧
  -- SETPOINT_UPDATE
  (∀ (s : State) (u : State) (v : BitVec 12),
      s.sptMode 0 ≠ 0 →
      u = ({ s with spt := { s.spt with quiet := s.spt.quiet + 1 } } : State).sptUpdate 0 (fOfRat (3 * (v.toNat : Int))
        4096) →
      u.sptMode 1 ≠ 0 →
      exec (.setpointUpdate v) s = .next (u.sptUpdate 1 u.sptPulseRaw)) ∧
  -- SETP_P_EDGE
  (∀ (s : State) (d : Nat),
      s.spt.rose = true →
      exec (.setpPEdge true d) s = .next ({ s with
          spt := { s.spt with
            level := true, rose := true, quiet := 0, period := s.spt.highNow + d, high := s.spt.highNow } })) ∧
  -- SETP_P_EDGE
  (∀ (s : State) (d : Nat),
      exec (.setpPEdge false d) s = .next ({ s with spt := { s.spt with level := false, highNow := d } })) ∧
  -- SETPOINT_LOS
  (∀ (s : State) (b : Bool),
      s.sptMode (b2n b) ≠ 0 → (s.spt.ch (b2n b)).los = false → s.sptInWindow (b2n b) = false →
      exec (.setpointLos b) s = .next (((s.setSpt (b2n b) { s.spt.ch (b2n b) with los := true }).setBit rSPT_STAT (2
        + b2n b)).inc (if b then rSPT_CNT_LOS_P else rSPT_CNT_LOS_A))) ∧
  -- SETPOINT_RECOVER
  (∀ (s : State) (b : Bool),
      s.sptInWindow (b2n b) = true →
      exec (.setpointRecover b) s = .next (s.setSpt (b2n b) { s.spt.ch (b2n b) with los := false }))

/-- A PLB_CMD CLEAR under the epoch of the selected context sets its bucket to 0, clears its PLB_ACT bit and releases
the PLB_FAULT source of each of its groups; a trip that the source latched stays, since a release alone takes no latch
from a group. Under a stale epoch it only counts. -/
def Obligations.PlausibilityClearDoesThreeThings : Prop :=
  -- PLB_CLEAR
  (∀ (s : State) (n g : Nat) (e : BitVec 16),
      n = bits (s.reg rPLB_CTX_SEL).toNat 0 6 → n ≠ 0 → (s.ctx n).epoch = e.toNat → g < 8 →
      Does (.plbClear e) s fun t => (t.ctx n).bucket = 0 ∧ (if n < 32 then t.regBit rPLB_ACT_LO n else t.regBit
        rPLB_ACT_HI (n - 32)) = false ∧ (bit (s.ctx n).desc.stageGroups g = true → t.srcActive (0x48 + g) = false) ∧
        (t.grp g).latches = (s.grp g).latches) ∧
  -- PLB_CLEAR
  (∀ (s : State) (n : Nat) (e : BitVec 16),
      n = bits (s.reg rPLB_CTX_SEL).toNat 0 6 → n ≠ 0 → (s.ctx n).epoch ≠ e.toNat →
      exec (.plbClear e) s = .next (((s.setCtx n { s.ctx n with cntStale := satInc (s.ctx n).cntStale }).setBit
        rLE_STAT 6).setBit rPLB_STAT 2))

/-- A START of a group that no reason of Table 7.11 refuses arms it, and no output moves; one that a reason refuses stores
that reason's code and changes nothing else. A STOP takes a live group to STOPPED with cause 1, its legs FREE and its
outputs at SAFE_LVL, or into the first stage of the ordered sequence where NPC_SEQ enables it; a group that is not live, or
that tripped during a hop, keeps its state. PWM_START and PWM_STOP do the same on each group of their mask in ascending
order. An ARMED group whose start point has come runs from count 0, of period index 0 or of the master's index. A reload
begins the next period: the period index moves on by one, the count and the period's overlaps are 0, and in EACH mode the
seal that waited is the block in force. A commit request is kept in EVENT mode and has no effect in EACH mode. An edge of
the plan reaches its ball, a blocked overlap is counted and the one beyond SHOOT_MAX trips the group's source, and an event
channel fires once in its period. Where the spec leaves a point of these open, the choice is the model's (log 27, log 46).
-/
def Obligations.GroupCommandsComplete : Prop :=
  -- GROUP_START
  (∀ (s : State) (g : Nat),
      g < 8 → s.startRefuse g = 0 → s.le.halted = false → (s.grd.st = 3 → bit s.ceaseGroups g = false) →
      Does (.groupStart g) s fun t =>
        (t.grp g).st = .armed ∧ (∀ h, h ≠ g → t.grp h = s.grp h) ∧ ∀ o, t.drive o = s.drive o) ∧
  -- GROUP_START
  (∀ (s : State) (g : Nat),
      g < 8 → s.cabValid = true → 0 < s.carMax g → 2 ≤ s.tier → s.clk.learning = false →
      bit s.img.structPend g = false → s.tripBlocks g = false → s.grpMode g ≠ 0 → (s.grp g).st = .stopped →
      (s.grp g).stopAt = none → s.startRefuse g = 0) ∧
  -- GROUP_START
  (∀ (s : State) (g : Nat),
      g < 8 → s.startRefuse g ≠ 0 →
      exec (.groupStart g) s = .next (s.setReg (rPWM_Gn_STAT g) ((s.reg (rPWM_Gn_STAT g) &&& ~~~ word (15 * 2 ^ 20))
        ||| word (s.startRefuse g * 2 ^ 20)))) ∧
  -- PWM_START
  (∀ (s : State) (m : BitVec 8),
      exec (.pwmStart m) s = .next (((List.range 8).filter fun g => m.getLsbD g).foldl
        (fun t g => t.after (.groupStart g)) s)) ∧
  -- GROUP_STOP
  (∀ (s : State) (g : Nat),
      g < 8 → (s.grp g).st.live = true → (s.grp g).tripHop = false → s.npcSeq g = false →
      Does (.groupStop g) s fun t =>
        (t.grp g).st = .stopped ∧ (t.grp g).cause = 1 ∧ (t.grp g).cmtReq = false ∧
        (∀ o, t.drive o = if o ∈ s.groupOuts g then .safeLvl else s.drive o) ∧
        (∀ l ∈ s.groupLegs g, (t.leg l).now = none ∧ (t.leg l).edges = []) ∧ ∀ h, h ≠ g → t.grp h = s.grp h) ∧
  -- GROUP_STOP
  (∀ (s : State) (g : Nat),
      g < 8 → (s.grp g).st.live = true → (s.grp g).tripHop = false → s.npcSeq g = true →
      Does (.groupStop g) s fun t =>
        (t.grp g).st = .stopped ∧ (t.grp g).cause = 1 ∧
        (∀ o, t.drive o = if o ∈ s.groupOuts g ∧ s.outerFuse o = true ∧ s.drive o ≠ .safeLvl then .off else s.drive o) ∧
        (∀ l ∈ s.groupLegs g, (t.leg l).now = none ∧ (t.leg l).edges = []) ∧
        ((∃ o ∈ s.groupOuts g, t.drive o ≠ .safeLvl) → (t.grp g).seqRun = true) ∧ ∀ h, h ≠ g → t.grp h = s.grp h) ∧
  -- GROUP_STOP
  (∀ (s : State) (g : Nat),
      g < 8 → (s.grp g).st.live = false ∨ (s.grp g).tripHop = true →
      exec (.groupStop g) s = .next (s.setGrp g { s.grp g with stopAt := some s.clk.t })) ∧
  -- PWM_STOP
  (∀ (s : State) (m : BitVec 8),
      exec (.pwmStop m) s = .next (((List.range 8).filter fun g => m.getLsbD g).foldl
        (fun t g => t.after (.groupStop g)) s)) ∧
  -- GROUP_START_POINT
  (∀ (s : State) (g : Nat),
      g < 8 → (s.grp g).st = .armed → s.startDue g = true →
      Does (.groupStartPoint g) s fun t =>
        (t.grp g).st = .running ∧ (t.grp g).cntU = 0 ∧
        (t.grp g).pidx = (if s.grpSync g = 2 then s.pwm.markPidx else 0) ∧ (t.grp g).newSeal = none ∧
        (t.grp g).lateSeal = none) ∧
  -- RELOAD
  (∀ (s : State) (g : Nat),
      g < 8 → (s.grp g).st = .running →
      Does (.reload g) s fun t =>
        (t.grp g).st = .running ∧ (t.grp g).pidx = ((s.grp g).pidx + 1) % 2 ^ 32 ∧ (t.grp g).cntU = 0 ∧
        (t.grp g).shoot = 0 ∧ (t.grp g).evPin = 0 ∧
        (s.grpEvent g = false → (t.grp g).block = (s.grp g).newSeal.or (s.grp g).block ∧
          (t.grp g).newSeal = (s.grp g).lateSeal)) ∧
  -- PWM_CMT_REQUEST
  (∀ (s : State) (g : Nat),
      exec (.pwmCmtRequest g) s = .next (if s.grpEvent g then s.setGrp g { s.grp g with cmtReq := true } else s)) ∧
  -- PWM_EDGE
  (∀ (s : State) (l g : Nat) (e : Edge) (es : List Edge),
      s.legGroup l = some g → (s.leg l).edges = e :: es → (s.grp g).st = .running →
      Does (.pwmEdge l) s fun t =>
        (∀ o, t.drive o = if o = e.out then (if e.on then .on else .off) else s.drive o) ∧ (t.leg l).edges = es ∧
        (t.grp g).cntU = max (s.grp g).cntU (e.pos.toNat * 125000)) ∧
  -- SHOOT_BLOCK
  (∀ (s : State) (o g : Nat),
      s.overlap o = true → s.outGroup o = some g → (s.grp g).shoot ≠ s.shootMax g →
      exec (.shootBlock o) s = .next (((s.setGrp g { s.grp g with shoot := (s.grp g).shoot + 1 }).inc
        (rPWM_Gn_CNT_SHOOT g)).setBit (rPWM_Gn_STAT g) 4)) ∧
  -- SHOOT_BLOCK
  (∀ (s : State) (o g : Nat),
      s.overlap o = true → s.outGroup o = some g → (s.grp g).shoot = s.shootMax g → g < 8 →
      (s.grp g).st = .running → s.npcSeq g = false →
      Does (.shootBlock o) s fun t => (t.grp g).st = .tripped ∧ ∀ o ∈ s.groupOuts g, t.drive o = .safeLvl) ∧
  -- EVENT_CHANNEL_FIRE
  (∀ (s : State) (g ch cnt : Nat),
      (s.grp g).st = .running → ch < 2 → bit (s.grpEvcfg g ch) 9 = true → bits (s.grpEvcfg g ch) 4 5 < 16 →
      (s.grp g).pidx % (bits (s.grpEvcfg g ch) 0 4 + 1) = 0 → bit (s.grp g).evPin ch = false →
      cnt = (match (s.grp g).block with
        | some b => bits (blockWord b (11 + ch)).toNat 0 24
        | none => s.grpEvdef g ch % 2 ^ 24) → cnt < (s.grp g).per →
      exec (.eventChannelFire g ch) s = .next ({
          s.setGrp g { s.grp g with evPin := (s.grp g).evPin + 2 ^ ch } with
          pins := if bits (s.grpEvcfg g ch) 10 2 = 3 then
              { s.pins with gpio := s.pins.gpio ^^^ BitVec.ofNat 16 (2 ^ bits (s.grpEvcfg g ch) 4 5) }
            else s.pins } : State))

/-- A hop whose PLL is locked, with the group of the operating-point word RUNNING, freezes every RUNNING group, its legs
holding their levels, or FREE where HOP_FREE is set. The resume takes the operating point, counts the hop, and lets every
FROZEN group run; one that tripped meanwhile is TRIPPED. One step of the phase corrects the alignment error by one step and
is counted; a lost alignment stops it and is flagged; a mark from the holder of ALIGN is measured with the delay it took,
ALIGN_OK following the error; reading PWM_Gn_CNT snapshots the period index. Where the spec leaves a point of these open,
the choice is the model's (log 13). -/
def Obligations.CarrierClockCommandsComplete : Prop :=
  -- PTC_HOP
  (∀ (s : State) (op : Nat),
      s.gs.hop = some op → s.clk.ptcLock = true → s.clk.learning = false → s.clk.hopTo = none →
      (s.grp (field (s.sec secRegions) 2 1 % 8)).st = .running →
      Does .ptcHop s fun t =>
        t.gs.hop = none ∧ t.clk = { s.clk with hopTo := some op } ∧
        (∀ g, g < 8 → t.grp g = if (s.grp g).st = .running then { s.grp g with st := .frozen } else s.grp g) ∧
        (∀ o, t.drive o = .off ∧ (∃ g, g < 8 ∧ (s.grp g).st = .running ∧ s.grpHopFree g = true ∧ o ∈ s.groupOuts g) ∨
          t.drive o = s.drive o)) ∧
  -- PTC_HOP_RESUME
  (∀ (s : State) (op ns : Nat),
      s.clk.hopTo = some op → s.codeUsable op = true →
      Does (.ptcHopResume ns) s fun t =>
        t.clk = { s.clk with
          op := op, hopTo := none, hopLast := min 0xFFFFFFFF ns, ndiv := (s.opPoint op).1
          rdiv := max 1 (s.opPoint op).2 } ∧
        t.regBit rGS_STAT 4 = true ∧ (t.reg rCLK_CNT_HOP).toNat = satInc (s.reg rCLK_CNT_HOP).toNat ∧
        ∀ g, g < 8 → (s.grp g).st = .frozen →
          ((s.grp g).tripHop = false → (t.grp g).st = .running ∧ (t.grp g).resume = true ∧
            (t.grp g).pidx = (s.grp g).pidx) ∧
          ((s.grp g).tripHop = true → (t.grp g).st ≠ .frozen ∧ (t.grp g).st ≠ .running)) ∧
  -- ALIGN_PHASE_STEP
  (∀ s : State,
      s.pwm.alignAct = true → 500000 < s.pwm.alignErr.natAbs →
      exec .alignPhaseStep s = .next ((({ s with
          pwm := { s.pwm with
            alignErr := if s.pwm.alignErr > 0 then s.pwm.alignErr - s.phaseStep else s.pwm.alignErr + s.phaseStep } }
        : State).inc rPWM_PHSTEP_CNT).alignEval)) ∧
  -- ALIGN_PHASE_STEP
  (∀ s : State,
      s.pwm.alignAct = false ∨ s.pwm.alignErr.natAbs ≤ 500000 → exec .alignPhaseStep s = .next s) ∧
  -- ALIGN_LOSS
  (∀ s : State,
      exec .alignLoss s = .next (({ s with
          pwm := { s.pwm with alignAct := false, alignOk := false, marksMissed := 8 } } : State).setBit rPWM_STAT 5)) ∧
  -- MARK_FRAME
  (∀ (s : State) (f : TrsFrame) (e : Int),
      f.type = 2 → s.roleAccepts 2 f = true →
      Does (.markFrame f e) s fun t =>
        t.pwm.alignAct = true ∧ t.pwm.marksMissed = 0 ∧ t.pwm.markPidx = field f.payload 0 4 ∧
        t.pwm.alignErr = e + ((f.accd + s.linkDelay f.ringB) * 15625 : Nat) ∧
        t.pwm.alignOk = decide (t.pwm.alignErr.natAbs ≤ 1000000) ∧
        ∀ g, g < 8 → (s.grp g).st = .armed → s.grpSync g = 2 → (t.grp g).marked = true) ∧
  -- PWM_CNT_READ
  (∀ (s : State) (g : Nat),
      exec (.pwmCntRead g) s = .next (s.setGrp g { s.grp g with pidxSnap := word (s.grp g).pidx }))

/-- The result of a slot of the sequence in progress writes its word with the code of R186 for the voltage, clipped with
OVR, the reason of Table 8.5 and the next sequence number; a cross-check may then mark it. A calibration that runs is
completed or gives the coefficients of the converters named. A reference check in range clears the converter's count, one
out of range counts and a second one in a row marks the converter failed, as a check that does not complete does at once; a
failed converter that serves arms the swap to a free and healthy ADC E, or exhausts the spare. SWAP and RESTORE arm,
withdraw or are refused, and their applications move the map, the first conversion of the new converter marked. SDM_CTL
keeps an allowed word for the next output and flags another. A modulator output gives its channel's value: valid, invalid
with reason OVERLOAD where its path overloads, or with SETTLE where it first applies waiting settings. Where the spec leaves
a point of these open, the choice is the model's (log 26, log 39, log 45). -/
def Obligations.ConverterCommandsComplete : Prop :=
  -- SAR_SLOT_RESULT
  (∀ (s : State) (c w x p : Nat) (r : SeqRun) (nV exact : Int) (res : Word),
      c < 4 → (s.conv c).run = some r → x = s.slotAt c r.seq r.slot → w = 64 * c + slotIndex x →
      p = (s.conv c).oldPhys.getD (s.adcMap c) →
      exact = divNearest (32768 * 2 ^ slotRange x * (nV - 1500000000)) 1500000000 →
      res = resultWord (BitVec.ofInt 16 (clampInt (-32768) 32767 exact)) (s.convReason c p r (slotRange x))
        (decide (exact < -32768) || decide (32767 < exact)) (p == 4) (s.phys p).calibrated
        (bits (s.result w).toNat 24 2 + 1) (slotChannel x) →
      Does (.sarSlotResult c nV) s fun t =>
        (t.result w = res ∨ t.result w = res ||| word (2 ^ 21)) ∧ (s.nXchk = 0 → t.result w = res) ∧
        (t.phys p).prevRange = slotRange x ∧ (t.phys p).swapMark = false) ∧
  -- SAR_SLOT_RESULT
  (∀ (s : State) (c : Nat) (nV : Int),
      c < 4 → (s.conv c).run = none → Does (.sarSlotResult c nV) s fun t => t.adc.results = s.adc.results) ∧
  -- ADC_CALIBRATION_DONE
  (∀ s : State,
      s.adc.calRun = true →
      exec .adcCalibrationDone s = .next ((({ s with
          adc := { s.adc with calRun := false } } : State).setBit rADC_STAT 8).retier)) ∧
  -- ADC_CALIBRATION_DONE
  (∀ s : State, s.adc.calRun = false → exec .adcCalibrationDone s = .next s) ∧
  -- CAL_COEFF_APPLY
  (∀ (s : State) (m : BitVec 5),
      s.adc.calRun = true ∨ s.regBit rADC_STAT 8 = true →
      Does (.calCoeffApply m) s fun t =>
        ∀ p, t.phys p = if p < 5 ∧ m.getLsbD p = true then { s.phys p with calibrated := true } else s.phys p) ∧
  -- CAL_COEFF_APPLY
  (∀ (s : State) (m : BitVec 5),
      s.adc.calRun = false → s.regBit rADC_STAT 8 = false → exec (.calCoeffApply m) s = .next s) ∧
  -- SDM_CALIBRATION_DONE
  (∀ s : State, exec .sdmCalibrationDone s = .next ((s.setBit rSDM_STAT 3).retier)) ∧
  -- REFERENCE_CHECK
  (∀ (s : State) (p : Nat) (vref vdda agnd : BitVec 16),
      p < 5 → (∀ c, s.servedBy p = some c → (s.conv c).run = none) → (vref.toInt + 6554).natAbs ≤ 328 →
      (agnd.toInt + 32768).natAbs ≤ 328 →
      exec (.referenceCheck p vref vdda agnd true) s = .next (({ s with
          adc := { s.adc with vdda := some vdda.toInt } } : State).setPhys p { s.phys p with refFails := 0 })) ∧
  -- REFERENCE_CHECK
  (∀ (s : State) (p : Nat) (vref vdda agnd : BitVec 16),
      p < 5 → s.servedBy p = none → 328 < (vref.toInt + 6554).natAbs ∨ 328 < (agnd.toInt + 32768).natAbs →
      Does (.referenceCheck p vref vdda agnd true) s fun t =>
        (t.phys p).refFails = (s.phys p).refFails + 1 ∧
        (t.phys p).failed = ((s.phys p).failed || decide (1 ≤ (s.phys p).refFails)) ∧
        (t.reg rADC_CNT_REF).toNat = satInc (s.reg rADC_CNT_REF).toNat ∧ t.adc.armed = s.adc.armed) ∧
  -- REFERENCE_CHECK
  (∀ (s : State) (p c : Nat) (vref vdda agnd : BitVec 16),
      p < 4 → s.servedBy p = some c → (s.conv c).run = none → (s.phys p).failed = false →
      (s.phys 4).failed = false → s.servedBy 4 = none → s.adc.armed = none →
      Does (.referenceCheck p vref vdda agnd false) s fun t =>
        (t.phys p).failed = true ∧ t.regBit rADC_STAT 3 = true ∧ t.adc.armed = some (c, false)) ∧
  -- REFERENCE_CHECK
  (∀ (s : State) (p c : Nat) (vref vdda agnd : BitVec 16),
      p < 5 → s.servedBy p = some c → (s.conv c).run = none → (s.phys p).failed = false →
      (s.phys 4).failed = true ∨ p = 4 →
      Does (.referenceCheck p vref vdda agnd false) s fun t =>
        (t.phys p).failed = true ∧ t.regBit rADC_STAT 3 = true ∧ t.regBit rADC_STAT 6 = true ∧
        t.adc.armed = s.adc.armed) ∧
  -- REFERENCE_CHECK
  (∀ (s : State) (p c : Nat) (vref vdda agnd : BitVec 16) (d : Bool),
      s.servedBy p = some c → (s.conv c).run.isSome = true → exec (.referenceCheck p vref vdda agnd d) s = .next s) ∧
  -- REFCHK_LATE
  (∀ (s : State) (p : Nat), p < 5 → exec (.refchkLate p) s = .next (s.setBit rADC_STAT 7)) ∧
  -- SWAP
  (∀ (s : State) (k : Nat),
      k < 4 → s.eBusy = false →
      exec (.swap k) s = .next ({ s with adc := { s.adc with armed := some (k, false) } })) ∧
  -- SWAP
  (∀ (s : State) (k : Nat), (4 ≤ k ∨ s.eBusy = true) → exec (.swap k) s = .next (s.setBit rADC_STAT 9)) ∧
  -- RESTORE
  (∀ (s : State) (k : Nat),
      s.adc.armed = some (k, false) →
      exec (.restore k) s = .next ({ s with adc := { s.adc with armed := none } })) ∧
  -- RESTORE
  (∀ (s : State) (k : Nat),
      s.adc.armed ≠ some (k, false) → s.servedBy 4 = some k →
      exec (.restore k) s = .next ({ s with adc := { s.adc with armed := some (k, true) } })) ∧
  -- RESTORE
  (∀ (s : State) (k : Nat),
      s.adc.armed ≠ some (k, false) → s.servedBy 4 ≠ some k → exec (.restore k) s = .next (s.setBit rADC_STAT 9)) ∧
  -- SWAP_APPLY
  (∀ (s : State) (k : Nat),
      s.adc.armed = some (k, false) →
      Does .swapApply s fun t =>
        (∀ j, t.adcMap j = if j = k then 4 else s.adcMap j) ∧ t.adc.armed = none ∧ (t.phys 4).swapMark = true ∧
        (t.conv k).oldPhys = (match (s.conv k).run with
          | some r => if r.since = s.clk.t then none else some ((s.conv k).oldPhys.getD (s.adcMap k))
          | none => none)) ∧
  -- RESTORE_APPLY
  (∀ (s : State) (k : Nat),
      s.adc.armed = some (k, true) →
      Does .restoreApply s fun t =>
        (∀ j, t.adcMap j = if j = k then k else s.adcMap j) ∧ t.adc.armed = none ∧ (t.phys k).swapMark = true) ∧
  -- SDM_OUTPUT
  (∀ (s : State) (k hv : Nat) (lo hi : BitVec 28) (c : SdmCh),
      k < 7 → c = s.sdmCh k → c.ctlNew = none → ctlEn c.ctl = true → s.sdm.clkLost = false → c.hold = 0 → c.ovlLo = 0 →
      sdmAuto k c.ctl = false →
      Does (.sdmOutput k (.metering lo hi 0 hv)) s fun t =>
        (t.sdmCh k).w0 = word (lo.toNat + 2 ^ 28) ∧ (t.sdmCh k).count = (c.count + 1) % 256) ∧
  -- SDM_OUTPUT
  (∀ (s : State) (k : Nat) (lo hi : BitVec 28) (c : SdmCh),
      k < 7 → c = s.sdmCh k → c.ctlNew = none → ctlEn c.ctl = true → s.sdm.clkLost = false → c.hold = 0 → c.ovlLo = 0 →
      c.ovlHi = 0 → sdmAuto k c.ctl = true →
      Does (.sdmOutput k (.metering lo hi 0 0)) s fun t =>
        (t.sdmCh k).w0 = word ((if hi.toInt.natAbs ≤ 7340032 then hi else lo).toNat + 2 ^ 28) ∧
        (t.sdmCh k).w1.getLsbD 1 = decide (hi.toInt.natAbs ≤ 7340032)) ∧
  -- SDM_OUTPUT
  (∀ (s : State) (k n : Nat) (lo hi : BitVec 28) (c : SdmCh),
      k < 7 → c = s.sdmCh k → c.ctlNew = none → ctlEn c.ctl = true → s.sdm.clkLost = false →
      sdmAuto k c.ctl = false → 0 < n →
      Does (.sdmOutput k (.metering lo hi n 0)) s fun t =>
        (t.sdmCh k).w0 = word (lo.toNat + 6 * 2 ^ 29) ∧ t.regBit rSDM_STAT 0 = true ∧
        (t.reg rSDM_CNT_OVL).toNat = min 0xFFFFFFFF ((s.reg rSDM_CNT_OVL).toNat + n)) ∧
  -- SDM_OUTPUT
  (∀ (s : State) (k : Nat) (lo hi : BitVec 28) (c : SdmCh) (v : Word),
      k < 7 → c = s.sdmCh k → c.ctlNew = some v → v ≠ c.ctl → ctlEn v = true → s.sdm.clkLost = false →
      sdmAuto k v = false →
      Does (.sdmOutput k (.metering lo hi 0 0)) s fun t =>
        (t.sdmCh k).ctl = v ∧ (t.sdmCh k).ctlNew = none ∧ (t.sdmCh k).hold = 2 ∧
        (t.sdmCh k).w0 = word (lo.toNat + 5 * 2 ^ 29) ∧
        (t.reg rSDM_CNT_SETTLE).toNat = satInc (s.reg rSDM_CNT_SETTLE).toNat) ∧
  -- SDM_OUTPUT
  (∀ (s : State) (k n : Nat) (v : BitVec 28),
      k < 4 → ctlEn (s.sdmCh k).ctl = true → s.sdm.clkLost = false →
      Does (.sdmOutput k (.tracking v n)) s fun t =>
        (t.sdmCh k).trk.value = v.toInt ∧ (t.sdmCh k).trk.time = some s.clk.t ∧
        (t.sdmCh k).trk.valid = decide (n = 0 ∧ (s.sdmCh k).trk.hold = 0)) ∧
  -- SDM_CTL_WRITE
  (∀ (s : State) (k : Nat) (w : Word),
      k < 7 → sdmCtlOk k w = true →
      exec (.sdmCtlWrite k w) s = .next (s.setSdmCh k { s.sdmCh k with ctlNew := some (w &&& 0x3F) })) ∧
  -- SDM_CTL_WRITE
  (∀ (s : State) (k : Nat) (w : Word),
      k < 7 → sdmCtlOk k w = false →
      exec (.sdmCtlWrite k w) s = .next (s.setBit rSDM_STAT 4))

/-- The raw output of a live comparator is active while its input lies beyond the threshold, and until it lies beyond the
release level. A filtered output that follows it to active makes its source active, raises interrupt 1 and starts the ADC
where its destinations say so; inside a blanking window the transition is only counted; one to inactive releases its source
and takes no latch away. A held trip source is released by its proof. A spare moves to the next assigned comparator, a
disagreement is counted and measured, and the measurement decides which of the two failed: the spare is marked, or takes the
place of the failed one with the state that it measured, or none is left and a trip source is held active; inside the band
it repeats up to 8 times. Where the spec leaves a point of these open, the choice is the model's (log 39, log 45). -/
def Obligations.ComparatorCommandsComplete : Prop :=
  -- COMPARATOR_RAW_CHANGE
  (∀ (s : State) (n : Nat) (nV vdda d : Int),
      n < 18 → s.cmpLive n = true →
      d = (if s.cmpLow n then (s.cmpThr n : Int) * vdda - nV * 4096 else nV * 4096 - (s.cmpThr n : Int) * vdda) →
      Does (.comparatorRawChange n nV vdda) s fun t =>
        (t.cmp n).raw = (if 0 < d then true else if d < -4096 * s.cmpHyst n then false else (s.cmp n).raw) ∧
        (t.cmp n).out = (s.cmp n).out ∧ ∀ k, k ≠ n → t.cmp k = s.cmp k) ∧
  -- COMPARATOR_FILTERED_CHANGE
  (∀ (s : State) (n : Nat),
      n < 18 → s.cmpLive n = true → (s.cmp n).dead = false → (s.cmp n).startHeld = false → (s.cmp n).raw = true →
      (s.cmp n).out = false → s.cmpSettled n = true → s.cmpBlanked n = false →
      Does (.comparatorFilteredChange n) s fun t =>
        (t.cmp n).out = true ∧ (t.cmp n).undet = false ∧ t.srcActive n = true ∧
        (bit (s.cmpField n 6 1) 1 = true → t.regBit rHST_IRQ_SRC 1 = true) ∧
        (bit (s.cmpField n 6 1) 2 = true → s.clk.fallback = false → t.adc.starts = s.adc.starts + 1)) ∧
  -- COMPARATOR_FILTERED_CHANGE
  (∀ (s : State) (n : Nat),
      n < 18 → s.cmpLive n = true → (s.cmp n).dead = false → (s.cmp n).startHeld = false → (s.cmp n).raw = true →
      (s.cmp n).out = false → s.cmpSettled n = true → s.cmpBlanked n = true →
      exec (.comparatorFilteredChange n) s = .next ((s.inc rCMP_CNT_BLANK).setBit rCMP_STAT 5)) ∧
  -- COMPARATOR_FILTERED_CHANGE
  (∀ (s : State) (n : Nat),
      n < 18 → s.cmpLive n = true → (s.cmp n).dead = false → (s.cmp n).startHeld = false → (s.cmp n).raw = false →
      (s.cmp n).out = true → s.cmpSettled n = true →
      Does (.comparatorFilteredChange n) s fun t =>
        (t.cmp n).out = false ∧ t.srcActive n = false ∧ ∀ g, g < 8 → (t.grp g).latches = (s.grp g).latches) ∧
  -- TRIP_SOURCE_RELEASE_PROOF
  (∀ (s : State) (n : Nat),
      n < 18 → (s.cmp n).startHeld = true → s.cmpLive n = true → (s.cmp n).dead = false → (s.cmp n).raw = false →
      Does (.tripSourceReleaseProof n) s fun t =>
        t.cmp n = { s.cmp n with startHeld := false, out := false, undet := false } ∧ t.srcActive n = false ∧
        ∀ g, g < 8 → (t.grp g).latches = (s.grp g).latches) ∧
  -- TRIP_SOURCE_RELEASE_PROOF
  (∀ (s : State) (n : Nat),
      s.cmpLive n = false ∨ (s.cmp n).raw = true ∨ (s.cmp n).startHeld = false →
      exec (.tripSourceReleaseProof n) s = .next s) ∧
  -- SHADOW_MOVE
  (∀ (s : State) (p : Nat),
      s.cmpSpare p = true →
      exec (.shadowMove p) s = .next (s.setShadow p { target := s.nextAssigned (s.shadow p).target })) ∧
  -- SHADOW_DISAGREE
  (∀ (s : State) (p : Nat),
      s.cmpSpare p = true → (s.shadow p).target.isSome = true → (s.shadow p).measuring = false →
      exec (.shadowDisagree p) s = .next (((s.inc rCMP_CNT_SHADOW).setBit rCMP_STAT 1).setShadow p {
          s.shadow p with measuring := true, tries := 0 })) ∧
  -- SHADOW_MEASUREMENT
  (∀ (s : State) (p n : Nat),
      (s.shadow p).target = some n → (s.shadow p).measuring = true → (s.cmp n).raw = false → s.cmpSpare p = true →
      n < 18 → s.cmpAssigned n = true → (s.cmp n).startHeld = false → (s.cmp n).out = false →
      Does (.shadowMeasurement p .active) s fun t =>
        (t.cmp n).phys = some p ∧ (t.cmp n).raw = true ∧ (t.cmp n).out = true ∧ t.srcActive n = true ∧
        bit t.cmps.failed (s.cmpPhys n) = true ∧ t.regBit rCMP_STAT 3 = true ∧ t.shadow p = {}) ∧
  -- SHADOW_MEASUREMENT
  (∀ (s : State) (p n : Nat),
      (s.shadow p).target = some n → (s.shadow p).measuring = true → (s.cmp n).raw = true → s.cmpSpare p = false →
      n < 18 →
      Does (.shadowMeasurement p .safe) s fun t =>
        (t.cmp n).dead = true ∧ t.regBit rCMP_STAT 4 = true ∧ bit t.cmps.failed (s.cmpPhys n) = true ∧
        (if s.cmpTrips n then (t.cmp n).out = true ∧ t.srcActive n = true else (t.cmp n).undet = true)) ∧
  -- SHADOW_MEASUREMENT
  (∀ (s : State) (p n : Nat) (b : Bool),
      (s.shadow p).target = some n → (s.shadow p).measuring = true → (s.cmp n).raw = b →
      exec (.shadowMeasurement p (if b then .active else .safe)) s = .next (({ s with
          cmps := { s.cmps with failed := s.cmps.failed ||| 2 ^ p } } : State).setShadow p {})) ∧
  -- SHADOW_MEASUREMENT
  (∀ (s : State) (p n : Nat),
      (s.shadow p).target = some n → (s.shadow p).measuring = true → (s.shadow p).tries < 8 →
      exec (.shadowMeasurement p .band) s = .next (s.setShadow p {
          s.shadow p with tries := (s.shadow p).tries + 1 })) ∧
  -- SHADOW_MEASUREMENT
  (∀ (s : State) (p n : Nat),
      (s.shadow p).target = some n → (s.shadow p).measuring = true → 8 ≤ (s.shadow p).tries →
      exec (.shadowMeasurement p .band) s = .next ((s.setBit rCMP_STAT 2).setShadow p {
          target := s.nextAssigned (some n) }))

/-- A defined source that becomes active trips each live group on which it acts: the state, the latch where the action
latches, the cause, the interrupt, and every output at SAFE_LVL unless the action is ORDERED; one that is released takes no
latch away, and a group that only it had tripped without a latch is STOPPED. An ordered sequence that ends puts its outputs
at SAFE_LVL. TRP_CLR clears each group of its mask that no active source acts on and refuses the others; DCK_RELEASE and
LEG_CLEAR release where the cause has gone and are refused elsewhere. FLT_N and TRIP_IN follow their pins: an assertion
outside a blanking window makes its source active and, where no row names it, sets its leg FREE; a second leg-local response
in the group trips the group; one inside a window is counted and acts at the window's close if it is still there; and an
automatic clear readies the leg. Where the spec leaves a point of these open, the choice is the model's (log 46). -/
def Obligations.TripCommandsComplete : Prop :=
  -- TRIP_SOURCE_ACTIVE
  (∀ (s : State) (k g : Nat),
      sourceDefined k = true → g < 8 → (s.grp g).st = .running ∨ (s.grp g).st = .armed → (s.sourceAction k g).1 ≠ 0 →
      (∀ h, h < 8 → (s.grp h).isTripped = false) →
      Does (.tripSourceActive k) s fun t =>
        t.srcActive k = true ∧ (t.grp g).st = .tripped ∧ (t.grp g).cause = 2 ∧
        (t.grp g).act = (s.sourceAction k g).1 ∧
        (if (s.sourceAction k g).2 then (t.grp g).latches = [(k, (s.sourceAction k g).1)]
          else (t.grp g).pulses = [(k, (s.sourceAction k g).1)]) ∧
        ((s.grp g).act = 0 → bits (t.reg (rTRP_G0_CAUSE + 4 * g)).toNat 0 8 = k) ∧ t.regBit rHST_IRQ_SRC 3 = true ∧
        ((s.sourceAction k g).1 ≠ 2 → ∀ o ∈ s.groupOuts g, t.drive o = .safeLvl)) ∧
  -- TRIP_SOURCE_ACTIVE
  (∀ (s : State) (k : Nat),
      sourceDefined k = true → (∀ g, g < 8 → (s.sourceAction k g).1 = 0) →
      exec (.tripSourceActive k) s = .next ({ s with
          trp := { s.trp with active := s.trp.active ||| BitVec.ofNat 128 (2 ^ k) } })) ∧
  -- TRIP_SOURCE_RELEASE
  (∀ (s : State) (k : Nat),
      sourceDefined k = true →
      Does (.tripSourceRelease k) s fun t =>
        t.srcActive k = false ∧ ∀ g, g < 8 →
          (t.grp g).latches = (s.grp g).latches ∧ ((s.grp g).latches ≠ [] → (t.grp g).st = (s.grp g).st) ∧
          ((s.grp g).st = .tripped → (s.grp g).latches = [] → (∀ p ∈ (s.grp g).pulses, p.1 = k) →
            (t.grp g).st = .stopped)) ∧
  -- ORDERED_DELAY_EXPIRY
  (∀ (s : State) (g : Nat),
      (s.grp g).seqRun = true → (s.grp g).st ≠ .running → (s.grp g).st ≠ .frozen →
      Does (.orderedDelayExpiry g) s fun t =>
        (t.grp g).seqRun = false ∧ (t.grp g).st = (s.grp g).st ∧
        (∀ o, t.drive o = if o ∈ s.groupOuts g then .safeLvl else s.drive o)) ∧
  -- ORDERED_DELAY_EXPIRY
  (∀ (s : State) (g : Nat),
      (s.grp g).seqRun = true → (s.grp g).st = .running ∨ (s.grp g).st = .frozen →
      Does (.orderedDelayExpiry g) s fun t =>
        (t.grp g).seqRun = false ∧ (t.grp g).st = (s.grp g).st ∧
        (∀ o, t.drive o =
          if ∃ l ∈ s.groupLegs g, (s.leg l).freed = true ∧ o ∈ s.legOuts l then .safeLvl else s.drive o)) ∧
  -- TRP_CLR
  (∀ (s : State) (m : BitVec 8),
      Does (.trpClr m) s fun t => ∀ g, g < 8 →
        (m.getLsbD g = false → t.grp g = s.grp g) ∧
        (m.getLsbD g = true → s.actedOn g = false →
          (t.grp g).latches = [] ∧ (t.grp g).pulses = [] ∧
          ((s.grp g).st = .tripped → (t.grp g).st = .stopped ∧ (t.grp g).act = 0)) ∧
        (m.getLsbD g = true → s.actedOn g = true →
          t.grp g = s.grp g ∧ t.regBit rTRP_REFUSED g = true ∧ t.regBit rTRP_STAT 1 = true)) ∧
  -- DCK_RELEASE
  (∀ s : State,
      s.dckHeld = false →
      exec .dckRelease s = .next ({ s with trp := { s.trp with dckOpen := false } })) ∧
  -- DCK_RELEASE
  (∀ s : State, s.dckHeld = true → exec .dckRelease s = .next ((s.setBit rTRP_STAT 1).inc rTRP_CNT_CLR_REF)) ∧
  -- LEG_CLEAR
  (∀ (s : State) (l : Nat),
      (s.leg l).latched = true → s.srcActive (0x12 + l) = false →
      exec (.legClear l) s = .next (s.setLeg l { s.leg l with latched := false, ready := true })) ∧
  -- LEG_CLEAR
  (∀ (s : State) (l : Nat),
      (s.leg l).latched = true → s.srcActive (0x12 + l) = true →
      exec (.legClear l) s = .next ((s.setBit rTRP_STAT 1).inc rTRP_CNT_CLR_REF)) ∧
  -- LEG_CLEAR
  (∀ (s : State) (l : Nat), (s.leg l).latched = false → exec (.legClear l) s = .next s) ∧
  -- FLT_N_CHANGE
  (∀ (s : State) (l : Nat) (h : Bool),
      l < 24 →
      exec (.fltNChange l h) s = .next (s.setLeg l { s.leg l with
          pin := !h, pinAt := if (s.leg l).pin == !h then (s.leg l).pinAt else s.clk.t })) ∧
  -- FLT_FILTER_PASS
  (∀ (s : State) (l g : Nat),
      l < 24 → (s.leg l).filtered = false → (s.leg l).pin = true → s.fltHeld l = true → (s.leg l).blanking = false →
      s.legLocalOn l = true → s.rowed (0x12 + l) = false → s.legGroup l = some g → g < 8 →
      (s.grp g).st = .running → s.npcSeq g = false →
      (∀ k ∈ s.groupLegs g, (s.leg k).freed = false ∧ (s.leg k).respAt = none) →
      Does (.fltFilterPass l false) s fun t =>
        (t.leg l).filtered = true ∧ t.regBit rGDS_STAT 0 = true ∧ t.srcActive (0x12 + l) = true ∧
        (t.leg l).freed = true ∧ (t.leg l).latched = decide (s.acTries l ≤ (s.leg l).tries) ∧ (t.leg l).edges = [] ∧
        t.regBit rTRP_STAT 3 = true ∧ (t.grp g).st = .running ∧
        ∀ o, t.drive o = if o ∈ s.legOuts l then .off else s.drive o) ∧
  -- FLT_FILTER_PASS
  (∀ (s : State) (l g k : Nat),
      l < 24 → (s.leg l).filtered = false → (s.leg l).pin = true → s.fltHeld l = true → (s.leg l).blanking = false →
      s.legLocalOn l = true → s.rowed (0x12 + l) = false → s.legGroup l = some g → g < 8 →
      (s.grp g).st = .running → (s.leg l).freed = false → k ∈ s.groupLegs g → (s.leg k).freed = true →
      Does (.fltFilterPass l false) s fun t =>
        (t.leg l).freed = true ∧ t.regBit rTRP_STAT 4 = true ∧ (t.grp g).st = .tripped) ∧
  -- FLT_FILTER_PASS
  (∀ (s : State) (l : Nat),
      l < 24 → (s.leg l).filtered = false → (s.leg l).pin = true → s.fltHeld l = true → (s.leg l).blanking = false →
      s.legLocalOn l = false ∨ s.rowed (0x12 + l) = true →
      Does (.fltFilterPass l false) s fun t =>
        (t.leg l).filtered = true ∧ t.regBit rGDS_STAT 0 = true ∧ t.srcActive (0x12 + l) = true ∧
        (t.leg l).freed = (s.leg l).freed) ∧
  -- FLT_FILTER_PASS
  (∀ (s : State) (l : Nat),
      l < 24 → (s.leg l).filtered = false → (s.leg l).pin = true → s.fltHeld l = true → (s.leg l).blanking = true →
      exec (.fltFilterPass l false) s = .next (((s.setLeg l { s.leg l with filtered := true, ignored := true }).inc
        rGDS_CNT_BLANK).setBit rGDS_STAT 1)) ∧
  -- FLT_FILTER_PASS
  (∀ (s : State) (l : Nat),
      l < 24 → (s.leg l).filtered = true → (s.leg l).pin = false → s.fltHeld l = true → s.srcActive (0x12 + l) = true →
      Does (.fltFilterPass l true) s fun t =>
        (t.leg l).filtered = false ∧ t.srcActive (0x12 + l) = false ∧
        ((s.leg l).freed = true → (s.leg l).latched = false → (t.leg l).clearDue = true)) ∧
  -- FLT_BLANK_CLOSE
  (∀ (s : State) (l : Nat),
      l < 24 → (s.leg l).blanking = true → (s.leg l).filtered = true → (s.leg l).ignored = true →
      Does (.fltBlankClose l) s fun t =>
        (t.leg l).blanking = false ∧ t.regBit rGDS_STAT 0 = true ∧ t.srcActive (0x12 + l) = true) ∧
  -- FLT_BLANK_CLOSE
  (∀ (s : State) (l : Nat),
      (s.leg l).blanking = true → (s.leg l).filtered = false ∨ (s.leg l).ignored = false →
      exec (.fltBlankClose l) s = .next (s.setLeg l { s.leg l with blanking := false, ignored := false })) ∧
  -- TRIP_IN_CHANGE
  (∀ (s : State) (n : Nat) (h : Bool),
      n < 8 → Does (.tripInChange n h) s fun t => t.srcActive (0x2A + n) = h) ∧
  -- AUTO_CLEAR
  (∀ (s : State) (l : Nat),
      (s.leg l).clearDue = true → s.srcActive (0x12 + l) = false →
      exec (.autoClear l) s = .next ((s.setLeg l {
          s.leg l with clearDue := false, ready := true, tries := (s.leg l).tries + 1 }).inc rGDS_CNT_AC)) ∧
  -- TRY_COUNT_RESET
  (∀ (s : State) (l : Nat), exec (.tryCountReset l) s = .next (s.setLeg l { s.leg l with tries := 0 }))

/-- When a source becomes active its bit reads active and every other source reads as before, and each live group on
which it has an action is TRIPPED, with the TRIP interrupt raised. When it releases its bit reads inactive and no
other source changes; a release takes no latch from any group. -/
def Obligations.ActiveSourceLatchesItsGroups : Prop :=
  (∀ (s : State) (k g : Nat),
      k < 128 → g < 8 →
      (∀ j < 128, (s.sourceOn k).srcActive j = (j == k || s.srcActive j)) ∧ ((s.grp g).st.live = true →
        (s.sourceAction k g).1 ≠ 0 → ((s.sourceOn k).grp g).st = .tripped ∧ (s.sourceOn k).regBit rHST_IRQ_SRC 3 =
        true)) ∧
  (∀ (s : State) (k : Nat),
      k < 128 →
      (s.sourceOff k).srcActive k = false ∧ ∀ j < 128, j ≠ k → (s.sourceOff k).srcActive j = s.srcActive j) ∧
  (∀ (s : State) (k g : Nat), g < 8 → ((s.sourceOff k).grp g).latches = (s.grp g).latches)

/-- A test of a leg or of all legs, asked by a command or by the period where it is enabled, starts the first leg that may
be tested, or waits behind the test in progress. The first conversion is kept; the second ends the test with the result of
Table 9.8, which sets or clears the leg's fail bit and its source; a test without a slot ends with result 5 and leaves both.
CHP_CLEAR clears a chopper whose group is STOPPED and releases its source; the ordered stop after DCOV2 stops its next
group; and DC_OV3 drives its source by its threshold and 20 mV below it while its fused threshold enables it. Where the spec
leaves a point of these open, the choice is the model's (log 39, log 46). -/
def Obligations.DiagnosticsAndChopperCommandsComplete : Prop :=
  -- DIAG_TEST_LEG
  (∀ (s : State) (l : Nat),
      s.trp.test = none → s.trp.testQueue = [] → s.diagMay l = true →
      exec (.diagTestLeg l) s = .next ({ s with trp := { s.trp with test := some { leg := l } } })) ∧
  -- DIAG_TEST_LEG
  (∀ (s : State) (l : Nat) (x : DiagTest),
      s.trp.test = some x →
      exec (.diagTestLeg l) s = .next ({ s with trp := { s.trp with
          testQueue := s.trp.testQueue ++ (if s.diagMay l && !s.trp.testQueue.contains l then [l] else []) } })) ∧
  -- DIAG_TEST_LEG
  (∀ (s : State) (l : Nat),
      s.trp.test = none → s.trp.testQueue = [] → s.diagMay l = false → exec (.diagTestLeg l) s = .next s) ∧
  -- DIAG_TEST_ALL
  (∀ (s : State) (l : Nat) (r : List Nat),
      s.trp.test = none → s.trp.testQueue = [] → (List.range 24).filter s.diagMay = l :: r →
      exec .diagTestAll s = .next ({ s with trp := { s.trp with test := some { leg := l }, testQueue := r } })) ∧
  -- DIAG_PERIODIC
  (∀ (s : State) (l : Nat),
      exec (.diagPeriodic l) s = .next (if field (s.sec secTrip) 0x0A 2 = 0 then s else s.after (.diagTestLeg l))) ∧
  -- DIAG_FIRST_CONVERSION
  (∀ (s : State) (t : DiagTest) (v : BitVec 16),
      s.trp.test = some t →
      exec (.diagFirstConversion v) s = .next ({ s with
          trp := { s.trp with test := some { t with v0 := some v.toInt } } })) ∧
  -- DIAG_SECOND_CONVERSION
  (∀ (s : State) (x : DiagTest) (v0 : Int) (v : BitVec 16) (code : Nat),
      s.trp.test = some x → x.v0 = some v0 → x.leg < 24 →
      code = (if v0 < s.diagLimit x.leg 0 then 1 else if s.diagLimit x.leg 1 < v0 then 2
        else if v.toInt - v0 < s.diagLimit x.leg 2 then 3 else if s.diagLimit x.leg 3 < v.toInt - v0 then 4 else 0) →
      Does (.diagSecondConversion v) s fun t =>
        t.trp.diagLast = x.leg + 32 * code ∧ bit t.trp.diagFail x.leg = decide (code ≠ 0) ∧
        t.srcActive (0x58 + x.leg) = decide (code ≠ 0) ∧ (code ≠ 0 → t.regBit rGDS_STAT 2 = true) ∧
        (s.trp.testQueue = [] → t.trp.test = none)) ∧
  -- DIAG_NO_SLOT
  (∀ (s : State) (x : DiagTest),
      s.trp.test = some x →
      Does .diagNoSlot s fun t =>
        t.trp.diagLast = x.leg + 32 * 5 ∧ t.trp.diagFail = s.trp.diagFail ∧ t.trp.active = s.trp.active ∧
        (s.trp.testQueue = [] → t.trp.test = none)) ∧
  -- DIAG_NO_SLOT
  (∀ s : State, s.trp.test = none → exec .diagNoSlot s = .next s) ∧
  -- CHP_CLEAR
  (∀ (s : State) (g : Nat),
      s.chpGroup = some g → (s.grp g).st = .stopped → s.chp.kind ≠ .none →
      Does .chpClear s fun t =>
        t.chp = { s.chp with kind := .none, openRun := 0, shortRun := 0, droop := [] } ∧ t.srcActive 0x3C = false) ∧
  -- CHP_CLEAR
  (∀ (s : State) (g : Nat), s.chpGroup = some g → (s.grp g).st ≠ .stopped → exec .chpClear s = .next s) ∧
  -- DCOV2_STOP_STEP
  (∀ (s : State) (k g : Nat),
      s.chp.dcov2 = some k → s.dcov2List[k]? = some g → (s.grp g).st.live = true → (s.grp g).tripHop = false →
      s.npcSeq g = false →
      Does .dcov2StopStep s fun t =>
        t.chp.dcov2 = (if k + 1 < s.dcov2List.length then some (k + 1) else none) ∧ (t.grp g).st = .stopped ∧
        (t.grp g).cause = 1 ∧ (∀ o ∈ s.groupOuts g, t.drive o = .safeLvl)) ∧
  -- DCOV2_STOP_STEP
  (∀ (s : State) (k : Nat),
      s.chp.dcov2 = some k → s.dcov2List[k]? = none →
      exec .dcov2StopStep s = .next ({ s with chp := { s.chp with dcov2 := none } })) ∧
  -- DC_OV3_TRANSITION
  (∀ (s : State) (nV vdda d : Int),
      s.cabValid = true → s.fuse 961 12 ≠ 0 → d = nV * 4096 - (s.dcov3Level : Int) * vdda →
      Does (.dcOv3Transition nV vdda) s fun t =>
        t.trp.dcov3 = (if 0 < d then true else if d < -4096 * 20000000 then false else s.trp.dcov3) ∧
        t.srcActive 0x33 = t.trp.dcov3) ∧
  -- DC_OV3_TRANSITION
  (∀ (s : State) (nV vdda : Int) (g : Nat),
      s.cabValid = true → s.fuse 961 12 ≠ 0 → 0 < nV * 4096 - (s.dcov3Level : Int) * vdda → s.srcActive 0x33 = false →
      g < 8 → (s.grp g).st = .running →
      Does (.dcOv3Transition nV vdda) s fun t => (t.grp g).st = .tripped ∧ t.trp.dckOpen = true) ∧
  -- DC_OV3_TRANSITION
  (∀ (s : State) (nV vdda : Int),
      s.cabValid = false ∨ s.fuse 961 12 = 0 → exec (.dcOv3Transition nV vdda) s = .next s)

/-- A GRD update takes the least and the greatest phase as its metric, or keeps them where a window is empty or holds an
invalid output. With GRID SUPPORT enabled it runs the ride-through timers by whether voltage and frequency are in their
bands, enters CEASED with the cause of an envelope that trips, else moves between NORMAL, RIDE and MC by Table 10.2, and
counts the time for which the conditions of reconnection hold. The passive conditions of the island detection follow their
levels outside grid-forming mode; without GRID SUPPORT the states of ride-through stay. Where the spec leaves a point of
these open, the choice is the model's (log 5, log 14, log 16). -/
def Obligations.GridUpdateCompletes : Prop :=
  -- GRD_UPDATE
  (∀ s : State,
      (∀ k, k < 3 → s.halfPeriod k ≠ [] ∧ ∀ e ∈ s.halfPeriod k, e.reason = 0) →
      Does .grdUpdate s fun t =>
        t.grd.vmin = min (s.phasePu 0) (min (s.phasePu 1) (s.phasePu 2)) ∧
        t.grd.vmax = max (s.phasePu 0) (max (s.phasePu 1) (s.phasePu 2))) ∧
  -- GRD_UPDATE
  (∀ (s : State) (k : Nat),
      k < 3 → s.halfPeriod k = [] ∨ (s.halfPeriod k).any (fun e => e.reason != 0) = true →
      Does .grdUpdate s fun t => t.grd.vmin = s.grd.vmin ∧ t.grd.vmax = s.grd.vmax) ∧
  -- GRD_UPDATE
  (∀ (s r : State),
      r = s.grdMetric → s.gridOn = true →
      Does .grdUpdate s fun t =>
        t.grd.tv = (match s.grd.tv with
          | some n => some (satInc n)
          | none => if r.vInBand then none else some 0) ∧
        t.grd.tf = (match s.grd.tf with
          | some n => some (satInc n)
          | none => if r.fInBand then none else some 0)) ∧
  -- GRD_UPDATE
  (∀ (s r u : State) (k : Nat),
      r = s.grdMetric → s.gridOn = true → s.grd.st ≠ 3 →
      u = ({ r with grd := { r.grd with tv := tickTimer r.grd.tv r.vInBand, tf := tickTimer r.grd.tf r.fInBand } } :
        State) →
      u.envTrip = some k →
      Does .grdUpdate s fun t =>
        t.grd.st = 3 ∧ t.grd.cause = k ∧ t.grd.rt = false ∧ t.regBit rGRD_STAT 8 = true ∧
        t.regBit rHST_IRQ_SRC 4 = true ∧
        (t.reg rGRD_CNT_CEASE).toNat = satInc (s.reg rGRD_CNT_CEASE).toNat ∧
        ∀ g, g < 8 → bit s.ceaseGroups g = true → (s.grp g).st.live = true → (s.grp g).tripHop = false →
          (t.grp g).st = .stopped) ∧
  -- GRD_UPDATE
  (∀ (s r u : State),
      r = s.grdMetric → s.gridOn = true → s.grd.st ≠ 3 →
      u = ({ r with grd := { r.grd with tv := tickTimer r.grd.tv r.vInBand, tf := tickTimer r.grd.tf r.fInBand } } :
        State) →
      u.envTrip = none →
      Does .grdUpdate s fun t =>
        t.grd.st = (if s.gridPu 9 ≠ 0 ∧ r.grd.vmin < s.gridPu 9 then 2
          else if u.grd.tv.isSome || u.grd.tf.isSome then 1 else 0) ∧
        (t.grd.st ≠ 0 → t.grd.st ≠ s.grd.st → s.grd.rtBlocked = false → t.grd.rt = true)) ∧
  -- GRD_UPDATE
  (∀ s : State,
      s.gridOn = true → s.grd.st = 3 →
      Does .grdUpdate s fun t =>
        t.grd.st = 3 ∧ t.grd.reconMs = (if t.reconCond then satInc s.grd.reconMs else 0)) ∧
  -- GRD_UPDATE
  (∀ s : State,
      Does .grdUpdate s fun t =>
        (s.grd.gf = true → t.isl.passive = 0) ∧
        (s.grd.gf = false → ∀ k, k < 6 → bit t.isl.passive k = t.islCondition k)) ∧
  -- GRD_UPDATE
  (∀ s : State,
      s.gridOn = false →
      Does .grdUpdate s fun t => t.grd.st = s.grd.st ∧ t.grd.tv = s.grd.tv ∧ t.grd.tf = s.grd.tf)

/-- A ride-through timer stops once its quantity is in band, and the state follows; the tail and the maximum of a ride-
through close it and start THOLD, at whose end every window that is due decides; limiting clears below 95% of its threshold.
GF asks for the transfer with the angle difference, or is refused; its timeout gives it up, and leads to CEASED where an
island decision had asked for it; GFL waits, and takes the tracked angle once tracking has been valid for 20 turns. CEASE
enters CEASED with cause 12 and stops its groups; RECON_OK and RESUME take the unit out of CEASED, and a RESUME that may not
is refused. Where the spec leaves a point of these open, the choice is the model's (log 5, log 16). -/
def Obligations.GridCommandsComplete : Prop :=
  -- RIDE_TIMER_STOP
  (∀ s : State,
      s.fInBand = true → s.grd.tf.isSome = true →
      Does (.rideTimerStop true) s fun t =>
        t.grd.tf = none ∧ t.grd.tv = s.grd.tv ∧
        t.grd.st = (if s.grd.st = 3 then 3 else if s.gridPu 9 ≠ 0 ∧ s.grd.vmin < s.gridPu 9 then 2
          else if s.grd.tv.isSome then 1 else 0)) ∧
  -- RIDE_TIMER_STOP
  (∀ s : State,
      s.vInBand = true → s.grd.tv.isSome = true →
      Does (.rideTimerStop false) s fun t =>
        t.grd.tv = none ∧ t.grd.tf = s.grd.tf ∧
        t.grd.st = (if s.grd.st = 3 then 3 else if s.gridPu 9 ≠ 0 ∧ s.grd.vmin < s.gridPu 9 then 2
          else if s.grd.tf.isSome then 1 else 0)) ∧
  -- RT_TAIL_EXPIRY
  (∀ s : State,
      s.grd.st = 0 → s.grd.rt = true →
      exec .rtTailExpiry s = .next ({ s with
          grd := { s.grd with rt := false, rtBlocked := false }, isl := { s.isl with tail := true } })) ∧
  -- RT_TAIL_EXPIRY
  (∀ s : State, s.grd.st ≠ 0 ∨ s.grd.rt = false → exec .rtTailExpiry s = .next s) ∧
  -- RT_MAX_EXPIRY
  (∀ s : State,
      s.grd.rt = true →
      exec .rtMaxExpiry s = .next ({ s with
          grd := { s.grd with rt := false, rtBlocked := decide (s.grd.st ≠ 0) }, isl := { s.isl with tail := true } })) ∧
  -- RT_MAX_EXPIRY
  (∀ s : State, s.grd.rt = false → exec .rtMaxExpiry s = .next s) ∧
  -- THOLD_EXPIRY
  (∀ s : State,
      s.isl.tail = true → s.grd.rt = false → (∀ k, k < 6 → s.islDue k = false) →
      exec .tholdExpiry s = .next ({ s with isl := { s.isl with tail := false } })) ∧
  -- THOLD_EXPIRY
  (∀ s : State,
      s.isl.tail = true → s.grd.rt = false → s.grd.gf = false →
      Does .tholdExpiry s fun t =>
        t.isl.tail = false ∧ ∀ k, k < 6 → s.islDue k = true →
          bit t.isl.decided k = true ∧ (bit s.isl.decided k = false → s.gridOn = true → t.isl.island = true)) ∧
  -- LIMITING_CLEAR
  (∀ s : State,
      s.grd.limiting = true → 20 * s.grd.peak < 19 * s.gridPu 224 →
      exec .limitingClear s = .next ({ s with grd := { s.grd with limiting := false } } : State)) ∧
  -- LIMITING_CLEAR
  (∀ s : State, 19 * s.gridPu 224 ≤ 20 * s.grd.peak → exec .limitingClear s = .next s) ∧
  -- GRD_GF
  (∀ s : State,
      s.gridOn = true → s.gridFlag 3 = true → s.ang.valid = true →
      Does .grdGf s fun t =>
        t.grd.xfer = true ∧ t.grd.phNew = true ∧ t.grd.waitGfl = false ∧ t.grd.fromIsland = false ∧
        t.grd.delta = wordOfInt (angDiff s.ang.meas s.ang.gen) ∧ t.grd.gf = s.grd.gf ∧ t.grd.st = s.grd.st) ∧
  -- GRD_GF
  (∀ s : State,
      s.gridOn = false ∨ s.gridFlag 3 = false ∨ s.ang.valid = false →
      exec .grdGf s = .next (({ s with grd := { s.grd with waitGfl := false } } : State).setBit rGRD_STAT 10)) ∧
  -- GF_TRANSFER_TIMEOUT
  (∀ s : State,
      s.grd.xfer = true → s.grd.fromIsland = false →
      exec .gfTransferTimeout s = .next (({ s with
          grd := { s.grd with xfer := false, phNew := false, fromIsland := false } } : State).setBit rGRD_STAT 10)) ∧
  -- GF_TRANSFER_TIMEOUT
  (∀ s : State,
      s.grd.xfer = true → s.grd.fromIsland = true → s.grd.st ≠ 3 →
      Does .gfTransferTimeout s fun t =>
        t.grd.xfer = false ∧ t.grd.phNew = false ∧ t.grd.st = 3 ∧ t.grd.cause = s.grd.cause ∧
        t.regBit rGRD_STAT 10 = true ∧ t.regBit rGRD_STAT 8 = true) ∧
  -- GRD_GFL
  (∀ s : State,
      exec .grdGfl s = .next ({ s with grd := { s.grd with xfer := false, phNew := false, waitGfl := true } } :
        State)) ∧
  -- GFL_TRANSFER
  (∀ s : State,
      s.grd.waitGfl = true → s.ang.valid = true →
      20 * turnUnits ≤ (s.ang.sch + 2 ^ 96 - s.ang.validAt) % 2 ^ 96 →
      exec .gflTransfer s = .next (({ s.setReg rANG_SRC 0 with grd := { s.grd with waitGfl := false, gf := false } }
        : State).inc rGRD_CNT_GFXFER)) ∧
  -- GFL_TRANSFER
  (∀ s : State, s.grd.waitGfl = false ∨ s.ang.valid = false → exec .gflTransfer s = .next s) ∧
  -- GRD_CEASE
  (∀ s : State,
      s.gridOn = true → s.grd.st ≠ 3 →
      Does .grdCease s fun t =>
        t.grd.st = 3 ∧ t.grd.cause = 12 ∧ t.grd.rt = false ∧ t.grd.xfer = false ∧ t.regBit rGRD_STAT 8 = true ∧
        t.regBit rHST_IRQ_SRC 4 = true ∧
        (t.reg rGRD_CNT_CEASE).toNat = satInc (s.reg rGRD_CNT_CEASE).toNat ∧
        ∀ g, g < 8 → bit s.ceaseGroups g = true → (s.grp g).st.live = true → (s.grp g).tripHop = false →
          (t.grp g).st = .stopped ∧ (t.grp g).cause = 1) ∧
  -- GRD_CEASE
  (∀ s : State, s.gridOn = false ∨ s.grd.st = 3 → exec .grdCease s = .next s) ∧
  -- GRD_RESUME
  (∀ s : State,
      s.grd.st = 3 → s.grd.reconOk = true →
      exec .grdResume s = .next ({ s with
          grd := { s.grd with
            st := 0, rtBlocked := false, reconOk := false, reconMs := 0, tv := none, tf := none, ramp := 0 },
            isl := { s.isl with island := false } })) ∧
  -- GRD_RESUME
  (∀ s : State, (s.grd.st ≠ 3 ∨ s.grd.reconOk = false) → exec .grdResume s = .next (s.setBit rGRD_STAT 11)) ∧
  -- RECON_OK
  (∀ s : State,
      s.grd.st = 3 → s.reconCond = true →
      exec .reconOk s = .next ({ s with grd := { s.grd with reconOk := true } } : State))

/-- A passive window that is due, is not held and has not decided yet decides: it is counted, and GRD ceases with its cause,
or asks for grid forming where AUTO_GF enables it; without GRID SUPPORT only its event bit is set, and otherwise nothing
happens. At an angle zero the cycle that ends enters the window; grid-forming mode injects nothing; DEGRADED follows the
validity of the time and is counted on entry; without valid time the frequency shift takes the place of the perturbation;
with it, and injection enabled, the chip of the index that time gives is injected. Where the spec leaves a point of these
open, the choice is the model's (log 16). -/
def Obligations.IslandCommandsComplete : Prop :=
  -- PASSIVE_WINDOW_DECISION
  (∀ (s : State) (w : Nat),
      w < 6 → s.islDue w = true → s.islHeld = false → s.grd.gf = false → bit s.isl.decided w = false →
      s.gridOn = true → s.gridFlag 4 = false → s.grd.st ≠ 3 →
      Does (.passiveWindowDecision w) s fun t =>
        t.isl.island = true ∧ t.regBit rISL_STAT 5 = true ∧
        (t.reg rISL_CNT_ISLAND).toNat = satInc (s.reg rISL_CNT_ISLAND).toNat ∧ t.grd.st = 3 ∧ t.grd.cause = 6 + w ∧
        bit t.isl.decided w = true) ∧
  -- PASSIVE_WINDOW_DECISION
  (∀ (s : State) (w : Nat),
      w < 6 → s.islDue w = true → s.islHeld = false → s.grd.gf = false → bit s.isl.decided w = false →
      s.gridOn = true → s.gridFlag 4 = true → s.gridFlag 3 = true → s.ang.valid = true → s.grd.st ≠ 3 →
      Does (.passiveWindowDecision w) s fun t =>
        t.isl.island = true ∧ t.grd.st = s.grd.st ∧ t.grd.cause = 6 + w ∧ t.grd.xfer = true ∧
        t.grd.fromIsland = true) ∧
  -- PASSIVE_WINDOW_DECISION
  (∀ (s : State) (w : Nat),
      w < 6 → s.islDue w = true → s.islHeld = false → s.grd.gf = false → bit s.isl.decided w = false →
      s.gridOn = false →
      exec (.passiveWindowDecision w) s = .next (({ s with
          isl := { s.isl with decided := s.isl.decided ||| 2 ^ w } } : State).setBit rISL_STAT 5)) ∧
  -- PASSIVE_WINDOW_DECISION
  (∀ (s : State) (w : Nat),
      s.islDue w = false ∨ s.islHeld = true ∨ s.grd.gf = true ∨ bit s.isl.decided w = true →
      exec (.passiveWindowDecision w) s = .next s) ∧
  -- CHIP_APPLY
  (∀ s : State,
      s.gridOn = true → s.grd.gf = true →
      Does .chipApply s fun t =>
        t.isl.inj = false ∧ t.isl.thFs = 0 ∧ t.isl.zValid = false ∧ t.isl.degraded = !s.tim.valid) ∧
  -- CHIP_APPLY
  (∀ s : State,
      s.gridOn = true → s.grd.gf = false → s.isl.inj = false → s.tim.valid = true →
      Does .chipApply s fun t =>
        t.isl.degraded = false ∧ t.isl.thFs = 0 ∧
        (if s.gridFlag 5 && !s.islHeld then
          t.isl.inj = true ∧ t.isl.chipIdx = s.chipNow ∧ t.isl.chipPos = mlsChip (s.gridFlag 8) s.chipNow
        else t.isl.inj = false)) ∧
  -- CHIP_APPLY
  (∀ s : State,
      s.gridOn = true → s.grd.gf = false → s.isl.inj = false → s.tim.valid = false →
      Does .chipApply s fun t =>
        t.isl.degraded = true ∧ t.isl.inj = false ∧ t.isl.window = [] ∧
        t.isl.thFs = (if s.gridFlag 6 && !s.islHeld then s.freqShift else 0) ∧
        (t.reg rISL_CNT_DEGR).toNat =
          (if s.isl.degraded then (s.reg rISL_CNT_DEGR).toNat else satInc (s.reg rISL_CNT_DEGR).toNat)) ∧
  -- CHIP_APPLY
  (∀ s : State,
      s.gridOn = true → s.grd.gf = false → s.isl.inj = true → s.isl.nSum ≠ 0 → s.tim.valid = true →
      Does .chipApply s fun t =>
        t.isl.window.head?.map (·.chip) = some s.isl.chipPos ∧ t.isl.nSum = 0 ∧ t.isl.sumV = 0 ∧ t.isl.sumI = 0) ∧
  -- CHIP_APPLY
  (∀ s : State, s.gridOn = false → exec .chipApply s = .next s)

/-- The 31-chip sequence satisfies a(n+5) = a(n+3) XOR a(n) and the 63-chip sequence a(n+6) = a(n+5) XOR a(n), both
from all ones; the chip is positive where the bit is 1; and for 31 chips bit n of 0x0DD4259F is the chip. -/
def Obligations.ChipSequencesAreTheStatedOnes : Prop :=
  (∀ n : Nat, mlsChip false (n + 5) = xor (mlsChip false (n + 3)) (mlsChip false n)) ∧
  (∀ n : Nat, mlsChip true (n + 6) = xor (mlsChip true (n + 5)) (mlsChip true n)) ∧
  (∀ n : Nat, n < 31 → mlsChip false n = (0x0DD4259F : Word).getLsbD n) ∧
  (∀ s : State,
      s.gridOn = true → s.isl.inj = true → s.grd.gf = false →
      s.grdWord 11 = if s.isl.chipPos then s.gridWord 228 else -(s.gridWord 228)) ∧
  (∀ n : Nat, (n < 5 → mlsChip false n = true) ∧ (n < 6 → mlsChip true n = true))

/-- SNAP copies the whole µWh and the time into the snapshot, counts it, and a read of a _LO half copies its _HI half. A
save writes its record to the slot after the newest one, or is merged with one in progress; a slot written well becomes the
newest, one that fails is written again, and a second failure marks it bad and goes on in the next. CLEAR_ACC empties the
accumulators under its key and saves. An aggregation window that has its cycles gives the RMS registers and begins again. A
report whose window has passed enters the ring with its interrupt, and the resamples of the oldest strobe of a stream become
available: a strobe that is no gap adds the energies of R263. Where the spec leaves a point of these open, the choice is the
model's (log 17). -/
def Obligations.MeteringCommandsComplete : Prop :=
  -- SNAP
  (∀ s : State,
      Does .snap s fun t => (∀ k, k ≠ 29 → SMap.get (fun _ => 0) t.mtr.snap k = SMap.get (fun _ => 0) s.mtr.whole k)
        ∧ SMap.get (fun _ => 0) t.mtr.snap 29 = s.wallNs / 1000000000 ∧ t.mtr.snapped = true ∧ t.reg rMTR_SNAP_SEQ =
        s.reg rMTR_SNAP_SEQ + 1 ∧ t.reg rMTR_SNAP_NS = word (s.wallNs % 1000000000)) ∧
  -- MTR_ACC_READ
  (∀ (s : State) (r : Nat),
      Does (.mtrAccRead r) s fun t =>
        t.mtrHi r = word (Mtr.get0 s.mtr.snap r / 2 ^ 32) ∧ (∀ j, j ≠ r → t.mtrHi j = s.mtrHi j) ∧
        t.mtr.snap = s.mtr.snap) ∧
  -- PERIODIC_SAVE
  (∀ (s : State) (i j : Nat) (r : List Byte),
      s.mtr.save = none → s.mtrNoScale = false → s.mtr.newest = some j → s.mtr.slotAfter j = some i →
      r = s.saveRecord (((s.memWord (slotAddr j)).toNat + 1) % 2 ^ 32) 1 →
      Does .periodicSave s fun t =>
        t.mtr.save = some { slot := i, record := r, emergency := false, failed := false } ∧
        t.bytes (slotAddr i) 0x1F8 = r) ∧
  -- PERIODIC_SAVE
  (∀ s : State, s.mtr.save.isSome = true ∨ s.mtrNoScale = true → exec .periodicSave s = .next s) ∧
  -- SAVE
  (∀ (s : State) (i j : Nat) (r : List Byte),
      s.mtr.save = none → s.mtrNoScale = false → s.mtr.newest = some j → s.mtr.slotAfter j = some i →
      r = s.saveRecord (((s.memWord (slotAddr j)).toNat + 1) % 2 ^ 32) 3 →
      Does .save s fun t =>
        t.mtr.save = some { slot := i, record := r, emergency := false, failed := false } ∧
        t.bytes (slotAddr i) 0x1F8 = r) ∧
  -- SAVE
  (∀ s : State, s.mtr.save.isSome = true ∨ s.mtrNoScale = true → exec .save s = .next s) ∧
  -- SAVE_WRITE_DONE
  (∀ (s : State) (j : SaveJob),
      s.mtr.save = some j → j.emergency = false →
      Does (.saveWriteDone true) s fun t =>
        t.mtr.save = none ∧ t.mtr.newest = some j.slot ∧ t.memWord (slotAddr j.slot + 0x1F8) = word (crc32c j.record) ∧
        t.memWord (slotAddr j.slot + 0x1FC) = word cleanMark ∧
        (t.reg rMTR_CNT_SAVE).toNat = satInc (s.reg rMTR_CNT_SAVE).toNat) ∧
  -- SAVE_WRITE_DONE
  (∀ (s : State) (j : SaveJob),
      s.mtr.save = some j → j.emergency = false → j.failed = false →
      Does (.saveWriteDone false) s fun t =>
        t.mtr.save = some { j with failed := true } ∧ t.regBit rMTR_STAT 10 = true ∧ t.mtr.newest = s.mtr.newest) ∧
  -- SAVE_WRITE_DONE
  (∀ (s : State) (j : SaveJob) (i : Nat),
      s.mtr.save = some j → j.emergency = false → j.failed = true → j.slot < 16 →
      ({ s.mtr with bad := s.mtr.bad ||| 2 ^ j.slot } : Mtr).slotAfter j.slot = some i →
      Does (.saveWriteDone false) s fun t =>
        t.mtr.save = some { j with slot := i, failed := false } ∧ bit t.mtr.bad j.slot = true ∧
        t.regBit rMTR_STAT 10 = true) ∧
  -- EMERGENCY_SAVE_DONE
  (∀ (s : State) (j : SaveJob),
      s.mtr.save = some j → j.emergency = true →
      Does (.emergencySaveDone true) s fun t =>
        t.mtr.save = none ∧ t.mtr.newest = some j.slot ∧ t.memWord (slotAddr j.slot + 0x1F8) = word (crc32c j.record) ∧
        t.memWord (slotAddr j.slot + 0x1FC) = word cleanMark ∧ t.regBit rHU_STAT 7 = true) ∧
  -- EMERGENCY_SAVE_DONE
  (∀ (s : State) (b : Bool), s.mtr.save.any (fun x => x.emergency) = false → exec (.emergencySaveDone b) s = .next s) ∧
  -- CLEAR_ACC
  (∀ s : State,
      s.mtr.save = none → s.mtr.frozen = false →
      exec (.clearAcc 0x3E7A) s = .next (((s.setMtr { s.mtr with acc := [], gapT := 0 }).inc
        rMTR_CNT_CLEAR).after .save)) ∧
  -- CLEAR_ACC
  (∀ (s : State) (k : BitVec 16),
      (k ≠ 0x3E7A ∨ s.mtr.save.isSome = true ∨ s.mtr.frozen = true) →
      exec (.clearAcc k) s = .next (s.setBit rMTR_STAT 12)) ∧
  -- AGGREGATION_WINDOW_END
  (∀ s : State,
      s.mtrNoScale = false → s.nagg ≤ s.mtr.winAll →
      Does .aggregationWindowEnd s fun t =>
        t.mtr.winN = 0 ∧ t.mtr.winAll = 0 ∧ t.mtr.winSq = [] ∧ t.mtr.winP = 0 ∧ t.mtr.winS = 0 ∧
        t.mtr.winPaused = s.thm.paused ∧
        (s.mtr.winN ≠ 0 → ∀ k, k < 7 →
          t.reg (rmsReg k) = fSqrtOpen 45 (s.mtr.winSq.getD k 0) (256 * s.mtr.winN * 2 ^ 298)) ∧
        (s.mtr.winN ≠ 0 → 0 < s.mtr.winS → t.reg rMTR_PF = fOpen 47 s.mtr.winP s.mtr.winS.toNat) ∧
        (s.harmOn = true → s.mtr.winPaused = false → t.mtr.harmBuf = !s.mtr.harmBuf ∧ t.mtr.harmN = s.mtr.winN)) ∧
  -- AGGREGATION_WINDOW_END
  (∀ s : State, s.mtrNoScale = true ∨ s.mtr.winAll < s.nagg → exec .aggregationWindowEnd s = .next s) ∧
  -- PMU_REPORT
  (∀ (s : State) (k : PmuMark) (ks : List PmuMark),
      s.pmuMode ≠ 0 → s.mtr.pmuMarks = k :: ks → s.pmuAt k + s.pmuHalf k ≤ s.wallNs →
      Does .pmuReport s fun t =>
        t.mtr.pmuMarks = ks ∧ t.mtr.pmuWp = (s.mtr.pmuWp + 1) % max 1 (s.meter 0x2C 2) ∧
        t.bytes (sramBase + s.meter 0x28 4 + 96 * s.mtr.pmuWp) 96 = s.pmuRecord k ∧ t.regBit rHST_IRQ_SRC 5 = true ∧
        (k.timeValid = false → t.regBit rMTR_STAT 11 = true)) ∧
  -- PMU_REPORT
  (∀ (s : State) (k : PmuMark) (ks : List PmuMark),
      s.mtr.pmuMarks = k :: ks → s.wallNs < s.pmuAt k + s.pmuHalf k → exec .pmuReport s = .next s) ∧
  -- MTR_RESAMPLE
  (∀ (s : State) (k : StrobeMark) (ks : List StrobeMark),
      s.recd.marks = k :: ks →
      Does (.mtrResample true) s fun t =>
        t.recd.marks = ks ∧ ∀ n, n < 4 → s.recLive n = true → (s.recUnit n).clk = 0 → s.recd.stopped = false →
          (s.recUnit n).st ≠ 0 → (s.recUnit n).st ≠ 4 →
          (t.recUnit n).raws = (s.recUnit n).raws + 1 ∧ (t.recUnit n).clkSch = k.sch) ∧
  -- MTR_RESAMPLE
  (∀ (s : State) (k : StrobeMark) (ks : List StrobeMark) (x : List Resample),
      s.mtr.marks = k :: ks → x = ((s.setMtr { s.mtr with marks := ks }).resamples k.t 7).1 →
      Does (.mtrResample false) s fun t =>
        t.mtr.marks = ks ∧
        (∀ c, c < 7 → ctlEn (s.sdmCh c).ctl = true → (t.sdmCh c).w2 = resampleWord (x.getD c {}) ∧
          (t.sdmCh c).strobes = ((s.sdmCh c).strobes + 1) % 256) ∧
        (s.mtr.frozen = false → k.halted = false → t.mtr.last = some k.t)) ∧
  -- MTR_RESAMPLE
  (∀ (s : State) (k : StrobeMark) (ks : List StrobeMark) (x : List Resample) (l : Nat) (v : Nat → Int) (d : Nat → Int),
      s.mtr.marks = k :: ks → x = ((s.setMtr { s.mtr with marks := ks }).resamples k.t 7).1 → s.mtr.frozen = false →
      k.halted = false → k.runs = true → s.mtr.forceGap = false → s.mtr.last = some l → k.t - l ≤ 400000 →
      (∀ c, c < 7 → c ≠ 3 → (x.getD c {}).reason = 0) →
      (∀ p, p < 3 → (s.mtr.hist.getD 63 []).getD p none = some (d p)) →
      (∀ c, c < 7 → v c = (x.getD c {}).value * ratOf (k.kch.getD c 0)) →
      Does (.mtrResample false) s fun t =>
        t.mtr.prev = [energy (v 0 * v 4) (2 ^ 298) (k.t - l), energy (v 1 * v 5) (2 ^ 298) (k.t - l),
          energy (v 2 * v 6) (2 ^ 298) (k.t - l), energy (d 0 * v 4) (2 ^ 298) (k.t - l),
          energy (d 1 * v 5) (2 ^ 298) (k.t - l), energy (d 2 * v 6) (2 ^ 298) (k.t - l)]) ∧
  -- MTR_RESAMPLE
  (∀ s : State, s.recd.marks = [] → exec (.mtrResample true) s = .next s) ∧
  -- MTR_RESAMPLE
  (∀ s : State, s.mtr.marks = [] → exec (.mtrResample false) s = .next s)

/-- A sample at every DIV-th event of its clock goes to the pre-trigger ring or to the capture in progress, whose first
sample is the trigger sample. A source that has fired, a pattern that begins to hold, an active comparator or a command
starts a capture in an armed unit, counts as a retrigger in a capturing one, and as missed in its dead time. ARM takes the
lowest free buffer or waits for one, DISARM returns the unit to idle; a refilled unit re-arms; an XTRIG frame of another
device starts a capture in the units of the ring; a complete capture is sealed, its index kept in the NVM and its Drawer
handed to the Shelf; and a stored Drawer frees its buffer. Where the spec leaves a point of these open, the choice is the
model's (log 18). -/
def Obligations.RecorderCommandsComplete : Prop :=
  -- REC_SAMPLE
  (∀ (s : State) (n : Nat) (x : RecSample) (v : State),
      s.recLive n = true → s.recd.stopped = false → (s.recUnit n).st ≠ 0 → (s.recUnit n).st ≠ 4 →
      (s.recUnit n).f 2 2 ≤ (s.recUnit n).raws → (s.recUnit n).cap = none → x = (s.recSampleNow n).1 → v = (s.recSampleNow n).2 →
      exec (.recSample n) s = .next (v.setRecUnit n {
          s.recUnit n with
          accs := [], evHeld := 0, raws := 0, pre := (x :: (s.recUnit n).pre).take (s.recUnit n).preLen })) ∧
  -- REC_SAMPLE
  (∀ (s : State) (n : Nat) (x : RecSample) (v : State) (k : Capture),
      s.recLive n = true → s.recd.stopped = false → (s.recUnit n).st ≠ 0 → (s.recUnit n).st ≠ 4 →
      (s.recUnit n).f 2 2 ≤ (s.recUnit n).raws → (s.recUnit n).cap = some k → (s.recUnit n).post ≠ [] →
      (s.recUnit n).post.length < k.want → x = (s.recSampleNow n).1 → v = (s.recSampleNow n).2 →
      exec (.recSample n) s = .next (v.setRecUnit n {
          s.recUnit n with accs := [], evHeld := 0, raws := 0, post := x :: (s.recUnit n).post })) ∧
  -- REC_SAMPLE
  (∀ (s : State) (n : Nat) (x : RecSample) (v : State) (k : Capture),
      s.recLive n = true → s.recd.stopped = false → (s.recUnit n).st ≠ 0 → (s.recUnit n).st ≠ 4 →
      (s.recUnit n).f 2 2 ≤ (s.recUnit n).raws → (s.recUnit n).cap = some k → (s.recUnit n).post = [] →
      0 < k.want → x = (s.recSampleNow n).1 → v = (s.recSampleNow n).2 → k.takes x = true →
      Does (.recSample n) s fun t =>
        (t.recUnit n).post = [x] ∧ (t.recUnit n).pre = (s.recUnit n).pre ∧
        (t.recUnit n).cap = some { k with flags := v.recFlags, angSrc := v.ang.src }) ∧
  -- REC_SAMPLE
  (∀ (s : State) (n : Nat), (s.recUnit n).raws < (s.recUnit n).f 2 2 → exec (.recSample n) s = .next s) ∧
  -- REC_TRIGGER
  (∀ (s : State) (n k i b : Nat),
      s.recLive n = true → k = 0 ∧ i < 16 ∧ b = i ∨ k = 2 ∧ i < 4 ∧ b = 20 + i → bit (s.recUnit n).hits b = true →
      (s.recUnit n).st = 2 → s.recd.stopped = false →
      Does (.recTrigger n k i) s fun t =>
        (t.recUnit n).st = 3 ∧ (t.recUnit n).hits = (s.recUnit n).hits - 2 ^ b ∧
        (t.recUnit n).cap = some {
          kind := k, index := i, wall := s.wallNs / 4 * 4, time := s.clk.t, want := (s.recUnit n).postLen
          partialPre := decide ((s.recUnit n).pre.length < (s.recUnit n).preLen) }) ∧
  -- REC_TRIGGER
  (∀ (s : State) (n i : Nat),
      s.recLive n = true → i < 4 → (s.recUnit n).trigSel (16 + i) = true → s.patternHolds (s.recUnit n) i = true →
      bit (s.recUnit n).patWas i = false → (s.recUnit n).st = 2 → s.recd.stopped = false →
      Does (.recTrigger n 1 i) s fun t =>
        (t.recUnit n).st = 3 ∧ (t.recUnit n).cap.map (fun c => (c.kind, c.index)) = some (1, i)) ∧
  -- REC_TRIGGER
  (∀ (s : State) (n i : Nat),
      s.recLive n = true → i < 18 → (s.recUnit n).trigSel 24 = true → bit (s.cmpField i 6 1) 0 = true →
      s.srcActive i = true → (s.recUnit n).st = 2 → s.recd.stopped = false →
      Does (.recTrigger n 3 i) s fun t =>
        (t.recUnit n).st = 3 ∧ (t.recUnit n).cap.map (fun c => (c.kind, c.index)) = some (3, i)) ∧
  -- REC_TRIGGER
  (∀ (s : State) (n i : Nat) (c : Capture),
      s.recLive n = true → i < 16 → bit (s.recUnit n).hits i = true → (s.recUnit n).st = 3 →
      (s.recUnit n).cap = some c → c.time ≠ s.clk.t → s.recd.stopped = false →
      Does (.recTrigger n 0 i) s fun t =>
        (t.recUnit n).st = 3 ∧ (t.recUnit n).cap.map (·.retrig) = some (min 0xFFFF (c.retrig + 1)) ∧
        (t.recUnit n).cap.map (·.want) = some (if (s.recUnit n).extend then
          min (s.recUnit n).maxPost ((s.recUnit n).post.length + (s.recUnit n).postLen) else c.want)) ∧
  -- REC_TRIGGER
  (∀ (s : State) (n i : Nat),
      s.recLive n = true → n < 4 → i < 16 → bit (s.recUnit n).hits i = true →
      (s.recUnit n).st = 4 ∨ (s.recUnit n).st = 1 ∧ (s.recUnit n).pre.length < (s.recUnit n).preLen →
      s.recd.stopped = false →
      Does (.recTrigger n 0 i) s fun t =>
        (t.recUnit n).st = (s.recUnit n).st ∧ (t.recUnit n).missed = min 0xFFFF ((s.recUnit n).missed + 1) ∧
        t.regBit rREC_STAT 1 = true ∧
        (t.reg (rREC_Un_CNT_MISS n)).toNat = satInc (s.reg (rREC_Un_CNT_MISS n)).toNat) ∧
  -- REC_CMD_TRIGGER
  (∀ (s : State) (m : BitVec 4),
      Does (.recCmdTrigger m) s fun t => ∀ n, n < 4 →
        (m.getLsbD n = false → t.recUnit n = s.recUnit n) ∧
        (m.getLsbD n = true → s.recLive n = true → (s.recUnit n).trigSel 25 = true → (s.recUnit n).st = 2 →
          s.recd.stopped = false →
          (t.recUnit n).st = 3 ∧ (t.recUnit n).cap.map (fun c => (c.kind, c.index)) = some (4, 0))) ∧
  -- REC_ARM
  (∀ (s : State) (m : BitVec 4),
      Does (.recArm m) s fun t => ∀ n, n < s.nUnit →
        (m.getLsbD n = false ∨ (s.recUnit n).st ≠ 0 → t.recUnit n = s.recUnit n) ∧
        (m.getLsbD n = true → (s.recUnit n).st = 0 →
          (t.recUnit n).st = (if (s.recUnit n).freeBufs = [] then 4 else 2) ∧
          ((s.recUnit n).freeBufs ≠ [] → some (t.recUnit n).buf = (s.recUnit n).freeBufs.head? ∧
            (t.recUnit n).pre = []))) ∧
  -- REC_DISARM
  (∀ (s : State) (m : BitVec 4),
      Does (.recDisarm m) s fun t => ∀ n, n < 4 → s.recLive n = true →
        t.recUnit n = if m.getLsbD n then {
            s.recUnit n with st := 0, pre := [], post := [], cap := none, deadFrom := none } else s.recUnit n) ∧
  -- REC_REARM
  (∀ (s : State) (n : Nat),
      (s.recUnit n).st = 1 → (s.recUnit n).preLen ≤ (s.recUnit n).pre.length → s.recd.stopped = false →
      Does (.recRearm n) s fun t =>
        (t.recUnit n).st = 2 ∧ (t.recUnit n).deadFrom = none ∧ (t.recUnit n).pre = (s.recUnit n).pre) ∧
  -- REC_REARM
  (∀ (s : State) (n : Nat),
      (s.recUnit n).st ≠ 1 ∨ (s.recUnit n).pre.length < (s.recUnit n).preLen → exec (.recRearm n) s = .next s) ∧
  -- XTRIG_FRAME
  (∀ (s : State) (f : TrsFrame) (n : Nat),
      f.type = 3 → f.src ≠ s.trs.rank → s.recd.stopped = false → n < s.nUnit → (s.recUnit n).ringIn = true →
      (s.recUnit n).trigSel 26 = true → (s.recUnit n).clk ≤ 1 → (s.recUnit n).st = 2 →
      Does (.xtrigFrame f) s fun t =>
        (t.recUnit n).st = 3 ∧ (t.recUnit n).cap.map (fun c => (c.kind, c.ring, c.origin)) = some (5, true, f.src)) ∧
  -- XTRIG_FRAME
  (∀ (s : State) (f : TrsFrame),
      f.type ≠ 3 ∨ f.src = s.trs.rank ∨ s.recd.stopped = true → exec (.xtrigFrame f) s = .next s) ∧
  -- DRAWER_SEAL
  (∀ (s : State) (n i : Nat) (k : Capture),
      n < 4 → (s.recUnit n).cap = some k → k.want ≤ (s.recUnit n).post.length →
      i = ((s.recUnit n).capIdx + 1) % 2 ^ 32 →
      Does (.drawerSeal n) s fun t =>
        (t.recUnit n).cap = none ∧ (t.recUnit n).post = [] ∧ (t.recUnit n).capIdx = i ∧
        bit (t.recUnit n).full (s.recUnit n).buf = true ∧ t.memWord (sealedAddr n) = word i ∧
        t.regBit rREC_STAT 0 = true ∧
        (t.shf.drawers.getLast?).map (fun d => (d.unit, d.buf, d.capIdx)) = some (n, (s.recUnit n).buf, i)) ∧
  -- DRAWER_SEAL
  (∀ (s : State) (n : Nat),
      (s.recUnit n).cap.any (fun k => decide (k.want ≤ (s.recUnit n).post.length)) = false →
      exec (.drawerSeal n) s = .next s) ∧
  -- DRAWER_STORED
  (∀ (s : State) (n : Nat) (d : Drawer),
      (s.recd.done.find? fun d => d.unit == n) = some d → (s.recUnit n).st ≠ 4 →
      Does (.drawerStored n) s fun t =>
        t.memWord (sealedAddr n + 4) = word d.capIdx ∧ t.recd.done = s.recd.done.erase d ∧
        t.recUnit n = { s.recUnit n with
          stored := d.capIdx, full := (s.recUnit n).full &&& (2 ^ 64 - 1 - 2 ^ d.buf) }) ∧
  -- DRAWER_STORED
  (∀ (s : State) (n : Nat) (d : Drawer),
      (s.recd.done.find? fun d => d.unit == n) = some d → (s.recUnit n).st = 4 → s.recd.stopped = false →
      d.buf < (s.recUnit n).nbuf → d.buf < 64 →
      Does (.drawerStored n) s fun t =>
        (t.recUnit n).st = (if (s.recUnit n).immediate then 2 else 1) ∧ (t.recUnit n).buf ≤ d.buf ∧
        (t.recUnit n).stored = d.capIdx) ∧
  -- DRAWER_STORED
  (∀ (s : State) (n : Nat),
      (s.recd.done.find? fun d => d.unit == n) = none → exec (.drawerStored n) s = .next s)

/-- A record of the first stream that waits and whose bucket holds it begins with the next sequence number, its whole length
deducted. A page that was programmed stands on the Shelf and the record goes on; one that failed remaps its sector to a
spare or retires it, and a failed page of BOOT is flagged. An erased sector reads 0xFF, its erasures are counted, and it
enters its stream's chain with the record to go on; a wear-level move copies the coldest sector and everything follows it;
LOC answers where a record starts or that there is none; APPEND queues a record of the host or is refused. Where the spec
leaves a point of these open, the choice is the model's (log 19, log 47). -/
def Obligations.ShelfCommandsComplete : Prop :=
  -- SHF_RECORD_BEGIN
  (∀ (s : State) (i q : Nat) (w : List Byte × Option Drawer),
      s.shfReady = true → s.shf.job = none → s.shf.erasing = none → s.nextStream = some i → s.waiting i = some w →
      q = ((s.shfStream i).seq + 1) % 2 ^ 32 →
      Does .shfRecordBegin s fun t =>
        (t.shfStream i).seq = q ∧ (t.shfStream i).lackAt = s.clk.t ∧
        (t.shfStream i).lack = s.lackNow i + (s.shfBytes i q w.1).length * 400000000 ∧
        t.shf.job.map (fun j => (j.stream, j.seq, j.left, j.drawer)) = some (i, q, s.shfBytes i q w.1, w.2) ∧
        t.shf.host = (if i = 4 then s.shf.host.tail else s.shf.host) ∧
        t.shf.drawers = (if i = 1 then s.shf.drawers.tail else s.shf.drawers)) ∧
  -- SHF_RECORD_BEGIN
  (∀ s : State,
      s.shfReady = false ∨ s.shf.job.isSome = true ∨ s.shf.erasing.isSome = true ∨ s.nextStream = none →
      exec .shfRecordBegin s = .next s) ∧
  -- SHF_PAGE_DONE
  (∀ (s : State) (j : ShfJob) (k n : Nat),
      s.shf.job = some j → j.busy = true → (s.shfStream j.stream).chain.getLast? = some k →
      64 ≤ (s.shfStream j.stream).next → n = min (256 - (s.shfStream j.stream).next % 256) j.left.length →
      Does (.shfPageDone false true) s fun t =>
        t.bytes (sectorAddr k + (s.shfStream j.stream).next) n = j.left.take n ∧
        (t.shfStream j.stream).next = (s.shfStream j.stream).next + n ∧
        (j.left.drop n ≠ [] → t.shf.job.map (·.left) = some (j.left.drop n)) ∧
        (j.left.drop n = [] → t.shf.job = none ∧
          t.shf.records.getLast?.map (fun r => (r.stream, r.seq)) = some (j.stream, j.seq))) ∧
  -- SHF_PAGE_DONE
  (∀ (s : State) (j : ShfJob) (k : Nat),
      s.shf.job = some j → j.busy = true → (s.shfStream j.stream).chain.getLast? = some k → 0 < s.shf.sparesLeft →
      Does (.shfPageDone false false) s fun t =>
        t.shf.sparesUsed = s.shf.sparesUsed + 1 ∧ t.shf.remapped = k :: s.shf.remapped ∧
        t.regBit rSHF_STAT 1 = true ∧ (t.reg rSHF_CNT_BAD).toNat = satInc (s.reg rSHF_CNT_BAD).toNat ∧
        t.shf.job.map (·.left) = some j.left) ∧
  -- SHF_PAGE_DONE
  (∀ (s : State) (j : ShfJob) (k : Nat),
      s.shf.job = some j → j.busy = true → (s.shfStream j.stream).chain.getLast? = some k → s.shf.sparesLeft = 0 →
      Does (.shfPageDone false false) s fun t =>
        t.shf.retired = k :: s.shf.retired ∧ t.regBit rSHF_STAT 4 = true ∧
        (t.shfStream j.stream).next = sectorLen ∧ t.shf.job.map (·.left) = some j.left) ∧
  -- SHF_PAGE_DONE
  (∀ (s : State) (b : Bool),
      s.shf.job.any (fun j => j.busy) = false → exec (.shfPageDone false b) s = .next s) ∧
  -- SHF_PAGE_DONE
  (∀ (s : State) (b : Bool), exec (.shfPageDone true b) s = .next (if b then s else s.setBit rSHF_STAT 5)) ∧
  -- SHF_ERASE_DONE
  (∀ (s : State) (k : Nat),
      s.shf.erasing = some k → s.shf.job = none →
      Does (.shfEraseDone true) s fun t =>
        t.shf.erasing = none ∧ t.shf.eraseCount k = s.shf.eraseCount k + 1 ∧
        (∀ a, sectorAddr k ≤ a → a < sectorAddr k + sectorLen → t.byte a = 0xFF) ∧
        (∀ a, a < sectorAddr k ∨ sectorAddr k + sectorLen ≤ a → t.byte a = s.byte a)) ∧
  -- SHF_ERASE_DONE
  (∀ (s : State) (k : Nat) (j : ShfJob),
      s.shf.erasing = some k → s.shf.job = some j → (s.shfStream j.stream).chain = [] →
      Does (.shfEraseDone true) s fun t =>
        t.shf.erasing = none ∧ t.shf.eraseCount k = s.shf.eraseCount k + 1 ∧
        (t.shfStream j.stream).chain = [k] ∧ (t.shfStream j.stream).next = 64 ∧
        (∀ a, sectorAddr k + 64 ≤ a → a < sectorAddr k + sectorLen → t.byte a = 0xFF) ∧
        t.shf.job = some { j with busy := j.busy || s.shfReady }) ∧
  -- SHF_ERASE_DONE
  (∀ (s : State) (b : Bool), s.shf.erasing = none → s.shf.job = none → exec (.shfEraseDone b) s = .next s) ∧
  -- WEAR_LEVEL_MOVE
  (∀ (s : State) (ks : List Nat) (a b : Nat),
      s.shfReady = true → s.shf.job = none → s.nextStream = none →
      ks = s.shf.pool.filter (fun k => !s.shf.retired.contains k) →
      2000 < (ks.map s.shf.eraseCount).max?.getD 0 - (ks.map s.shf.eraseCount).min?.getD 0 →
      (pickFrom 2 (ks.filter fun k => s.shf.eraseCount k == (ks.map s.shf.eraseCount).min?.getD 0) = some a) →
      (pickFrom 3 (s.freeSectors.filter fun k => some k != some a) = some b) →
      Does .wearLevelMove s fun t =>
        t.shf.eraseCount b = s.shf.eraseCount b + 1 ∧ t.shf.records = s.shf.records.map (ShfRecord.moved a b) ∧
        (∀ i, i < 5 → (t.shfStream i).chain = (s.shfStream i).chain.map fun k => if k = a then b else k) ∧
        (∀ x, 64 ≤ x → x < sectorLen → t.byte (sectorAddr b + x) = s.byte (sectorAddr a + x))) ∧
  -- WEAR_LEVEL_MOVE
  (∀ s : State,
      s.shfReady = false ∨ s.shf.job.isSome = true ∨ s.nextStream.isSome = true →
      exec .wearLevelMove s = .next s) ∧
  -- LOC
  (∀ (s : State) (i : Nat) (r : ShfRecord),
      ((s.shf.records.find? fun r => r.stream == i && r.seq == (s.reg rSHF_LOC_REQ).toNat) = some r) →
      exec (.loc i) s = .next ((s.setShf { s.shf with locRes := word r.start }).setBit rSHF_STAT 7)) ∧
  -- LOC
  (∀ (s : State) (i : Nat),
      ((s.shf.records.find? fun r => r.stream == i && r.seq == (s.reg rSHF_LOC_REQ).toNat) = none) →
      exec (.loc i) s = .next ((s.setShf { s.shf with locRes := 0xFFFFFFFF }).setBit rSHF_STAT 7)) ∧
  -- APPEND
  (∀ s : State,
      32 + (s.reg rSHF_APP_LEN).toNat ≤ s.depth 4 →
      hostVisible s.partitions (sramBase + bits (s.reg rSHF_APP_SRC).toNat 0 20) (s.reg rSHF_APP_LEN).toNat = true →
      exec .append s = .next (s.setShf { s.shf with
          host := s.shf.host ++ [(sramBase + bits (s.reg rSHF_APP_SRC).toNat 0 20, (s.reg rSHF_APP_LEN).toNat)] })) ∧
  -- APPEND
  (∀ s : State,
      s.depth 4 < 32 + (s.reg rSHF_APP_LEN).toNat ∨
        hostVisible s.partitions (sramBase + bits (s.reg rSHF_APP_SRC).toNat 0 20) (s.reg rSHF_APP_LEN).toNat = false →
      exec .append s = .next (s.setBit rSHF_STAT 9))

/-- A lost Follow_Up drops its Sync; a slot without its master loses it, takes the best of the candidates left, and leads to
HOLDOVER where it was in force and no source is left, and so does a lost time master of the ring; a peer delay request is
numbered and sent; RESYNC begins anew without VALID; SWITCH moves to a qualified source by way of SWITCHING, wall time not
stepped; HOLD enters holdover, and holdover counts its seconds and compensates; a revert goes back to the preferred source
once it has been qualified for REVERT. A link that falls empties its slots' candidates. A time trigger is armed for a time
in the future and refused otherwise, and fires once at or after it with its action, late ones being flagged. Where the spec
leaves a point of these open, the choice is the model's (log 20, log 21, log 48). -/
def Obligations.TimeCommandsComplete : Prop :=
  -- FOLLOW_UP_TIMEOUT
  (∀ (s : State) (k : Nat),
      k < 2 →
      exec (.followUpTimeout k) s = .next (s.setPtpSlot k { s.ptpSlot k with pend := none })) ∧
  -- PTP_MASTER_LOSS
  (∀ (s : State) (k p : Nat) (cs : List PtpMaster),
      k < 2 → (s.ptpSlot k).best = some p → cs = (s.ptpSlot k).cands.filter (fun c => c.port != p) →
      Does (.ptpMasterLoss k) s fun t =>
        (t.ptpSlot k).cands = cs ∧ (t.ptpSlot k).best = (bestMaster (cs.filter (·.qualified))).map (·.port) ∧
        (s.tim.src ≠ k → t.tim.st = s.tim.st ∧ t.tim.src = s.tim.src) ∧
        (s.tim.src = k → s.tim.st = 2 → cs.filter (·.qualified) = [] →
          (∀ j, j < 3 → j ≠ k → s.srcQualified j = false) →
          t.tim.st = 4 ∧ t.tim.src = 3 ∧ t.regBit rTIM_STAT 10 = true)) ∧
  -- PTP_MASTER_LOSS
  (∀ (s : State) (k : Nat), k < 2 → (s.ptpSlot k).best = none → exec (.ptpMasterLoss k) s = .next s) ∧
  -- PTP_MASTER_LOSS
  (∀ s : State,
      Does (.ptpMasterLoss 2) s fun t =>
        t.tim.trsOk = false ∧ (s.tim.src ≠ 2 → t.tim.st = s.tim.st) ∧
        (s.tim.src = 2 → s.tim.st = 2 → (∀ j, j < 2 → s.srcQualified j = false) →
          t.tim.st = 4 ∧ t.tim.src = 3 ∧ t.regBit rTIM_STAT 10 = true)) ∧
  -- PDELAY_REQ_SEND
  (∀ (s : State) (m q : Nat),
      m < 2 → s.macRuns m = true → s.slotOn 0 = true ∧ s.slotMac 0 = m ∨ s.slotOn 1 = true ∧ s.slotMac 1 = m →
      q = ((s.peer m).seq + 1) % 65536 →
      Does (.pdelayReqSend m) s fun t =>
        t.peer m = { s.peer m with seq := q, t1 := none, resp := none } ∧
        (t.macSt m).ptp = (s.macSt m).ptp ++ [s.pdelayFrame m 2 q 0 0 (ptpStamp 0 ++ leBytes 10 0)]) ∧
  -- PDELAY_REQ_SEND
  (∀ (s : State) (m : Nat), s.macRuns m = false → exec (.pdelayReqSend m) s = .next s) ∧
  -- RESYNC
  (∀ s : State,
      Does .resync s fun t =>
        t.tim = { s.tim with
          st := 0, src := 3, adj := 0, freq := 0, good := 0, outRun := 0, valid := false, precise := false }) ∧
  -- SWITCH
  (∀ (s : State) (k : Nat),
      s.tim.st ≠ 0 → s.tim.src ≠ k → k < 2 → s.srcQualified k = true →
      Does (.switch k) s fun t =>
        t.tim.st = 3 ∧ t.tim.src = k ∧ t.tim.domain = s.slotDomain k ∧ t.tim.lastOff = (s.ptpSlot k).offset ∧
        t.tim.wall = s.tim.wall ∧ t.tim.freq = (if s.tim.st = 4 then s.tim.adj else s.tim.freq) ∧
        t.regBit rTIM_STAT 8 = true ∧ (t.reg rTIM_CNT_SWITCH).toNat = satInc (s.reg rTIM_CNT_SWITCH).toNat) ∧
  -- SWITCH
  (∀ (s : State) (k : Nat),
      s.tim.st = 2 → s.tim.src ≠ k → k < 2 → (∀ j, j < 3 → j ≠ s.tim.src → s.srcQualified j = false) →
      Does (.switch k) s fun t => t.tim.st = 4 ∧ t.tim.src = 3 ∧ t.tim.wall = s.tim.wall ∧ t.regBit rTIM_STAT 10 = true) ∧
  -- SWITCH
  (∀ (s : State) (k : Nat), s.tim.st = 0 ∨ s.tim.src = k → exec (.switch k) s = .next s) ∧
  -- TIM_HOLD
  (∀ s : State,
      s.tim.st ≠ 0 → s.tim.st ≠ 4 →
      Does .timHold s fun t =>
        t.tim.st = 4 ∧ t.tim.src = 3 ∧ t.tim.base = s.adjMean ∧ t.tim.adj = adjLimit s.adjMean ∧
        t.tim.tEntry = s.thm.tdie ∧ t.tim.holdS = 0 ∧ t.tim.wall = s.tim.wall ∧ t.regBit rTIM_STAT 10 = true ∧
        (∀ e, s.timErr = some e → t.tim.err0 = e)) ∧
  -- TIM_HOLD
  (∀ s : State, s.tim.st = 0 ∨ s.tim.st = 4 → exec .timHold s = .next s) ∧
  -- HOLDOVER_UPDATE
  (∀ s : State,
      s.tim.st = 4 →
      Does .holdoverUpdate s fun t =>
        t.tim.holdS = s.tim.holdS + 1 ∧ t.tim.rcS = s.tim.rcS + b2n (!s.clk.refOk) ∧
        t.tim.adj = adjLimit (s.tim.base + s.tempCorr) ∧ t.tim.st = 4 ∧
        t.tim.valid = t.timWithin t.validErr ∧ t.tim.precise = t.timWithin t.precErr) ∧
  -- HOLDOVER_UPDATE
  (∀ s : State, s.tim.st ≠ 4 → exec .holdoverUpdate s = .next s) ∧
  -- REVERT_SWITCH
  (∀ (s : State) (a : Nat),
      s.revert ≠ 0 → (s.tim.st = 2 ∨ s.tim.st = 3) → s.tim.src ≠ s.srcPref → s.srcQualified s.srcPref = true →
      s.qualFrom s.srcPref = some a → a + 400000000 * s.revert ≤ s.clk.t →
      Does .revertSwitch s fun t =>
        t.tim.st = 3 ∧ t.tim.src = s.srcPref ∧ t.tim.wall = s.tim.wall ∧ t.regBit rTIM_STAT 8 = true) ∧
  -- REVERT_SWITCH
  (∀ s : State,
      s.revert = 0 ∨ s.tim.src = s.srcPref ∨ s.srcQualified s.srcPref = false → exec .revertSwitch s = .next s) ∧
  -- ETH_LINK_CHANGE
  (∀ (s : State) (m : Nat) (l : BitVec 4),
      m < 2 → l.getLsbD 0 = true →
      exec (.ethLinkChange m l) s = .next (s.setMac m { s.macSt m with link := l.toNat })) ∧
  -- ETH_LINK_CHANGE
  (∀ (s : State) (m : Nat) (l : BitVec 4),
      m < 2 → l.getLsbD 0 = false →
      Does (.ethLinkChange m l) s fun t =>
        (t.macSt m).link = l.toNat ∧
        ∀ k, k < 2 → s.slotMac k = m → s.slotOn k = true → (t.ptpSlot k).cands = [] ∧ (t.ptpSlot k).best = none) ∧
  -- TIME_TRIGGER_ARM
  (∀ (s : State) (n : Nat) (w : Word),
      n < 4 → w.getLsbD 2 = true → aheadMod wallMod s.wallNs (s.ttTime n) = true →
      Does (.timeTriggerArm n w) s fun t =>
        t.reg (rTIM_TTn_CTL n) = w &&& 0xFF03 ∧ bit t.tim.ttArmed n = true ∧ bit t.tim.ttCrossed n = false) ∧
  -- TIME_TRIGGER_ARM
  (∀ (s : State) (n : Nat) (w : Word),
      n < 4 → w.getLsbD 2 = true → aheadMod wallMod s.wallNs (s.ttTime n) = false →
      Does (.timeTriggerArm n w) s fun t => bit t.tim.ttArmed n = false ∧ t.regBit rTIM_STAT 12 = true) ∧
  -- TIME_TRIGGER_ARM
  (∀ (s : State) (n : Nat) (w : Word),
      n < 4 → w.getLsbD 2 = false →
      Does (.timeTriggerArm n w) s fun t =>
        t.reg (rTIM_TTn_CTL n) = w &&& 0xFF03 ∧ bit t.tim.ttArmed n = false) ∧
  -- TIME_TRIGGER_FIRE
  (∀ (s : State) (n : Nat),
      n < 4 → bit s.tim.ttArmed n = true → aheadMod wallMod s.wallNs (s.ttTime n) = false →
      bits (s.reg (rTIM_TTn_CTL n)).toNat 0 2 = 3 →
      Does (.timeTriggerFire n) s fun t => t.tim.ttArmed = s.tim.ttArmed &&& (2 ^ 4 - 1 - 2 ^ n) ∧ t.regBit
        (rTIM_TTn_CTL n) 3 = true ∧ t.regBit rHST_IRQ_SRC 7 = true ∧ (bit s.tim.ttCrossed n = true → t.regBit
        rTIM_STAT 11 = true)) ∧
  -- TIME_TRIGGER_FIRE
  (∀ (s u : State) (n : Nat),
      n < 4 → bit s.tim.ttArmed n = true → aheadMod wallMod s.wallNs (s.ttTime n) = false →
      bit s.tim.ttCrossed n = false →
      u = (s.setTim { s.tim with
          ttArmed := s.tim.ttArmed &&& (2 ^ 4 - 1 - 2 ^ n), ttCrossed := s.tim.ttCrossed &&& (2 ^ 4 - 1 - 2 ^ n)
        }).setBit (rTIM_TTn_CTL n) 3 →
      (bits (s.reg (rTIM_TTn_CTL n)).toNat 0 2 = 1 →
        exec (.timeTriggerFire n) s = .next (u.after (.pwmStart (BitVec.ofNat 8 (bits (s.reg (rTIM_TTn_CTL n)).toNat 8
          8))))) ∧
      (bits (s.reg (rTIM_TTn_CTL n)).toNat 0 2 = 2 →
        exec (.timeTriggerFire n) s = .next (u.after (.pwmStop (BitVec.ofNat 8 (bits (s.reg (rTIM_TTn_CTL n)).toNat 8
          8)))))) ∧
  -- TIME_TRIGGER_FIRE
  (∀ (s : State) (n : Nat),
      bit s.tim.ttArmed n = false ∨ aheadMod wallMod s.wallNs (s.ttTime n) = true →
      exec (.timeTriggerFire n) s = .next s)

/-- A read of TIM_NS keeps the seconds of wall time at that instant, and TIM_SEC_LO and TIM_SEC_HI return what is
kept; a new read of TIM_NS keeps new seconds. Words 0x380 to 0x382 of a context hold the nanoseconds and the seconds
as they stood at its start. -/
def Obligations.TimeReadSnapshotsItsSeconds : Prop :=
  -- TIM_NS_READ
  (∀ s : State, exec .timNsRead s = .next (s.setTim { s.tim with snapSec := s.wallNs / 1000000000 })) ∧
  -- TIM_NS_READ
  (∀ s : State,
      s.timWord 0x00C = some (word (s.tim.snapSec % 2 ^ 32)) ∧ s.timWord 0x010 = some (word (s.tim.snapSec / 2 ^
        32))) ∧
  (∀ (s : State) (n : Nat) (b : Bool) (i : Nat),
      i < 3 →
      SMap.get zeroWord ((s.latchWords n b).ctx n).latched (0x380 + i) = if i = 0 then word (s.wallNs % 1000000000)
        else word (bits (s.wallNs / 1000000000) (32 * (i - 1)) 32))

/-- A frame with a bad check sequence is only counted, one of a wrong length or on a MAC that does not run is lost. One of
the safety type goes to the channels of the safe transfer layer: a channel in SYNC takes it and leaves SYNC, a channel out
of SYNC delivers its data, and a frame rejected leaves its reason and is counted. A two-step Sync of the master followed
waits for its Follow_Up, a peer delay request is answered by a response and its follow-up, and any other frame is dropped by
its filter entry or stored in the host ring with its descriptor, or counted where the ring is full. A doorbell marks the
queues that it rings, passes over a descriptor that cannot be sent and ends where none is READY. A timed launch starts the
frame due next, a late one flagged or dropped; an immediate one starts the most urgent that waits: PTP, then safety, then
the queues from 7 down, unless it would not end before the next launch. A launched frame leaves its RESULT and stamp in its
descriptor, a response its stamp in its follow-up, a request its own. Where the spec leaves a point of these open, the
choice is the model's (log 21, log 48). -/
def Obligations.NetworkCommandsComplete : Prop :=
  -- ETH_FRAME_RECEIVE
  (∀ (s : State) (f : EthFrame),
      f.mac < 2 → s.macRuns f.mac = true → f.good = false →
      exec (.ethFrameReceive f) s = .next (s.inc rETH_CNT_CRC)) ∧
  -- ETH_FRAME_RECEIVE
  (∀ (s : State) (f : EthFrame),
      s.macRuns f.mac = false ∨ 2 ≤ f.mac ∨ (f.good = true ∧ (f.bytes.length < 60 ∨ 1518 < f.bytes.length)) →
      exec (.ethFrameReceive f) s = .next s) ∧
  -- ETH_FRAME_RECEIVE
  (∀ (s : State) (f : EthFrame),
      f.mac < 2 → s.macRuns f.mac = true → f.good = true → 60 ≤ f.bytes.length → f.bytes.length ≤ 1518 →
      ethType f.bytes = s.safEtype → s.mon.accepted = false →
      exec (.ethFrameReceive f) s = .next ((s.inc (rETH_CNT_RX0 + 4 * f.mac)).inc rETH_CNT_SAF)) ∧
  -- ETH_FRAME_RECEIVE
  (∀ (s : State) (f : EthFrame) (k : Nat) (b : List Byte) (a : Nat),
      f.mac < 2 → s.macRuns f.mac = true → f.good = true → 60 ≤ f.bytes.length → f.bytes.length ≤ 1518 →
      ethType f.bytes = s.safEtype → s.mon.accepted = true → (List.range 4).filter s.stlOn = [k] →
      s.stlOld 0 k = false → b = ethPayload f.bytes → a = s.wallNs - f.age - s.rxLat f.mac →
      s.stlJudge 0 k b a s.tim.valid = none → s.stlJudge 1 k b a s.tim.valid = none →
      Does (.ethFrameReceive f) s fun t =>
        (t.reg rETH_CNT_SAF).toNat = satInc (s.reg rETH_CNT_SAF).toNat ∧
        ∀ i, i < 2 → (t.stl i k).sync = false ∧ (t.stl i k).lastSeq = field b 2 2 ∧
          (t.stl i k).notime = !s.tim.valid ∧ (t.stl i k).since = s.clk.t ∧
          ((s.stl i k).sync = true → (t.stl i k).delivered = (s.stl i k).delivered ∧
            (t.stl i k).data0 = (s.stl i k).data0) ∧
          ((s.stl i k).sync = false → (t.stl i k).ok = true ∧ (t.stl i k).timeout = false ∧
            (t.stl i k).delivered = ((s.stl i k).delivered + 1) % 256 ∧
            (t.stl i k).data0 = word (field b 0x14 4) ∧ (t.stl i k).data1 = word (field b 0x18 4))) ∧
  -- ETH_FRAME_RECEIVE
  (∀ (s : State) (f : EthFrame) (k r : Nat) (b : List Byte) (a : Nat),
      f.mac < 2 → s.macRuns f.mac = true → f.good = true → 60 ≤ f.bytes.length → f.bytes.length ≤ 1518 →
      ethType f.bytes = s.safEtype → s.mon.accepted = true → (List.range 4).filter s.stlOn = [k] →
      s.stlOld 0 k = false → b = ethPayload f.bytes → a = s.wallNs - f.age - s.rxLat f.mac →
      s.stlJudge 0 k b a s.tim.valid = some r → s.stlJudge 1 k b a s.tim.valid = some r →
      Does (.ethFrameReceive f) s fun t =>
        (∀ i, i < 2 → t.stl i k = { s.stl i k with reason := r }) ∧ t.regBit rSAF_STAT 3 = true ∧
        (t.reg rSAF_CNT_REJ).toNat = satInc (s.reg rSAF_CNT_REJ).toNat) ∧
  -- ETH_FRAME_RECEIVE
  (∀ (s : State) (f : EthFrame) (k : Nat) (b : List Byte),
      f.mac < 2 → s.macRuns f.mac = true → f.good = true → 60 ≤ f.bytes.length → f.bytes.length ≤ 1518 →
      ethType f.bytes ≠ s.safEtype → s.ptpKind f.mac f.bytes = 1 → s.netFlag 5 = false → b = ethPayload f.bytes →
      s.ptpSlotsOf f.mac b = [k] → ptpType b = 0 → ptpIntervalOk b = true → (s.ptpSlot k).best = some (ptpPort b) →
      bit (ptpFlags b) 9 = true →
      Does (.ethFrameReceive f) s fun t =>
        (t.reg rETH_CNT_PTP).toNat = satInc (s.reg rETH_CNT_PTP).toNat ∧
        t.ptpSlot k =
          { s.ptpSlot k with pend := some (ptpSeq b, s.wallNs - f.age - s.rxLat f.mac, ptpCorr b) }) ∧
  -- ETH_FRAME_RECEIVE
  (∀ (s : State) (f : EthFrame) (b : List Byte) (a : Nat),
      f.mac < 2 → s.macRuns f.mac = true → f.good = true → 60 ≤ f.bytes.length → f.bytes.length ≤ 1518 →
      ethType f.bytes ≠ s.safEtype → s.ptpKind f.mac f.bytes = 2 → s.netFlag 5 = false → b = ethPayload f.bytes →
      ptpType b = 2 → a = s.wallNs - f.age - s.rxLat f.mac →
      Does (.ethFrameReceive f) s fun t =>
        (t.reg rETH_CNT_PTP).toNat = satInc (s.reg rETH_CNT_PTP).toNat ∧
        (t.macSt f.mac).ptp = (s.macSt f.mac).ptp ++
          [s.pdelayFrame f.mac 3 (ptpSeq b) 0x200 0 (ptpStamp a ++ slice b 20 10),
           s.pdelayFrame f.mac 10 (ptpSeq b) 0 (ptpCorr b) (ptpStamp 0 ++ slice b 20 10)]) ∧
  -- ETH_FRAME_RECEIVE
  (∀ (s : State) (f : EthFrame) (i : Nat),
      f.mac < 2 → s.macRuns f.mac = true → f.good = true → 60 ≤ f.bytes.length → f.bytes.length ≤ 1518 →
      ethType f.bytes ≠ s.safEtype → s.ptpKind f.mac f.bytes = 0 →
      (List.range 16).find? (s.filterHit f.mac f.bytes) = some i → bit (s.filterCtl i) 4 = true →
      exec (.ethFrameReceive f) s = .next ((s.inc (rETH_CNT_RX0 + 4 * f.mac)).inc rETH_CNT_FILT)) ∧
  -- ETH_FRAME_RECEIVE
  (∀ (s : State) (f : EthFrame),
      f.mac < 2 → s.macRuns f.mac = true → f.good = true → 60 ≤ f.bytes.length → f.bytes.length ≤ 1518 →
      ethType f.bytes ≠ s.safEtype → s.ptpKind f.mac f.bytes = 0 →
      (List.range 16).find? (s.filterHit f.mac f.bytes) = none →
      (s.netFlag 7 = true →
        exec (.ethFrameReceive f) s = .next ((s.inc (rETH_CNT_RX0 + 4 * f.mac)).inc rETH_CNT_FILT)) ∧
      (s.netFlag 7 = false → s.rxN = 0 →
        exec (.ethFrameReceive f) s = .next (s.inc (rETH_CNT_RX0 + 4 * f.mac))) ∧
      (s.netFlag 7 = false → s.rxN ≠ 0 → (s.byte (s.rxBase + 32 * s.eth.rxWp)).getLsbD 0 = true →
        exec (.ethFrameReceive f) s =
          .next (((s.inc (rETH_CNT_RX0 + 4 * f.mac)).inc rETH_CNT_RXDROP).setBit rETH_STAT 2)) ∧
      (s.netFlag 7 = false → s.eth.rxWp < s.rxN → (s.byte (s.rxBase + 32 * s.eth.rxWp)).getLsbD 0 = false →
        Does (.ethFrameReceive f) s fun t =>
          t.eth.rxWp = (s.eth.rxWp + 1) % s.rxN ∧
          t.bytes (s.rxBase + 32 * s.rxN + 1536 * s.eth.rxWp) f.bytes.length = f.bytes ∧
          t.bytes (s.rxBase + 32 * s.eth.rxWp) 4 =
            leBytes 2 (1 + 2 * f.mac + 4 * b2n (ethTagged f.bytes) + 16 * b2n s.tim.valid + 256 * 15) ++
              leBytes 2 f.bytes.length ∧
          t.bytes (s.rxBase + 32 * s.eth.rxWp + 4) 12 =
            leBytes 8 ((s.wallNs - f.age - s.rxLat f.mac) / 1000000000) ++
              leBytes 4 ((s.wallNs - f.age - s.rxLat f.mac) % 1000000000))) ∧
  -- TXQ_DOORBELL
  (∀ (s : State) (m : BitVec 8),
      (∀ q, q < 8 → m.getLsbD q = true → (s.txq q).n ≠ 0 →
        s.descReady ((s.txq q).desc 0) = true ∧ s.descOk ((s.txq q).desc 0) = true) →
      Does (.txqDoorbell m) s fun t =>
        t.mem = s.mem ∧ t.regs = s.regs ∧
        ∀ q, q < 8 →
          t.txq q = if m.getLsbD q ∧ (s.txq q).n ≠ 0 then { s.txq q with rung := true } else s.txq q) ∧
  -- TXQ_DOORBELL
  (∀ (s : State) (k : Nat),
      k < 8 → (s.txq k).n ≠ 0 → s.descReady ((s.txq k).desc 0) = false →
      exec (.txqDoorbell (BitVec.ofNat 8 (2 ^ k))) s = .next (s.setTxq k { s.txq k with rung := false })) ∧
  -- TXQ_DOORBELL
  (∀ (s : State) (k a : Nat),
      k < 8 → (s.txq k).n = 1 → a = (s.txq k).desc 0 → s.descReady a = true → s.descOk a = false →
      Does (.txqDoorbell (BitVec.ofNat 8 (2 ^ k))) s fun t =>
        t.bytes (a + 0x14) 4 = leBytes 4 3 ∧ t.byte a = s.byte a &&& 0xFE ∧ t.regBit rETH_STAT 4 = true ∧
        ∀ x, x ≠ a → (x < a + 0x14 ∨ a + 0x18 ≤ x) → t.byte x = s.byte x) ∧
  -- TIMED_LAUNCH
  (∀ (s : State) (q d m : Nat),
      q < 8 → m = (s.txq q).mac → s.nextDue m = some (d, q) → s.macRuns m = true → (s.macSt m).tx = none →
      aheadMod wallMod (s.wallNs + 8) d = false → aheadMod wallMod (d + 8) s.wallNs = false →
      Does (.timedLaunch q) s fun t =>
        t.macSt m = { s.macSt m with tx := some (.queue q false ((s.txq q).desc 0), s.wallNs + s.txLat m) } ∧
        (t.txq q).launches = (if (s.txq q).mode = 2 then (s.txq q).launches.drop 1 else (s.txq q).launches) ∧
        t.mem = s.mem ∧ t.regs = s.regs) ∧
  -- TIMED_LAUNCH
  (∀ (s : State) (q d m a : Nat),
      q < 8 → m = (s.txq q).mac → s.nextDue m = some (d, q) → s.macRuns m = true → (s.macSt m).tx = none →
      aheadMod wallMod (d + 8) s.wallNs = true → aheadMod wallMod (s.wallNs + 8) d = false →
      a = (s.txq q).desc 0 →
      Does (.timedLaunch q) s fun t =>
        t.regBit rETH_STAT 3 = true ∧ (t.reg rETH_CNT_LATE).toNat = satInc (s.reg rETH_CNT_LATE).toNat ∧
        ((s.byte a).getLsbD 1 = false →
          t.macSt m = { s.macSt m with tx := some (.queue q true a, s.wallNs + s.txLat m) } ∧ t.mem = s.mem) ∧
        ((s.byte a).getLsbD 1 = true → (s.txq q).n = 1 →
          t.macSt m = s.macSt m ∧ t.bytes (a + 0x14) 4 = leBytes 4 3 ∧ t.byte a = s.byte a &&& 0xFE)) ∧
  -- TIMED_LAUNCH
  (∀ (s : State) (q : Nat),
      8 ≤ q ∨ s.macRuns (s.txq q).mac = false ∨ (s.macSt (s.txq q).mac).tx.isSome = true ∨
        (s.nextDue (s.txq q).mac).all (fun d => d.2 != q || aheadMod wallMod (s.wallNs + 8) d.1) = true →
      exec (.timedLaunch q) s = .next s) ∧
  -- IMMEDIATE_TRANSMIT
  (∀ (s : State) (m : Nat) (b : List Byte) (r : List (List Byte)),
      m < 2 → s.macRuns m = true → (s.macSt m).tx = none → (s.macSt m).ptp = b :: r →
      s.launchFits m b.length = true →
      exec (.immediateTransmit m) s =
        .next (s.setMac m { s.macSt m with ptp := r, tx := some (.ptp b, s.wallNs + s.txLat m) })) ∧
  -- IMMEDIATE_TRANSMIT
  (∀ (s : State) (m : Nat) (b : List Byte) (r : List (List Byte)),
      m < 2 → s.macRuns m = true → (s.macSt m).tx = none → (s.macSt m).ptp = [] → (s.macSt m).safety = b :: r →
      s.launchFits m b.length = true →
      exec (.immediateTransmit m) s =
        .next (s.setMac m { s.macSt m with safety := r, tx := some (.safety b, s.wallNs + s.txLat m) })) ∧
  -- IMMEDIATE_TRANSMIT
  (∀ (s : State) (m q : Nat),
      m < 2 → s.macRuns m = true → (s.macSt m).tx = none → (s.macSt m).ptp = [] → (s.macSt m).safety = [] →
      q < 8 → (s.txq q).mac = m → (s.txq q).mode = 0 → s.txReady q = true →
      (∀ p, p < 8 → q < p → ((s.txq p).mac = m ∧ (s.txq p).mode = 0) → s.txReady p = false) →
      s.launchFits m (leNat (s.bytes ((s.txq q).desc 0 + 2) 2)) = true →
      exec (.immediateTransmit m) s = .next (s.setMac m
        { s.macSt m with tx := some (.queue q false ((s.txq q).desc 0), s.wallNs + s.txLat m) })) ∧
  -- IMMEDIATE_TRANSMIT
  (∀ (s : State) (m : Nat),
      2 ≤ m ∨ s.macRuns m = false ∨ (s.macSt m).tx.isSome = true ∨
        (∀ n, n ≤ 1518 → s.launchFits m n = false) ∧ (s.macSt m).ptp.all (fun b => decide (b.length ≤ 1518)) = true ∧
          (s.macSt m).safety.all (fun b => decide (b.length ≤ 1518)) = true ∧
          (∀ q, q < 8 → leNat (s.bytes ((s.txq q).desc 0 + 2) 2) ≤ 1518) →
      exec (.immediateTransmit m) s = .next s) ∧
  -- FRAME_LAUNCHED
  (∀ (s : State) (m q a d : Nat) (l : Bool),
      s.clk.ethLock = true → (s.macSt m).tx = some (.queue q l a, d) → 1 < (s.txq q).n → (s.txq q).desc 0 = a →
      s.descReady ((s.txq q).desc 1) = false →
      Does (.frameLaunched m) s fun t =>
        t.macSt m = { s.macSt m with tx := none } ∧ (t.txq q).rp = ((s.txq q).rp + 1) % (s.txq q).n ∧
        t.bytes (a + 0x14) 4 = leBytes 4 (if l then 2 else 1) ∧
        t.bytes (a + 0x18) 8 = leBytes 4 (d / 1000000000 % 2 ^ 32) ++ leBytes 4 (d % 1000000000) ∧
        t.byte a = s.byte a &&& 0xFE) ∧
  -- FRAME_LAUNCHED
  (∀ (s : State) (m d : Nat) (b : List Byte),
      s.clk.ethLock = true → (s.macSt m).tx = some (.safety b, d) →
      exec (.frameLaunched m) s = .next (s.setMac m { s.macSt m with tx := none })) ∧
  -- FRAME_LAUNCHED
  (∀ (s : State) (m d : Nat) (b : List Byte),
      s.clk.ethLock = true → (s.macSt m).tx = some (.ptp b, d) →
      Does (.frameLaunched m) s fun t =>
        (t.macSt m).tx = none ∧ (ptpType b = 2 → t.peer m = { s.peer m with t1 := some d }) ∧
        (ptpType b = 3 → (t.macSt m).ptp = stampFollowUp d (s.macSt m).ptp) ∧
        (ptpType b ≠ 3 → (t.macSt m).ptp = (s.macSt m).ptp)) ∧
  -- FRAME_LAUNCHED
  (∀ (s : State) (m : Nat),
      s.clk.ethLock = false ∨ (s.macSt m).tx = none → exec (.frameLaunched m) s = .next s)

/-- Where a core may run, its word has no ECC error, its unused fields are 0 and no latent difference is read, NOP,
ADD, SUB, AND, OR, XOR, ADDI, SHL, SHR, SRA, LI, ABSD, CMPEQ, CMPLT and CMPLTU write their result to register D, of
which m0 discards it, mark the registers read as used, count a cycle and go on; in lockstep the compared pair follows.
-/
def Obligations.MonitorArithmeticCompletes : Prop :=
  -- MON_NOP
  (∀ (s : State) (i : Nat) (w : MonWord),
      MonIssues s i w w.none [] →
      exec (.monNop i w) s = .next (s.monAfter i {})) ∧
  -- MON_ADD
  (∀ (s : State) (i : Nat) (w : MonWord),
      MonIssues s i w w.noImm [w.a.toNat, w.b.toNat] →
      exec (.monAdd i w) s = .next (s.monAfter i {
          reads := [w.a.toNat, w.b.toNat], write := some (w.d.toNat, (s.core i).cell w.a.toNat + (s.core i).cell
            w.b.toNat) })) ∧
  -- MON_SUB
  (∀ (s : State) (i : Nat) (w : MonWord),
      MonIssues s i w w.noImm [w.a.toNat, w.b.toNat] →
      exec (.monSub i w) s = .next (s.monAfter i {
          reads := [w.a.toNat, w.b.toNat], write := some (w.d.toNat, (s.core i).cell w.a.toNat - (s.core i).cell
            w.b.toNat) })) ∧
  -- MON_AND
  (∀ (s : State) (i : Nat) (w : MonWord),
      MonIssues s i w w.noImm [w.a.toNat, w.b.toNat] →
      exec (.monAnd i w) s = .next (s.monAfter i {
          reads := [w.a.toNat, w.b.toNat], write := some (w.d.toNat, (s.core i).cell w.a.toNat &&& (s.core i).cell
            w.b.toNat) })) ∧
  -- MON_OR
  (∀ (s : State) (i : Nat) (w : MonWord),
      MonIssues s i w w.noImm [w.a.toNat, w.b.toNat] →
      exec (.monOr i w) s = .next (s.monAfter i {
          reads := [w.a.toNat, w.b.toNat], write := some (w.d.toNat, (s.core i).cell w.a.toNat ||| (s.core i).cell
            w.b.toNat) })) ∧
  -- MON_XOR
  (∀ (s : State) (i : Nat) (w : MonWord),
      MonIssues s i w w.noImm [w.a.toNat, w.b.toNat] →
      exec (.monXor i w) s = .next (s.monAfter i {
          reads := [w.a.toNat, w.b.toNat], write := some (w.d.toNat, (s.core i).cell w.a.toNat ^^^ (s.core i).cell
            w.b.toNat) })) ∧
  -- MON_ADDI
  (∀ (s : State) (i : Nat) (w : MonWord),
      MonIssues s i w w.noB [w.a.toNat] →
      exec (.monAddi i w) s = .next (s.monAfter i {
          reads := [w.a.toNat], write := some (w.d.toNat, (s.core i).cell w.a.toNat + w.imm.signExtend 32) })) ∧
  -- MON_SHL
  (∀ (s : State) (i : Nat) (w : MonWord),
      MonIssues s i w w.noB [w.a.toNat] →
      exec (.monShl i w) s = .next (s.monAfter i {
          reads := [w.a.toNat], write := some (w.d.toNat, (s.core i).cell w.a.toNat <<< (w.imm.toNat % 32)) })) ∧
  -- MON_SHR
  (∀ (s : State) (i : Nat) (w : MonWord),
      MonIssues s i w w.noB [w.a.toNat] →
      exec (.monShr i w) s = .next (s.monAfter i {
          reads := [w.a.toNat], write := some (w.d.toNat, (s.core i).cell w.a.toNat >>> (w.imm.toNat % 32)) })) ∧
  -- MON_SRA
  (∀ (s : State) (i : Nat) (w : MonWord),
      MonIssues s i w w.noB [w.a.toNat] →
      exec (.monSra i w) s = .next (s.monAfter i {
          reads := [w.a.toNat], write := some (w.d.toNat, ((s.core i).cell w.a.toNat).sshiftRight (w.imm.toNat % 32))
            })) ∧
  -- MON_LI
  (∀ (s : State) (i : Nat) (w : MonWord),
      MonIssues s i w w.noAB [] →
      exec (.monLi i w) s = .next (s.monAfter i { write := some (w.d.toNat, w.imm.signExtend 32) })) ∧
  -- MON_ABSD
  (∀ (s : State) (i : Nat) (w : MonWord),
      MonIssues s i w w.noImm [w.a.toNat, w.b.toNat] →
      exec (.monAbsd i w) s = .next (s.monAfter i {
          reads := [w.a.toNat, w.b.toNat], write := some (w.d.toNat, word (min 0x7FFFFFFF (((s.core i).cell
            w.a.toNat).toInt - ((s.core i).cell w.b.toNat).toInt).natAbs)) })) ∧
  -- MON_CMPEQ
  (∀ (s : State) (i : Nat) (w : MonWord),
      MonIssues s i w w.noImm [w.a.toNat, w.b.toNat] →
      exec (.monCmpeq i w) s = .next (s.monAfter i {
          reads := [w.a.toNat, w.b.toNat], write := some (w.d.toNat, bitWord 0 ((s.core i).cell w.a.toNat == (s.core
            i).cell w.b.toNat)) })) ∧
  -- MON_CMPLT
  (∀ (s : State) (i : Nat) (w : MonWord),
      MonIssues s i w w.noImm [w.a.toNat, w.b.toNat] →
      exec (.monCmplt i w) s = .next (s.monAfter i {
          reads := [w.a.toNat, w.b.toNat], write := some (w.d.toNat, bitWord 0 (((s.core i).cell w.a.toNat).slt
            ((s.core i).cell w.b.toNat))) })) ∧
  -- MON_CMPLTU
  (∀ (s : State) (i : Nat) (w : MonWord),
      MonIssues s i w w.noImm [w.a.toNat, w.b.toNat] →
      exec (.monCmpltu i w) s = .next (s.monAfter i {
          reads := [w.a.toNat, w.b.toNat], write := some (w.d.toNat, bitWord 0 (((s.core i).cell w.a.toNat).ult
            ((s.core i).cell w.b.toNat))) }))

/-- LD and ST reach the 2,048 data words, an index beyond them being a channel fault; BR, BEQZ, BNEZ, JAL and JR go to a
target inside the program, a taken one outside it being a channel fault; IN reads the input snapshot; PUB publishes to the
core's buffer and XCHG reads the visible buffer; WAIT ends the tick's work and records its cycles; SAFE is a channel fault
with its code. A channel fault halts its core, or in lockstep both, with its cause, its code and the program counter, and
drives its outputs safe. Where the spec leaves a point of these open, the choice is the model's (log 49). -/
def Obligations.MonitorControlAndMemoryCompletes : Prop :=
  -- MON_LD
  (∀ (s : State) (i a : Nat) (w : MonWord),
      a = w.addr (s.core i) → a < 2048 → MonIssues s i w w.noB [w.a.toNat, 16 + a] →
      exec (.monLd i w) s = .next (s.monAfter i {
          reads := [w.a.toNat, 16 + a], write := some (w.d.toNat, (s.core i).cell (16 + a)), cycles := 2 })) ∧
  -- MON_ST
  (∀ (s : State) (i a : Nat) (w : MonWord),
      a = w.addr (s.core i) → a < 2048 → MonIssues s i w w.noB [w.a.toNat, w.d.toNat] →
      exec (.monSt i w) s = .next (s.monAfter i {
          reads := [w.a.toNat, w.d.toNat], write := some (16 + a, (s.core i).cell w.d.toNat), out := .write a
            ((s.core i).cell w.d.toNat) })) ∧
  -- MON_LD MON_ST
  (∀ (s : State) (i : Nat) (w : MonWord),
      2048 ≤ w.addr (s.core i) → MonIssues s i w w.noB [w.a.toNat] →
      s.monLatentHit i [w.a.toNat, w.d.toNat] = false →
      exec (.monLd i w) s = .next (s.monFault i 4 0) ∧ exec (.monSt i w) s = .next (s.monFault i 4 0)) ∧
  -- MON_BR
  (∀ (s : State) (i : Nat) (w : MonWord),
      MonIssues s i w w.onlyImm [] → 0 ≤ ((s.core i).pc : Int) + w.imm.toInt →
      ((s.core i).pc : Int) + w.imm.toInt < monNWords s.mon.prog →
      exec (.monBr i w) s = .next (s.monAfter i { next := some (((s.core i).pc : Int) + w.imm.toInt), cycles := 2 })) ∧
  -- MON_BR MON_JAL MON_BEQZ MON_BNEZ
  (∀ (s : State) (i : Nat) (w : MonWord),
      (((s.core i).pc : Int) + w.imm.toInt < 0 ∨ monNWords s.mon.prog ≤ ((s.core i).pc : Int) + w.imm.toInt) →
      (MonIssues s i w w.onlyImm [] → exec (.monBr i w) s = .next (s.monFault i 3 0)) ∧
      (MonIssues s i w w.noAB [] → exec (.monJal i w) s = .next (s.monFault i 3 0)) ∧
      (MonIssues s i w w.noDB [w.a.toNat] → (s.core i).cell w.a.toNat = 0 →
        exec (.monBeqz i w) s = .next (s.monFault i 3 0)) ∧
      (MonIssues s i w w.noDB [w.a.toNat] → (s.core i).cell w.a.toNat ≠ 0 →
        exec (.monBnez i w) s = .next (s.monFault i 3 0))) ∧
  -- MON_BEQZ
  (∀ (s : State) (i : Nat) (w : MonWord),
      MonIssues s i w w.noDB [w.a.toNat] → (s.core i).cell w.a.toNat = 0 →
      0 ≤ (((s.core i).pc : Int) + w.imm.toInt) → (((s.core i).pc : Int) + w.imm.toInt) < monNWords s.mon.prog →
      exec (.monBeqz i w) s = .next (s.monAfter i {
          reads := [w.a.toNat], next := some (((s.core i).pc : Int) + w.imm.toInt), cycles := 2 })) ∧
  -- MON_BEQZ
  (∀ (s : State) (i : Nat) (w : MonWord),
      MonIssues s i w w.noDB [w.a.toNat] → (s.core i).cell w.a.toNat ≠ 0 →
      exec (.monBeqz i w) s = .next (s.monAfter i { reads := [w.a.toNat] })) ∧
  -- MON_BNEZ
  (∀ (s : State) (i : Nat) (w : MonWord),
      MonIssues s i w w.noDB [w.a.toNat] → (s.core i).cell w.a.toNat ≠ 0 →
      0 ≤ (((s.core i).pc : Int) + w.imm.toInt) → (((s.core i).pc : Int) + w.imm.toInt) < monNWords s.mon.prog →
      exec (.monBnez i w) s = .next (s.monAfter i {
          reads := [w.a.toNat], next := some (((s.core i).pc : Int) + w.imm.toInt), cycles := 2 })) ∧
  -- MON_BNEZ
  (∀ (s : State) (i : Nat) (w : MonWord),
      MonIssues s i w w.noDB [w.a.toNat] → (s.core i).cell w.a.toNat = 0 →
      exec (.monBnez i w) s = .next (s.monAfter i { reads := [w.a.toNat] })) ∧
  -- MON_JAL
  (∀ (s : State) (i : Nat) (w : MonWord),
      MonIssues s i w w.noAB [] → 0 ≤ ((s.core i).pc : Int) + w.imm.toInt →
      ((s.core i).pc : Int) + w.imm.toInt < monNWords s.mon.prog →
      exec (.monJal i w) s = .next (s.monAfter i {
          write := some (w.d.toNat, word ((s.core i).pc + 1)), next := some (((s.core i).pc : Int) + w.imm.toInt),
            cycles := 2 })) ∧
  -- MON_JR
  (∀ (s : State) (i : Nat) (w : MonWord),
      MonIssues s i w (w.noDB && w.noImm) [w.a.toNat] →
      ((s.core i).cell w.a.toNat).toNat < monNWords s.mon.prog →
      exec (.monJr i w) s = .next (s.monAfter i {
          reads := [w.a.toNat], next := some (((s.core i).cell w.a.toNat).toNat : Int), cycles := 2 })) ∧
  -- MON_JR
  (∀ (s : State) (i : Nat) (w : MonWord),
      MonIssues s i w (w.noDB && w.noImm) [w.a.toNat] →
      monNWords s.mon.prog ≤ ((s.core i).cell w.a.toNat).toNat →
      exec (.monJr i w) s = .next (s.monFault i 3 0)) ∧
  -- MON_IN
  (∀ (s : State) (i : Nat) (w : MonWord),
      MonIssues s i w w.noAB [] →
      exec (.monIn i w) s = .next (s.monAfter i {
          write := some (w.d.toNat, SMap.get (fun _ => 0) (s.core i).snap w.imm.toNat), cycles := 2 })) ∧
  -- MON_PUB
  (∀ (s : State) (i : Nat) (w : MonWord),
      MonIssues s i w w.noDB [w.a.toNat] →
      exec (.monPub i w) s = .next (s.monAfter i {
          reads := [w.a.toNat], out := .pub (w.imm.toNat % 16) ((s.core i).cell w.a.toNat) })) ∧
  -- MON_XCHG
  (∀ (s : State) (i : Nat) (w : MonWord),
      MonIssues s i w w.noAB [] →
      exec (.monXchg i w) s = .next (s.monAfter i {
          write := some (w.d.toNat, SMap.get (fun _ => 0) (s.core (if s.monSplit then 1 - i else i)).vis (w.imm.toNat
            % 16)), cycles := 2 })) ∧
  -- MON_WAIT
  (∀ (s u : State) (i : Nat) (w : MonWord),
      MonIssues s i w w.none [] → (s.monLock = false ∨ i = 0) →
      u = s.setCore i ((s.core i).after { wait := true }) →
      Does (.monWait i w) s fun t => t.core i = u.core i ∧ (t.core i).waiting = true ∧ (t.core i).pc = (s.core i).pc
        + 1) ∧
  -- MON_WAIT
  (∀ (s : State) (w : MonWord) (r : List (Nat × MonOut)),
      MonIssues s 1 w w.none [] → s.monLock = true → s.mon.lag = ((s.core 1).pc, .none) :: r →
      s.mon.sweepDue = false →
      Does (.monWait 1 w) s fun t =>
        t.core 1 = (s.core 1).after { wait := true } ∧ t.mon.lag = r ∧ (t.core 1).waiting = true) ∧
  -- MON_SAFE
  (∀ (s : State) (i : Nat) (w : MonWord),
      MonIssues s i w w.onlyImm [] →
      Does (.monSafe i w) s fun t =>
        (∀ j, j < 2 → (j = i ∨ s.monSplit = false) → (s.core j).fault = none →
          t.core j = { s.core j with fault := some (8, w.imm.toNat % 256, (s.core j).pc), off := true }) ∧
        ∀ j, j < 4 → (j % 2 = i ∨ s.monSplit = false) → bit t.mon.out j = false) ∧
  (∀ (s : State) (i x y : Nat),
      i < 2 →
      (∀ j, j < 2 → (j = i ∨ s.monSplit = false) → (s.core j).fault = none →
        (s.monFault i x y).core j = { s.core j with fault := some (x, y, (s.core j).pc), off := true }) ∧
      (∀ j, j < 4 → (j % 2 = i ∨ s.monSplit = false) → bit (s.monFault i x y).mon.out j = false))

/-- OUT to a general output, a relay, MON_OFF, the user word, the split request, and the data and send words of the safe
transfer hands its port and value on; it takes effect in split mode at once and in lockstep when core B's agrees, core A's
waiting for it, and a difference is a channel fault of both. In split mode an output of the partner is counted and not
driven, and in lockstep the pair drives any of the four; bit 0 gives the output and the core's demand for disconnection, the
whole word the user word and the staged data; a send counts and queues its frame; the split request needs lockstep, a
program for split and no boot in it. Where the spec leaves a point of these open, the choice is the model's (log 31, log
49). -/
def Obligations.MonitorOutputsComplete : Prop :=
  -- MON_OUT_GEN
  (∀ (s : State) (i : Nat) (w : MonWord),
      MonIssues s i w w.noDB [w.a.toNat] →
      exec (.monOutGen i w) s = .next (s.monAfter i {
          reads := [w.a.toNat], out := .port w.imm.toNat ((s.core i).cell w.a.toNat) })) ∧
  -- MON_OUT_RLY
  (∀ (s : State) (i : Nat) (w : MonWord),
      MonIssues s i w w.noDB [w.a.toNat] →
      exec (.monOutRly i w) s = .next (s.monAfter i {
          reads := [w.a.toNat], out := .port w.imm.toNat ((s.core i).cell w.a.toNat) })) ∧
  -- MON_OUT_MON_OFF
  (∀ (s : State) (i : Nat) (w : MonWord),
      MonIssues s i w w.noDB [w.a.toNat] →
      exec (.monOutMonOff i w) s = .next (s.monAfter i {
          reads := [w.a.toNat], out := .port w.imm.toNat ((s.core i).cell w.a.toNat) })) ∧
  -- MON_OUT_USER
  (∀ (s : State) (i : Nat) (w : MonWord),
      MonIssues s i w w.noDB [w.a.toNat] →
      exec (.monOutUser i w) s = .next (s.monAfter i {
          reads := [w.a.toNat], out := .port w.imm.toNat ((s.core i).cell w.a.toNat) })) ∧
  -- MON_OUT_SPLIT
  (∀ (s : State) (i : Nat) (w : MonWord),
      MonIssues s i w w.noDB [w.a.toNat] →
      exec (.monOutSplit i w) s = .next (s.monAfter i {
          reads := [w.a.toNat], out := .port w.imm.toNat ((s.core i).cell w.a.toNat) })) ∧
  -- MON_OUT_STL_DATA
  (∀ (s : State) (i : Nat) (w : MonWord),
      MonIssues s i w w.noDB [w.a.toNat] →
      exec (.monOutStlData i w) s = .next (s.monAfter i {
          reads := [w.a.toNat], out := .port w.imm.toNat ((s.core i).cell w.a.toNat) })) ∧
  -- MON_OUT_STL_SEND
  (∀ (s : State) (i : Nat) (w : MonWord),
      MonIssues s i w w.noDB [w.a.toNat] →
      exec (.monOutStlSend i w) s = .next (s.monAfter i {
          reads := [w.a.toNat], out := .port w.imm.toNat ((s.core i).cell w.a.toNat) })) ∧
  -- MON_OUT_GEN MON_OUT_RLY
  (∀ (s : State) (i j : Nat) (w : MonWord) (c : Instr),
      MonIssues s i w w.noDB [w.a.toNat] → s.mon.mode = 3 → j = w.imm.toNat → j < 4 → j % 2 = i →
      c ∈ [Instr.monOutGen i w, .monOutRly i w] →
      Does c s fun t =>
        t.core i = (s.core i).after { reads := [w.a.toNat] } ∧
        bit t.mon.out j = ((s.core i).cell w.a.toNat).getLsbD 0 ∧
        ∀ k, k < 4 → k ≠ j → bit t.mon.out k = bit s.mon.out k) ∧
  -- MON_OUT_GEN MON_OUT_RLY
  (∀ (s : State) (i j : Nat) (w : MonWord) (c : Instr),
      MonIssues s i w w.noDB [w.a.toNat] → s.mon.mode = 3 → j = w.imm.toNat → j < 4 → j % 2 ≠ i →
      c ∈ [Instr.monOutGen i w, .monOutRly i w] →
      Does c s fun t =>
        t.core i = (s.core i).after { reads := [w.a.toNat] } ∧ t.mon.out = s.mon.out ∧
        (t.reg rMON_CNT_XOUT).toNat = satInc (s.reg rMON_CNT_XOUT).toNat) ∧
  -- MON_OUT_MON_OFF
  (∀ (s : State) (i : Nat) (w : MonWord),
      MonIssues s i w w.noDB [w.a.toNat] → s.mon.mode = 3 → w.imm = 4 →
      Does (.monOutMonOff i w) s fun t =>
        t.core i =
          { (s.core i).after { reads := [w.a.toNat] } with off := ((s.core i).cell w.a.toNat).getLsbD 0 }) ∧
  -- MON_OUT_USER
  (∀ (s : State) (i : Nat) (w : MonWord),
      MonIssues s i w w.noDB [w.a.toNat] → s.mon.mode = 3 → w.imm = 5 →
      exec (.monOutUser i w) s = .next (s.setCore i
        { (s.core i).after { reads := [w.a.toNat] } with user := (s.core i).cell w.a.toNat })) ∧
  -- MON_OUT_SPLIT
  (∀ (s : State) (i : Nat) (w : MonWord),
      MonIssues s i w w.noDB [w.a.toNat] → s.mon.mode = 3 → w.imm = 6 →
      exec (.monOutSplit i w) s = .next (s.setCore i ((s.core i).after { reads := [w.a.toNat] }))) ∧
  -- MON_OUT_STL_DATA
  (∀ (s : State) (i k : Nat) (w : MonWord),
      MonIssues s i w w.noDB [w.a.toNat] → s.mon.mode = 3 → k < 4 → w.imm.toNat = 16 + 2 * k →
      Does (.monOutStlData i w) s fun t =>
        SMap.get (fun _ => 0) (t.core i).stage k = (s.core i).cell w.a.toNat ∧
        ∀ j, j ≠ k → SMap.get (fun _ => 0) (t.core i).stage j = SMap.get (fun _ => 0) (s.core i).stage j) ∧
  -- MON_OUT_STL_SEND
  (∀ (s : State) (i k m n : Nat) (b : List Byte) (w : MonWord),
      MonIssues s i w w.noDB [w.a.toNat] → s.mon.mode = 3 → k < 4 → w.imm.toNat = 17 + 2 * k →
      s.stlOn k = true → s.stlFlag k 2 = true → m = b2n (s.stlFlag k 3) →
      n = SMap.get (fun _ => 0) (s.core i).txCount k + 1 →
      b = stlPdu 2 (n % 65536) (s.safety (0x28 + 32 * k) 4) (s.safety (0x24 + 32 * k) 4)
        (s.wallNs / 1000000000 % 2 ^ 32) (s.wallNs % 1000000000) (SMap.get (fun _ => 0) (s.core i).stage k)
        ((s.core i).cell w.a.toNat) →
      Does (.monOutStlSend i w) s fun t =>
        SMap.get (fun _ => 0) (t.core i).txCount k = n ∧
        t.macSt m = { s.macSt m with
          safety := (s.macSt m).safety ++ [b ++ leBytes 4 (crc32cKey (s.safety (0x2C + 32 * k) 4) b)] }) ∧
  -- MON_OUT_GEN MON_OUT_RLY MON_OUT_MON_OFF MON_OUT_USER MON_OUT_SPLIT MON_OUT_STL_DATA MON_OUT_STL_SEND
  (∀ (s : State) (w : MonWord) (c : Instr),
      MonIssues s 0 w w.noDB [w.a.toNat] → s.mon.mode = 1 →
      c ∈ [Instr.monOutGen 0 w, .monOutRly 0 w, .monOutMonOff 0 w, .monOutUser 0 w, .monOutSplit 0 w,
        .monOutStlData 0 w, .monOutStlSend 0 w] →
      Does c s fun t =>
        t.core 0 = (s.core 0).after { reads := [w.a.toNat] } ∧ t.core 1 = s.core 1 ∧ t.mon.out = s.mon.out ∧
        t.mon.lag = s.mon.lag ++ [((s.core 0).pc, .port w.imm.toNat ((s.core 0).cell w.a.toNat))]) ∧
  -- MON_OUT_GEN MON_OUT_RLY MON_OUT_MON_OFF MON_OUT_USER MON_OUT_SPLIT MON_OUT_STL_DATA MON_OUT_STL_SEND
  (∀ (s : State) (v : Word) (w : MonWord) (r : List (Nat × MonOut)) (c : Instr),
      MonIssues s 1 w w.noDB [w.a.toNat] → s.mon.mode = 1 → v = (s.core 1).cell w.a.toNat →
      s.mon.lag = ((s.core 1).pc, .port w.imm.toNat v) :: r → s.mon.sweepDue = false →
      c ∈ [Instr.monOutGen 1 w, .monOutRly 1 w, .monOutMonOff 1 w, .monOutUser 1 w, .monOutSplit 1 w,
        .monOutStlData 1 w, .monOutStlSend 1 w] →
      Does c s fun t =>
        t.mon.lag = r ∧ (t.core 1).pc = (s.core 1).pc + 1 ∧
        (w.imm.toNat < 4 → bit t.mon.out w.imm.toNat = v.getLsbD 0) ∧
        (w.imm = 4 → (t.core 0).off = v.getLsbD 0 ∧ (t.core 1).off = v.getLsbD 0) ∧
        (w.imm = 5 → (t.core 0).user = v ∧ (t.core 1).user = v) ∧
        (w.imm = 6 → v.getLsbD 0 = true → s.bootSplit = false → monArch s.mon.prog = 2 → t.mon.splitReq = true)) ∧
  -- MON_OUT_GEN MON_OUT_RLY MON_OUT_MON_OFF MON_OUT_USER MON_OUT_SPLIT MON_OUT_STL_DATA MON_OUT_STL_SEND
  (∀ (s : State) (w : MonWord) (x : Nat × MonOut) (r : List (Nat × MonOut)) (c : Instr),
      MonIssues s 1 w w.noDB [w.a.toNat] → s.mon.mode = 1 → s.mon.lag = x :: r →
      x ≠ ((s.core 1).pc, .port w.imm.toNat ((s.core 1).cell w.a.toNat)) → s.mon.a.fault = none →
      c ∈ [Instr.monOutGen 1 w, .monOutRly 1 w, .monOutMonOff 1 w, .monOutUser 1 w, .monOutSplit 1 w,
        .monOutStlData 1 w, .monOutStlSend 1 w] →
      Does c s fun t =>
        (t.core 0).fault = some (1, 0, (s.core 0).pc) ∧ (t.core 1).fault = some (1, 0, (s.core 1).pc + 1) ∧
        ∀ j, j < 4 → bit t.mon.out j = false)

/-- A tick keeps the readbacks, ends WAIT and counts at both cores, makes the published words visible and takes the
snapshot; it starts an accepted program at its entries with its data; a core that has not reached WAIT, and a difference of
the snapshots in lockstep, is a channel fault; a split that was asked for begins with its window, completes after it and
releases the waiting outputs. The sweep of the aligned pair marks what differs and was not read, and is a channel fault
otherwise; while core B is behind it waits. A reference more than 4% off faults; a conversion is rounded, clamped and
flagged; the off-pulse test of an output, one at a time or in split mode one of each channel, steps through its drop and its
return to a result; a contact mismatch longer than RLY_T is kept; a channel whose last delivery is older than TOUT times out
at both cores; and a confirmation is taken only in its two matching steps, the second storing the value with the next SEQ.
Where the spec leaves a point of these open, the choice is the model's (log 31, log 49). -/
def Obligations.MonitorCommandsComplete : Prop :=
  -- MONITOR_TICK
  (∀ (s : State) (rb : BitVec 6) (p : Bool),
      s.mon.mode = 0 →
      Does (.monitorTick rb p) s fun t =>
        t.mon.rb = rb.toNat ∧ t.mon.a = s.mon.a ∧ t.mon.b = s.mon.b ∧ t.mon.out = s.mon.out ∧
        ∀ j, j < 2 → bit t.mon.mismatch j = (bit s.mon.mismatch j && bit rb.toNat (4 + j) != bit s.mon.out (2 + j))) ∧
  -- MONITOR_TICK
  (∀ (s : State) (rb : BitVec 6),
      s.mon.mode ≠ 0 → s.mon.startDue = true → s.mon.a.fault = none → s.mon.b.fault = none →
      Does (.monitorTick rb false) s fun t =>
        t.mon.rb = rb.toNat ∧ t.mon.startDue = false ∧ t.mon.lag = [] ∧
        ∀ i, i < 2 → (t.core i).run = true ∧ (t.core i).waiting = false ∧ (t.core i).ticks = 1 ∧
          (∀ r, r < 16 → (t.core i).cell r = 0) ∧
          (t.core i).pc = (if i = 1 ∧ s.monSplit = true then monEntryB s.mon.prog else monEntryA s.mon.prog) ∧
          ∀ k, k < monNData s.mon.prog →
            (t.core i).cell (16 + k) = word (field s.mon.prog (16 + 4 * monNWords s.mon.prog + 4 * k) 4)) ∧
  -- MONITOR_TICK
  (∀ (s : State) (rb : BitVec 6),
      s.mon.mode ≠ 0 → s.mon.startDue = false → s.mon.splitReq = false →
      (∀ i, i < 2 → (s.core i).run = true ∧ (s.core i).fault = none ∧ (s.core i).waiting = true) →
      Does (.monitorTick rb false) s fun t =>
        t.mon.rb = rb.toNat ∧ t.mon.mode = s.mon.mode ∧ t.mon.out = s.mon.out ∧
        t.mon.hover = (if s.mon.mode = 2 then s.mon.hover - 1 else s.mon.hover) ∧
        ∀ i, i < 2 → (t.core i).waiting = false ∧ (t.core i).ticks = ((s.core i).ticks + 1) % 2 ^ 32 ∧
          (t.core i).vis = (s.core i).buf ∧ (t.core i).pc = (s.core i).pc ∧ (t.core i).m = (s.core i).m ∧
          (t.core i).data = (s.core i).data ∧
          SMap.get (fun _ => 0) (t.core i).snap 0x82 = word (((s.core i).ticks + 1) % 2 ^ 32) ∧
          SMap.get (fun _ => 0) (t.core i).snap 0x80 = word (if s.monSplit then rb.toNat &&& rbMask i else rb.toNat)) ∧
  -- MONITOR_TICK
  (∀ (s : State) (rb : BitVec 6) (p : Bool) (i : Nat),
      s.mon.mode ≠ 0 → s.mon.startDue = false → i < 2 → (s.core i).ready = true →
      (i = 0 ∨ s.monSplit = true) →
      Does (.monitorTick rb p) s fun t =>
        (t.core i).fault = some (5, 0, (s.core i).pc) ∧ (t.core i).off = true ∧
        ∀ j, j < 4 → (j % 2 = i ∨ s.monSplit = false) → bit t.mon.out j = false) ∧
  -- MONITOR_TICK
  (∀ (s : State) (rb : BitVec 6),
      s.mon.mode = 1 → s.mon.startDue = false → s.mon.splitReq = true →
      (∀ i, i < 2 → (s.core i).run = true ∧ (s.core i).fault = none ∧ (s.core i).waiting = true) →
      Does (.monitorTick rb false) s fun t =>
        t.mon.mode = 2 ∧ t.mon.hover = s.monHover ∧ t.mon.splitReq = false ∧ t.mon.out = s.mon.out) ∧
  -- MONITOR_TICK
  (∀ (s : State) (rb : BitVec 6),
      s.mon.mode = 1 → s.mon.startDue = false → s.mon.splitReq = false →
      (∀ i, i < 2 → (s.core i).run = true ∧ (s.core i).fault = none ∧ (s.core i).waiting = true) →
      Does (.monitorTick rb true) s fun t =>
        ∀ i, i < 2 → (t.core i).fault = some (1, 0, (s.core i).pc) ∧ (t.core i).off = true) ∧
  -- SPLIT_COMPLETE
  (∀ s : State,
      s.mon.mode = 2 → s.mon.hover = 0 →
      Does .splitComplete s fun t =>
        t.mon.mode = 3 ∧ t.mon.waitOut = [] ∧ t.mon.a = s.mon.a ∧ t.mon.b = s.mon.b ∧
        ∀ j, j < 4 →
          bit t.mon.out j = match (s.mon.waitOut.filter fun p => p.1 == j).getLast? with
            | some p => p.2
            | none => bit s.mon.out j) ∧
  -- SPLIT_COMPLETE
  (∀ s : State, s.mon.mode ≠ 2 ∨ s.mon.hover ≠ 0 → exec .splitComplete s = .next s) ∧
  -- LOCKSTEP_SWEEP
  (∀ s : State,
      s.mon.mode = 1 → s.mon.a.run = true → s.mon.a.fault = none → s.mon.lag = [] → s.mon.a.pc = s.mon.b.pc →
      s.monDiffs = [] →
      exec .lockstepSweep s = .next (s.setMon { s.mon with sweepDue := false })) ∧
  -- LOCKSTEP_SWEEP
  (∀ s : State,
      s.mon.mode = 1 → s.mon.a.run = true → s.mon.a.fault = none → s.mon.lag = [] → s.mon.a.pc = s.mon.b.pc →
      s.monDiffs ≠ [] → s.monDiffs.all (fun n => !s.mon.a.isUsed n && !s.mon.b.isUsed n) = true →
      Does .lockstepSweep s fun t =>
        (∀ n, n ∈ s.monDiffs → t.mon.a.isMarked n = true ∧ t.mon.b.isMarked n = true) ∧
        t.regBit rMON_STAT 4 = true ∧ t.mon.a.fault = none ∧ t.mon.b.fault = s.mon.b.fault) ∧
  -- LOCKSTEP_SWEEP
  (∀ s : State,
      s.mon.mode = 1 → s.mon.a.run = true → s.mon.a.fault = none → s.mon.b.fault = none → s.mon.lag = [] →
      s.mon.a.pc ≠ s.mon.b.pc ∨ s.monDiffs.any (fun n => s.mon.a.isUsed n || s.mon.b.isUsed n) = true →
      Does .lockstepSweep s fun t =>
        t.mon.a.fault = some (1, 0, s.mon.a.pc) ∧ t.mon.b.fault = some (1, 0, s.mon.b.pc) ∧
        ∀ j, j < 4 → bit t.mon.out j = false) ∧
  -- LOCKSTEP_SWEEP
  (∀ s : State,
      (s.mon.mode = 1 → s.mon.a.run = true → s.mon.a.fault = none → s.mon.lag ≠ [] →
        exec .lockstepSweep s = .next (s.setMon { s.mon with sweepDue := true })) ∧
      (s.mon.mode ≠ 1 ∨ s.mon.a.run = false ∨ s.mon.a.fault.isSome = true → exec .lockstepSweep s = .next s)) ∧
  -- CLOCK_CHECK
  (∀ (s : State) (p : Int),
      s.clk.refOk = true → 40000 < p.natAbs → s.mon.a.fault = none → s.mon.b.fault = none →
      Does (.clockCheck p) s fun t =>
        (∀ i, i < 2 → (t.core i).fault = some (7, 0, (s.core i).pc) ∧ (t.core i).off = true) ∧
        ∀ j, j < 4 → bit t.mon.out j = false) ∧
  -- CLOCK_CHECK
  (∀ (s : State) (p : Int), s.clk.refOk = false ∨ p.natAbs ≤ 40000 → exec (.clockCheck p) s = .next s) ∧
  -- ADCM_CONVERSION
  (∀ (s : State) (k : Nat) (v : Int),
      s.mon.accepted = true → (k = 8 ∨ (k < 8 ∧ k < s.adcmN)) →
      exec (.adcmConversion k v) s = .next (s.setMon { s.mon with
          adcm := SMap.set (fun _ => 0) s.mon.adcm k (word (unsigned 16 (clampInt (-8192) 8191 (divNearest (8192 * (v
            - 1500000000)) 1500000000)) + 2 ^ 16 + 2 ^ 17 * b2n (divNearest (8192 * (v - 1500000000)) 1500000000 !=
            clampInt (-8192) 8191 (divNearest (8192 * (v - 1500000000)) 1500000000)))) })) ∧
  -- ADCM_CONVERSION
  (∀ (s : State) (k : Nat) (v : Int),
      s.mon.accepted = false ∨ 8 < k ∨ (k < 8 ∧ s.adcmN ≤ k) → exec (.adcmConversion k v) s = .next s) ∧
  -- OFF_PULSE_TEST_START
  (∀ (s : State) (j : Nat),
      j < 4 → s.mon.accepted = true → s.safety 0x14 2 ≠ 0 → bit s.mon.out j = true →
      (∀ i, i < 4 → s.optTest i = 0 ∨ (s.monSplit = true ∧ i % 2 ≠ j % 2)) →
      Does (.offPulseTestStart j) s fun t =>
        t.optTest j = 1 ∧ bit t.mon.forced j = true ∧ bit t.mon.failed j = false ∧ t.mon.out = s.mon.out ∧
        ∀ i, i < 4 → i ≠ j → t.optTest i = s.optTest i ∧ bit t.mon.forced i = bit s.mon.forced i) ∧
  -- OFF_PULSE_TEST_START
  (∀ (s : State) (j : Nat),
      4 ≤ j ∨ s.mon.accepted = false ∨ s.safety 0x14 2 = 0 ∨ bit s.mon.out j = false ∨ s.optTest j ≠ 0 →
      exec (.offPulseTestStart j) s = .next s) ∧
  -- OFF_PULSE_DROP_CHECK
  (∀ (s : State) (j : Nat),
      s.optTest j = 1 →
      exec (.offPulseDropCheck j true) s = .next (s.setMon { s.mon with failed := putNatBit s.mon.failed j true })) ∧
  -- OFF_PULSE_DROP_CHECK
  (∀ (s : State) (j : Nat) (b : Bool),
      s.optTest j ≠ 1 ∨ b = false → exec (.offPulseDropCheck j b) s = .next s) ∧
  -- OFF_PULSE_RETURN
  (∀ (s : State) (j : Nat),
      s.optTest j = 1 →
      Does (.offPulseReturn j) s fun t =>
        t.optTest j = 2 ∧ bit t.mon.forced j = false ∧ t.mon.failed = s.mon.failed ∧ t.mon.out = s.mon.out) ∧
  -- OFF_PULSE_RETURN
  (∀ (s : State) (j : Nat), s.optTest j ≠ 1 → exec (.offPulseReturn j) s = .next s) ∧
  -- OFF_PULSE_RETURN_CHECK
  (∀ (s : State) (j : Nat) (a : Bool),
      j < 4 → s.optTest j = 2 →
      Does (.offPulseReturnCheck j a) s fun t =>
        t.optTest j = 0 ∧ t.mon.optCount = (s.mon.optCount + 1) % 256 ∧
        bits t.mon.optRes (2 * j) 2 = (if a = false then 3 else if bit s.mon.failed j = true then 2 else 1) ∧
        (a = true → bit s.mon.failed j = false → t.reg rMON_CNT_OPTFAIL = s.reg rMON_CNT_OPTFAIL) ∧
        (a = false ∨ bit s.mon.failed j = true →
          (t.reg rMON_CNT_OPTFAIL).toNat = satInc (s.reg rMON_CNT_OPTFAIL).toNat)) ∧
  -- OFF_PULSE_RETURN_CHECK
  (∀ (s : State) (j : Nat) (a : Bool), s.optTest j ≠ 2 → exec (.offPulseReturnCheck j a) s = .next s) ∧
  -- CONTACT_MISMATCH
  (∀ (s : State) (j : Nat),
      j < 2 → bit s.mon.rb (4 + j) ≠ bit s.mon.out (2 + j) →
      SMap.get (fun _ => 0) s.mon.relayAt j + 400000 * s.safety 0x1A 2 < s.clk.t →
      exec (.contactMismatch j) s = .next (s.setMon { s.mon with mismatch := putNatBit s.mon.mismatch j true })) ∧
  -- CONTACT_MISMATCH
  (∀ (s : State) (j : Nat),
      2 ≤ j ∨ bit s.mon.rb (4 + j) = bit s.mon.out (2 + j) ∨
        s.clk.t ≤ SMap.get (fun _ => 0) s.mon.relayAt j + 400000 * s.safety 0x1A 2 →
      exec (.contactMismatch j) s = .next s) ∧
  -- SAFE_CHANNEL_TIMEOUT
  (∀ (s : State) (k : Nat),
      k < 4 → s.mon.accepted = true → s.stlOn k = true → s.stlOld 0 k = true →
      Does (.safeChannelTimeout k) s fun t =>
        (∀ i, i < 2 → t.stl i k = { s.stl i k with sync := true, ok := false, timeout := true }) ∧
        t.regBit rSAF_STAT 4 = true ∧ (t.reg rSAF_CNT_TOUT).toNat = satInc (s.reg rSAF_CNT_TOUT).toNat) ∧
  -- SAFE_CHANNEL_TIMEOUT
  (∀ (s : State) (k : Nat),
      4 ≤ k ∨ s.mon.accepted = false ∨ s.stlOn k = false ∨ (s.stl 0 k).sync = true ∨
        s.clk.t ≤ (s.stl 0 k).since + 400000 * s.safety (0x22 + 32 * k) 2 →
      exec (.safeChannelTimeout k) s = .next s) ∧
  -- SAF_CONFIRM
  (∀ (s : State) (w : Word),
      s.mon.accepted = true → w = s.mon.check → s.allStopped = true → s.acceptPending = false →
      s.mon.confirmAt = none →
      exec (.safConfirm w) s = .next (s.setMon { s.mon with confirmAt := some s.clk.t })) ∧
  -- SAF_CONFIRM
  (∀ (s : State) (w : Word),
      s.mon.accepted = false ∨ w ≠ s.mon.check ∨ s.allStopped = false ∨ s.acceptPending = true ∨
        s.mon.confirmAt.isSome = true →
      exec (.safConfirm w) s = .next ((s.setMon { s.mon with confirmAt := none }).setBit rSAF_STAT 2)) ∧
  -- SAF_CONFIRM_INV
  (∀ (s : State) (w : Word),
      s.mon.confirmAt.all (fun a => w != ~~~s.mon.check || !s.allStopped || s.acceptPending ||
        decide (a + 4000000000 < s.clk.t)) = true →
      exec (.safConfirmInv w) s = .next (((s.setMon { s.mon with confirmAt := none }).setBit rSAF_STAT 2).retier)) ∧
  -- SAF_CONFIRM_INV
  (∀ (s : State) (a i q : Nat) (w : Word),
      s.mon.confirmAt = some a → w = ~~~s.mon.check → s.allStopped = true → s.acceptPending = false →
      s.clk.t ≤ a + 4000000000 →
      (s.commNewest = none → i = 0 ∧ q = 1) →
      (∀ k, k < 2 → s.commNewest = some k → i = 1 - k ∧ q = (s.commSeq k + 1) % 2 ^ 32) →
      Retiers (.safConfirmInv w) s fun u =>
        u.mon.confirmed = true ∧ u.mon.confirmAt = none ∧ u.mon.check = s.mon.check ∧
        (u.commSlot i).take 20 = leBytes 4 q ++ leBytes 4 s.mon.check.toNat ++
          leBytes 8 (s.wallNs / 1000000000) ++ leBytes 4 (s.wallNs % 1000000000) ∧
        field (u.commSlot i) 60 4 = crc32c (slice (u.commSlot i) 0 60) ∧ u.commSlot (1 - i) = s.commSlot (1 - i))

/-- A frame of the ring that waits is sent in its order; a link that goes down, wraps or unwraps is marked, a wrap counted
once; a delay request is sent and returned on its lanes, and a measured delay kept; a good frame of another device is
forwarded with its hop and its accumulated delay, onto the other ring where its own is wrapped, and a bad one is counted. An
enumeration gives the rank and the number found and settles the roles, one that fails is flagged; a role is assigned under
its epoch, and a newer announcement is taken, its loss deposing a paired device. Angle frames of the holder give the
master's angle, time frames its offset, a stale one is refused, and both are sent by the holder. Where the spec leaves a
point of these open, the choice is the model's (log 31, log 50). -/
def Obligations.TrestleCommandsComplete : Prop :=
  -- TRESTLE_FRAME_SEND
  (∀ (s : State) (b : Bool) (f : TrsFrame),
      s.clk.ethLock = true →
      nextFrame (s.trs.out.filter fun f => f.ringB = b || (f.hops = 0 && f.dst != 0xFF && f.type != 0x0B)) = some f →
      exec (.trestleFrameSend b) s = .next (s.setTrs { s.trs with out := s.trs.out.erase f })) ∧
  -- TRESTLE_FRAME_SEND
  (∀ (s : State) (b : Bool), s.clk.ethLock = false ∨ s.trs.out = [] → exec (.trestleFrameSend b) s = .next s) ∧
  -- TRESTLE_LINK_DOWN
  (∀ (s : State) (b : Bool),
      exec (.trestleLinkDown b) s = .next (s.setTrs (if b then { s.trs with linkB := false } else { s.trs with
          linkA := false }))) ∧
  -- LINK_WRAP
  (∀ (s : State) (b : Bool),
      (if b then s.trs.wrapB else s.trs.wrapA) = false →
      exec (.linkWrap b) s = .next ((s.setTrs (if b then { s.trs with wrapB := true } else { s.trs with
          wrapA := true })).inc rTRS_CNT_WRAP)) ∧
  -- LINK_WRAP
  (∀ (s : State) (b : Bool), (if b then s.trs.wrapB else s.trs.wrapA) = true → exec (.linkWrap b) s = .next s) ∧
  -- LINK_UNWRAP
  (∀ (s : State) (b : Bool),
      exec (.linkUnwrap b) s = .next (s.setTrs (if b then { s.trs with linkB := true, wrapB := false } else { s.trs
            with linkA := true, wrapA := false }))) ∧
  -- DLY_SEND
  (∀ (s : State) (b : Bool),
      exec (.dlySend b) s = .next (s.setTrs { s.trs with
          out := s.trs.out ++ [{ s.unicast 0xFE 0x0B 0 (b2n b) [] with ringB := b }] })) ∧
  -- DLY_FRAME
  (∀ (s : State) (b : Bool) (x y : Nat),
      exec (.dlyFrame b (some (x, y))) s = .next (s.setTrs (if b
        then { s.trs with dlyB := (((x : Int) - y) :: s.trs.dlyB).take 16 }
        else { s.trs with dlyA := (((x : Int) - y) :: s.trs.dlyA).take 16 }))) ∧
  -- DLY_FRAME
  (∀ (s : State) (b : Bool),
      exec (.dlyFrame b none) s = .next (s.setTrs { s.trs with
          out := s.trs.out ++ [{ s.unicast 0xFE 0x0B 0 (2 + b2n (!b)) [] with ringB := !b }] })) ∧
  -- TRESTLE_FRAME_FORWARD
  (∀ (s : State) (f : TrsFrame) (x : Bool),
      f.type ≠ 0 → f.type ≤ 0x0B → f.src ≠ s.trs.rank → f.dst ≠ s.trs.rank → f.dst ≠ 0xFE → f.hops < 63 →
      x = (if f.ringB then s.trs.wrapA else s.trs.wrapB) →
      exec (.trestleFrameForward f true) s = .next (s.setTrs { s.trs with
          out := s.trs.out ++ [{ f with
            hops := f.hops + 1, accd := (f.accd + s.linkDelay f.ringB + 6656) % 2 ^ 24
            ringB := if x then !f.ringB else f.ringB, wrapped := f.wrapped || x }] })) ∧
  -- TRESTLE_FRAME_FORWARD
  (∀ (s : State) (f : TrsFrame), exec (.trestleFrameForward f false) s = .next (s.inc rTRS_CNT_CRC)) ∧
  -- TRESTLE_FRAME_FORWARD
  (∀ (s : State) (f : TrsFrame),
      f.type = 0 ∨ 0x0B < f.type ∨ (f.src ≠ s.trs.rank ∧ f.dst ≠ s.trs.rank ∧ f.dst ≠ 0xFE ∧ 63 ≤ f.hops) →
      exec (.trestleFrameForward f true) s = .next (s.inc rTRS_CNT_DROP)) ∧
  -- TRESTLE_FRAME_FORWARD
  (∀ (s : State) (f : TrsFrame),
      f.type ≠ 0 → f.type ≤ 0x0B → f.src = s.trs.rank ∨ f.dst = s.trs.rank ∨ f.dst = 0xFE →
      exec (.trestleFrameForward f true) s = .next s) ∧
  -- ENUMERATE
  (∀ s : State, exec .enumerate s = .next (s.setTrs { s.trs with root := true, enumDone := false })) ∧
  -- ENUMERATION_DONE
  (∀ (s : State) (r n : Nat),
      s.trs.enumEver = false →
      Does (.enumerationDone r n true) s fun t => t.trs.rank = (if s.trs.root then 0 else r % 64) ∧ t.trs.found = n %
        64 ∧ t.trs.enumDone = true ∧ t.trs.enumEver = true ∧ t.trs.root = false ∧ t.trs.out = s.trs.out ∧
        t.role 3 = { holder := 0, assigned := true, epoch := 1 } ∧ ∀ k, k ≠ 3 → t.role k = s.role k) ∧
  -- ENUMERATION_DONE
  (∀ (s : State) (r n : Nat),
      s.trs.enumEver = true →
      Does (.enumerationDone r n true) s fun t => t.trs.rank = (if s.trs.root then 0 else r % 64) ∧ t.trs.found = n %
        64 ∧ t.trs.enumDone = true ∧ t.trs.root = false ∧
        (∀ k, k < 3 → t.role k = { s.role k with assigned := false }) ∧
        (s.trs.root = true → t.role 3 = { holder := 0, assigned := true, epoch := nextEpoch (s.role 3).epoch }) ∧
        (s.trs.root = false → t.role 3 = s.role 3) ∧
        ∀ k, 4 ≤ k → k < 8 → t.role k =
          if (s.role k).assigned = true ∧ (s.role k).holder = s.trs.rank then
            { holder := t.trs.rank, assigned := true, epoch := nextEpoch (s.role k).epoch }
          else s.role k) ∧
  -- ENUMERATION_DONE
  (∀ (s : State) (r n : Nat),
      exec (.enumerationDone r n false) s = .next ((s.setTrs { s.trs with root := false }).setBit rTRS_STAT 1)) ∧
  -- ROLE_ASSIGN
  (∀ (s : State) (r : Nat) (e : BitVec 16),
      r < 8 → (s.role r).epoch = e.toNat →
      Does (.roleAssign r s.trs.rank e) s fun t =>
        t.role r = { holder := s.trs.rank, assigned := true, epoch := nextEpoch e.toNat } ∧
        t.trs.out = s.trs.out ++ s.roleNews r 0 ∧ ∀ k, k ≠ r → t.role k = s.role k) ∧
  -- ROLE_ASSIGN
  (∀ (s : State) (r n : Nat) (e : BitVec 16),
      r < 8 → (s.role r).epoch ≠ e.toNat →
      exec (.roleAssign r n e) s = .next ((s.inc rTRS_CNT_STALE).setBit rTRS_STAT 6)) ∧
  -- ROLE_ASSIGN
  (∀ (s : State) (r n : Nat) (e : BitVec 16),
      8 ≤ r ∨ (s.role r).epoch = e.toNat ∧ n ≠ s.trs.rank → exec (.roleAssign r n e) s = .next s) ∧
  -- ROLE_FRAME
  (∀ (s : State) (f : TrsFrame) (r : Nat),
      f.type = 4 → r = field f.payload 0 1 → r < 8 →
      (aheadMod (2 ^ 16) (s.role r).epoch (field f.payload 2 2) = true ∨
        (s.role r).assigned = false ∧ (s.role r).epoch = 0) →
      s.holds r = false ∨ field f.payload 1 1 = s.trs.rank →
      exec (.roleFrame f) s = .next (s.setRole r {
          holder := field f.payload 1 1 % 64, assigned := true, epoch := field f.payload 2 2 })) ∧
  -- ROLE_FRAME
  (∀ (s : State) (f : TrsFrame) (r : Nat),
      f.type = 4 → r = field f.payload 0 1 → r < 8 →
      aheadMod (2 ^ 16) (s.role r).epoch (field f.payload 2 2) = true →
      s.holds r = true → field f.payload 1 1 ≠ s.trs.rank →
      Does (.roleFrame f) s fun t =>
        t.role r = { holder := field f.payload 1 1 % 64, assigned := true, epoch := field f.payload 2 2 } ∧
        t.regBit rTRS_STAT 7 = true ∧
        (s.pairOn = true → r = s.pairRole →
          t.pair.role = 0 ∧ t.pair.zGroups = s.pairGroups ∧ t.pair.actOut = false ∧ t.pair.deposed = true ∧
          t.pair.cause = 4) ∧
        (s.pairOn = false ∨ r ≠ s.pairRole → t.pair = s.pair)) ∧
  -- ROLE_FRAME
  (∀ (s : State) (f : TrsFrame) (r : Nat),
      r = field f.payload 0 1 →
      f.type ≠ 4 ∨ 8 ≤ r ∨ aheadMod (2 ^ 16) (s.role r).epoch (field f.payload 2 2) = false ∧ (s.role r).epoch ≠ 0 →
      exec (.roleFrame f) s = .next s) ∧
  -- ANGLE_FRAME
  (∀ (s : State) (f : TrsFrame),
      f.type = 1 → s.roleAccepts 0 f = true →
      Does (.angleFrame f) s fun t =>
        t.ang.masOk = true ∧ t.ang.masAt = s.clk.t ∧ t.ang.masFlags = f.flg ∧
        t.ang.masFreq = field f.payload 10 4 ∧ t.trs.accd = f.accd + s.linkDelay f.ringB ∧
        (f.accd = 0 → s.linkDelay f.ringB = 0 →
          t.ang.mas = (field f.payload 0 4 + 2 ^ 32 * field f.payload 4 6) * 65536 % 2 ^ 96)) ∧
  -- ANGLE_FRAME
  (∀ (s : State) (f : TrsFrame),
      (f.type ≠ 1 → exec (.angleFrame f) s = .next s) ∧
      (f.type = 1 → s.roleAccepts 0 f = false →
        exec (.angleFrame f) s = .next ((s.inc rTRS_CNT_STALE).setBit rTRS_STAT 6))) ∧
  -- ANGLE_SEND
  (∀ (s : State) (n : Nat),
      s.holds 0 = true → n = (s.reg rANG_STAT).toNat ||| s.angStat →
      exec .angleSend s = .next (s.setTrs { s.trs with
          out := s.trs.out ++ s.broadcast 1 (s.role 0).epoch
            (b2n (bit n 0) + 2 * b2n (bit n 1) + 4 * b2n (bit n 2) + 8 * b2n (bit n 4) + 16 * s.ang.src)
            (leBytes 4 (angWord s.ang.sch % 2 ^ 32) ++ leBytes 6 (angWord s.ang.sch / 2 ^ 32) ++
              leBytes 4 s.ang.freq ++ leBytes 4 (unsigned 32 s.ang.err)) })) ∧
  -- ANGLE_SEND TIME_SEND
  (∀ s : State,
      (s.holds 0 = false → exec .angleSend s = .next s) ∧ (s.holds 1 = false → exec .timeSend s = .next s)) ∧
  -- TIME_FRAME
  (∀ (s : State) (f : TrsFrame),
      (f.type ≠ 6 → exec (.timeFrame f) s = .next s) ∧
      (f.type = 6 → s.roleAccepts 1 f = false →
        exec (.timeFrame f) s = .next ((s.inc rTRS_CNT_STALE).setBit rTRS_STAT 6))) ∧
  -- TIME_FRAME
  (∀ (s : State) (f : TrsFrame) (o : Int),
      f.type = 6 → s.roleAccepts 1 f = true →
      o = (s.tim.wall / 65536 : Nat) - ((f.accd + s.linkDelay f.ringB) * 1024 : Nat) -
        ((field f.payload 0 8 * 1000000000 + field f.payload 8 4 : Nat) : Int) * 65536 →
      Does (.timeFrame f) s fun t =>
        t.tim.trsOff = o ∧ t.tim.trsErr = field f.payload 12 4 + 10 ∧ (s.tim.src ≠ 2 → t.tim.trsOk = true) ∧
        (s.tim.st = 0 → s.srcPref = 2 → s.stepThr * 65536 < o.natAbs →
          t.tim.st = 1 ∧ t.tim.src = 2 ∧ t.regBit rTIM_STAT 7 = true ∧
          t.tim.wall = (((s.tim.wall : Int) - o * 2 ^ 16) % (wallMod * 2 ^ 32 : Nat)).toNat)) ∧
  -- TIME_SEND
  (∀ (s : State) (w : Word),
      s.holds 1 = true →
      (∀ e, s.timErr = some e → w = word (min 0xFFFFFFFF (divOpen 115 e (2 ^ 150)).toNat)) →
      (s.timErr = none → w = s.takeFree.1) →
      Does .timeSend s fun t =>
        t.trs.out = s.trs.out ++ s.broadcast 6 (s.role 1).epoch 0
          (leBytes 8 (s.wallNs / 1000000000) ++ leBytes 4 (s.wallNs % 1000000000) ++ leBytes 4 w.toNat ++
            leBytes 1 (s.tim.st + 8 * s.tim.src)) ∧
        t.free = (if s.timErr = none then s.takeFree.2.free else s.free))

/-- ARM arms the device at Tier 2, the one without PRIMARY becoming standby where its partner is active; after 50 µs the
primary becomes standby or active by its partner's line, and without a heartbeat after 500 µs the other becomes active. An
active device drives its groups and takes its roles. Losing the partner's line and its heartbeat lets a fit standby with
AUTO_TAKE take over, a loss of the heartbeat alone is flagged; both active at once is flagged and resolved by PRIMARY and
rank. A group is driven once from its reload, the first one timing the switchover; a handover goes to a fit partner under
its epoch and switches at its period index on both sides; TAKE takes over, REJOIN returns a deposed device to standby, a
held partner is reported. A mirror record is collected from its frames, checked by its CRC, compared, and applied item by
item once no context stands in the way. Where the spec leaves a point of these open, the choice is the model's (log 22, log
50). -/
def Obligations.PairCommandsComplete : Prop :=
  -- PAIR_ARM
  (∀ s : State,
      s.pairOn = true → 2 ≤ s.tier → s.pair.role = 0 → s.pair.deposed = false →
      s.pairPrimary = true ∨ s.pair.actIn = false →
      exec .pairArm s = .next (s.setPair { s.pair with
          role := 1, zGroups := s.pairGroups, hbSeen := s.pair.hbOk })) ∧
  -- PAIR_ARM
  (∀ s : State,
      s.pairOn = true → 2 ≤ s.tier → s.pair.role = 0 → s.pair.deposed = false →
      s.pairPrimary = false → s.pair.actIn = true →
      Does .pairArm s fun t => t.pair.role = 2 ∧ t.pair.zGroups = s.pairGroups ∧ t.pair.driving = 0 ∧ t.pair.actOut = false) ∧
  -- PAIR_ARM
  (∀ s : State,
      s.pairOn = false ∨ s.tier < 2 ∨ s.pair.role ≠ 0 ∨ s.pair.deposed = true → exec .pairArm s = .next s) ∧
  -- ARM_ACTIVE_TIMEOUT
  (∀ s : State,
      s.pair.role = 1 → s.pairPrimary = true → s.pair.actIn = true →
      Does .armActiveTimeout s fun t => t.pair.role = 2 ∧ t.pair.zGroups = s.pairGroups ∧ t.pair.driving = 0 ∧ t.pair.actOut = false) ∧
  -- ARM_ACTIVE_TIMEOUT
  (∀ s : State,
      s.pair.role = 1 → s.pairPrimary = true → s.pair.actIn = false →
      Does .armActiveTimeout s fun t =>
        t.pair.role = 3 ∧ t.pair.zGroups = 0 ∧ t.pair.driving = s.pairGroups ∧ t.pair.actOut = true ∧
        (∀ r, r ∈ s.pairRole :: s.pairFollow →
          t.role r = { holder := s.trs.rank, assigned := true, epoch := nextEpoch (s.role r).epoch })) ∧
  -- ARM_ACTIVE_TIMEOUT
  (∀ s : State,
      s.pair.role ≠ 1 ∨ s.pairPrimary = false → exec .armActiveTimeout s = .next s) ∧
  -- PEER_ABSENT_TIMEOUT
  (∀ s : State,
      s.pair.role = 1 → s.pairPrimary = false → s.pair.hbSeen = false → s.pair.actIn = false →
      Does .peerAbsentTimeout s fun t =>
        t.regBit rPAIR_STAT 10 = true ∧ t.pair.role = 3 ∧ t.pair.zGroups = 0 ∧ t.pair.driving = s.pairGroups ∧ t.pair.actOut = true ∧
        (∀ r, r ∈ s.pairRole :: s.pairFollow →
          t.role r = { holder := s.trs.rank, assigned := true, epoch := nextEpoch (s.role r).epoch })) ∧
  -- PEER_ABSENT_TIMEOUT
  (∀ s : State,
      s.pair.role = 1 → s.pairPrimary = false → s.pair.hbSeen = false → s.pair.actIn = true →
      Does .peerAbsentTimeout s fun t =>
        t.regBit rPAIR_STAT 10 = true ∧ t.regBit rPAIR_STAT 11 = true ∧
        (t.reg rPAIR_CNT_DUAL).toNat = satInc (s.reg rPAIR_CNT_DUAL).toNat ∧ t.pair.role = 2 ∧ t.pair.zGroups = s.pairGroups ∧ t.pair.driving = 0 ∧ t.pair.actOut = false) ∧
  -- PEER_ABSENT_TIMEOUT
  (∀ s : State,
      s.pair.role ≠ 1 ∨ s.pairPrimary = true ∨ s.pair.hbSeen = true → exec .peerAbsentTimeout s = .next s) ∧
  -- PAIR_ACT_IN_CHANGE
  (∀ (s : State) (p : Bool),
      s.pair.role = 1 → s.pairPrimary = false →
      Does (.pairActInChange true p) s fun t => t.pair.actIn = true ∧ t.pair.peerPrimary = p ∧
        t.pair.role = 2 ∧ t.pair.zGroups = s.pairGroups ∧ t.pair.driving = 0 ∧ t.pair.actOut = false) ∧
  -- PAIR_ACT_IN_CHANGE
  (∀ (s : State) (p : Bool),
      s.pair.role = 3 →
      Does (.pairActInChange true p) s fun t =>
        t.pair.actIn = true ∧ t.regBit rPAIR_STAT 11 = true ∧
        (t.reg rPAIR_CNT_DUAL).toNat = satInc (s.reg rPAIR_CNT_DUAL).toNat ∧
        (s.pairPrimary = true → p = false ∨ s.trs.rank ≤ s.partnerRank →
          t.pair.role = 3 ∧ t.pair.driving = s.pair.driving ∧ t.pair.zGroups = s.pair.zGroups) ∧
        (s.pairPrimary = false ∨ p = true ∧ s.partnerRank < s.trs.rank →
          t.pair.role = 2 ∧ t.pair.zGroups = s.pairGroups ∧ t.pair.driving = 0 ∧ t.pair.actOut = false)) ∧
  -- PAIR_ACT_IN_CHANGE
  (∀ (s : State) (l p : Bool),
      (if l then s.pair.role ≠ 3 ∧ (s.pair.role ≠ 1 ∨ s.pairPrimary = true)
        else s.pair.role ≠ 2 ∨ s.pair.lost = false) →
      exec (.pairActInChange l p) s = .next (s.setPair { s.pair with actIn := l, peerPrimary := p })) ∧
  -- PAIR_ACT_IN_CHANGE HEARTBEAT_LOSS
  (∀ (s : State) (p : Bool) (c : Instr),
      s.pair.role = 2 → s.pairFitAt = true → s.pairAutoTake = true →
      (c = .pairActInChange false p ∧ s.pair.lost = true ∨ c = .heartbeatLoss ∧ s.pair.actIn = false) →
      Does c s fun t =>
        t.pair.role = 3 ∧ t.pair.actOut = true ∧ t.pair.trigAt = some s.clk.t ∧ t.pair.tookOver = true ∧
        t.pair.cause = 1 ∧ t.pair.driving = 0 ∧ t.pair.zGroups = s.pair.zGroups ∧
        (∀ r, r ∈ s.pairRole :: s.pairFollow →
          t.role r = { holder := s.trs.rank, assigned := true, epoch := nextEpoch (s.role r).epoch })) ∧
  -- PAIR_ACT_IN_CHANGE HEARTBEAT_LOSS
  (∀ (s : State) (p : Bool) (c : Instr),
      s.pair.role = 2 → s.pairFitAt = false ∨ s.pairAutoTake = false →
      (c = .pairActInChange false p ∧ s.pair.lost = true ∨ c = .heartbeatLoss ∧ s.pair.actIn = false) →
      Does c s fun t =>
        t.pair.role = 2 ∧ t.pair.lost = true ∧ t.pair.actIn = false ∧ t.regBit rPAIR_STAT 8 = true ∧
        t.trs = s.trs) ∧
  -- HEARTBEAT_LOSS
  (∀ s : State,
      s.pair.actIn = true →
      exec .heartbeatLoss s = .next ((s.setPair { s.pair with hbOk := false, lost := true }).setBit rPAIR_STAT 7)) ∧
  -- HEARTBEAT_LOSS
  (∀ s : State,
      s.pair.role ≠ 2 → s.pair.actIn = false →
      exec .heartbeatLoss s = .next (s.setPair { s.pair with hbOk := false, lost := true })) ∧
  -- HEARTBEAT_RETURN
  (∀ s : State,
      exec .heartbeatReturn s = .next (s.setPair { s.pair with hbOk := true, hbSeen := true, lost := false })) ∧
  -- TAKEOVER_DRIVE
  (∀ (s : State) (g : Nat),
      s.pair.role = 3 → bit s.pairGroups g = true → bit s.pair.zGroups g = true → g < 8 → s.pair.trigAt = none →
      exec (.takeoverDrive g) s = .next (s.setPair { s.pair with
          zGroups := s.pair.zGroups &&& (255 - 2 ^ g), driving := s.pair.driving ||| 2 ^ g, trigAt := none })) ∧
  -- TAKEOVER_DRIVE
  (∀ (s : State) (g a : Nat),
      s.pair.role = 3 → bit s.pairGroups g = true → bit s.pair.zGroups g = true → g < 8 → s.pair.trigAt = some a →
      Does (.takeoverDrive g) s fun t =>
        bit t.pair.zGroups g = false ∧ bit t.pair.driving g = true ∧ t.pair.trigAt = none ∧
        t.pair.lastSw = min 0xFFFFFFFF (divOpen 90 (s.clk.t - a : Nat) 400).toNat ∧
        (t.reg rPAIR_CNT_SWITCH).toNat = satInc (s.reg rPAIR_CNT_SWITCH).toNat) ∧
  -- TAKEOVER_DRIVE
  (∀ (s : State) (g : Nat),
      s.pair.role ≠ 3 ∨ bit s.pairGroups g = false ∨ bit s.pair.zGroups g = false ∨ 8 ≤ g →
      exec (.takeoverDrive g) s = .next s) ∧
  -- PAIR_HANDOVER
  (∀ (s : State) (e : BitVec 16) (p : Nat),
      s.pair.role = 3 → (s.role s.pairRole).epoch = e.toNat → s.pair.partnerFit = true →
      p = ((s.grp s.pairGroup).pidx + 2 * s.mirDiv) % 2 ^ 32 →
      Does (.pairHandover e) s fun t =>
        t.pair = { s.pair with handover := some p } ∧
        t.trs = { s.trs with out := s.trs.out ++ [s.unicast s.partnerRank 5 e.toNat 0 (leBytes 4 p)] }) ∧
  -- PAIR_HANDOVER
  (∀ (s : State) (e : BitVec 16),
      s.pair.role = 3 → (s.role s.pairRole).epoch = e.toNat → s.pair.partnerFit = false →
      exec (.pairHandover e) s = .next (s.setBit rPAIR_STAT 12)) ∧
  -- PAIR_HANDOVER
  (∀ (s : State) (e : BitVec 16),
      (s.pair.role ≠ 3 → exec (.pairHandover e) s = .next s) ∧
      (s.pair.role = 3 → (s.role s.pairRole).epoch ≠ e.toNat →
        exec (.pairHandover e) s = .next ((s.inc rTRS_CNT_STALE).setBit rTRS_STAT 6))) ∧
  -- HSW_FRAME
  (∀ (s : State) (f : TrsFrame) (b : Bool),
      f.type = 5 → f.src = s.partnerRank → s.pairOn = true →
      exec (.hswFrame f (.fit b)) s = .next (s.setPair { s.pair with partnerFit := b })) ∧
  -- HSW_FRAME
  (∀ (s : State) (f : TrsFrame) (p : Nat),
      f.type = 5 → f.src = s.partnerRank → s.pairOn = true → s.pair.role = 2 →
      exec (.hswFrame f (.handover p)) s = .next (s.setPair { s.pair with handover := some p })) ∧
  -- HSW_FRAME
  (∀ (s : State) (f : TrsFrame) (m : HswMsg),
      f.type ≠ 5 ∨ f.src ≠ s.partnerRank ∨ s.pairOn = false → exec (.hswFrame f m) s = .next s) ∧
  -- HANDOVER_SWITCH
  (∀ s : State,
      s.pair.handover = some (s.grp s.pairGroup).pidx → s.pair.role = 3 →
      Does .handoverSwitch s fun t =>
        t.pair.cause = 2 ∧ t.pair.handover = none ∧
        (t.reg rPAIR_CNT_SWITCH).toNat = satInc (s.reg rPAIR_CNT_SWITCH).toNat ∧
        t.pair.role = 2 ∧ t.pair.zGroups = s.pairGroups ∧ t.pair.driving = 0 ∧ t.pair.actOut = false) ∧
  -- HANDOVER_SWITCH
  (∀ s : State,
      s.pair.handover = some (s.grp s.pairGroup).pidx → s.pair.role = 2 →
      Does .handoverSwitch s fun t =>
        t.pair.cause = 2 ∧ t.pair.handover = none ∧
        (t.reg rPAIR_CNT_SWITCH).toNat = satInc (s.reg rPAIR_CNT_SWITCH).toNat ∧
        t.pair.role = 3 ∧ t.pair.zGroups = 0 ∧ t.pair.driving = s.pairGroups ∧ t.pair.actOut = true ∧
        (∀ r, r ∈ s.pairRole :: s.pairFollow →
          t.role r = { holder := s.trs.rank, assigned := true, epoch := nextEpoch (s.role r).epoch })) ∧
  -- HANDOVER_SWITCH
  (∀ s : State,
      s.pair.handover ≠ some (s.grp s.pairGroup).pidx ∨ s.pair.role < 2 → exec .handoverSwitch s = .next s) ∧
  -- PAIR_TAKE
  (∀ s : State,
      s.pair.role = 2 → (∀ g, g < 8 → bit s.pairGroups g = true → (s.grp g).st = .running) → s.pair.actIn = false →
      Does .pairTake s fun t =>
        t.pair.role = 3 ∧ t.pair.actOut = true ∧ t.pair.trigAt = some s.clk.t ∧ t.pair.tookOver = true ∧
        t.pair.cause = 3 ∧ t.pair.driving = 0 ∧ t.pair.zGroups = s.pair.zGroups ∧
        (∀ r, r ∈ s.pairRole :: s.pairFollow →
          t.role r = { holder := s.trs.rank, assigned := true, epoch := nextEpoch (s.role r).epoch })) ∧
  -- PAIR_TAKE
  (∀ s : State,
      s.pair.role = 2 → (∀ g, g < 8 → bit s.pairGroups g = true → (s.grp g).st = .running) → s.pair.actIn = true →
      Does .pairTake s fun t =>
        t.regBit rPAIR_STAT 11 = true ∧ (t.reg rPAIR_CNT_DUAL).toNat = satInc (s.reg rPAIR_CNT_DUAL).toNat ∧
        (t.role s.pairRole).holder = s.trs.rank ∧
        t.pair.role = if s.pairPrimary = false ∨ s.pair.peerPrimary = true ∧ s.partnerRank < s.trs.rank then 2 else 3) ∧
  -- PAIR_TAKE
  (∀ s : State,
      s.pair.role ≠ 2 ∨ (∃ g, g < 8 ∧ bit s.pairGroups g = true ∧ (s.grp g).st ≠ .running) →
      exec .pairTake s = .next s) ∧
  -- PAIR_REJOIN
  (∀ s : State,
      s.pairOn = true → s.pair.deposed = true →
      Does .pairRejoin s fun t => t.pair.deposed = false ∧ t.pair.role = 2 ∧ t.pair.zGroups = s.pairGroups ∧ t.pair.driving = 0 ∧ t.pair.actOut = false) ∧
  -- PAIR_REJOIN
  (∀ s : State, s.pairOn = false ∨ s.pair.deposed = false → exec .pairRejoin s = .next s) ∧
  -- PEER_HELD
  (∀ s : State,
      s.pair.role = 3 → s.pair.tookOver = true → s.pair.hbOk = false →
      exec .peerHeld s = .next (s.setBit rPAIR_STAT 9)) ∧
  -- PEER_HELD
  (∀ s : State,
      s.pair.role ≠ 3 ∨ s.pair.tookOver = false ∨ s.pair.hbOk = true → exec .peerHeld s = .next s) ∧
  -- MIRROR_FRAME
  (∀ (s : State) (f : TrsFrame),
      f.type = 7 → s.pairOn = true → s.roleAccepts s.pairRole f = true → s.pair.rx = [] →
      field f.payload 0 2 = 0 →
      Does (.mirrorFrame f) s fun t =>
        SMap.get (fun _ => []) t.pair.rx 0 = slice f.payload 2 16 ∧ t.pair.whole = s.pair.whole ∧ t.regs = s.regs) ∧
  -- MIRROR_FRAME
  (∀ (s : State) (f : TrsFrame) (o n : Nat) (b : List Byte),
      f.type = 7 → s.pairOn = true → s.roleAccepts s.pairRole f = true →
      o = field f.payload 0 2 → o ≠ 0 → n = field (SMap.get (fun _ => []) s.pair.rx 0) 6 2 → 36 ≤ n →
      b = ((List.range ((n + 15) / 16)).flatMap fun k =>
        if 16 * k = o then slice f.payload 2 16 else SMap.get (fun _ => []) s.pair.rx (16 * k)).take n →
      b.length = n →
      Does (.mirrorFrame f) s fun t =>
        t.pair.rx = [] ∧
        (crc32c (b.take (n - 4)) = field b (n - 4) 4 → t.pair.whole = some b ∧ t.regs = s.regs) ∧
        (crc32c (b.take (n - 4)) ≠ field b (n - 4) 4 → t.pair.whole = s.pair.whole ∧
          (t.reg rPAIR_CNT_GAP).toNat = satInc (s.reg rPAIR_CNT_GAP).toNat)) ∧
  -- MIRROR_FRAME
  (∀ (s : State) (f : TrsFrame),
      f.type = 7 → s.pairOn = true → s.roleAccepts s.pairRole f = true → s.pair.rx ≠ [] → field f.payload 0 2 = 0 →
      Does (.mirrorFrame f) s fun t =>
        SMap.get (fun _ => []) t.pair.rx 0 = slice f.payload 2 16 ∧ (∀ k, k ≠ 0 → SMap.get (fun _ => []) t.pair.rx k = []) ∧
        (t.reg rPAIR_CNT_GAP).toNat = satInc (s.reg rPAIR_CNT_GAP).toNat) ∧
  -- MIRROR_FRAME
  (∀ (s : State) (f : TrsFrame),
      (f.type ≠ 7 ∨ s.pairOn = false → exec (.mirrorFrame f) s = .next s) ∧
      (f.type = 7 → s.pairOn = true → s.roleAccepts s.pairRole f = false →
        exec (.mirrorFrame f) s = .next ((s.inc rTRS_CNT_STALE).setBit rTRS_STAT 6))) ∧
  -- MIRROR_APPLY
  (∀ (s : State) (b : List Byte) (l : List Nat),
      s.pair.whole = some b → s.pair.genRx.all (fun g => aheadMod (2 ^ 32) g (field b 0 4)) = true →
      s.pair.role = 2 → s.mirBusy = false → s.mirWindow = false →
      Does (.mirrorApply l) s fun t =>
        t.pair.whole = none ∧ t.pair.genRx = some (field b 0 4) ∧ t.pair.age = 0 ∧
        (s.mirDiffs b = [] → t.pair.mmRun = 0 ∧ t.pair.okRun = s.pair.okRun + 1 ∧ t.regs = s.regs) ∧
        (s.mirDiffs b ≠ [] → (s.mirDiffs b).all (fun p => p.2 && !l.contains p.1) = true →
          t.regBit rPAIR_STAT 5 = true ∧ t.pair.mmRun = 0) ∧
        ((s.mirDiffs b).any (fun p => !p.2 || l.contains p.1) = true → t.pair.mmRun = s.pair.mmRun + 1 ∧
          t.pair.okRun = 0) ∧
        (s.nItem = 1 → s.mirKind 0 = 2 → 0x20 + 4 * s.mirItem 0 2 ≤ b.length →
          t.bytes (ldmBase + 4 * s.mirItem 0 1) (4 * s.mirItem 0 2) = slice b 0x20 (4 * s.mirItem 0 2)) ∧
        (s.nItem = 1 → s.mirKind 0 = 1 → ∀ k, k < s.mirLen 0 →
          (t.ctx (s.mirCtx 0)).sReg (((List.range 32).filter fun r => bit (s.mirItem 0 1) r).getD k 0) =
            word (field b (0x20 + 4 * k) 4)) ∧
        (s.nItem = 1 → s.mirKind 0 = 4 → ∀ k, k < 256 →
          (t.evtEntry k).armed = bit (field b (0x20 + 4 * (k / 32)) 4) (k % 32)) ∧
        (s.nItem = 1 → s.mirKind 0 = 5 →
          (t.ctx (s.mirCtx 0)).region =
            (if field b 0x20 2 = 0xFFFF then none else some (field b 0x20 2)) ∧
          (t.ctx (s.mirCtx 0)).bank = field b 0x22 2) ∧
        (s.nItem = 1 → s.mirKind 0 = 6 → (t.ctx (s.mirCtx 0)).bucket = field b 0x20 4)) ∧
  -- MIRROR_APPLY
  (∀ (s : State) (b : List Byte) (l : List Nat) (g : Nat),
      s.pair.whole = some b → s.pair.genRx = some g → aheadMod (2 ^ 32) g (field b 0 4) = false →
      s.pair.role = 2 → s.mirBusy = false → s.mirWindow = false →
      exec (.mirrorApply l) s = .next (s.setPair { s.pair with whole := none })) ∧
  -- MIRROR_APPLY
  (∀ (s : State) (l : List Nat),
      s.pair.whole = none ∨ s.mirBusy = true ∨ s.mirWindow = true ∨ s.pair.role ≠ 2 ∧ s.pair.trigAt = none →
      exec (.mirrorApply l) s = .next s)

/-- A PLL that loses its lock counts and flags it: SYSCLK falls back and the scheduling angle coasts, or the PTC point and
alignment are left, with every group that is not tripped SAFE and a paired device releasing, or TIM enters holdover; the
tier follows. A lost reference does all three, its return lets the search begin, and a found lock is taken, the groups it
had made SAFE returning to STOPPED; the band learning ends with the learned codes at the initial point. A power-fail warning
of an enabled source raises PF with its flags, count and interrupt, freezes the meter, stops the recorder, the Shelf and the
fans that ask for it, abandons an erase, a load and a pending commit and ends pair duty; its end lets everything resume. A
grant is given where the store covers it and ends as done, expired or aborted; the loads are cut below VCUT and return above
1.05 VCUT. A lane's self-test advances in an idle slot, repeats once after a failure, marks the lane after the second one
and goes to the next lane. Where the spec leaves a point of these open, the choice is the model's (log 29, log 32). -/
def Obligations.ClockAndHoldupCommandsComplete : Prop :=
  -- SYS_LOCK_LOSS
  (∀ s : State,
      s.clk.sysLock = true →
      Retiers .sysLockLoss s fun u =>
        u.clk = { s.clk with sysLock := false, fallback := true } ∧ u.regBit rCLK_STAT 5 = true ∧
        (u.reg rCLK_CNT_SYSLOSS).toNat = satInc (s.reg rCLK_CNT_SYSLOSS).toNat ∧ u.ang.src = 3 ∧ u.ang.valid = false ∧
        u.sdm.clkLost = true ∧ u.regBit rSDM_STAT 2 = true ∧
        (s.pair.role = 3 → u.pair.role = 0 ∧ u.pair.zGroups = s.pairGroups ∧ u.pair.actOut = false) ∧
        ∀ g, g < 8 → (s.grp g).tripHop = false →
          (u.grp g).st = (if (s.grp g).st = .tripped then .tripped else .safe) ∧
          ((s.grp g).st ≠ .tripped → (u.grp g).cause = 5)) ∧
  -- PTC_LOCK_LOSS
  (∀ s : State,
      s.clk.ptcLock = true →
      Retiers .ptcLockLoss s fun u =>
        u.clk.ptcLock = false ∧ u.clk.op = s.clk.hopTo.getD s.clk.op ∧ u.clk.hopTo = none ∧
        u.clk.sysLock = s.clk.sysLock ∧ u.clk.ethLock = s.clk.ethLock ∧ u.regBit rCLK_STAT 5 = true ∧
        (u.reg rCLK_CNT_PTCLOSS).toNat = satInc (s.reg rCLK_CNT_PTCLOSS).toNat ∧ u.pwm.alignOk = false ∧
        (s.pair.role = 3 → u.pair.role = 0 ∧ u.pair.zGroups = s.pairGroups ∧ u.pair.actOut = false) ∧
        ∀ g, g < 8 →
          ((s.grp g).tripHop = false → (s.grp g).st ≠ .tripped → (u.grp g).st = .safe ∧ (u.grp g).cause = 4) ∧
          ((s.grp g).tripHop = true → (s.grp g).latches ≠ [] → (u.grp g).st = .tripped)) ∧
  -- ETH_LOCK_LOSS
  (∀ s : State,
      s.clk.ethLock = true →
      Retiers .ethLockLoss s fun u =>
        u.clk = { s.clk with ethLock := false } ∧ u.regBit rCLK_STAT 5 = true ∧
        (u.reg rCLK_CNT_ETHLOSS).toNat = satInc (s.reg rCLK_CNT_ETHLOSS).toNat ∧ u.tim.wall = s.tim.wall ∧
        (s.tim.st = 0 ∨ s.tim.st = 4 → u.tim = s.tim) ∧
        (s.tim.st ≠ 0 → s.tim.st ≠ 4 → u.tim.st = 4 ∧ u.tim.src = 3 ∧ u.regBit rTIM_STAT 10 = true)) ∧
  -- SYS_LOCK_LOSS PTC_LOCK_LOSS ETH_LOCK_LOSS
  (∀ s : State,
      (s.clk.sysLock = false → exec .sysLockLoss s = .next s) ∧
      (s.clk.ptcLock = false → exec .ptcLockLoss s = .next s) ∧
      (s.clk.ethLock = false → exec .ethLockLoss s = .next s)) ∧
  -- REFERENCE_LOSS
  (∀ s : State,
      Does .referenceLoss s fun t =>
        t.clk.refOk = false ∧ t.clk.search = 0 ∧ t.clk.sysLock = false ∧ t.clk.ptcLock = false ∧
        t.clk.ethLock = false ∧ t.clk.hopTo = (if s.clk.ptcLock then none else s.clk.hopTo) ∧
        ((s.clk.sysLock || s.clk.ptcLock || s.clk.ethLock) = true → t.tier < 2 ∧ t.regBit rCLK_STAT 5 = true) ∧
        ((s.clk.sysLock || s.clk.ptcLock) = true → ∀ g, g < 8 → (s.grp g).tripHop = false →
          (s.grp g).st ≠ .tripped → (t.grp g).st = .safe)) ∧
  -- REFERENCE_RETURN
  (∀ s : State, s.sys.pllBoot = true → exec .referenceReturn s = .next (s.setClk { s.clk with refOk := true })) ∧
  -- REFERENCE_RETURN PLL_SEARCH
  (∀ s : State,
      (s.sys.pllBoot = false → exec .referenceReturn s = .next s) ∧
      (s.sys.pllBoot = false ∨ s.clk.refOk = false → exec .pllSearch s = .next s)) ∧
  -- PLL_SEARCH
  (∀ s : State,
      s.sys.pllBoot = true → s.clk.refOk = true →
      exec .pllSearch s = .next (s.setClk { s.clk with
          search := b2n (!s.clk.sysLock) + 2 * b2n (!s.clk.ptcLock) + 4 * b2n (!s.clk.ethLock) })) ∧
  -- PLL_LOCK_RETURN
  (∀ s : State,
      bit s.clk.search 2 = true → s.clk.ethLock = false →
      exec (.pllLockReturn .eth) s = .next ((s.setClk { s.clk with
          search := putNatBit s.clk.search 2 false, ethLock := true }).retier)) ∧
  -- PLL_LOCK_RETURN
  (∀ s : State,
      bit s.clk.search 0 = true → s.clk.sysLock = false →
      Retiers (.pllLockReturn .sys) s fun u =>
        u.clk = { s.clk with search := putNatBit s.clk.search 0 false, sysLock := true, fallback := false } ∧
        u.sdm.clkLost = false ∧ u.regs = s.regs ∧
        (s.clk.ptcLock = true → ∀ g, g < 8 →
          u.grp g = if (s.grp g).st = .safe ∧ (s.grp g).cause = 5 then { s.grp g with st := .stopped } else s.grp g)) ∧
  -- PLL_LOCK_RETURN
  (∀ s : State,
      bit s.clk.search 1 = true → s.clk.ptcLock = false →
      Retiers (.pllLockReturn .ptc) s fun u =>
        u.clk.ptcLock = true ∧ u.clk.op = s.clk.op ∧ bit u.clk.search 1 = false ∧
        (s.clk.op, s.thm.tdie) ∈ u.clk.learned ∧
        (s.clk.sysLock = true → ∀ g, g < 8 →
          u.grp g = if (s.grp g).st = .safe ∧ (s.grp g).cause = 4 then { s.grp g with st := .stopped } else s.grp g)) ∧
  -- PLL_LOCK_RETURN
  (∀ s : State,
      (bit s.clk.search 0 = false ∨ s.clk.sysLock = true → exec (.pllLockReturn .sys) s = .next s) ∧
      (bit s.clk.search 1 = false ∨ s.clk.ptcLock = true → exec (.pllLockReturn .ptc) s = .next s) ∧
      (bit s.clk.search 2 = false ∨ s.clk.ethLock = true → exec (.pllLockReturn .eth) s = .next s)) ∧
  -- BAND_LEARNING_DONE
  (∀ s : State,
      s.clk.learning = true →
      Retiers .bandLearningDone s fun u => u.clk.learning = false ∧ u.clk.op = s.ptcInit ∧ ∀ k < 8, s.opValid k =
        true → (k, s.thm.tdie) ∈ u.clk.learned) ∧
  -- BAND_LEARNING_DONE
  (∀ s : State, s.clk.learning = false → exec .bandLearningDone s = .next s) ∧
  -- POWER_FAIL_WARNING
  (∀ (s : State) (v f : Nat),
      s.inReset = false → s.hu.pf = false → (s.vinLow v || s.fastLow f) = true →
      Does (.powerFailWarning v f) s fun t =>
        t.hu = { s.hu with pf := true, srcVin := s.vinLow v, srcFast := s.fastLow f, pfAt := s.clk.t } ∧
        t.regBit rHU_STAT 1 = true ∧ t.regBit rHU_STAT 7 = false ∧ t.regBit rHST_IRQ_SRC 6 = true ∧
        (t.reg rHU_CNT_PF).toNat = satInc (s.reg rHU_CNT_PF).toNat ∧
        t.mtr.frozen = true ∧ t.recd.stopped = true ∧ t.shf.stopped = true ∧ t.shf.erasing = none ∧
        (s.pair.role = 3 → t.pair.role = 0 ∧ t.pair.zGroups = s.pairGroups ∧ t.pair.actOut = false) ∧
        (∀ c, c < 2 → s.fanPfStop c = true → (s.fanCh c).st ≠ 0 → (s.fanCh c).st ≠ 7 →
          (t.fanCh c).pfOff = true ∧ (t.fanCh c).duty = 0) ∧
        t.img.loading = none ∧ t.img.pend = none ∧ (s.img.loading.isSome = true → t.regBit rIMG_STAT 8 = true) ∧
        (s.img.pend.isSome = true → t.regBit rIMG_STAT 7 = true)) ∧
  -- POWER_FAIL_WARNING
  (∀ (s : State) (v f : Nat),
      s.inReset = true ∨ s.hu.pf = true ∨ s.vinLow v = false ∧ s.fastLow f = false →
      exec (.powerFailWarning v f) s = .next s) ∧
  -- POWER_FAIL_WITHDRAW
  (∀ (s : State) (v f : Nat),
      s.hu.pf = true → s.vinEn = false ∨ 1050 * s.pfLvl < v → 4500000 ≤ f →
      Does (.powerFailWithdraw v f) s fun t =>
        t.hu = { s.hu with pf := false, pfLast := min 0xFFFFFFFF ((s.clk.t - s.hu.pfAt) / 400) } ∧
        t.mtr.frozen = false ∧ t.mtr.forceGap = true ∧ t.recd.stopped = false ∧ t.shf.stopped = false ∧
        (∀ n, n < 4 → (s.recUnit n).st ≠ 0 → (s.recUnit n).st ≠ 4 → (t.recUnit n).st = 1) ∧
        ∀ c, c < 2 → (s.fanCh c).pfOff = true → (t.fanCh c).st = 1 ∧ (t.fanCh c).pfOff = false) ∧
  -- POWER_FAIL_WITHDRAW
  (∀ (s : State) (v f : Nat),
      s.hu.pf = false ∨ (s.vinEn = true ∧ v ≤ 1050 * s.pfLvl) ∨ f < 4500000 →
      exec (.powerFailWithdraw v f) s = .next s) ∧
  -- HU_FAST_SAMPLE
  (∀ (s : State) (m : Nat), exec (.huFastSample m) s = .next (s.setHu { s.hu with fastMv := m })) ∧
  -- HU_BULK_CONVERSION
  (∀ (s : State) (x : BitVec 10),
      s.bulkEn = false →
      exec (.huBulkConversion x) s = .next (s.setHu { s.hu with bulkUv := Config.bulkUv x })) ∧
  -- HU_BULK_CONVERSION
  (∀ (s : State) (x : BitVec 10),
      s.bulkEn = true →
      Does (.huBulkConversion x) s fun t =>
        t.hu.bulkUv = Config.bulkUv x ∧
        (s.belowCut (Config.bulkUv x) = true → t.hu.cut = true ∧
          (s.hu.held = true → s.belowCut s.hu.bulkUv = false →
            t.hu.grant = 5 ∧ t.hu.held = false ∧ t.regBit rHU_STAT 6 = true ∧
            (t.reg rHU_CNT_ABORT).toNat = satInc (s.reg rHU_CNT_ABORT).toNat)) ∧
        (s.belowCut (Config.bulkUv x) = false → t.hu.held = s.hu.held ∧ t.hu.grant = s.hu.grant ∧
          t.hu.cut = (s.hu.cut && decide (20 * s.vBulk (Config.bulkUv x) < 21 * s.vCut)))) ∧
  -- GRANT_REQUEST
  (∀ (s : State) (m : BitVec 24),
      s.bulkEn = true → s.hu.held = false → s.energyCovers m.toNat = true →
      exec (.grantRequest m) s = .next (s.setHu { s.hu with grant := 1, held := true, mJ := m.toNat })) ∧
  -- GRANT_REQUEST
  (∀ (s : State) (m : BitVec 24),
      (s.bulkEn = false ∨ s.hu.held = true ∨ s.energyCovers m.toNat = false) →
      exec (.grantRequest m) s = .next (s.setHu { s.hu with grant := 2, mJ := m.toNat })) ∧
  -- GRANT_DONE
  (∀ s : State, s.hu.held = true → exec .grantDone s = .next (s.setHu { s.hu with grant := 3, held := false })) ∧
  -- GRANT_EXPIRY
  (∀ s : State, s.hu.held = true → exec .grantExpiry s = .next (s.setHu { s.hu with grant := 4, held := false })) ∧
  -- GRANT_DONE GRANT_EXPIRY
  (∀ s : State, s.hu.held = false → exec .grantDone s = .next s ∧ exec .grantExpiry s = .next s) ∧
  -- DIEID_READ
  (∀ s : State, exec .dieidRead s = .next (s.setSys { s.sys with dieHi := word (bits Config.dieId.toNat 32 32) })) ∧
  -- SELFTEST_CHUNK
  (∀ (s : State) (b : Bool) (l k : Nat),
      s.le.testLane = some (l, k) → s.le.running = 0 → s.thm.paused = false → k < 63 →
      exec (.selftestChunk b) s = .next ({ s with le := { s.le with testLane := some (l, k + 1) } })) ∧
  -- SELFTEST_CHUNK
  (∀ (s : State) (l k : Nat),
      s.le.testLane = some (l, k) → 63 ≤ k → s.le.running = 0 → s.thm.paused = false → s.le.testAgain = false →
      exec (.selftestChunk true) s = .next ({ s with
          le := { s.le with testLane := some (l, 0), testAgain := true } })) ∧
  -- SELFTEST_CHUNK
  (∀ (s : State) (l k : Nat),
      s.le.testLane = some (l, k) → 63 ≤ k → s.le.running = 0 → s.thm.paused = false →
      exec (.selftestChunk false) s = .next ({ s with le := { s.le with
          retry := if s.le.testAgain then min 255 (s.le.retry + 1) else s.le.retry
          testLane := if l < 17 then some (l + 1, 0) else none, testAgain := false
          passes := if l < 17 then s.le.passes else min 0xFFFF (s.le.passes + 1) } })) ∧
  -- SELFTEST_CHUNK
  (∀ (s : State) (l k : Nat),
      s.le.testLane = some (l, k) → 63 ≤ k → s.le.running = 0 → s.thm.paused = false → s.le.testAgain = true →
      Retiers (.selftestChunk true) s fun u =>
        u.le.failed = s.le.failed ||| 2 ^ l ∧ u.le.testAgain = false ∧
        u.le.testLane = (if l < 17 then some (l + 1, 0) else none) ∧
        u.le.stopped = (s.le.stopped || decide (2 < laneCount (s.le.failed ||| 2 ^ l))) ∧
        (s.le.stopped = false → 2 < laneCount (s.le.failed ||| 2 ^ l) → u.regBit rLIF_SPSTAT 1 = true)) ∧
  -- SELFTEST_CHUNK
  (∀ (s : State) (b : Bool),
      s.le.testLane = none ∨ s.le.running ≠ 0 ∨ s.thm.paused = true → exec (.selftestChunk b) s = .next s)

/-- The step evaluates the enabled positions from their heat sink and inputs: a position without fresh inputs for longer
than its limit is in gap, counted and reported once, one that is not takes its loss, its thermal stages and its junction
temperature. WRITE and the interval queue a LIFE record with the next number; CLEAR needs its key and a position that is off
or in gap, and clears the damage and the matrix; corrected errors are tracked by row, a full tracker letting the row with
the fewest go, a fourth one or an uncorrectable one takes the row's spare, which is stored and logged, and its entry leaves
the tracker. The die temperature follows from the valid sensors and the power, its level sets the pause, which toggles at
level 1; trims and gains are taken. Where the spec leaves a point of these open, the choice is the model's (log 4, log 5,
log 19, log 50). -/
def Obligations.LifetimeAndThermalCommandsComplete : Prop :=
  -- LIF_STEP
  (∀ s : State, s.lifOn = false → exec .lifStep s = .next s) ∧
  -- LIF_STEP
  (∀ s : State,
      Does .lifStep s fun t =>
        ∀ p, p < 8 →
          (s.lifPosOn p = false → t.lifPos p = s.lifPos p) ∧
          (s.lifPosOn p = true →
            (t.lifPos p).fresh = false ∧
            (t.lifPos p).held = (if (s.lifPos p).fresh then 0 else (s.lifPos p).held + 1) ∧
            (t.lifPos p).gap = ((fDecode (s.ldm (s.lifField (lifEntry p + 2) 2))).1.isNan ||
              (!(s.lifPos p).fresh && ((s.lifPos p).gap ||
                decide (s.lifField (lifEntry p + 1) 1 < (s.lifPos p).held + 1)))))) ∧
  -- LIF_STEP
  (∀ (s : State) (p : Nat),
      p < 8 → (List.range 8).filter s.lifPosOn = [p] → (s.lifPos p).fresh = false →
      (s.lifPos p).gap = true ∨ s.lifField (lifEntry p + 1) 1 ≤ (s.lifPos p).held →
      Does .lifStep s fun t =>
        (t.lifPos p).gap = true ∧ (t.lifPos p).gapRec = min 0xFFFFFFFF ((s.lifPos p).gapRec + 1) ∧
        (t.lifPos p).tj = (s.lifPos p).tj ∧ (t.lifPos p).dmg = (s.lifPos p).dmg ∧
        (t.reg (rLIF_Pn_GAP_MS p)).toNat = satInc (s.reg (rLIF_Pn_GAP_MS p)).toNat ∧
        ((s.lifPos p).gap = true → t.evq = s.evq) ∧
        ((s.lifPos p).gap = false → t.regBit rLIF_STAT 3 = true ∧
          (s.evq.length < 64 → t.evq.length = s.evq.length + 1))) ∧
  -- LIF_STEP
  (∀ (s : State) (p : Nat) (h a : Word) (l : Int × Nat),
      p < 8 → (List.range 8).filter s.lifPosOn = [p] → (s.lifPos p).fresh = true →
      h = s.ldm (s.lifField (lifEntry p + 2) 2) → (fToRat h).isSome = true → a = (s.lifPos p).tj.getD h →
      s.lifInputsOk p a = true → (s.lifPos p).z.all (fun w => (fToRat w).isSome) = true → l = s.lifLoss p a →
      Does .lifStep s fun t =>
        (t.lifPos p).gap = false ∧ (t.lifPos p).loss = fOpen 113 l.1 l.2 ∧
        (t.lifPos p).z = ((List.range 4).map fun k =>
          s.lifStage p k ((s.lifPos p).z.getD k 0) (fOpen 113 l.1 l.2)) ∧
        (t.lifPos p).tj = some (fOpen 92 (ratOf h + ((t.lifPos p).z.map ratOf).sum) (2 ^ 149)) ∧
        (∀ w, (t.lifPos p).tj = some w → (t.lifPos p).tjMax = tempMax (s.lifPos p).tjMax w ∧
          (t.lifPos p).tjRec = tempMax (s.lifPos p).tjRec w)) ∧
  -- LIFE_RECORD LIF_WRITE
  (∀ s : State, s.lifOn = false → exec .lifeRecord s = .next s ∧ exec .lifWrite s = .next s) ∧
  -- LIFE_RECORD LIF_WRITE
  (∀ (s u : State) (c : Instr),
      s.lifOn = true → c ∈ [Instr.lifeRecord, .lifWrite] →
      u = s.setLif { s.lif with rseq := (s.lif.rseq + 1) % 2 ^ 32 } →
      Does c s fun t =>
        t.lif.rseq = (s.lif.rseq + 1) % 2 ^ 32 ∧ t.shf.life = s.shf.life ++ [u.lifHeader] ∧ t.mem = s.mem ∧
        ∀ p, p < 8 → t.lifPos p = { s.lifPos p with tjRec := none, gapRec := 0 }) ∧
  -- LIF_CLEAR
  (∀ (s : State) (p : Nat),
      p < 8 → s.lifOn = false →
      Does (.lifClear p 0x1F3C) s fun t =>
        t.lifPos p = { s.lifPos p with dmg := 0 } ∧ (∀ q, q ≠ p → t.lifPos q = s.lifPos q) ∧ t.mem = s.mem ∧
        t.lif.matrices = s.lif.matrices.map fun m =>
          m.take (16384 * p) ++ List.replicate 16384 0 ++ m.drop (16384 * (p + 1))) ∧
  -- LIF_CLEAR
  (∀ (s : State) (p : Nat),
      p < 8 → s.lifOn = true → s.lifPosOn p = false ∨ (s.lifPos p).gap = true →
      Does (.lifClear p 0x1F3C) s fun t =>
        t.lifPos p = { s.lifPos p with dmg := 0 } ∧
        (∀ k, k < 16384 → t.byte (s.rfBase + 16384 * p + k) = 0) ∧
        (∀ a, a < s.rfBase + 16384 * p ∨ s.rfBase + 16384 * (p + 1) ≤ a → t.byte a = s.byte a)) ∧
  -- LIF_CLEAR
  (∀ (s : State) (p : Nat) (k : BitVec 16),
      (k ≠ 0x1F3C ∨ 8 ≤ p ∨ s.lifPosOn p = true ∧ (s.lifPos p).gap = false) →
      exec (.lifClear p k) s = .next (s.setBit rLIF_STAT 4)) ∧
  -- ECC_CORRECTED
  (∀ (s : State) (b r : Nat),
      b < 36 → (s.rowTrack b).any (fun x => x.1 == r) = false → (s.rowTrack b).length < 8 →
      exec (.eccCorrected b r) s = .next (s.setRowTrack b (s.rowTrack b ++ [(r, 1)]))) ∧
  -- ECC_CORRECTED
  (∀ (s : State) (b r : Nat),
      b < 36 → (s.rowTrack b).any (fun x => x.1 == r) = true →
      exec (.eccCorrected b r) s = .next (s.setRowTrack b ((s.rowTrack b).map fun x => if x.1 = r then (x.1, min 4
        (x.2 + 1)) else x))) ∧
  -- ECC_CORRECTED
  (∀ (s : State) (b r : Nat),
      b < 36 → (s.rowTrack b).any (fun x => x.1 == r) = false → 8 ≤ (s.rowTrack b).length →
      (s.rowTrack b).all (fun x => decide (x.2 ≤ 4)) = true →
      Does (.eccCorrected b r) s fun t =>
        ∃ x, x ∈ s.rowTrack b ∧ (∀ y, y ∈ s.rowTrack b → x.2 ≤ y.2) ∧
          t.rowTrack b = (s.rowTrack b).filter (fun y => y != x) ++ [(r, 1)]) ∧
  -- ECC_CORRECTED
  (∀ (s : State) (b r : Nat), 36 ≤ b → exec (.eccCorrected b r) s = .next s) ∧
  -- ROW_REMAP_DONE
  (∀ (s : State) (b r : Nat),
      b < 36 → (s.rowRemap b).length < 32 → (s.rowRemap b).contains r = false →
      (s.rowTrack b).any (fun x => x.1 == r && decide (4 ≤ x.2)) = true →
      Does (.rowRemapDone b r none) s fun t =>
        t.rowRemap b = s.rowRemap b ++ [r] ∧ t.rowTrack b = ((s.rowTrack b).filter fun x => x.1 != r) ∧
        t.bytes 0x00402200 2304 = t.remapBytes ∧ field (t.bytes 0x00402200 2308) 2304 4 = crc32c t.remapBytes ∧
        t.regBit rLIF_SPSTAT 0 = true ∧
        (28 ≤ (s.rowRemap b).length → t.regBit rLIF_SPSTAT 2 = true) ∧
        ((s.rowRemap b).length = 31 → t.regBit rLIF_SPSTAT 3 = true)) ∧
  -- ROW_REMAP_DONE
  (∀ (s : State) (b r a : Nat),
      b ≤ 30 → (s.rowRemap b).length < 32 → (s.rowRemap b).contains r = false → 0x00100000 ≤ a → a < 0x00190000 →
      Does (.rowRemapDone b r (some a)) s fun t =>
        t.memWord (a / 4 * 4) = 0 ∧ t.rowRemap b = s.rowRemap b ++ [r] ∧ t.regBit rLIF_SPSTAT 0 = true) ∧
  -- ROW_REMAP_DONE
  (∀ (s : State) (b r : Nat),
      36 ≤ b ∨ 32 ≤ (s.rowRemap b).length ∨ (s.rowRemap b).contains r = true ∨
        (s.rowTrack b).any (fun x => x.1 == r && decide (4 ≤ x.2)) = false →
      exec (.rowRemapDone b r none) s = .next s) ∧
  -- ROW_TRACK_EXPIRY
  (∀ (s : State) (b r : Nat),
      exec (.rowTrackExpiry b r) s = .next (s.setRowTrack b ((s.rowTrack b).filter fun x => x.1 != r))) ∧
  -- LIF_SPLOG_READ
  (∀ s : State, exec .lifSplogRead s = .next ({ s with spareLog := s.spareLog.drop 1 })) ∧
  -- THM_UPDATE
  (∀ (s : State) (x : ThmSample) (l : List Nat),
      l = (List.range 4).filter (sensorOk x.sensors) → l ≠ [] →
      Does (.thmUpdate x) s fun t =>
        t.thm.tdie = ((l.map fun k => x.sensors.getD k 0).max?.getD 0) + divOpen 93 (6 * 256 * (x.pwr : Int)) 10000 ∧
        t.thm.level = s.thmLevel t.thm.tpred ∧ t.thm.pwr = x.pwr ∧ (t.thm.rate ≤ 0 → t.thm.tpred = t.thm.tdie) ∧
        (0 < t.thm.rate → t.thm.tpred = t.thm.tdie + t.thm.rate) ∧
        t.thm.tmax = some (match s.thm.tmax with
          | some m => max m t.thm.tdie
          | none => t.thm.tdie) ∧
        (l.length < 4 → t.regBit rTHM_STAT 3 = true) ∧
        (38400 ≤ t.thm.tdie → s.thm.tdie < 38400 → t.regBit rTHM_STAT 2 = true ∧ t.regBit rHST_IRQ_SRC 9 = true) ∧
        (s.thm.paused = true → (t.reg rTHM_CNT_PAUSE_MS).toNat = satInc (s.reg rTHM_CNT_PAUSE_MS).toNat) ∧
        t.thm.paused =
          if t.thm.level = s.thm.level then s.thm.paused
          else if t.thm.level = 0 then false
          else if t.thm.level = 1 then decide (s.thm.level = 0) || s.thm.paused else true) ∧
  -- THM_UPDATE
  (∀ (s : State) (x : ThmSample),
      (List.range 4).filter (sensorOk x.sensors) = [] →
      Does (.thmUpdate x) s fun t =>
        t.thm.sensOk = 0 ∧ t.regBit rTHM_STAT 3 = true ∧ t.thm.pwr = x.pwr ∧ t.free = s.free + 1 ∧
        t.thm.level = s.thmLevel t.thm.tpred) ∧
  -- PAUSE_TOGGLE
  (∀ s : State,
      s.thm.level = 1 → s.thm.paused = false →
      exec .pauseToggle s = .next (s.setThm { s.thm with paused := true })) ∧
  -- PAUSE_TOGGLE
  (∀ s : State,
      s.thm.level = 1 → s.thm.paused = true →
      Does .pauseToggle s fun t =>
        t.thm = { s.thm with paused := false } ∧ (s.shf.job = none → t = s.setThm { s.thm with paused := false })) ∧
  -- PAUSE_TOGGLE
  (∀ s : State, s.thm.level ≠ 1 → exec .pauseToggle s = .next s) ∧
  -- RC_TRIM
  (∀ s : State, exec .rcTrim s = .next (s.takeFree.2.setThm { s.takeFree.2.thm with rcTrim := s.takeFree.1 })) ∧
  -- REF_COMP_UPDATE
  (∀ s : State,
      exec .refCompUpdate s = .next (s.takeFree.2.setThm { s.takeFree.2.thm with gainNew := some s.takeFree.1 })) ∧
  -- COMP_GAIN_APPLY
  (∀ (s : State) (w : Word),
      s.thm.gainNew = some w →
      exec .compGainApply s = .next (s.setThm { s.thm with gain := w, gainNew := none })) ∧
  -- COMP_GAIN_APPLY
  (∀ s : State, s.thm.gainNew = none → exec .compGainApply s = .next s)

/-- START begins an attempt with an observation and a count of 0, STOP stops, SET restarts a channel held at 0 and turns one
off; an observation ends in a catch, a brake or align-and-go; braking alternates, and past its limit the attempt has failed;
a failed attempt waits or, after the third retry, is an error; alignment leads to the ramp, whose commutations advance the
vector; a crossing is placed, timed and measured, and six in order end the ramp; RUN takes its PI step; stalls are counted
and end the attempt, and a wait ends in the next one. Commands that find the channel in another state, off or held off by a
power-fail warning do nothing. Where the spec leaves a point of these open, the choice is the model's (log 4, log 5, log 19,
log 50). -/
def Obligations.FanCommandsComplete : Prop :=
  -- FAN_START
  (∀ (s : State) (c : Nat),
      s.fanEn c = true → 2 ≤ s.tier → ((s.fanCh c).st = 0 ∨ (s.fanCh c).st = 7) →
      Does (.fanStart c) s fun t =>
        (t.fanCh c).st = 1 ∧ (t.fanCh c).start = s.fanEntry c ∧ (t.fanCh c).retries = 0 ∧ (t.fanCh c).seen = [] ∧
        (t.fanCh c).driven = false ∧ (t.fanCh c).duty = 0 ∧ (t.fanCh c).pfOff = (s.hu.pf && s.fanPfStop c) ∧
        (t.reg (rFAN_Cn_CNT_START (c % 2))).toNat = satInc (s.reg (rFAN_Cn_CNT_START (c % 2))).toNat) ∧
  -- FAN_START
  (∀ (s : State) (c : Nat),
      s.fanEn c = false ∨ s.tier < 2 ∨ (s.fanCh c).st ≠ 0 ∧ (s.fanCh c).st ≠ 7 → exec (.fanStart c) s = .next s) ∧
  -- FAN_STOP
  (∀ (s : State) (c : Nat),
      exec (.fanStop c) s = .next (s.setFan c {
          s.fanCh c with st := 0, braking := false, driven := false, caught := false, duty := 0, pfOff := false })) ∧
  -- FAN_SET_WRITE
  (∀ (s : State) (c : Nat) (v : Word),
      (s.fanCh c).st ≠ 5 →
      exec (.fanSetWrite c v) s = .next (s.setReg (rFAN_Cn_SET (c % 2)) v)) ∧
  -- FAN_SET_WRITE
  (∀ (s u : State) (c : Nat) (v : Word),
      s.fanLive c = true → (s.fanCh c).st = 5 → u = s.setReg (rFAN_Cn_SET (c % 2)) v → s.fanTarget c = 0 →
      u.fanTarget c ≠ 0 →
      Does (.fanSetWrite c v) s fun t => t.reg (rFAN_Cn_SET (c % 2)) = v ∧
        (t.fanCh c).st = 1 ∧ (t.fanCh c).start = s.fanEntry c ∧ (t.fanCh c).retries = (s.fanCh c).retries ∧ (t.fanCh c).seen = [] ∧
        (t.fanCh c).driven = false ∧ (t.fanCh c).duty = 0 ∧ (t.fanCh c).pfOff = (s.hu.pf && s.fanPfStop c) ∧
        (t.reg (rFAN_Cn_CNT_START (c % 2))).toNat = satInc (s.reg (rFAN_Cn_CNT_START (c % 2))).toNat) ∧
  -- FAN_SET_WRITE
  (∀ (s u : State) (c : Nat) (v : Word),
      s.fanLive c = true → (s.fanCh c).st = 5 → u = s.setReg (rFAN_Cn_SET (c % 2)) v → u.fanTarget c = 0 →
      Does (.fanSetWrite c v) s fun t => t.reg (rFAN_Cn_SET (c % 2)) = v ∧ (t.fanCh c).st = 5 ∧
        (t.fanCh c).driven = false ∧ (t.fanCh c).duty = 0) ∧
  -- OBSERVE_END
  (∀ (s : State) (c : Nat),
      s.fanLive c = true → (s.fanCh c).st = 1 → fanDirection (s.fanCh c).seen = none →
      Does (.observeEnd c) s fun t =>
        (t.fanCh c).st = 3 ∧ (t.fanCh c).bwd = false ∧ (t.fanCh c).braking = false ∧ (t.fanCh c).inOrder = 0 ∧
        (t.fanCh c).vec < 6 ∧ (t.fanCh c).duty = (divOpen 96 (65535 * ((s.fanCh c).f 5 1 : Nat)) 100).toNat) ∧
  -- OBSERVE_END
  (∀ (s : State) (c : Nat),
      s.fanLive c = true → (s.fanCh c).st = 1 → fanDirection (s.fanCh c).seen = some true →
      (s.fanCh c).atLeast (s.fanCh c).lastDt ((s.fanCh c).f 0x0A 2) = true →
      Does (.observeEnd c) s fun t => (t.fanCh c).caught = true ∧ (t.fanCh c).bwd = false ∧
        (t.fanCh c).st = 5 ∧ (t.fanCh c).driven = decide (s.fanTarget c ≠ 0) ∧ t.free = s.free + 2 ∧
        (s.fanTarget c = 0 → (t.fanCh c).duty = 0) ∧
        (s.fanTarget c ≠ 0 → s.fanDutyMode c = true → (t.fanCh c).duty = s.fanTarget c) ∧
        (t.fanCh c).duty ≤ s.fanDutyMax c) ∧
  -- OBSERVE_END
  (∀ (s : State) (c : Nat),
      s.fanLive c = true → ((s.fanCh c).st = 1 ∨ (s.fanCh c).st = 2 ∧ (s.fanCh c).braking = false) →
      fanDirection (s.fanCh c).seen = some false →
      Does (.observeEnd c) s fun t => (t.fanCh c).bwd = true ∧
        (t.fanCh c).st =
          (if (s.fanCh c).atLeast (s.fanCh c).lastDt ((s.fanCh c).f 0x0C 2) = true then 2 else 3) ∧
        (t.fanCh c).braking = (s.fanCh c).atLeast (s.fanCh c).lastDt ((s.fanCh c).f 0x0C 2)) ∧
  -- OBSERVE_END
  (∀ (s : State) (c : Nat),
      s.fanLive c = false ∨ (s.fanCh c).st ≠ 1 ∧ ((s.fanCh c).st ≠ 2 ∨ (s.fanCh c).braking = true) →
      exec (.observeEnd c) s = .next s) ∧
  -- BRAKE_PHASE_END
  (∀ (s : State) (c : Nat),
      s.fanLive c = true → (s.fanCh c).st = 2 → (s.fanCh c).braking = true →
      exec (.brakePhaseEnd c) s = .next (s.setFan c { s.fanCh c with braking := false, seen := [] })) ∧
  -- BRAKE_MAX_EXPIRY RAMP_TIMEOUT
  (∀ (s : State) (c : Nat) (i : Instr),
      s.fanLive c = true → (i = .brakeMaxExpiry c ∧ (s.fanCh c).st = 2 ∨ i = .rampTimeout c ∧ (s.fanCh c).st = 4) →
      Does i s fun t =>
        (t.fanCh c).braking = false ∧ (t.fanCh c).driven = false ∧ (t.fanCh c).duty = 0 ∧
        (t.fanCh c).retries = (s.fanCh c).retries ∧
        ((s.fanCh c).retries < 3 → (t.fanCh c).st = 6) ∧
        (3 ≤ (s.fanCh c).retries → (t.fanCh c).st = 7 ∧ t.regBit rFAN_STAT 0 = true ∧ t.regBit rHST_IRQ_SRC 10 = true)) ∧
  -- ALIGN_END
  (∀ (s : State) (c : Nat),
      s.fanLive c = true → (s.fanCh c).st = 3 →
      exec (.alignEnd c) s = .next (s.setFan c { s.fanCh c with st := 4, inOrder := 0, comDt := 0 })) ∧
  -- OPEN_LOOP_COMMUTATION
  (∀ (s : State) (c d : Nat),
      s.fanLive c = true → (s.fanCh c).st = 4 →
      exec (.openLoopCommutation c d) s = .next (s.setFan c {
          s.fanCh c with vec := ((s.fanCh c).vec + 1) % 6, comDt := d })) ∧
  -- BEMF_CROSSING
  (∀ (s : State) (c p : Nat) (r : Bool) (d : Nat), s.fanEn c = false → exec (.bemfCrossing c p r d) s = .next s) ∧
  -- BEMF_CROSSING
  (∀ (s : State) (c p : Nat) (r : Bool) (d : Nat),
      s.fanLive c = true → (s.fanCh c).st = 1 →
      exec (.bemfCrossing c p r d) s = .next (s.setFan c {
          s.fanCh c with
          last := some (crossingAt p r), lastDt := d, speed := (s.fanCh c).rpm d, seen := (s.fanCh c).seen ++
            [(crossingAt p r, d)] })) ∧
  -- BEMF_CROSSING
  (∀ (s : State) (c p : Nat) (r : Bool) (d n : Nat),
      s.fanLive c = true → (s.fanCh c).st = 4 →
      n = (if (s.fanCh c).last = some ((crossingAt p r + 5) % 6) ∧ 4 * (((s.fanCh c).comDt : Int) - d).natAbs ≤ d
        then (s.fanCh c).inOrder + 1 else 0) → n < 6 →
      exec (.bemfCrossing c p r d) s = .next (s.setFan c {
          s.fanCh c with
          last := some (crossingAt p r), lastDt := d, speed := (s.fanCh c).rpm d, inOrder := n })) ∧
  -- BEMF_CROSSING
  (∀ (s : State) (c p : Nat) (r : Bool) (d : Nat),
      s.fanLive c = true → (s.fanCh c).st = 4 → (s.fanCh c).last = some ((crossingAt p r + 5) % 6) →
      4 * (((s.fanCh c).comDt : Int) - d).natAbs ≤ d → 5 ≤ (s.fanCh c).inOrder →
      Does (.bemfCrossing c p r d) s fun t => (t.fanCh c).last = some (crossingAt p r) ∧ (t.fanCh c).lastDt = d ∧
        (t.fanCh c).st = 5 ∧ (t.fanCh c).driven = decide (s.fanTarget c ≠ 0) ∧ t.free = s.free + 2 ∧
        (s.fanTarget c = 0 → (t.fanCh c).duty = 0) ∧
        (s.fanTarget c ≠ 0 → s.fanDutyMode c = true → (t.fanCh c).duty = s.fanTarget c) ∧
        (t.fanCh c).duty ≤ s.fanDutyMax c) ∧
  -- BEMF_CROSSING
  (∀ (s : State) (c p : Nat) (r : Bool) (d : Nat),
      s.fanLive c = true → (s.fanCh c).st = 5 → (s.fanCh c).driven = true →
      exec (.bemfCrossing c p r d) s = .next (s.setFan c {
          s.fanCh c with
          last := some (crossingAt p r), lastDt := d, speed := (s.fanCh c).rpm d, vec := crossingAt p r
          caught := false })) ∧
  -- RETRY_WAIT_EXPIRY
  (∀ (s : State) (c : Nat),
      s.fanLive c = true → (s.fanCh c).st = 6 →
      Does (.retryWaitExpiry c) s fun t =>
        (t.fanCh c).st = 1 ∧ (t.fanCh c).start = s.fanEntry c ∧ (t.fanCh c).retries = (s.fanCh c).retries + 1 ∧ (t.fanCh c).seen = [] ∧
        (t.fanCh c).driven = false ∧ (t.fanCh c).duty = 0 ∧ (t.fanCh c).pfOff = (s.hu.pf && s.fanPfStop c) ∧
        (t.reg (rFAN_Cn_CNT_START (c % 2))).toNat = satInc (s.reg (rFAN_Cn_CNT_START (c % 2))).toNat) ∧
  -- RETRY_COUNT_RESET
  (∀ (s : State) (c : Nat),
      s.fanLive c = true → (s.fanCh c).st = 5 →
      exec (.retryCountReset c) s = .next (s.setFan c { s.fanCh c with retries := 0 })) ∧
  -- FAN_PI_STEP
  (∀ (s : State) (c : Nat),
      s.fanLive c = true → (s.fanCh c).st = 5 → (s.fanCh c).driven = true → s.fanDutyMode c = true →
      exec (.fanPiStep c) s = .next (s.setFan c { s.fanCh c with duty := s.fanTarget c })) ∧
  -- FAN_PI_STEP
  (∀ (s : State) (c : Nat) (e r : Int),
      s.fanLive c = true → (s.fanCh c).st = 5 → (s.fanCh c).driven = true → s.fanDutyMode c = false →
      e = (s.fanTarget c : Int) - (s.fanCh c).speed →
      r = divOpen 97 (1000 * (s.fanField c 0x18 2 : Nat) * e + (s.fanField c 0x1A 2 : Nat) * ((s.fanCh c).integ + e))
        1000 →
      exec (.fanPiStep c) s = .next (s.setFan c { s.fanCh c with
        duty := (clampInt 0 (s.fanDutyMax c) r).toNat
        integ := if r < 0 ∨ (s.fanDutyMax c : Int) < r then (s.fanCh c).integ else (s.fanCh c).integ + e })) ∧
  -- STALL_CROSSING_TIMEOUT STALL_SPEED_TIMEOUT
  (∀ (s : State) (c : Nat) (i : Instr),
      s.fanLive c = true → (s.fanCh c).st = 5 →
      (i = .stallCrossingTimeout c ∧ (s.fanCh c).driven = true ∨
        i = .stallSpeedTimeout c ∧ s.fanTarget c ≠ 0 ∧ (s.fanCh c).speed < s.fanField c 0x12 2) →
      Does i s fun t =>
        t.regBit rFAN_STAT 1 = true ∧
        (t.reg (rFAN_Cn_CNT_STALL (c % 2))).toNat = satInc (s.reg (rFAN_Cn_CNT_STALL (c % 2))).toNat ∧
        (t.fanCh c).braking = false ∧ (t.fanCh c).driven = false ∧ (t.fanCh c).duty = 0 ∧
        (t.fanCh c).retries = (s.fanCh c).retries ∧
        ((s.fanCh c).retries < 3 → (t.fanCh c).st = 6) ∧
        (3 ≤ (s.fanCh c).retries → (t.fanCh c).st = 7 ∧ t.regBit rFAN_STAT 0 = true ∧ t.regBit rHST_IRQ_SRC 10 = true)) ∧
  -- STALL_CROSSING_TIMEOUT STALL_SPEED_TIMEOUT
  (∀ (s : State) (c : Nat),
      ((s.fanCh c).driven = false → exec (.stallCrossingTimeout c) s = .next s) ∧
      (s.fanTarget c = 0 ∨ s.fanField c 0x12 2 ≤ (s.fanCh c).speed → exec (.stallSpeedTimeout c) s = .next s)) ∧
  -- BRAKE_PHASE_END BRAKE_MAX_EXPIRY ALIGN_END OPEN_LOOP_COMMUTATION RAMP_TIMEOUT RETRY_WAIT_EXPIRY RETRY_COUNT_RESET FAN_PI_STEP STALL_CROSSING_TIMEOUT STALL_SPEED_TIMEOUT
  (∀ (s : State) (c d n : Nat) (i : Instr),
      s.fanLive c = false ∨ (s.fanCh c).st ≠ n →
      (n, i) ∈ [(2, Instr.brakePhaseEnd c), (2, .brakeMaxExpiry c), (3, .alignEnd c), (4, .openLoopCommutation c d),
        (4, .rampTimeout c), (6, .retryWaitExpiry c), (5, .retryCountReset c), (5, .fanPiStep c),
        (5, .stallCrossingTimeout c), (5, .stallSpeedTimeout c)] →
      exec i s = .next s)

/-- A request with a free tag that names this device by its rank or by a role it holds executes, once: a READ within the
host's reach answers its words in order, each register read having its effect; a WRITE within reach puts every word of
memory in place and nothing else, and writes a register by its access type; a DOORBELL under the epoch starts an idle
context, makes a running one's start pending, or is counted; each refusal answers its status and does nothing else. A
request for another device goes there from the root, or answers UNREACH. A reused tag executes nothing and is counted, a
frame error answers tag 0xFF, an unknown frame is counted, and FETCH clocks out the oldest response, which leaves with its
tag once whole; with none ready it gives 0xFF. Where the spec leaves a point of these open, the choice is the model's (log
30, log 35). -/
def Obligations.HostRequestsComplete : Prop :=
  -- READ
  (∀ (s u : State) (q : HostReq),
      q.op = 1 → s.fresh q = true → s.ours q = true → u = s.tagged q → u.inReach q false →
      (∀ k < q.len.toNat, u.readsStill (q.addr.toNat + 4 * k)) →
      exec (.read q) s = .next (u.answered q 0x00 0
        ((List.range q.len.toNat).map fun k => u.hostWord (q.addr.toNat + 4 * k)))) ∧
  -- READ
  (∀ (s u : State) (q : HostReq),
      q.op = 1 → s.fresh q = true → s.ours q = true → u = s.tagged q → q.len = 1 → u.inReach q false →
      q.addr.toNat < 0x00100000 → (regRow q.addr.toNat).rc = true →
      exec (.read q) s = .next ((u.rcClear q.addr.toNat).respond q.tag.toNat s.trs.rank {
          status := 0x00, detail := 0, words := [u.regVal q.addr.toNat] })) ∧
  -- READ
  (∀ (s u : State) (q : HostReq),
      q.op = 1 → s.fresh q = true → s.ours q = true → u = s.tagged q → u.inReach q false →
      exec (.read q) s = .next ((u.readWords (reqAddrs q)).2.respond q.tag.toNat s.trs.rank {
          status := 0x00, detail := 0, words := (u.readWords (reqAddrs q)).1.reverse })) ∧
  -- WRITE
  (∀ (s u : State) (q : HostReq),
      q.op = 2 → s.fresh q = true → s.ours q = true → u = s.tagged q → u.inReach q true →
      0x00100000 ≤ q.addr.toNat → q.data.length = q.len.toNat →
      Does (.write q) s fun t =>
        (∀ k < q.len.toNat, t.memWord (q.addr.toNat + 4 * k) = q.data.getD k 0) ∧
        (∀ b, b < q.addr.toNat ∨ q.addr.toNat + 4 * q.len.toNat ≤ b → t.byte b = s.byte b) ∧
        t = { u.answered q 0x00 0 [] with mem := t.mem }) ∧
  -- WRITE
  (∀ (s u : State) (q : HostReq) (v : Word),
      q.op = 2 → s.fresh q = true → s.ours q = true → u = s.tagged q → q.len = 1 → q.data = [v] → u.inReach q true →
      q.addr.toNat < 0x00100000 → u.regCommand q.addr.toNat v = none →
      exec (.write q) s = .next ((u.setReg q.addr.toNat
        (((u.reg q.addr.toNat &&& ~~~(word (regRow q.addr.toNat).rw)) ||| (v &&& word (regRow q.addr.toNat).rw)) &&&
          ~~~(v &&& word (regRow q.addr.toNat).w1c))).answered q 0x00 0 [])) ∧
  -- WRITE
  (∀ (s u w : State) (q : HostReq) (v : Word),
      q.op = 2 → s.fresh q = true → s.ours q = true → u = s.tagged q → q.len = 1 → q.data = [v] → u.inReach q true →
      q.addr.toNat < 0x00100000 → u.regCommand q.addr.toNat v = some w → u.staleEpoch q.addr.toNat v = none →
      exec (.write q) s = .next (w.respond q.tag.toNat s.trs.rank { status := 0x00, detail := 0 })) ∧
  -- WRITE
  (∀ (s u w : State) (q : HostReq) (v : Word) (n : Nat),
      q.op = 2 → s.fresh q = true → s.ours q = true → u = s.tagged q → q.len = 1 → q.data = [v] → u.inReach q true →
      q.addr.toNat = rLE_CTX_CMD → 1 ≤ bits v.toNat 0 2 → n = bits (s.reg rLE_CTX_SEL).toNat 0 6 → n ≠ 0 →
      (s.ctx n).epoch ≠ bits v.toNat 16 16 →
      w = (u.setCtx n { s.ctx n with cntStale := satInc (s.ctx n).cntStale }).setBit rLE_STAT 6 →
      exec (.write q) s = .next (w.answered q 0x07 ((s.ctx n).epoch % 65536) [])) ∧
  -- READ WRITE
  (∀ (s u : State) (q : HostReq) (i : Instr),
      (q.op, i) ∈ [(1, Instr.read q), (2, .write q)] → s.fresh q = true → s.ours q = true → u = s.tagged q →
      q.len.toNat = 0 ∨ 256 < q.len.toNat → exec i s = .next (u.answered q 0x05 q.len.toNat [])) ∧
  -- READ WRITE
  (∀ (s u : State) (q : HostReq) (i : Instr),
      (q.op, i) ∈ [(1, Instr.read q), (2, .write q)] → s.fresh q = true → s.ours q = true → u = s.tagged q →
      0 < q.len.toNat → q.len.toNat ≤ 256 → q.addr.toNat % 4 ≠ 0 →
      exec i s = .next (u.answered q 0x04 q.addr.toNat [])) ∧
  -- READ WRITE
  (∀ (s u : State) (q : HostReq) (i : Instr) (n : Nat),
      (q.op, i) ∈ [(1, Instr.read q), (2, .write q)] → s.fresh q = true → s.ours q = true → u = s.tagged q →
      n < q.len.toNat → q.len.toNat ≤ 256 → q.addr.toNat % 4 = 0 → u.hostMay (q.op == 2) (q.addr.toNat + 4 * n) = false →
      (∀ k < n, u.hostMay (q.op == 2) (q.addr.toNat + 4 * k) = true) →
      exec i s = .next (u.answered q 0x03 ((q.addr.toNat + 4 * n) % 2 ^ 32) [])) ∧
  -- READ
  (∀ (s : State) (q : HostReq),
      q.op = 0 ∨ 3 < q.op → s.fresh q = true → s.ours q = true →
      exec (.read q) s = .next ((s.tagged q).answered q 0x06 q.cmd.toNat [])) ∧
  -- DOORBELL
  (∀ (s u : State) (q : HostReq) (n : Nat),
      q.op = 3 → s.fresh q = true → s.ours q = true → u = s.tagged q → q.len = 2 → n = bits q.addr.toNat 0 6 →
      s.ctxDefined n = true → ((s.desc n).getD {}).doorbell = true →
      bits (q.data.getD 0 0).toNat 0 16 = (s.ctx n).epoch % 65536 → s.le.run = true → (s.ctx n).st = .idle →
      exec (.doorbell q) s = .next ((((u.setCtx n { s.ctx n with
          st := .ready, begun := false, desc := (s.desc n).getD (s.ctx n).desc
          req := { time := s.le.cyc, reason := 2, arg := q.data.getD 1 0 } }).enqueue n).displace).respond q.tag.toNat
        s.trs.rank { status := 0x00, detail := 0 })) ∧
  -- DOORBELL
  (∀ (s u : State) (q : HostReq) (n : Nat),
      q.op = 3 → s.fresh q = true → s.ours q = true → u = s.tagged q → q.len = 2 → n = bits q.addr.toNat 0 6 →
      s.ctxDefined n = true → ((s.desc n).getD {}).doorbell = true →
      bits (q.data.getD 0 0).toNat 0 16 = (s.ctx n).epoch % 65536 → s.le.run = true →
      (s.ctx n).st = .running ∨ (s.ctx n).st = .preempted ∨ (s.ctx n).st = .waiting → (s.ctx n).disPend = false →
      (s.ctx n).pend = none →
      exec (.doorbell q) s = .next ((u.setCtx n { s.ctx n with
          pend := some { time := s.le.cyc, reason := 2, arg := q.data.getD 1 0 } }).answered q 0x00 0 [])) ∧
  -- DOORBELL
  (∀ (s : State) (q : HostReq),
      q.op = 3 → s.fresh q = true → s.ours q = true → q.len ≠ 2 →
      exec (.doorbell q) s = .next ((s.tagged q).answered q 0x05 q.len.toNat [])) ∧
  -- DOORBELL
  (∀ (s : State) (q : HostReq) (n : Nat),
      q.op = 3 → s.fresh q = true → s.ours q = true → q.len = 2 → n = bits q.addr.toNat 0 6 →
      s.ctxDefined n = false ∨ ((s.desc n).getD {}).doorbell = false →
      exec (.doorbell q) s = .next ((s.tagged q).answered q 0x08 n [])) ∧
  -- DOORBELL
  (∀ (s : State) (q : HostReq) (n : Nat),
      q.op = 3 → s.fresh q = true → s.ours q = true → q.len = 2 → n = bits q.addr.toNat 0 6 →
      s.ctxDefined n = true → ((s.desc n).getD {}).doorbell = true →
      bits (q.data.getD 0 0).toNat 0 16 ≠ (s.ctx n).epoch % 65536 →
      exec (.doorbell q) s = .next ((((s.tagged q).setCtx n { s.ctx n with cntStale := satInc (s.ctx n).cntStale }).setBit
        rLE_STAT 6).answered q 0x07 ((s.ctx n).epoch % 65536) [])) ∧
  -- READ WRITE DOORBELL
  (∀ (s : State) (q : HostReq) (i : Instr),
      (q.op, i) ∈ [(1, Instr.read q), (2, .write q), (3, .doorbell q)] → s.fresh q = true → q.byRole = true →
      s.holds q.roleNo = true → (s.role q.roleNo).epoch ≠ q.roleEpoch →
      exec i s = .next ((((s.tagged q).inc rTRS_CNT_STALE).setBit rTRS_STAT 6).answered q 0x07 (s.role q.roleNo).epoch [])) ∧
  -- READ WRITE DOORBELL
  (∀ (s u : State) (q : HostReq) (i : Instr) (r : Nat),
      (q.op, i) ∈ [(1, Instr.read q), (2, .write q), (3, .doorbell q)] → s.fresh q = true →
      q.byRole = false ∧ r = q.rank.toNat ∨
        q.byRole = true ∧ s.holds q.roleNo = false ∧ (s.role q.roleNo).assigned = true ∧ r = (s.role q.roleNo).holder →
      s.trs.enumDone = true → s.holds 3 = true → r ≠ s.trs.rank →
      u = (s.tagged q).setHost { (s.tagged q).host with remote := s.host.remote ++
        [{ req := q, rank := r, there := decide (r ≤ s.trs.found) }] } →
      Does i s fun t =>
        (s.trs.found < r → t = u) ∧
        (r ≤ s.trs.found → t = u.setTrs { s.trs with out := t.trs.out } ∧
          t.trs.out = s.trs.out ++ s.unicast r 8 0 0 q.payload ::
            (hdataFrames q.tag.toNat q.data).map fun b => s.unicast r 10 0 0 b)) ∧
  -- READ WRITE DOORBELL
  (∀ (s : State) (q : HostReq) (i : Instr),
      (q.op, i) ∈ [(1, Instr.read q), (2, .write q), (3, .doorbell q)] → s.fresh q = true →
      (q.byRole = false → s.trs.enumDone = false → q.rank ≠ 0) →
      (q.byRole = false → s.trs.enumDone = true → s.holds 3 = false ∧ q.rank.toNat ≠ s.trs.rank) →
      (q.byRole = true → s.holds q.roleNo = false ∧ (s.holds 3 = false ∨ (s.role q.roleNo).assigned = false)) →
      exec i s = .next ((s.tagged q).answered q 0x09 q.rank.toNat [])) ∧
  -- READ WRITE DOORBELL
  (∀ (s : State) (q : HostReq) (i : Instr),
      (q.op, i) ∈ [(1, Instr.read q), (2, .write q), (3, .doorbell q)] → s.hostUp = true →
      s.host.tags.contains q.tag.toNat = true →
      exec i s = .next (((s.setBit rHST_STAT 2).inc rHST_CNT_REUSE).irq 11)) ∧
  -- READ WRITE DOORBELL REQUEST_FRAME_ERROR UNKNOWN_FRAME FETCH
  (∀ (s : State) (q : HostReq) (i : Instr) (b : Bool) (g : Byte) (n : Nat),
      s.hostUp = false →
      i ∈ [Instr.read q, .write q, .doorbell q, .requestFrameError b g, .unknownFrame, .fetch n] → exec i s = .next s) ∧
  -- REQUEST_FRAME_ERROR
  (∀ (s : State) (g : Byte),
      s.hostUp = true →
      exec (.requestFrameError true g) s = .next ((((s.setBit rHST_STAT 0).inc rHST_CNT_CRC).irq 11).respond 0xFF
        s.trs.rank { status := stCrc, detail := g.toNat })) ∧
  -- REQUEST_FRAME_ERROR
  (∀ (s : State) (g : Byte),
      s.hostUp = true →
      exec (.requestFrameError false g) s = .next ((((s.setBit rHST_STAT 1).inc rHST_CNT_FRAME).irq 11).respond 0xFF
        s.trs.rank { status := stFrame, detail := g.toNat })) ∧
  -- UNKNOWN_FRAME
  (∀ s : State,
      s.hostUp = true →
      exec .unknownFrame s = .next (((s.setBit rHST_STAT 1).inc rHST_CNT_FRAME).irq 11)) ∧
  -- FETCH
  (∀ (s : State) (n : Nat),
      s.hostUp = true → s.host.queue = [] →
      exec (.fetch n) s = .next (s.setHost { s.host with out := List.replicate (min 8 n) 0xFF })) ∧
  -- FETCH
  (∀ (s : State) (n : Nat) (r : HostResp) (l : List HostResp),
      s.hostUp = true → s.host.queue = r :: l → r.bytes.length ≤ n →
      exec (.fetch n) s = .next (s.setHost { s.host with
          out := r.bytes, queue := l, tags := s.host.tags.filter (· != r.tag) })) ∧
  -- FETCH
  (∀ (s : State) (n : Nat) (r : HostResp) (l : List HostResp),
      s.hostUp = true → s.host.queue = r :: l → n < r.bytes.length →
      exec (.fetch n) s = .next (s.setHost { s.host with out := r.bytes.take n }))

/-- The holder of a request in an HREQ frame executes a READ at once and sends its HRSP and its words to the asking rank; a
WRITE or DOORBELL waits for its data, which arrive in HDATA frames, and executes once they are whole. An answer without data
completes the root's request, one with data is noted, and data complete it once all are here; an answer that nobody waits
for is counted. One that the ring holds but that does not answer ends as TIMEOUT with its flag and count, one whose rank is
absent as UNREACH. Frames of another type or for another device do nothing here. Where the spec leaves a point of these
open, the choice is the model's (log 30, log 36). -/
def Obligations.CarriedRequestsComplete : Prop :=
  -- HREQ_FRAME
  (∀ (s : State) (f : TrsFrame) (q : HostReq),
      f.type = 8 → q = reqOf f.payload → f.dst = s.trs.rank → q.op = 1 →
      (q.byRole = true → s.holds q.roleNo = true ∧ (s.role q.roleNo).epoch = q.roleEpoch) → s.inReach q false →
      (∀ k < q.len.toNat, s.readsStill (q.addr.toNat + 4 * k)) →
      Does (.hreqFrame f) s fun t =>
        t = s.setTrs { s.trs with out := t.trs.out } ∧
        t.trs.out = s.trs.out ++ s.unicast f.src 9 0 0 (leBytes 1 0 ++ leBytes 1 q.tag.toNat ++
            leBytes 2 (q.len.toNat + 1024 * s.trs.rank) ++ leBytes 4 0) ::
          (hdataFrames q.tag.toNat ((List.range q.len.toNat).map fun k => s.hostWord (q.addr.toNat + 4 * k))).map
            fun b => s.unicast f.src 10 0 1 b) ∧
  -- HREQ_FRAME
  (∀ (s : State) (f : TrsFrame) (q : HostReq),
      f.type = 8 → q = reqOf f.payload → f.dst = s.trs.rank → q.op ≠ 2 → q.op ≠ 3 →
      q.byRole = true → ¬(s.holds q.roleNo = true ∧ (s.role q.roleNo).epoch = q.roleEpoch) →
      Does (.hreqFrame f) s fun t =>
        t = ((s.inc rTRS_CNT_STALE).setBit rTRS_STAT 6).setTrs { s.trs with out := t.trs.out } ∧
        t.trs.out = s.trs.out ++ [s.unicast f.src 9 0 0 (leBytes 1 0x07 ++ leBytes 1 q.tag.toNat ++
            leBytes 2 (1024 * s.trs.rank) ++ leBytes 4 (s.role q.roleNo).epoch)]) ∧
  -- HREQ_FRAME
  (∀ (s : State) (f : TrsFrame) (q : HostReq),
      f.type = 8 → q = reqOf f.payload → f.dst = s.trs.rank → (q.op = 2 ∨ q.op = 3) → q.len.toNat ≠ 0 →
      exec (.hreqFrame f) s = .next (s.setHost { s.host with
          inbound := (s.host.inbound.filter fun x => x.src != f.src || x.req.tag != q.tag) ++ [{
            src := f.src, req := q }] })) ∧
  -- HDATA_FRAME
  (∀ (s : State) (f : TrsFrame) (x : Inbound) (l : List (Nat × Word)),
      f.type = 10 → f.dst = s.trs.rank → bit f.flg 0 = false →
      s.host.inbound.find? (fun x => x.src == f.src && x.req.tag.toNat == field f.payload 0 1) = some x →
      l = x.words ++ frameWords f.payload x.req.len.toNat → (∃ i < x.req.len.toNat, l.all fun y => y.1 != i) →
      exec (.hdataFrame f) s = .next (s.setHost { s.host with
          inbound := (s.host.inbound.filter (· != x)) ++ [{ x with words := l }] })) ∧
  -- HDATA_FRAME
  (∀ (s u : State) (f : TrsFrame) (x : Inbound) (q : HostReq) (l : List Word),
      f.type = 10 → f.dst = s.trs.rank → bit f.flg 0 = false →
      s.host.inbound.find? (fun x => x.src == f.src && x.req.tag.toNat == field f.payload 0 1) = some x →
      gathered (x.words ++ frameWords f.payload x.req.len.toNat) x.req.len.toNat = some l →
      u = s.setHost { s.host with inbound := s.host.inbound.filter (· != x) } → q = { x.req with data := l } →
      q.op = 2 → q.byRole = false → u.inReach q true → 0x00100000 ≤ q.addr.toNat →
      Does (.hdataFrame f) s fun t =>
        (∀ k < q.len.toNat, t.memWord (q.addr.toNat + 4 * k) = l.getD k 0) ∧
        (∀ b, b < q.addr.toNat ∨ q.addr.toNat + 4 * q.len.toNat ≤ b → t.byte b = s.byte b) ∧
        t = { u.setTrs { s.trs with out := s.trs.out ++ [s.unicast x.src 9 0 0 (leBytes 1 0 ++ leBytes 1 q.tag.toNat ++
          leBytes 2 (1024 * s.trs.rank) ++ leBytes 4 0)] } with mem := t.mem }) ∧
  -- HDATA_FRAME
  (∀ (s : State) (f : TrsFrame),
      f.type = 10 → f.dst = s.trs.rank → bit f.flg 0 = false →
      s.host.inbound.all (fun x => x.src != f.src || x.req.tag.toNat != field f.payload 0 1) = true →
      exec (.hdataFrame f) s = .next s) ∧
  -- HRSP_FRAME
  (∀ (s : State) (f : TrsFrame) (x : Remote),
      f.type = 9 → f.dst = s.trs.rank → s.remoteOf (field f.payload 1 1) = some x → x.head = none →
      x.rank = f.src → bits (field f.payload 2 2) 0 10 = 0 →
      exec (.hrspFrame f) s = .next (s.setHost { s.host with
        remote := s.host.remote.filter (· != x)
        queue := s.host.queue ++ [{ status := field f.payload 0 1, tag := x.req.tag.toNat, rank := x.rank,
                                    detail := field f.payload 4 4, words := [] }] })) ∧
  -- HRSP_FRAME
  (∀ (s : State) (f : TrsFrame) (x : Remote),
      f.type = 9 → f.dst = s.trs.rank → s.remoteOf (field f.payload 1 1) = some x → x.head = none →
      x.rank = f.src → bits (field f.payload 2 2) 0 10 ≠ 0 →
      exec (.hrspFrame f) s = .next (s.setHost { s.host with
        remote := s.host.remote.map fun y => if y = x then { x with
          head := some (field f.payload 0 1, field f.payload 4 4, bits (field f.payload 2 2) 0 10) } else y })) ∧
  -- HRSP_FRAME
  (∀ (s : State) (f : TrsFrame),
      f.type = 9 → f.dst = s.trs.rank →
      (∀ x, s.remoteOf (field f.payload 1 1) = some x → x.head.isSome = true ∨ x.rank ≠ f.src) →
      exec (.hrspFrame f) s = .next (s.inc rHST_CNT_LATE)) ∧
  -- HDATA_FRAME
  (∀ (s : State) (f : TrsFrame) (x : Remote) (a d n : Nat) (l : List Word),
      f.type = 10 → f.dst = s.trs.rank → bit f.flg 0 = true → s.remoteOf (field f.payload 0 1) = some x →
      x.head = some (a, d, n) → gathered (x.words ++ frameWords f.payload n) n = some l →
      exec (.hdataFrame f) s = .next (s.setHost { s.host with
        remote := s.host.remote.filter (· != x)
        queue := s.host.queue ++ [{ status := a, tag := x.req.tag.toNat, rank := x.rank, detail := d, words := l }] })) ∧
  -- HDATA_FRAME
  (∀ (s : State) (f : TrsFrame) (x : Remote) (a d n : Nat),
      f.type = 10 → f.dst = s.trs.rank → bit f.flg 0 = true → s.remoteOf (field f.payload 0 1) = some x →
      x.head = some (a, d, n) → (∃ i < n, (x.words ++ frameWords f.payload n).all fun y => y.1 != i) →
      exec (.hdataFrame f) s = .next (s.setHost { s.host with
        remote := s.host.remote.map fun y => if y = x then { x with words := x.words ++ frameWords f.payload n } else y })) ∧
  -- HREQ_FRAME HRSP_FRAME HDATA_FRAME
  (∀ (s : State) (f : TrsFrame) (n : Nat) (i : Instr),
      (n, i) ∈ [(8, Instr.hreqFrame f), (9, .hrspFrame f), (10, .hdataFrame f)] → f.type ≠ n ∨ f.dst ≠ s.trs.rank →
      exec i s = .next s) ∧
  -- REMOTE_TIMEOUT
  (∀ (s : State) (g : BitVec 6) (x : Remote),
      s.remoteOf g.toNat = some x → x.there = true →
      exec (.remoteTimeout g) s = .next (((s.setBit rHST_STAT 3).inc rHST_CNT_TOUT).setHost { s.host with
        remote := s.host.remote.filter (· != x)
        queue := s.host.queue ++ [{ status := 0x0A, tag := x.req.tag.toNat, rank := x.rank, detail := x.rank, words := [] }] })) ∧
  -- UNREACH_TIMEOUT
  (∀ (s : State) (g : BitVec 6) (x : Remote),
      s.remoteOf g.toNat = some x → x.there = false →
      exec (.unreachTimeout g) s = .next (s.setHost { s.host with
        remote := s.host.remote.filter (· != x)
        queue := s.host.queue ++ [{ status := 0x09, tag := x.req.tag.toNat, rank := x.rank, detail := x.rank, words := [] }] })) ∧
  -- REMOTE_TIMEOUT UNREACH_TIMEOUT
  (∀ (s : State) (g : BitVec 6) (b : Bool) (i : Instr),
      (b, i) ∈ [(true, Instr.remoteTimeout g), (false, .unreachTimeout g)] →
      (∀ x, s.remoteOf g.toNat = some x → x.there ≠ b) → exec i s = .next s)

/-- A write of a register that starts no command sets its RW bits, clears the W1C bits written 1 and leaves all others; a
write of a command register is that command. A read returns the register's word and clears an RC register. BYPASS, IDCODE
and SAMPLE/PRELOAD load their instruction, the sampled cells showing their balls; EXTEST becomes BYPASS while the Cabinet is
locked or a group runs, and TRST_N resets the port and nothing else. Where the spec leaves a point of these open, the choice
is the model's (log 30, log 38). -/
def Obligations.RegistersAndTestPortComplete : Prop :=
  -- REGISTER_WRITE
  (∀ (s : State) (a v : Word),
      s.regCommand a.toNat v = none →
      exec (.registerWrite a v) s = .next (s.setReg a.toNat (((s.reg a.toNat &&& ~~~(word (regRow a.toNat).rw)) |||
        (v &&& word (regRow a.toNat).rw)) &&& ~~~(v &&& word (regRow a.toNat).w1c)))) ∧
  -- REGISTER_WRITE
  (∀ (s : State) (a v : Word) (i : Instr),
      (a.toNat, i) ∈ [(rPWM_START, Instr.pwmStart (v.extractLsb' 0 8)), (rPWM_STOP, .pwmStop (v.extractLsb' 0 8)),
        (rTRP_CLR, .trpClr (v.extractLsb' 0 8)), (rETH_TXQ_DB, .txqDoorbell (v.extractLsb' 0 8)), (rANG_SRC, .angSrcWrite v),
        (rSAF_CONFIRM, .safConfirm v)] →
      exec (.registerWrite a v) s = exec i s) ∧
  -- READ_CLEAR
  (∀ (s : State) (a : Word),
      (regRow a.toNat).rc = true →
      exec (.readClear a) s = .next {
          s.rcClear a.toNat with host := { (s.rcClear a.toNat).host with data := s.regVal a.toNat } }) ∧
  -- READ_CLEAR
  (∀ (s : State) (a : Word),
      (regRow a.toNat).rc = true → a.toNat ∉ [rIMG_NOTE, rEVT_IRQ_SRC, rLIF_SPLOG, rTHM_TMAX] →
      ¬(rLE_CTX_CNT_START ≤ a.toNat ∧ a.toNat ≤ rLE_CTX_MAXEXE) → ¬(rPLB_CNT_CMP ≤ a.toNat ∧ a.toNat ≤ rPLB_CNT_HOLD) →
      ¬(0x2B040 ≤ a.toNat ∧ a.toNat < 0x2B140) →
      exec (.readClear a) s = .next { s.setReg a.toNat 0 with host := { s.host with data := s.regVal a.toNat } }) ∧
  -- READ_CLEAR
  (∀ (s : State) (a : Word),
      a.toNat < 0x00100000 → s.readsStill a.toNat →
      exec (.readClear a) s = .next (s.setHost { s.host with data := s.regVal a.toNat })) ∧
  -- READ_CLEAR
  (∀ (s : State) (a : Word),
      (regRow a.toNat).rc = false →
      exec (.readClear a) s = .next {
          s.readSnap a.toNat with host := { (s.readSnap a.toNat).host with data := s.regVal a.toNat } }) ∧
  -- JTAG_BYPASS
  (∀ s : State, exec .jtagBypass s = .next (s.setJtag { s.jtag with ir := .bypass, dr := 0 })) ∧
  -- JTAG_IDCODE
  (∀ s : State, exec .jtagIdcode s = .next (s.setJtag { s.jtag with ir := .idcode, dr := 0xA9640A6B })) ∧
  -- JTAG_SAMPLE_PRELOAD
  (∀ (s : State) (l : List (Ball × Bool)),
      Does (.jtagSamplePreload l) s fun t => t = s.setJtag t.jtag ∧ t.jtag.ir = .samplePreload ∧ t.jtag.dr = s.jtag.dr ∧
        (∀ p ∈ l, p ∈ t.jtag.preload) ∧
        (∀ p ∈ s.jtag.preload, (l.any fun q => q.1 == p.1) = false → p ∈ t.jtag.preload) ∧
        (∀ p ∈ l, ∀ v, s.ballSeen p.1 = some v → (p.1, v) ∈ t.jtag.sample)) ∧
  -- JTAG_EXTEST
  (∀ s : State,
      s.cabLocked = false → (∀ g < 8, (s.grp g).st = .stopped) →
      exec .jtagExtest s = .next (s.setJtag { s.jtag with ir := .extest })) ∧
  -- JTAG_EXTEST
  (∀ s : State,
      s.cabLocked = true ∨ (∃ g < 8, (s.grp g).st ≠ .stopped) →
      exec .jtagExtest s = .next (s.setJtag { s.jtag with ir := .extest, dr := 0 })) ∧
  -- TRST_N_ASSERT
  (∀ s : State, exec .trstNAssert s = .next (s.setJtag {}))

/-- With a command at the front of the queue, a step is that command executed on the state with the rest of the queue;
on an empty queue it is one edge of SYSCLK (the model's choice, log 1). An execution leaves the queue alone, so a step
takes exactly one command from it. -/
def Obligations.StepRunsTheFrontCommand : Prop :=
  (∀ (c : Instr) (q : List Instr) (s : State),
      step { s with pending := c :: q } = exec c { s with pending := q }) ∧
  (∀ s : State, step { s with pending := [] } = .next ({ s with pending := [] } : State).edge) ∧
  (∀ (c : Instr) (q : List Instr) (s t : State),
      step { s with pending := c :: q } = .next t → t.pending = q)

/-- From every state whose memory and register maps are in canonical form (addresses strictly rising, no entry equal
to what an unlisted one reads as), every step, whatever the command at the front or the edge of an empty queue,
answers a next state whose maps are again in that form. -/
def Obligations.EveryStepKeepsTheStateCanonical : Prop :=
  ∀ s : State, s.wf = true → ∃ t, step s = .next t ∧ t.wf = true

/-- At reset the queue is empty, memory lists nothing and is canonical, the service tier is 0, every leg group is
STOPPED, no context runs, revision A1 reads from the identification register, and every ball is high-impedance; so is
every ball in every state in reset. -/
def Obligations.ResetIsCanonicalAndHighImpedance : Prop :=
  State.reset.wf = true ∧ State.reset.pending = [] ∧ State.reset.mem = [] ∧ State.reset.tier = 0 ∧
  (∀ g, (State.reset.grp g).st = .stopped) ∧ State.reset.le.running = 0 ∧
  bits (State.reset.regVal rSYS_ID).toNat 0 8 = 0xA1 ∧
  (∀ b : Ball, State.reset.ballOut b = some .z) ∧
  (∀ (s : State) (b : Ball), s.inReset = true → s.ballOut b = some .z)

/-- Every command, in every state, answers a next state, and every component of the state that the table of frames
does not name for it (registers, memory, the image in force, fuses, each block) is unchanged in that state. -/
def Obligations.EveryCommandKeepsTheRest : Prop :=
  ∀ (c : Instr) (s : State), ∃ t, exec c s = .next t ∧ ∀ x : Comp, x ∉ touched c → x.same s t

/-- Whatever the state, a command other than BURN_COMPLETE, a host write of any register included, leaves every fuse
but the two LOCK bits as it was, and it never clears a LOCK bit that is burned. -/
def Obligations.OnlyABurnChangesTheCabinetFuses : Prop :=
  ∀ (c : Instr) (s t : State), exec c s = .next t → (∀ b, c ≠ .burnComplete b) →
    ∀ i < 1024, (i ≠ 975 → i ≠ 976 → t.fuses.getLsbD i = s.fuses.getLsbD i) ∧
      (s.fuses.getLsbD i = true → t.fuses.getLsbD i = true)

/-- Ahead of the reference by less than the window counts as future, any other value as past: angles within 2^47
cycles, carrier periods within 2^31, wall time within 2^63 seconds, each with the units of its fraction. -/
def Obligations.TimebasesCompareInTheirWindows : Prop :=
  (∀ (w ref d : Nat), 0 < w → d < 2 * w → aheadMod (2 * w) ref ((ref + d) % (2 * w)) = decide (0 < d ∧ d < w)) ∧
  (∀ (s : State) (i : Nat),
      (s.entryNow i).2 = 2 * (if s.entryTb i = 0 then 2 ^ 47 * 2 ^ 32 else if s.entryTb i = 1 then 2 ^ 31 * 2 ^ 24
        else 2 ^ 63 * 1000000000)) ∧
  (∀ (s : State) (i t : Nat),
      s.hostEntry i = true → (s.entryTb i ≠ 1 ∨ (s.grp (s.entryGroup i)).st = .running) →
      (s.armAbs i t).regBit rEVT_STAT 5 = true ∨ aheadMod (s.entryNow i).2 (s.entryNow i).1 (timeOf (s.entryTb i) t)
        = true)

/-- Every Loop Engine and Monitor instruction has a word whose fields stand where the tables put them, and that word
spells it; every 64-bit word spells a Loop Engine instruction, the one of its opcode or, where the opcode is reserved,
the one that raises ILLEGAL; a Monitor word spells an instruction unless its opcode is reserved or it writes an output
port that the table does not list. The manual's own examples and the all-zero word are among them. -/
def Obligations.ProgramWordsSpellTheirInstructions : Prop :=
  (∀ (i : Instr) (op : Byte) (w : LeWord), leParts i = some (op, w) →
      op ∈ leOpcodes ∧ (leBits op w).extractLsb' 56 8 = op ∧ leFields (leBits op w) = w ∧
      leSpells (leBits op w) i = true) ∧
  (∀ (x : BitVec 64) (ecc : Ecc), ∃ i, leSpells x i = true ∧
      (leParts i = some (x.extractLsb' 56 8, leFields x) ∨ i = .reservedOpcode (leFields x) ecc)) ∧
  (∀ (i : Instr) (op : BitVec 5) (w : MonWord), monParts i = some (op, w) →
      op.toNat < 28 ∧ (monBits op w).extractLsb' 27 5 = op ∧ monFields (monBits op w) w.ecc = w ∧
      monSpells (monBits op w) i = true) ∧
  (∀ (x : Word) (ecc : Bool), (x.extractLsb' 27 5).toNat < 28 →
      ((x.extractLsb' 27 5).toNat = 0x17 →
        let p := (x.extractLsb' 0 15).toNat
        p < 7 ∨ (0x10 ≤ p ∧ p < 0x18)) →
      ∃ i, monSpells x i = true ∧ monParts i = some (x.extractLsb' 27 5, monFields x ecc)) ∧
  (∀ ecc, leSpells 0x1018440800000000
      (.leAdd { d := 3, a := 1, b := 2, c := 0, s := true, n := false, v := false, p := false, imm := 0 } ecc) = true) ∧
  (∀ ecc, leSpells 0x6810080E00000040
      (.lePistep { d := 2, a := 0, b := 4, c := 0, s := true, n := true, v := true, p := false, imm := 0x40 } ecc) = true) ∧
  (∀ ecc, leSpells 0
      (.leNop { d := 0, a := 0, b := 0, c := 0, s := false, n := false, v := false, p := false, imm := 0 } ecc) = true)
end

