-- ==== Sys2Proof/Laws/SMap.lean ====
section
/-!
SUPPORT. The laws of the sparse map: a read after a write, at the same key and at another; every write keeps the
canonical form.
-/

namespace Sys2Proof.Machine

@[simp] theorem SMap.get_nil {α : Type} (d : Nat → α) (k : Nat) : SMap.get d [] k = d k := rfl

theorem SMap.get_filter {α : Type} (d : Nat → α) (m : SMap α) (q : Nat → Bool) (k : Nat) :
    SMap.get d (m.filter fun p => q p.1) k = if q k then SMap.get d m k else d k := by
  induction m with
  | nil => simp
  | cons p m ih =>
    obtain ⟨j, w⟩ := p
    simp only [List.filter_cons, SMap.get]
    by_cases hj : k = j
    · subst hj
      by_cases hq : q k = true <;> simp [hq, SMap.get, ih]
    · by_cases hq : q j = true <;> simp [hq, SMap.get, hj, ih]

theorem SMap.get_put_same {α : Type} (d : Nat → α) (m : SMap α) (k : Nat) (v : α) :
    SMap.get d (SMap.put m k v) k = v := by
  induction m with
  | nil => simp [SMap.put, SMap.get]
  | cons p m ih =>
    obtain ⟨j, w⟩ := p
    unfold SMap.put
    split
    · simp [SMap.get]
    · split
      · simp [SMap.get]
      · simp [SMap.get, *]

theorem SMap.get_put_ne {α : Type} (d : Nat → α) (m : SMap α) (k k' : Nat) (v : α) (hne : k' ≠ k) :
    SMap.get d (SMap.put m k v) k' = SMap.get d m k' := by
  induction m with
  | nil => simp [SMap.put, SMap.get, hne]
  | cons p m ih =>
    obtain ⟨j, w⟩ := p
    unfold SMap.put
    split
    · next h => subst h; simp [SMap.get, hne]
    · split
      · simp [SMap.get, hne]
      · simp [SMap.get, ih]

/-- Reading the written key gives the written value, in every map. -/
@[simp] theorem SMap.get_set_same {α : Type} [DecidableEq α] (d : Nat → α) (m : SMap α) (k : Nat) (v : α) :
    SMap.get d (SMap.set d m k v) k = v := by
  unfold SMap.set
  split
  · next h => rw [SMap.get_filter d m (fun j => j != k)]; simp [h]
  · exact SMap.get_put_same d m k v

/-- Reading another key gives what it gave before, in every map. -/
theorem SMap.get_set_ne {α : Type} [DecidableEq α] (d : Nat → α) (m : SMap α) (k k' : Nat) (v : α) (hne : k' ≠ k) :
    SMap.get d (SMap.set d m k v) k' = SMap.get d m k' := by
  unfold SMap.set
  split
  · rw [SMap.get_filter d m (fun j => j != k)]; simp [hne]
  · exact SMap.get_put_ne d m k k' v hne

/-- Reading any key after a write. -/
theorem SMap.get_set {α : Type} [DecidableEq α] (d : Nat → α) (m : SMap α) (k k' : Nat) (v : α) :
    SMap.get d (SMap.set d m k v) k' = if k' = k then v else SMap.get d m k' := by
  by_cases h : k' = k
  · subst h; simp
  · simp [h, SMap.get_set_ne d m k k' v h]

theorem SMap.wfFrom_mono {α : Type} [DecidableEq α] (d : Nat → α) (m : SMap α) (lo lo' : Nat) (hl : lo ≤ lo')
    (h : SMap.wfFrom d lo' m = true) : SMap.wfFrom d lo m = true := by
  cases m with
  | nil => rfl
  | cons p m =>
    obtain ⟨j, w⟩ := p
    simp only [SMap.wfFrom, Bool.and_eq_true, decide_eq_true_eq] at h ⊢
    obtain ⟨⟨h1, h2⟩, h3⟩ := h
    exact ⟨⟨by omega, h2⟩, h3⟩

theorem SMap.wfFrom_filter {α : Type} [DecidableEq α] (d : Nat → α) (m : SMap α) (lo : Nat) (p : Nat × α → Bool)
    (h : SMap.wfFrom d lo m = true) : SMap.wfFrom d lo (m.filter p) = true := by
  induction m generalizing lo with
  | nil => rfl
  | cons c m ih =>
    obtain ⟨j, w⟩ := c
    simp only [SMap.wfFrom, Bool.and_eq_true, decide_eq_true_eq] at h
    obtain ⟨⟨h1, h2⟩, hm⟩ := h
    rw [List.filter_cons]
    split
    · simp [SMap.wfFrom, h1, h2, ih (j + 1) hm]
    · exact ih lo (SMap.wfFrom_mono d m lo (j + 1) (by omega) hm)

theorem SMap.wfFrom_put {α : Type} [DecidableEq α] (d : Nat → α) (m : SMap α) (lo k : Nat) (v : α)
    (hk : lo ≤ k) (hv : v ≠ d k) (h : SMap.wfFrom d lo m = true) : SMap.wfFrom d lo (SMap.put m k v) = true := by
  induction m generalizing lo with
  | nil => simp [SMap.put, SMap.wfFrom, hk, hv]
  | cons p m ih =>
    obtain ⟨j, w⟩ := p
    simp only [SMap.wfFrom, Bool.and_eq_true, decide_eq_true_eq] at h
    obtain ⟨⟨h1, h2⟩, hm⟩ := h
    unfold SMap.put
    split
    · next hkj => subst hkj; simp [SMap.wfFrom, hk, hv, hm]
    · split
      · next h3 h4 =>
        have : k + 1 ≤ j := by omega
        simp [SMap.wfFrom, hk, hv, hm, h2, this]
      · next h3 h4 =>
        have : j + 1 ≤ k := by omega
        simp [SMap.wfFrom, h1, h2, ih (j + 1) this hm]

/-- Every write keeps the canonical form. -/
theorem SMap.wf_set {α : Type} [DecidableEq α] (d : Nat → α) (m : SMap α) (k : Nat) (v : α)
    (h : SMap.wf d m = true) : SMap.wf d (SMap.set d m k v) = true := by
  unfold SMap.set
  split
  · exact SMap.wfFrom_filter d m 0 _ h
  · next hv => exact SMap.wfFrom_put d m 0 k v (Nat.zero_le k) hv h

/-- Removing entries keeps the canonical form. -/
theorem SMap.wf_filter {α : Type} [DecidableEq α] (d : Nat → α) (m : SMap α) (p : Nat × α → Bool)
    (h : SMap.wf d m = true) : SMap.wf d (m.filter p) = true :=
  SMap.wfFrom_filter d m 0 p h

end Sys2Proof.Machine
end

