-- ==== Sys2Proof/Laws/Drive.lean ====
section
/-!
SUPPORT. The outputs, legs and groups after the shared operations of the power stage: what is driven reads as driven, and
nothing else of it moves.
-/

namespace Sys2Proof.Machine

theorem State.noteEdge_eq (s old : State) (o : Nat) : ∃ e, s.noteEdge old o = { s with pwm := { s.pwm with edgeAt := e } } := by
  unfold State.noteEdge
  split
  · exact ⟨s.pwm.edgeAt, rfl⟩
  · exact ⟨_, rfl⟩

/-- Driving an output changes that output's level and the edge times alone. -/
theorem State.setDrive_eq (s : State) (o : Nat) (x : Drive) : ∃ e,
    s.setDrive o x = { s with pwm := { s.pwm with out := SMap.set Drive.zero s.pwm.out o x, edgeAt := e } } := by
  unfold State.setDrive
  obtain ⟨e, h⟩ := State.noteEdge_eq { s with pwm := { s.pwm with out := SMap.set Drive.zero s.pwm.out o x } } s o
  simp only [h]
  cases fusePair s.cab o with
  | none => exact ⟨e, rfl⟩
  | some k =>
    obtain ⟨e', h'⟩ := State.noteEdge_eq
      { s with pwm := { s.pwm with out := SMap.set Drive.zero s.pwm.out o x, edgeAt := e } } s k
    exact ⟨e', h'⟩

@[simp] theorem State.drive_setDrive (s : State) (o p : Nat) (x : Drive) :
    (s.setDrive o x).drive p = if p = o then x else s.drive p := by
  obtain ⟨e, h⟩ := s.setDrive_eq o x
  rw [h]
  simp only [State.drive, SMap.get_set]

@[simp] theorem State.setDrive_fields (s : State) (o : Nat) (x : Drive) :
    (s.setDrive o x).pwm.group = s.pwm.group ∧ (s.setDrive o x).pwm.leg = s.pwm.leg ∧
      (s.setDrive o x).cfg = s.cfg ∧ (s.setDrive o x).cab = s.cab ∧ (s.setDrive o x).regs = s.regs ∧
      (s.setDrive o x).trp = s.trp ∧ (s.setDrive o x).clk = s.clk := by
  obtain ⟨e, h⟩ := s.setDrive_eq o x
  rw [h]
  simp

@[simp] theorem State.grp_setDrive (s : State) (o g : Nat) (x : Drive) : (s.setDrive o x).grp g = s.grp g := by
  simp [State.grp]

@[simp] theorem State.leg_setDrive (s : State) (o l : Nat) (x : Drive) : (s.setDrive o x).leg l = s.leg l := by
  simp [State.leg]

@[simp] theorem State.grp_setGrp (s : State) (g h : Nat) (x : Group) :
    (s.setGrp g x).grp h = if h = g then x else s.grp h := by
  simp only [State.grp, State.setGrp, SMap.get_set]

@[simp] theorem State.leg_setLeg (s : State) (l k : Nat) (x : Leg) :
    (s.setLeg l x).leg k = if k = l then x else s.leg k := by
  simp only [State.leg, State.setLeg, SMap.get_set]

@[simp] theorem State.setGrp_fields (s : State) (g : Nat) (x : Group) :
    (s.setGrp g x).pwm.out = s.pwm.out ∧ (s.setGrp g x).pwm.leg = s.pwm.leg ∧ (s.setGrp g x).cfg = s.cfg ∧
      (s.setGrp g x).cab = s.cab ∧ (s.setGrp g x).regs = s.regs ∧ (s.setGrp g x).trp = s.trp ∧
      (s.setGrp g x).clk = s.clk := by
  simp [State.setGrp]

@[simp] theorem State.setLeg_fields (s : State) (l : Nat) (x : Leg) :
    (s.setLeg l x).pwm.out = s.pwm.out ∧ (s.setLeg l x).pwm.group = s.pwm.group ∧ (s.setLeg l x).cfg = s.cfg ∧
      (s.setLeg l x).cab = s.cab ∧ (s.setLeg l x).regs = s.regs ∧ (s.setLeg l x).trp = s.trp ∧
      (s.setLeg l x).clk = s.clk := by
  simp [State.setLeg]

@[simp] theorem State.drive_setGrp (s : State) (g o : Nat) (x : Group) : (s.setGrp g x).drive o = s.drive o := by
  simp [State.drive]

@[simp] theorem State.drive_setLeg (s : State) (l o : Nat) (x : Leg) : (s.setLeg l x).drive o = s.drive o := by
  simp [State.drive]

@[simp] theorem State.grp_setLeg (s : State) (l g : Nat) (x : Leg) : (s.setLeg l x).grp g = s.grp g := by
  simp [State.grp]

@[simp] theorem State.leg_setGrp (s : State) (g l : Nat) (x : Group) : (s.setGrp g x).leg l = s.leg l := by
  simp [State.leg]

/-- Driving each of a list of outputs to one level. -/
theorem State.each_setDrive (x : Drive) (l : List Nat) (s : State) :
    (∀ p, (s.each l fun s o => s.setDrive o x).drive p = if p ∈ l then x else s.drive p) ∧
      (∀ g, (s.each l fun s o => s.setDrive o x).grp g = s.grp g) ∧
      (∀ k, (s.each l fun s o => s.setDrive o x).leg k = s.leg k) ∧
      (s.each l fun s o => s.setDrive o x).cfg = s.cfg ∧ (s.each l fun s o => s.setDrive o x).cab = s.cab ∧
      (s.each l fun s o => s.setDrive o x).regs = s.regs := by
  induction l generalizing s with
  | nil => simp [State.each]
  | cons o l ih =>
    have h := ih (s.setDrive o x)
    simp only [State.each, List.foldl_cons] at h ⊢
    refine ⟨fun p => ?_, fun g => ?_, fun k => ?_, ?_, ?_, ?_⟩
    · rw [h.1 p, State.drive_setDrive]
      by_cases a : p ∈ l
      · simp [a]
      · simp [a]
    · rw [h.2.1 g, State.grp_setDrive]
    · rw [h.2.2.1 k, State.leg_setDrive]
    · rw [h.2.2.2.1]; simp
    · rw [h.2.2.2.2.1]; simp
    · rw [h.2.2.2.2.2]; simp

/-- Taking each of a list of legs out of modulation. -/
theorem State.each_quietLeg (l : List Nat) (s : State) :
    (∀ k ∈ l, ((s.each l State.quietLeg).leg k).now = none ∧ ((s.each l State.quietLeg).leg k).edges = []) ∧
      (∀ k, k ∉ l → (s.each l State.quietLeg).leg k = s.leg k) ∧
      (∀ p, (s.each l State.quietLeg).drive p = s.drive p) ∧ (∀ g, (s.each l State.quietLeg).grp g = s.grp g) ∧
      (s.each l State.quietLeg).regs = s.regs := by
  induction l generalizing s with
  | nil => simp [State.each]
  | cons o l ih =>
    have h := ih (s.quietLeg o)
    simp only [State.each, List.foldl_cons] at h ⊢
    refine ⟨fun k hk => ?_, fun k hk => ?_, fun p => ?_, fun g => ?_, ?_⟩
    · by_cases a : k ∈ l
      · exact h.1 k a
      · have hk : k = o := by simpa [a] using hk
        rw [h.2.1 k a, hk]
        simp [State.quietLeg]
    · simp only [List.mem_cons, not_or] at hk
      rw [h.2.1 k hk.2]
      simp [State.quietLeg, hk.1]
    · rw [h.2.2.1 p]; simp [State.quietLeg]
    · rw [h.2.2.2.1 g]; simp [State.quietLeg]
    · rw [h.2.2.2.2]; simp [State.quietLeg]

theorem State.groupLegs_of_cfg {s t : State} (h : t.cfg = s.cfg) (g : Nat) : t.groupLegs g = s.groupLegs g := by
  simp [State.groupLegs, State.legGroup, State.legAt, State.nLeg, State.sec, h]

/-- The safe state of a group: its outputs at SAFE_LVL, its legs FREE, and every other output, leg and every group as it was. -/
theorem State.groupSafe_spec (s : State) (g : Nat) :
    (∀ p, (s.groupSafe g).drive p = if p ∈ s.groupOuts g then .safeLvl else s.drive p) ∧
      (∀ k ∈ s.groupLegs g, ((s.groupSafe g).leg k).now = none ∧ ((s.groupSafe g).leg k).edges = []) ∧
      (∀ k, k ∉ s.groupLegs g → (s.groupSafe g).leg k = s.leg k) ∧ (∀ h, (s.groupSafe g).grp h = s.grp h) ∧
      (s.groupSafe g).regs = s.regs := by
  have h := State.each_setDrive .safeLvl (s.groupOuts g) s
  unfold State.groupSafe
  have e := State.groupLegs_of_cfg h.2.2.2.1 g
  have q := State.each_quietLeg (s.groupLegs g) (s.each (s.groupOuts g) fun s o => s.setDrive o .safeLvl)
  dsimp only
  rw [e]
  exact ⟨fun p => by rw [q.2.2.1, h.1], q.1, fun k hk => by rw [q.2.1 k hk, h.2.2.1], fun g => by rw [q.2.2.2.1, h.2.1],
    by rw [q.2.2.2.2, h.2.2.2.2.2]⟩

end Sys2Proof.Machine
end

