-- ==== Sys2Proof/Laws/Keeps.lean ====
section
/-!
SUPPORT. What an operation keeps: `Keeps fr r0 s` says that `s` agrees with `r` on every component outside the mask `fr`, and
that the stored maps stay canonical. One lemma for each record update and for the primitive writes.
-/

namespace Sys2Proof.Machine

/-- `s` differs from `r` at most in the components of the mask `fr`, and is canonical when `r` is. -/
structure Keeps (fr : Nat) (r s : State) : Prop where
  agree : ∀ x : Comp, fr.testBit x.idx = false → x.same r s
  canon : r.wf = true → s.wf = true

theorem Comp.same_rfl (x : Comp) (s : State) : x.same s s := by cases x <;> rfl

theorem Comp.same_trans {x : Comp} {a b c : State} (h : x.same a b) (h' : x.same b c) : x.same a c := by
  cases x <;> exact Eq.trans h' h

theorem Keeps.rfl {fr : Nat} {s : State} : Keeps fr s s := ⟨fun x _ => x.same_rfl s, id⟩

theorem Keeps.trans {fr : Nat} {a b c : State} (h : Keeps fr a b) (h' : Keeps fr b c) : Keeps fr a c :=
  ⟨fun x hx => Comp.same_trans (h.agree x hx) (h'.agree x hx), fun w => h'.canon (h.canon w)⟩

/-- A mask that holds `m` holds every part of `m`. -/
theorem lor_sub {fr m n : Nat} (h : fr ||| m = fr) (e : m ||| n = m) : fr ||| n = fr := by
  rw [← h, Nat.or_assoc, e]

theorem bit_of {fr m i : Nat} (h : fr ||| m = fr) (e : m.testBit i = true) : fr.testBit i = true := by
  rw [← h, Nat.testBit_or, e, Bool.or_true]

theorem Keeps.mono {fr m : Nat} {a b : State} (h : Keeps m a b) (e : fr ||| m = fr) : Keeps fr a b := by
  refine ⟨fun x hx => h.agree x ?_, h.canon⟩
  cases hm : m.testBit x.idx
  · rfl
  · exact absurd (bit_of (i := x.idx) e hm) (by simp [hx])

/-- A step that agrees outside the mask and keeps the maps canonical extends a frame. -/
theorem Keeps.upd {fr m : Nat} {r0 t u : State} (h : Keeps fr r0 t) (hk : fr ||| m = fr)
    (hs : ∀ x : Comp, m.testBit x.idx = false → x.same t u) (hw : t.wf = true → u.wf = true) : Keeps fr r0 u :=
  h.trans (Keeps.mono ⟨hs, hw⟩ hk)

theorem keeps_ite {fr : Nat} {r0 a b : State} {c : Prop} [Decidable c] (ha : c → Keeps fr r0 a) (hb : ¬c → Keeps fr r0 b) :
    Keeps fr r0 (if c then a else b) := by
  split
  · exact ha ‹_›
  · exact hb ‹_›

theorem keeps_foldl {fr : Nat} {r0 t : State} {α : Type} {f : State → α → State} {l : List α}
    (h : Keeps fr r0 t) (hf : ∀ s x, Keeps fr r0 s → Keeps fr r0 (f s x)) : Keeps fr r0 (l.foldl f t) := by
  induction l generalizing t with
  | nil => exact h
  | cons x l ih => exact ih (hf t x h)

/-- An answer that is a next state within a frame. -/
structure Answers (fr : Nat) (r0 : State) (o : Out) : Prop where
  next : ∃ t, o = .next t ∧ Keeps fr r0 t

theorem answers_next {fr : Nat} {r0 t : State} (h : Keeps fr r0 t) : Answers fr r0 (.next t) := ⟨⟨t, rfl, h⟩⟩

theorem answers_ite {fr : Nat} {r0 : State} {a b : Out} {c : Prop} [Decidable c] (ha : c → Answers fr r0 a)
    (hb : ¬c → Answers fr r0 b) : Answers fr r0 (if c then a else b) := by
  split
  · exact ha ‹_›
  · exact hb ‹_›

theorem keeps_of_snd {fr : Nat} {r0 t : State} {α : Type} {p : α × State} {w : α} (e : p = (w, t))
    (h : Keeps fr r0 p.2) : Keeps fr r0 t := by
  subst e
  exact h

theorem keeps_of_fst {fr : Nat} {r0 t : State} {α : Type} {p : State × α} {w : α} (e : p = (t, w))
    (h : Keeps fr r0 p.1) : Keeps fr r0 t := by
  subst e
  exact h

theorem keeps_snd_ite {fr : Nat} {r0 : State} {α : Type} {a b : α × State} {c : Prop} [Decidable c]
    (ha : c → Keeps fr r0 a.2) (hb : ¬c → Keeps fr r0 b.2) : Keeps fr r0 (if c then a else b).2 := by
  split
  · exact ha ‹_›
  · exact hb ‹_›

theorem keeps_fst_ite {fr : Nat} {r0 : State} {α : Type} {a b : State × α} {c : Prop} [Decidable c]
    (ha : c → Keeps fr r0 a.1) (hb : ¬c → Keeps fr r0 b.1) : Keeps fr r0 (if c then a else b).1 := by
  split
  · exact ha ‹_›
  · exact hb ‹_›

/-- What a Loop Engine operation answers stays within a frame. -/
inductive ResKeeps (fr : Nat) (r0 : State) : LeRes → Prop where
  | exc {e : Exc} : ResKeeps fr r0 (.exc e)
  | ok {t : State} (h : Keeps fr r0 t) : ResKeeps fr r0 (.ok t)
  | jump {t : State} {n : Int} (h : Keeps fr r0 t) : ResKeeps fr r0 (.jump t n)
  | stay {t : State} (h : Keeps fr r0 t) : ResKeeps fr r0 (.stay t)

theorem res_ite {fr : Nat} {r0 : State} {a b : LeRes} {c : Prop} [Decidable c] (ha : c → ResKeeps fr r0 a)
    (hb : ¬c → ResKeeps fr r0 b) : ResKeeps fr r0 (if c then a else b) := by
  split
  · exact ha ‹_›
  · exact hb ‹_›

/-- A state that may be absent stays within a frame. -/
inductive OptKeeps (fr : Nat) (r0 : State) : Option State → Prop where
  | none : OptKeeps fr r0 none
  | some {t : State} (h : Keeps fr r0 t) : OptKeeps fr r0 (some t)

theorem opt_ite {fr : Nat} {r0 : State} {a b : Option State} {c : Prop} [Decidable c] (ha : c → OptKeeps fr r0 a)
    (hb : ¬c → OptKeeps fr r0 b) : OptKeeps fr r0 (if c then a else b) := by
  split
  · exact ha ‹_›
  · exact hb ‹_›

theorem OptKeeps.getD {fr : Nat} {r0 s : State} {o : Option State} (h : OptKeeps fr r0 o) (hs : Keeps fr r0 s) :
    Keeps fr r0 (o.getD s) := by
  cases h with
  | none => exact hs
  | some ht => exact ht

theorem keeps_pending {fr : Nat} {r0 t : State} {v0} (h : Keeps fr r0 t)
    (hk : fr ||| 0x1 = fr) : Keeps fr r0 { t with pending := v0 } :=
  h.upd hk (fun x hx => by cases x <;> first | rfl | exact absurd hx (by decide)) id

theorem keeps_free {fr : Nat} {r0 t : State} {v0} (h : Keeps fr r0 t)
    (hk : fr ||| 0x2 = fr) : Keeps fr r0 { t with free := v0 } :=
  h.upd hk (fun x hx => by cases x <;> first | rfl | exact absurd hx (by decide)) id

theorem keeps_cfg {fr : Nat} {r0 t : State} {v0} (h : Keeps fr r0 t)
    (hk : fr ||| 0x10 = fr) : Keeps fr r0 { t with cfg := v0 } :=
  h.upd hk (fun x hx => by cases x <;> first | rfl | exact absurd hx (by decide)) id

theorem keeps_fuses {fr : Nat} {r0 t : State} {v0} (h : Keeps fr r0 t)
    (hk : fr ||| 0x20 = fr) : Keeps fr r0 { t with fuses := v0 } :=
  h.upd hk (fun x hx => by cases x <;> first | rfl | exact absurd hx (by decide)) id

theorem keeps_cab {fr : Nat} {r0 t : State} {v0} (h : Keeps fr r0 t)
    (hk : fr ||| 0x40 = fr) : Keeps fr r0 { t with cab := v0 } :=
  h.upd hk (fun x hx => by cases x <;> first | rfl | exact absurd hx (by decide)) id

theorem keeps_cabRes {fr : Nat} {r0 t : State} {v0} (h : Keeps fr r0 t)
    (hk : fr ||| 0x80 = fr) : Keeps fr r0 { t with cabRes := v0 } :=
  h.upd hk (fun x hx => by cases x <;> first | rfl | exact absurd hx (by decide)) id

theorem keeps_tier {fr : Nat} {r0 t : State} {v0} (h : Keeps fr r0 t)
    (hk : fr ||| 0x100 = fr) : Keeps fr r0 { t with tier := v0 } :=
  h.upd hk (fun x hx => by cases x <;> first | rfl | exact absurd hx (by decide)) id

theorem keeps_inReset {fr : Nat} {r0 t : State} {v0} (h : Keeps fr r0 t)
    (hk : fr ||| 0x200 = fr) : Keeps fr r0 { t with inReset := v0 } :=
  h.upd hk (fun x hx => by cases x <;> first | rfl | exact absurd hx (by decide)) id

theorem keeps_clk {fr : Nat} {r0 t : State} {v0} (h : Keeps fr r0 t)
    (hk : fr ||| 0x400 = fr) : Keeps fr r0 { t with clk := v0 } :=
  h.upd hk (fun x hx => by cases x <;> first | rfl | exact absurd hx (by decide)) id

theorem keeps_le {fr : Nat} {r0 t : State} {v0} (h : Keeps fr r0 t)
    (hk : fr ||| 0x800 = fr) : Keeps fr r0 { t with le := v0 } :=
  h.upd hk (fun x hx => by cases x <;> first | rfl | exact absurd hx (by decide)) id

theorem keeps_ce {fr : Nat} {r0 t : State} {v0} (h : Keeps fr r0 t)
    (hk : fr ||| 0x1000 = fr) : Keeps fr r0 { t with ce := v0 } :=
  h.upd hk (fun x hx => by cases x <;> first | rfl | exact absurd hx (by decide)) id

theorem keeps_gs {fr : Nat} {r0 t : State} {v0} (h : Keeps fr r0 t)
    (hk : fr ||| 0x2000 = fr) : Keeps fr r0 { t with gs := v0 } :=
  h.upd hk (fun x hx => by cases x <;> first | rfl | exact absurd hx (by decide)) id

theorem keeps_spt {fr : Nat} {r0 t : State} {v0} (h : Keeps fr r0 t)
    (hk : fr ||| 0x4000 = fr) : Keeps fr r0 { t with spt := v0 } :=
  h.upd hk (fun x hx => by cases x <;> first | rfl | exact absurd hx (by decide)) id

theorem keeps_pwm {fr : Nat} {r0 t : State} {v0} (h : Keeps fr r0 t)
    (hk : fr ||| 0x8000 = fr) : Keeps fr r0 { t with pwm := v0 } :=
  h.upd hk (fun x hx => by cases x <;> first | rfl | exact absurd hx (by decide)) id

theorem keeps_trp {fr : Nat} {r0 t : State} {v0} (h : Keeps fr r0 t)
    (hk : fr ||| 0x10000 = fr) : Keeps fr r0 { t with trp := v0 } :=
  h.upd hk (fun x hx => by cases x <;> first | rfl | exact absurd hx (by decide)) id

theorem keeps_chp {fr : Nat} {r0 t : State} {v0} (h : Keeps fr r0 t)
    (hk : fr ||| 0x20000 = fr) : Keeps fr r0 { t with chp := v0 } :=
  h.upd hk (fun x hx => by cases x <;> first | rfl | exact absurd hx (by decide)) id

theorem keeps_adc {fr : Nat} {r0 t : State} {v0} (h : Keeps fr r0 t)
    (hk : fr ||| 0x40000 = fr) : Keeps fr r0 { t with adc := v0 } :=
  h.upd hk (fun x hx => by cases x <;> first | rfl | exact absurd hx (by decide)) id

theorem keeps_sdm {fr : Nat} {r0 t : State} {v0} (h : Keeps fr r0 t)
    (hk : fr ||| 0x80000 = fr) : Keeps fr r0 { t with sdm := v0 } :=
  h.upd hk (fun x hx => by cases x <;> first | rfl | exact absurd hx (by decide)) id

theorem keeps_cmps {fr : Nat} {r0 t : State} {v0} (h : Keeps fr r0 t)
    (hk : fr ||| 0x100000 = fr) : Keeps fr r0 { t with cmps := v0 } :=
  h.upd hk (fun x hx => by cases x <;> first | rfl | exact absurd hx (by decide)) id

theorem keeps_ang {fr : Nat} {r0 t : State} {v0} (h : Keeps fr r0 t)
    (hk : fr ||| 0x200000 = fr) : Keeps fr r0 { t with ang := v0 } :=
  h.upd hk (fun x hx => by cases x <;> first | rfl | exact absurd hx (by decide)) id

theorem keeps_evt {fr : Nat} {r0 t : State} {v0} (h : Keeps fr r0 t)
    (hk : fr ||| 0x400000 = fr) : Keeps fr r0 { t with evt := v0 } :=
  h.upd hk (fun x hx => by cases x <;> first | rfl | exact absurd hx (by decide)) id

theorem keeps_grd {fr : Nat} {r0 t : State} {v0} (h : Keeps fr r0 t)
    (hk : fr ||| 0x800000 = fr) : Keeps fr r0 { t with grd := v0 } :=
  h.upd hk (fun x hx => by cases x <;> first | rfl | exact absurd hx (by decide)) id

theorem keeps_isl {fr : Nat} {r0 t : State} {v0} (h : Keeps fr r0 t)
    (hk : fr ||| 0x1000000 = fr) : Keeps fr r0 { t with isl := v0 } :=
  h.upd hk (fun x hx => by cases x <;> first | rfl | exact absurd hx (by decide)) id

theorem keeps_lif {fr : Nat} {r0 t : State} {v0} (h : Keeps fr r0 t)
    (hk : fr ||| 0x2000000 = fr) : Keeps fr r0 { t with lif := v0 } :=
  h.upd hk (fun x hx => by cases x <;> first | rfl | exact absurd hx (by decide)) id

theorem keeps_thm {fr : Nat} {r0 t : State} {v0} (h : Keeps fr r0 t)
    (hk : fr ||| 0x4000000 = fr) : Keeps fr r0 { t with thm := v0 } :=
  h.upd hk (fun x hx => by cases x <;> first | rfl | exact absurd hx (by decide)) id

theorem keeps_mtr {fr : Nat} {r0 t : State} {v0} (h : Keeps fr r0 t)
    (hk : fr ||| 0x8000000 = fr) : Keeps fr r0 { t with mtr := v0 } :=
  h.upd hk (fun x hx => by cases x <;> first | rfl | exact absurd hx (by decide)) id

theorem keeps_recd {fr : Nat} {r0 t : State} {v0} (h : Keeps fr r0 t)
    (hk : fr ||| 0x10000000 = fr) : Keeps fr r0 { t with recd := v0 } :=
  h.upd hk (fun x hx => by cases x <;> first | rfl | exact absurd hx (by decide)) id

theorem keeps_shf {fr : Nat} {r0 t : State} {v0} (h : Keeps fr r0 t)
    (hk : fr ||| 0x20000000 = fr) : Keeps fr r0 { t with shf := v0 } :=
  h.upd hk (fun x hx => by cases x <;> first | rfl | exact absurd hx (by decide)) id

theorem keeps_trs {fr : Nat} {r0 t : State} {v0} (h : Keeps fr r0 t)
    (hk : fr ||| 0x40000000 = fr) : Keeps fr r0 { t with trs := v0 } :=
  h.upd hk (fun x hx => by cases x <;> first | rfl | exact absurd hx (by decide)) id

theorem keeps_pair {fr : Nat} {r0 t : State} {v0} (h : Keeps fr r0 t)
    (hk : fr ||| 0x80000000 = fr) : Keeps fr r0 { t with pair := v0 } :=
  h.upd hk (fun x hx => by cases x <;> first | rfl | exact absurd hx (by decide)) id

theorem keeps_mon {fr : Nat} {r0 t : State} {v0} (h : Keeps fr r0 t)
    (hk : fr ||| 0x100000000 = fr) : Keeps fr r0 { t with mon := v0 } :=
  h.upd hk (fun x hx => by cases x <;> first | rfl | exact absurd hx (by decide)) id

theorem keeps_tim {fr : Nat} {r0 t : State} {v0} (h : Keeps fr r0 t)
    (hk : fr ||| 0x200000000 = fr) : Keeps fr r0 { t with tim := v0 } :=
  h.upd hk (fun x hx => by cases x <;> first | rfl | exact absurd hx (by decide)) id

theorem keeps_eth {fr : Nat} {r0 t : State} {v0} (h : Keeps fr r0 t)
    (hk : fr ||| 0x400000000 = fr) : Keeps fr r0 { t with eth := v0 } :=
  h.upd hk (fun x hx => by cases x <;> first | rfl | exact absurd hx (by decide)) id

theorem keeps_pins {fr : Nat} {r0 t : State} {v0} (h : Keeps fr r0 t)
    (hk : fr ||| 0x800000000 = fr) : Keeps fr r0 { t with pins := v0 } :=
  h.upd hk (fun x hx => by cases x <;> first | rfl | exact absurd hx (by decide)) id

theorem keeps_img {fr : Nat} {r0 t : State} {v0} (h : Keeps fr r0 t)
    (hk : fr ||| 0x1000000000 = fr) : Keeps fr r0 { t with img := v0 } :=
  h.upd hk (fun x hx => by cases x <;> first | rfl | exact absurd hx (by decide)) id

theorem keeps_sys {fr : Nat} {r0 t : State} {v0} (h : Keeps fr r0 t)
    (hk : fr ||| 0x2000000000 = fr) : Keeps fr r0 { t with sys := v0 } :=
  h.upd hk (fun x hx => by cases x <;> first | rfl | exact absurd hx (by decide)) id

theorem keeps_hu {fr : Nat} {r0 t : State} {v0} (h : Keeps fr r0 t)
    (hk : fr ||| 0x4000000000 = fr) : Keeps fr r0 { t with hu := v0 } :=
  h.upd hk (fun x hx => by cases x <;> first | rfl | exact absurd hx (by decide)) id

theorem keeps_host {fr : Nat} {r0 t : State} {v0} (h : Keeps fr r0 t)
    (hk : fr ||| 0x8000000000 = fr) : Keeps fr r0 { t with host := v0 } :=
  h.upd hk (fun x hx => by cases x <;> first | rfl | exact absurd hx (by decide)) id

theorem keeps_jtag {fr : Nat} {r0 t : State} {v0} (h : Keeps fr r0 t)
    (hk : fr ||| 0x10000000000 = fr) : Keeps fr r0 { t with jtag := v0 } :=
  h.upd hk (fun x hx => by cases x <;> first | rfl | exact absurd hx (by decide)) id

theorem keeps_fan {fr : Nat} {r0 t : State} {v0} (h : Keeps fr r0 t)
    (hk : fr ||| 0x20000000000 = fr) : Keeps fr r0 { t with fan := v0 } :=
  h.upd hk (fun x hx => by cases x <;> first | rfl | exact absurd hx (by decide)) id

theorem keeps_spareLog {fr : Nat} {r0 t : State} {v0} (h : Keeps fr r0 t)
    (hk : fr ||| 0x40000000000 = fr) : Keeps fr r0 { t with spareLog := v0 } :=
  h.upd hk (fun x hx => by cases x <;> first | rfl | exact absurd hx (by decide)) id

theorem keeps_evq {fr : Nat} {r0 t : State} {v0} (h : Keeps fr r0 t)
    (hk : fr ||| 0x80000000000 = fr) : Keeps fr r0 { t with evq := v0 } :=
  h.upd hk (fun x hx => by cases x <;> first | rfl | exact absurd hx (by decide)) id

theorem keeps_grd_isl {fr : Nat} {r0 t : State} {v0} {v1} (h : Keeps fr r0 t)
    (hk : fr ||| 0x1800000 = fr) : Keeps fr r0 { t with grd := v0, isl := v1 } :=
  h.upd hk (fun x hx => by cases x <;> first | rfl | exact absurd hx (by decide)) id

theorem keeps_clk_le {fr : Nat} {r0 t : State} {v0} {v1} (h : Keeps fr r0 t)
    (hk : fr ||| 0xc00 = fr) : Keeps fr r0 { t with clk := v0, le := v1 } :=
  h.upd hk (fun x hx => by cases x <;> first | rfl | exact absurd hx (by decide)) id

theorem keeps_cab_cabRes_inReset {fr : Nat} {r0 t : State} {v0} {v1} {v2} (h : Keeps fr r0 t)
    (hk : fr ||| 0x2c0 = fr) : Keeps fr r0 { t with cab := v0, cabRes := v1, inReset := v2 } :=
  h.upd hk (fun x hx => by cases x <;> first | rfl | exact absurd hx (by decide)) id

theorem keeps_fuses_img {fr : Nat} {r0 t : State} {v0} {v1} (h : Keeps fr r0 t)
    (hk : fr ||| 0x1000000020 = fr) : Keeps fr r0 { t with fuses := v0, img := v1 } :=
  h.upd hk (fun x hx => by cases x <;> first | rfl | exact absurd hx (by decide)) id

theorem keeps_free_mon {fr : Nat} {r0 t : State} {v0} {v1} (h : Keeps fr r0 t)
    (hk : fr ||| 0x100000002 = fr) : Keeps fr r0 { t with free := v0, mon := v1 } :=
  h.upd hk (fun x hx => by cases x <;> first | rfl | exact absurd hx (by decide)) id

end Sys2Proof.Machine
end

