-- ==== Sys2Proof/Laws/Frame.lean ====
section
/-!
SUPPORT. From a mask to a frame: what an answer keeps, said by the components that a command may change.
-/

namespace Sys2Proof.Machine

/-- Every component that is not listed lies outside the mask. -/
def Comp.outside (m : Nat) (l : List Comp) : Bool := all.all fun x => l.contains x || !m.testBit x.idx

theorem Comp.mem_all (x : Comp) : x ∈ all := by cases x <;> decide

theorem Answers.frame {m : Nat} {l : List Comp} {s : State} {o : Out} (h : Answers m s o) (e : Comp.outside m l = true) :
    ∃ t, o = .next t ∧ (∀ x : Comp, x ∉ l → x.same s t) ∧ (s.wf = true → t.wf = true) := by
  obtain ⟨t, ht, hk⟩ := h
  refine ⟨t, ht, fun x hx => hk.agree x ?_, hk.canon⟩
  have := (List.all_eq_true.mp e) x (Comp.mem_all x)
  simpa [hx] using this

end Sys2Proof.Machine
end

