-- ==== Sys2Proof/Laws/KeepsLegs.lean ====
section
/-!
SUPPORT. What each operation of Machine/Legs.lean keeps.
-/

namespace Sys2Proof.Machine

theorem State.setGrp_keeps {fr : Nat} {r0 s : State} {g : Nat} {x : Group}
    (h : Keeps fr r0 s) (hk : fr ||| 0x8000 = fr) :
    Keeps fr r0 (State.setGrp s g x) := by
  unfold State.setGrp
  repeat' (first
    | with_reducible assumption
    | exact lor_sub hk rfl
    | extract_lets
    | (fail_if_success (with_reducible apply keeps_pending)); with_reducible apply keeps_pwm)

theorem State.setLeg_keeps {fr : Nat} {r0 s : State} {l : Nat} {x : Leg}
    (h : Keeps fr r0 s) (hk : fr ||| 0x8000 = fr) :
    Keeps fr r0 (State.setLeg s l x) := by
  unfold State.setLeg
  repeat' (first
    | with_reducible assumption
    | exact lor_sub hk rfl
    | extract_lets
    | (fail_if_success (with_reducible apply keeps_pending)); with_reducible apply keeps_pwm)

theorem State.each_keeps {fr : Nat} {r0 s : State} {l : List Nat} {f : State → Nat → State} (h : Keeps fr r0 s)
    (hk : fr ||| 0x0 = fr) (hf : ∀ s x, Keeps fr r0 s → Keeps fr r0 (f s x)) : Keeps fr r0 (State.each s l f) :=
  keeps_foldl h hf

theorem State.noteEdge_keeps {fr : Nat} {r0 s : State} {old : State} {o : Nat}
    (h : Keeps fr r0 s) (hk : fr ||| 0x8000 = fr) :
    Keeps fr r0 (State.noteEdge s old o) := by
  unfold State.noteEdge
  repeat' (first
    | with_reducible assumption
    | exact lor_sub hk rfl
    | with_reducible apply keeps_ite
    | with_reducible apply keeps_snd_ite
    | (fail_if_success (with_reducible apply keeps_pending)); with_reducible apply keeps_pwm
    | intro _
    | split
    | dsimp +zetaDelta only)

theorem State.setDrive_keeps {fr : Nat} {r0 s : State} {o : Nat} {x : Drive}
    (h : Keeps fr r0 s) (hk : fr ||| 0x8000 = fr) :
    Keeps fr r0 (State.setDrive s o x) := by
  unfold State.setDrive
  repeat' (first
    | with_reducible assumption
    | exact lor_sub hk rfl
    | extract_lets
    | with_reducible apply State.noteEdge_keeps
    | (fail_if_success (with_reducible apply keeps_pending)); with_reducible apply keeps_pwm
    | intro _
    | split
    | dsimp +zetaDelta only)

end Sys2Proof.Machine
end

