-- ==== Sys2Proof/Laws/KeepsOps.lean ====
section
/-!
SUPPORT. What each operation of Machine/Ops.lean keeps.
-/

namespace Sys2Proof.Machine

/-- A register write changes the stored registers alone, and keeps them canonical. -/
theorem State.setReg_keeps {fr : Nat} {r0 s : State} {a : Nat} {v : Word} (h : Keeps fr r0 s) (hk : fr ||| 0x4 = fr) :
    Keeps fr r0 (State.setReg s a v) := by
  refine h.upd hk (fun x hx => ?_) fun w => ?_
  · cases x <;> first | rfl | exact absurd hx (by decide)
  · simp only [State.wf, Bool.and_eq_true] at w ⊢
    exact ⟨w.1, SMap.wf_set _ _ _ _ w.2⟩

theorem State.setBit_keeps {fr : Nat} {r0 s : State} {a : Nat} {n : Nat}
    (h : Keeps fr r0 s) (hk : fr ||| 0x4 = fr) :
    Keeps fr r0 (State.setBit s a n) := by
  unfold State.setBit
  repeat' (first
    | with_reducible assumption
    | exact lor_sub hk rfl
    | with_reducible apply State.setReg_keeps)

theorem State.clrBit_keeps {fr : Nat} {r0 s : State} {a : Nat} {n : Nat}
    (h : Keeps fr r0 s) (hk : fr ||| 0x4 = fr) :
    Keeps fr r0 (State.clrBit s a n) := by
  unfold State.clrBit
  repeat' (first
    | with_reducible assumption
    | exact lor_sub hk rfl
    | with_reducible apply State.setReg_keeps)

theorem State.putBit_keeps {fr : Nat} {r0 s : State} {a : Nat} {n : Nat} {b : Bool}
    (h : Keeps fr r0 s) (hk : fr ||| 0x4 = fr) :
    Keeps fr r0 (State.putBit s a n b) := by
  unfold State.putBit
  repeat' (first
    | with_reducible assumption
    | exact lor_sub hk rfl
    | with_reducible apply State.setBit_keeps
    | with_reducible apply State.clrBit_keeps
    | with_reducible apply keeps_ite
    | intro _)

theorem State.count_keeps {fr : Nat} {r0 s : State} {a : Nat} {n : Nat}
    (h : Keeps fr r0 s) (hk : fr ||| 0x4 = fr) :
    Keeps fr r0 (State.count s a n) := by
  unfold State.count
  repeat' (first
    | with_reducible assumption
    | exact lor_sub hk rfl
    | with_reducible apply State.setReg_keeps)

theorem State.inc_keeps {fr : Nat} {r0 s : State} {a : Nat}
    (h : Keeps fr r0 s) (hk : fr ||| 0x4 = fr) :
    Keeps fr r0 (State.inc s a) := by
  unfold State.inc
  repeat' (first
    | with_reducible assumption
    | exact lor_sub hk rfl
    | with_reducible apply State.count_keeps)

theorem State.maxReg_keeps {fr : Nat} {r0 s : State} {a : Nat} {n : Nat}
    (h : Keeps fr r0 s) (hk : fr ||| 0x4 = fr) :
    Keeps fr r0 (State.maxReg s a n) := by
  unfold State.maxReg
  repeat' (first
    | with_reducible assumption
    | exact lor_sub hk rfl
    | with_reducible apply State.setReg_keeps)

theorem State.irq_keeps {fr : Nat} {r0 s : State} {n : Nat}
    (h : Keeps fr r0 s) (hk : fr ||| 0x4 = fr) :
    Keeps fr r0 (State.irq s n) := by
  unfold State.irq
  repeat' (first
    | with_reducible assumption
    | exact lor_sub hk rfl
    | with_reducible apply State.setBit_keeps)

theorem State.takeFree_keeps {fr : Nat} {r0 s : State} (h : Keeps fr r0 s) (hk : fr ||| 0x2 = fr) :
    Keeps fr r0 s.takeFree.2 := keeps_free h hk

theorem State.takeFrees_keeps {fr : Nat} {r0 s : State} {n : Nat} (h : Keeps fr r0 s) (hk : fr ||| 0x2 = fr) :
    Keeps fr r0 (s.takeFrees n).2 := keeps_free h hk

/-- A memory write changes memory alone, and keeps it canonical. -/
theorem State.setByte_keeps {fr : Nat} {r0 s : State} {a : Nat} {v : Byte} (h : Keeps fr r0 s) (hk : fr ||| 0x8 = fr) :
    Keeps fr r0 (State.setByte s a v) := by
  refine h.upd hk (fun x hx => ?_) fun w => ?_
  · cases x <;> first | rfl | exact absurd hx (by decide)
  · simp only [State.wf, Bool.and_eq_true] at w ⊢
    exact ⟨SMap.wf_set _ _ _ _ w.1, w.2⟩

theorem State.setBytes_keeps {fr : Nat} {r0 s : State} {a : Nat} {l : List Byte} (h : Keeps fr r0 s) (hk : fr ||| 0x8 = fr) :
    Keeps fr r0 (State.setBytes s a l) := by
  induction l generalizing s a with
  | nil => exact h
  | cons b l ih => exact ih (State.setByte_keeps h hk)

theorem State.setMemWord_keeps {fr : Nat} {r0 s : State} {a : Nat} {v : Word}
    (h : Keeps fr r0 s) (hk : fr ||| 0x8 = fr) :
    Keeps fr r0 (State.setMemWord s a v) := by
  unfold State.setMemWord
  repeat' (first
    | with_reducible assumption
    | exact lor_sub hk rfl
    | with_reducible apply State.setBytes_keeps)

end Sys2Proof.Machine
end

