-- ==== Sys2Proof/Laws/KeepsBase.lean ====
section
/-!
SUPPORT. What each operation of Machine/Base.lean keeps.
-/

namespace Sys2Proof.Machine

theorem State.setCtx_keeps {fr : Nat} {r0 s : State} {n : Nat} {c : Ctx}
    (h : Keeps fr r0 s) (hk : fr ||| 0x800 = fr) :
    Keeps fr r0 (State.setCtx s n c) := by
  unfold State.setCtx
  repeat' (first
    | with_reducible assumption
    | exact lor_sub hk rfl
    | extract_lets
    | (fail_if_success (with_reducible apply keeps_pending)); with_reducible apply keeps_le)

theorem State.markAll_keeps {fr : Nat} {r0 s : State} {g : Nat} {old : EvalUse} {new : EvalUse}
    (h : Keeps fr r0 s) (hk : fr ||| 0x800 = fr) :
    Keeps fr r0 (State.markAll s g old new) := by
  unfold State.markAll
  repeat' (first
    | with_reducible assumption
    | exact lor_sub hk rfl
    | with_reducible apply State.each_keeps
    | with_reducible apply State.setCtx_keeps
    | with_reducible apply keeps_ite
    | intro _)

theorem State.spoilPreds_keeps {fr : Nat} {r0 s : State} {g : Nat}
    (h : Keeps fr r0 s) (hk : fr ||| 0x800 = fr) :
    Keeps fr r0 (State.spoilPreds s g) := by
  unfold State.spoilPreds
  repeat' (first
    | with_reducible assumption
    | exact lor_sub hk rfl
    | with_reducible apply State.each_keeps
    | with_reducible apply State.setCtx_keeps
    | with_reducible apply keeps_ite
    | with_reducible apply keeps_snd_ite
    | intro _
    | split
    | dsimp +zetaDelta only)

theorem State.setEvtEntry_keeps {fr : Nat} {r0 s : State} {i : Nat} {x : EvtEntry}
    (h : Keeps fr r0 s) (hk : fr ||| 0x400000 = fr) :
    Keeps fr r0 (State.setEvtEntry s i x) := by
  unfold State.setEvtEntry
  repeat' (first
    | with_reducible assumption
    | exact lor_sub hk rfl
    | extract_lets
    | (fail_if_success (with_reducible apply keeps_pending)); with_reducible apply keeps_evt)

theorem State.armRel_keeps {fr : Nat} {r0 s : State} {i : Nat}
    (h : Keeps fr r0 s) (hk : fr ||| 0x400000 = fr) :
    Keeps fr r0 (State.armRel s i) := by
  unfold State.armRel
  repeat' (first
    | with_reducible assumption
    | exact lor_sub hk rfl
    | extract_lets
    | with_reducible apply State.setEvtEntry_keeps
    | with_reducible apply keeps_ite
    | intro _)

theorem State.carrierStopped_keeps {fr : Nat} {r0 s : State} {g : Nat}
    (h : Keeps fr r0 s) (hk : fr ||| 0x400000 = fr) :
    Keeps fr r0 (State.carrierStopped s g) := by
  unfold State.carrierStopped
  repeat' (first
    | with_reducible assumption
    | exact lor_sub hk rfl
    | with_reducible apply State.each_keeps
    | with_reducible apply State.setEvtEntry_keeps
    | with_reducible apply keeps_ite
    | intro _)

theorem State.carrierStarted_keeps {fr : Nat} {r0 s : State} {g : Nat}
    (h : Keeps fr r0 s) (hk : fr ||| 0x400000 = fr) :
    Keeps fr r0 (State.carrierStarted s g) := by
  unfold State.carrierStarted
  repeat' (first
    | with_reducible assumption
    | exact lor_sub hk rfl
    | extract_lets
    | with_reducible apply State.each_keeps
    | with_reducible apply State.setEvtEntry_keeps
    | with_reducible apply keeps_ite
    | intro _)

end Sys2Proof.Machine
end

