-- ==== Sys2Proof/Laws/KeepsPowerOps.lean ====
section
/-!
SUPPORT. What each operation of Machine/PowerOps.lean keeps.
-/

namespace Sys2Proof.Machine

theorem State.quietLeg_keeps {fr : Nat} {r0 s : State} {l : Nat}
    (h : Keeps fr r0 s) (hk : fr ||| 0x8000 = fr) :
    Keeps fr r0 (State.quietLeg s l) := by
  unfold State.quietLeg
  repeat' (first
    | with_reducible assumption
    | exact lor_sub hk rfl
    | extract_lets
    | with_reducible apply State.setLeg_keeps)

theorem State.groupSafe_keeps {fr : Nat} {r0 s : State} {g : Nat}
    (h : Keeps fr r0 s) (hk : fr ||| 0x8000 = fr) :
    Keeps fr r0 (State.groupSafe s g) := by
  unfold State.groupSafe
  repeat' (first
    | with_reducible assumption
    | exact lor_sub hk rfl
    | extract_lets
    | with_reducible apply State.each_keeps
    | with_reducible apply State.setDrive_keeps
    | with_reducible apply State.quietLeg_keeps
    | intro _)

theorem State.outerOff_keeps {fr : Nat} {r0 s : State} {outs : List Nat}
    (h : Keeps fr r0 s) (hk : fr ||| 0x8000 = fr) :
    Keeps fr r0 (State.outerOff s outs) := by
  unfold State.outerOff
  repeat' (first
    | with_reducible assumption
    | exact lor_sub hk rfl
    | with_reducible apply State.each_keeps
    | with_reducible apply State.setDrive_keeps
    | with_reducible apply keeps_ite
    | intro _)

theorem State.groupOrdered_keeps {fr : Nat} {r0 s : State} {g : Nat}
    (h : Keeps fr r0 s) (hk : fr ||| 0x8000 = fr) :
    Keeps fr r0 (State.groupOrdered s g) := by
  unfold State.groupOrdered
  repeat' (first
    | with_reducible assumption
    | exact lor_sub hk rfl
    | extract_lets
    | with_reducible apply State.outerOff_keeps
    | with_reducible apply State.each_keeps
    | with_reducible apply State.quietLeg_keeps
    | with_reducible apply State.setGrp_keeps
    | with_reducible apply keeps_ite
    | intro _)

theorem State.groupDown_keeps {fr : Nat} {r0 s : State} {g : Nat}
    (h : Keeps fr r0 s) (hk : fr ||| 0x8000 = fr) :
    Keeps fr r0 (State.groupDown s g) := by
  unfold State.groupDown
  repeat' (first
    | with_reducible assumption
    | exact lor_sub hk rfl
    | with_reducible apply State.groupOrdered_keeps
    | with_reducible apply State.groupSafe_keeps
    | with_reducible apply keeps_ite
    | intro _)

theorem State.noteRefuse_keeps {fr : Nat} {r0 s : State} {g : Nat} {r : Nat}
    (h : Keeps fr r0 s) (hk : fr ||| 0x4 = fr) :
    Keeps fr r0 (State.noteRefuse s g r) := by
  unfold State.noteRefuse
  repeat' (first
    | with_reducible assumption
    | exact lor_sub hk rfl
    | extract_lets
    | with_reducible apply State.setReg_keeps
    | intro _
    | split
    | dsimp +zetaDelta only)

theorem State.groupStop_keeps {fr : Nat} {r0 s : State} {g : Nat} {cause : Nat}
    (h : Keeps fr r0 s) (hk : fr ||| 0x408004 = fr) :
    Keeps fr r0 (State.groupStop s g cause) := by
  unfold State.groupStop
  repeat' (first
    | with_reducible assumption
    | exact lor_sub hk rfl
    | extract_lets
    | with_reducible apply State.setGrp_keeps
    | with_reducible apply State.noteRefuse_keeps
    | with_reducible apply State.carrierStopped_keeps
    | with_reducible apply State.groupDown_keeps
    | with_reducible apply keeps_ite
    | with_reducible apply keeps_snd_ite
    | intro _
    | split
    | dsimp +zetaDelta only)

theorem State.groupLoss_keeps {fr : Nat} {r0 s : State} {g : Nat} {cause : Nat} {keepStopped : Bool}
    (h : Keeps fr r0 s) (hk : fr ||| 0x408000 = fr) :
    Keeps fr r0 (State.groupLoss s g cause keepStopped) := by
  unfold State.groupLoss
  repeat' (first
    | with_reducible assumption
    | exact lor_sub hk rfl
    | extract_lets
    | with_reducible apply State.setGrp_keeps
    | with_reducible apply State.groupDown_keeps
    | with_reducible apply State.carrierStopped_keeps
    | with_reducible apply keeps_ite
    | intro _)

theorem State.groupReturn_keeps {fr : Nat} {r0 s : State} {g : Nat} {cause : Nat}
    (h : Keeps fr r0 s) (hk : fr ||| 0x8000 = fr) :
    Keeps fr r0 (State.groupReturn s g cause) := by
  unfold State.groupReturn
  repeat' (first
    | with_reducible assumption
    | exact lor_sub hk rfl
    | extract_lets
    | with_reducible apply State.setGrp_keeps
    | with_reducible apply keeps_ite
    | intro _)

theorem State.groupLossAgain_keeps {fr : Nat} {r0 s : State} {g : Nat}
    (h : Keeps fr r0 s) (hk : fr ||| 0x408000 = fr) :
    Keeps fr r0 (State.groupLossAgain s g) := by
  unfold State.groupLossAgain
  repeat' (first
    | with_reducible assumption
    | exact lor_sub hk rfl
    | extract_lets
    | with_reducible apply State.groupLoss_keeps
    | with_reducible apply keeps_ite
    | intro _)

theorem State.causeLower_keeps {fr : Nat} {r0 s : State} {src : Nat} {g : Nat} {act : Nat}
    (h : Keeps fr r0 s) (hk : fr ||| 0x4 = fr) :
    Keeps fr r0 (State.causeLower s src g act) := by
  unfold State.causeLower
  repeat' (first
    | with_reducible assumption
    | exact lor_sub hk rfl
    | extract_lets
    | with_reducible apply State.setReg_keeps
    | intro _
    | split
    | dsimp +zetaDelta only)

theorem State.tripGroup_keeps {fr : Nat} {r0 s : State} {src : Nat} {g : Nat}
    (h : Keeps fr r0 s) (hk : fr ||| 0x418804 = fr) :
    Keeps fr r0 (State.tripGroup s src g) := by
  unfold State.tripGroup
  repeat' (first
    | with_reducible assumption
    | exact lor_sub hk rfl
    | extract_lets
    | with_reducible apply State.setBit_keeps
    | with_reducible apply State.setGrp_keeps
    | with_reducible apply State.causeLower_keeps
    | with_reducible apply State.groupSafe_keeps
    | with_reducible apply State.setDrive_keeps
    | with_reducible apply State.groupOrdered_keeps
    | with_reducible apply State.setReg_keeps
    | with_reducible apply State.count_keeps
    | with_reducible apply State.irq_keeps
    | with_reducible apply State.spoilPreds_keeps
    | with_reducible apply State.carrierStopped_keeps
    | with_reducible apply keeps_ite
    | with_reducible apply keeps_snd_ite
    | with_reducible apply keeps_foldl
    | (fail_if_success (with_reducible apply keeps_pending)); with_reducible apply keeps_trp
    | intro _
    | split
    | dsimp +zetaDelta only)

theorem State.sourceOn_keeps {fr : Nat} {r0 s : State} {src : Nat}
    (h : Keeps fr r0 s) (hk : fr ||| 0x418804 = fr) :
    Keeps fr r0 (State.sourceOn s src) := by
  unfold State.sourceOn
  repeat' (first
    | with_reducible assumption
    | exact lor_sub hk rfl
    | extract_lets
    | with_reducible apply State.each_keeps
    | with_reducible apply State.tripGroup_keeps
    | (fail_if_success (with_reducible apply keeps_pending)); with_reducible apply keeps_trp
    | intro _)

theorem State.groupUntrip_keeps {fr : Nat} {r0 s : State} {g : Nat}
    (h : Keeps fr r0 s) (hk : fr ||| 0x8000 = fr) :
    Keeps fr r0 (State.groupUntrip s g) := by
  unfold State.groupUntrip
  repeat' (first
    | with_reducible assumption
    | exact lor_sub hk rfl
    | extract_lets
    | with_reducible apply State.setGrp_keeps
    | with_reducible apply State.groupSafe_keeps
    | with_reducible apply keeps_ite
    | intro _)

theorem State.sourceOff_keeps {fr : Nat} {r0 s : State} {src : Nat}
    (h : Keeps fr r0 s) (hk : fr ||| 0x18000 = fr) :
    Keeps fr r0 (State.sourceOff s src) := by
  unfold State.sourceOff
  repeat' (first
    | with_reducible assumption
    | exact lor_sub hk rfl
    | extract_lets
    | with_reducible apply State.each_keeps
    | with_reducible apply State.groupUntrip_keeps
    | with_reducible apply State.setGrp_keeps
    | (fail_if_success (with_reducible apply keeps_pending)); with_reducible apply keeps_trp
    | intro _)

theorem State.sourcePulse_keeps {fr : Nat} {r0 s : State} {src : Nat}
    (h : Keeps fr r0 s) (hk : fr ||| 0x418804 = fr) :
    Keeps fr r0 (State.sourcePulse s src) := by
  unfold State.sourcePulse
  repeat' (first
    | with_reducible assumption
    | exact lor_sub hk rfl
    | with_reducible apply State.sourceOff_keeps
    | with_reducible apply State.sourceOn_keeps)

theorem State.putSource_keeps {fr : Nat} {r0 s : State} {src : Nat} {on : Bool}
    (h : Keeps fr r0 s) (hk : fr ||| 0x418804 = fr) :
    Keeps fr r0 (State.putSource s src on) := by
  unfold State.putSource
  repeat' (first
    | with_reducible assumption
    | exact lor_sub hk rfl
    | with_reducible apply State.sourceOn_keeps
    | with_reducible apply State.sourceOff_keeps
    | with_reducible apply keeps_ite
    | intro _)

theorem State.legLocal_keeps {fr : Nat} {r0 s : State} {l : Nat}
    (h : Keeps fr r0 s) (hk : fr ||| 0x418804 = fr) :
    Keeps fr r0 (State.legLocal s l) := by
  unfold State.legLocal
  repeat' (first
    | with_reducible assumption
    | exact lor_sub hk rfl
    | extract_lets
    | with_reducible apply State.outerOff_keeps
    | with_reducible apply State.each_keeps
    | with_reducible apply State.setDrive_keeps
    | with_reducible apply State.quietLeg_keeps
    | with_reducible apply State.setLeg_keeps
    | with_reducible apply State.setBit_keeps
    | with_reducible apply State.setGrp_keeps
    | with_reducible apply State.sourcePulse_keeps
    | with_reducible apply keeps_ite
    | intro _
    | split
    | dsimp +zetaDelta only)

theorem State.fltOn_keeps {fr : Nat} {r0 s : State} {l : Nat}
    (h : Keeps fr r0 s) (hk : fr ||| 0x418804 = fr) :
    Keeps fr r0 (State.fltOn s l) := by
  unfold State.fltOn
  repeat' (first
    | with_reducible assumption
    | exact lor_sub hk rfl
    | extract_lets
    | with_reducible apply State.inc_keeps
    | with_reducible apply State.setBit_keeps
    | with_reducible apply State.sourceOn_keeps
    | with_reducible apply State.legLocal_keeps
    | with_reducible apply keeps_ite
    | intro _)

theorem State.fltOff_keeps {fr : Nat} {r0 s : State} {l : Nat}
    (h : Keeps fr r0 s) (hk : fr ||| 0x18000 = fr) :
    Keeps fr r0 (State.fltOff s l) := by
  unfold State.fltOff
  repeat' (first
    | with_reducible assumption
    | exact lor_sub hk rfl
    | extract_lets
    | with_reducible apply State.sourceOff_keeps
    | with_reducible apply State.setLeg_keeps
    | with_reducible apply keeps_ite
    | intro _)

end Sys2Proof.Machine
end

