-- ==== Sys2Proof/Laws/KeepsChopper.lean ====
section
/-!
SUPPORT. What each operation of Machine/Chopper.lean keeps.
-/

namespace Sys2Proof.Machine

theorem State.chpOff_keeps {fr : Nat} {r0 s : State}
    (h : Keeps fr r0 s) (hk : fr ||| 0x8000 = fr) :
    Keeps fr r0 (State.chpOff s) := by
  unfold State.chpOff
  repeat' (first
    | with_reducible assumption
    | exact lor_sub hk rfl
    | extract_lets
    | with_reducible apply State.setDrive_keeps
    | with_reducible apply State.setLeg_keeps
    | with_reducible apply keeps_ite
    | with_reducible apply keeps_snd_ite
    | intro _
    | split
    | dsimp +zetaDelta only)

theorem State.chpFault_keeps {fr : Nat} {r0 s : State} {k : ChpKind}
    (h : Keeps fr r0 s) (hk : fr ||| 0x438804 = fr) :
    Keeps fr r0 (State.chpFault s k) := by
  unfold State.chpFault
  repeat' (first
    | with_reducible assumption
    | exact lor_sub hk rfl
    | extract_lets
    | with_reducible apply State.chpOff_keeps
    | with_reducible apply State.sourceOn_keeps
    | (fail_if_success (with_reducible apply keeps_pending)); with_reducible apply keeps_chp
    | intro _
    | split
    | dsimp +zetaDelta only)

theorem State.chpPeriod_keeps {fr : Nat} {r0 s : State}
    (h : Keeps fr r0 s) (hk : fr ||| 0x20004 = fr) :
    Keeps fr r0 (State.chpPeriod s) := by
  unfold State.chpPeriod
  repeat' (first
    | with_reducible assumption
    | exact lor_sub hk rfl
    | extract_lets
    | with_reducible apply State.setBit_keeps
    | with_reducible apply State.inc_keeps
    | with_reducible apply keeps_ite
    | (fail_if_success (with_reducible apply keeps_pending)); with_reducible apply keeps_chp
    | intro _)

theorem State.chpCurrent_keeps {fr : Nat} {r0 s : State} {i : Int} {at16 : Int}
    (h : Keeps fr r0 s) (hk : fr ||| 0x438804 = fr) :
    Keeps fr r0 (State.chpCurrent s i at16) := by
  unfold State.chpCurrent
  repeat' (first
    | with_reducible assumption
    | exact lor_sub hk rfl
    | extract_lets
    | with_reducible apply State.inc_keeps
    | with_reducible apply State.chpFault_keeps
    | with_reducible apply keeps_ite
    | (fail_if_success (with_reducible apply keeps_pending)); with_reducible apply keeps_chp
    | intro _)

theorem State.chpDroop_keeps {fr : Nat} {r0 s : State} {v : Int}
    (h : Keeps fr r0 s) (hk : fr ||| 0x438804 = fr) :
    Keeps fr r0 (State.chpDroop s v) := by
  unfold State.chpDroop
  repeat' (first
    | with_reducible assumption
    | exact lor_sub hk rfl
    | extract_lets
    | with_reducible apply State.chpFault_keeps
    | with_reducible apply State.inc_keeps
    | with_reducible apply keeps_ite
    | (fail_if_success (with_reducible apply keeps_pending)); with_reducible apply keeps_chp
    | intro _)

theorem State.dcov2Go_keeps {fr : Nat} {r0 s : State} {a1 : Nat}
    (h : Keeps fr r0 s) (hk : fr ||| 0x428004 = fr) :
    Keeps fr r0 (State.dcov2Go s a1) := by
  induction a1 generalizing s with
  | zero => exact keeps_chp h (lor_sub hk rfl)
  | succ n ih =>
    unfold State.dcov2Go
    split
    · exact h
    · split
      · exact keeps_chp h (lor_sub hk rfl)
      · extract_lets x t
        have ht : Keeps fr r0 t := keeps_chp h (lor_sub hk rfl)
        split
        · exact State.groupStop_keeps ht (lor_sub hk rfl)
        · exact ih ht

theorem State.dcov2Start_keeps {fr : Nat} {r0 s : State}
    (h : Keeps fr r0 s) (hk : fr ||| 0x428004 = fr) :
    Keeps fr r0 (State.dcov2Start s) := by
  unfold State.dcov2Start
  repeat' (first
    | with_reducible assumption
    | exact lor_sub hk rfl
    | extract_lets
    | with_reducible apply State.inc_keeps
    | with_reducible apply State.dcov2Go_keeps
    | with_reducible apply keeps_ite
    | (fail_if_success (with_reducible apply keeps_pending)); with_reducible apply keeps_chp
    | intro _)

end Sys2Proof.Machine
end

