-- ==== Sys2Proof/Laws/KeepsLeCore.lean ====
section
/-!
SUPPORT. What each operation of Machine/LeCore.lean keeps.
-/

namespace Sys2Proof.Machine

theorem State.setTrcBuf_keeps {fr : Nat} {r0 s : State} {u : Nat} {l : List (List Byte)}
    (h : Keeps fr r0 s) (hk : fr ||| 0x800 = fr) :
    Keeps fr r0 (State.setTrcBuf s u l) := by
  unfold State.setTrcBuf
  repeat' (first
    | with_reducible assumption
    | exact lor_sub hk rfl
    | (fail_if_success (with_reducible apply keeps_pending)); with_reducible apply keeps_le
    | intro _
    | split
    | dsimp +zetaDelta only)

theorem State.traceDrop_keeps {fr : Nat} {r0 s : State} {u : Nat}
    (h : Keeps fr r0 s) (hk : fr ||| 0x4 = fr) :
    Keeps fr r0 (State.traceDrop s u) := by
  unfold State.traceDrop
  repeat' (first
    | with_reducible assumption
    | exact lor_sub hk rfl
    | with_reducible apply State.inc_keeps
    | with_reducible apply State.setBit_keeps
    | intro _
    | split
    | dsimp +zetaDelta only)

theorem State.traceUnit_keeps {fr : Nat} {r0 s : State} {u : Nat} {kind : Nat} {ctx : Nat} {pc : Nat} {data : List Byte}
    (h : Keeps fr r0 s) (hk : fr ||| 0x804 = fr) :
    Keeps fr r0 (State.traceUnit s u kind ctx pc data) := by
  unfold State.traceUnit
  repeat' (first
    | with_reducible assumption
    | exact lor_sub hk rfl
    | with_reducible apply State.traceDrop_keeps
    | with_reducible apply State.setTrcBuf_keeps
    | with_reducible apply keeps_ite
    | with_reducible apply keeps_snd_ite
    | intro _
    | split
    | dsimp +zetaDelta only)

theorem State.traceDrain_keeps {fr : Nat} {r0 s : State} {u : Nat}
    (h : Keeps fr r0 s) (hk : fr ||| 0x80c = fr) :
    Keeps fr r0 (State.traceDrain s u) := by
  unfold State.traceDrain
  repeat' (first
    | with_reducible assumption
    | exact lor_sub hk rfl
    | extract_lets
    | with_reducible apply State.setTrcBuf_keeps
    | with_reducible apply State.traceDrop_keeps
    | with_reducible apply State.setBytes_keeps
    | with_reducible apply State.setReg_keeps
    | with_reducible apply keeps_ite
    | with_reducible apply keeps_snd_ite
    | (fail_if_success (with_reducible apply keeps_pending)); with_reducible apply keeps_le
    | intro _
    | split
    | dsimp +zetaDelta only)

theorem State.traceDrains_keeps {fr : Nat} {r0 s : State}
    (h : Keeps fr r0 s) (hk : fr ||| 0x80e = fr) :
    Keeps fr r0 (State.traceDrains s) := by
  unfold State.traceDrains
  repeat' (first
    | with_reducible assumption
    | exact lor_sub hk rfl
    | extract_lets
    | with_reducible apply State.takeFree_keeps
    | with_reducible apply State.each_keeps
    | with_reducible apply State.traceDrain_keeps
    | with_reducible apply keeps_ite
    | with_reducible apply keeps_snd_ite
    | with_reducible refine keeps_of_snd (by assumption) ?_
    | intro _
    | split
    | dsimp +zetaDelta only)

theorem State.traceCommit_keeps {fr : Nat} {r0 s : State} {old : List Byte}
    (h : Keeps fr r0 s) (hk : fr ||| 0x804 = fr) :
    Keeps fr r0 (State.traceCommit s old) := by
  unfold State.traceCommit
  repeat' (first
    | with_reducible assumption
    | exact lor_sub hk rfl
    | extract_lets
    | with_reducible apply State.each_keeps
    | with_reducible apply State.setReg_keeps
    | (fail_if_success (with_reducible apply keeps_pending)); with_reducible apply keeps_le
    | intro _
    | split
    | dsimp +zetaDelta only)

theorem State.trace_keeps {fr : Nat} {r0 s : State} {n : Nat} {kind : Nat} {data : List Byte}
    (h : Keeps fr r0 s) (hk : fr ||| 0x804 = fr) :
    Keeps fr r0 (State.trace s n kind data) := by
  unfold State.trace
  repeat' (first
    | with_reducible assumption
    | exact lor_sub hk rfl
    | extract_lets
    | with_reducible apply State.traceUnit_keeps
    | with_reducible apply keeps_ite
    | intro _)

theorem State.stageWord_keeps {fr : Nat} {r0 s : State} {g : Nat} {i : Nat} {v : Word}
    (h : Keeps fr r0 s) (hk : fr ||| 0x8000 = fr) :
    Keeps fr r0 (State.stageWord s g i v) := by
  unfold State.stageWord
  repeat' (first
    | with_reducible assumption
    | exact lor_sub hk rfl
    | extract_lets
    | with_reducible apply State.setGrp_keeps
    | with_reducible apply keeps_ite
    | intro _)

theorem State.unstage_keeps {fr : Nat} {r0 s : State} {g : Nat}
    (h : Keeps fr r0 s) (hk : fr ||| 0x8000 = fr) :
    Keeps fr r0 (State.unstage s g) := by
  unfold State.unstage
  repeat' (first
    | with_reducible assumption
    | exact lor_sub hk rfl
    | extract_lets
    | with_reducible apply State.setGrp_keeps)

theorem State.sealGroup_keeps {fr : Nat} {r0 s : State} {n : Nat} {g : Nat}
    (h : Keeps fr r0 s) (hk : fr ||| 0x8804 = fr) :
    Keeps fr r0 (State.sealGroup s n g) := by
  unfold State.sealGroup
  repeat' (first
    | with_reducible assumption
    | exact lor_sub hk rfl
    | extract_lets
    | with_reducible apply State.setCtx_keeps
    | with_reducible apply State.setGrp_keeps
    | with_reducible apply State.inc_keeps
    | with_reducible apply State.setBit_keeps
    | with_reducible apply keeps_ite
    | with_reducible apply keeps_snd_ite
    | intro _
    | split
    | dsimp +zetaDelta only)

theorem State.unstageAll_keeps {fr : Nat} {r0 s : State} {n : Nat}
    (h : Keeps fr r0 s) (hk : fr ||| 0x8800 = fr) :
    Keeps fr r0 (State.unstageAll s n) := by
  unfold State.unstageAll
  repeat' (first
    | with_reducible assumption
    | exact lor_sub hk rfl
    | extract_lets
    | with_reducible apply State.each_keeps
    | with_reducible apply State.setCtx_keeps
    | with_reducible apply State.unstage_keeps
    | intro _)

theorem State.setCtxBit_keeps {fr : Nat} {r0 s : State} {rLo : Nat} {rHi : Nat} {n : Nat}
    (h : Keeps fr r0 s) (hk : fr ||| 0x4 = fr) :
    Keeps fr r0 (State.setCtxBit s rLo rHi n) := by
  unfold State.setCtxBit
  repeat' (first
    | with_reducible assumption
    | exact lor_sub hk rfl
    | with_reducible apply State.setBit_keeps
    | with_reducible apply keeps_ite
    | intro _)

theorem State.enqueue_keeps {fr : Nat} {r0 s : State} {n : Nat}
    (h : Keeps fr r0 s) (hk : fr ||| 0x800 = fr) :
    Keeps fr r0 (State.enqueue s n) := by
  unfold State.enqueue
  repeat' (first
    | with_reducible assumption
    | exact lor_sub hk rfl
    | extract_lets
    | (fail_if_success (with_reducible apply keeps_pending)); with_reducible apply keeps_le)

theorem State.dequeue_keeps {fr : Nat} {r0 s : State} {n : Nat}
    (h : Keeps fr r0 s) (hk : fr ||| 0x800 = fr) :
    Keeps fr r0 (State.dequeue s n) := by
  unfold State.dequeue
  repeat' (first
    | with_reducible assumption
    | exact lor_sub hk rfl
    | extract_lets
    | (fail_if_success (with_reducible apply keeps_pending)); with_reducible apply keeps_le)

theorem State.dropLanes_keeps {fr : Nat} {r0 s : State}
    (h : Keeps fr r0 s) (hk : fr ||| 0x800 = fr) :
    Keeps fr r0 (State.dropLanes s) := by
  unfold State.dropLanes
  repeat' (first
    | with_reducible assumption
    | exact lor_sub hk rfl
    | extract_lets
    | with_reducible apply State.setCtx_keeps
    | with_reducible apply keeps_ite
    | (fail_if_success (with_reducible apply keeps_pending)); with_reducible apply keeps_le
    | intro _)

theorem State.displace_keeps {fr : Nat} {r0 s : State}
    (h : Keeps fr r0 s) (hk : fr ||| 0x804 = fr) :
    Keeps fr r0 (State.displace s) := by
  unfold State.displace
  repeat' (first
    | with_reducible assumption
    | exact lor_sub hk rfl
    | extract_lets
    | with_reducible apply State.trace_keeps
    | with_reducible apply State.dropLanes_keeps
    | with_reducible apply State.setCtx_keeps
    | with_reducible apply keeps_ite
    | (fail_if_success (with_reducible apply keeps_pending)); with_reducible apply keeps_le
    | intro _
    | split
    | dsimp +zetaDelta only)

theorem State.overrun_keeps {fr : Nat} {r0 s : State} {n : Nat}
    (h : Keeps fr r0 s) (hk : fr ||| 0x804 = fr) :
    Keeps fr r0 (State.overrun s n) := by
  unfold State.overrun
  repeat' (first
    | with_reducible assumption
    | exact lor_sub hk rfl
    | extract_lets
    | with_reducible apply State.setBit_keeps
    | with_reducible apply State.setCtx_keeps)

theorem State.request_keeps {fr : Nat} {r0 s : State} {n : Nat} {reason : Nat} {arg : Word}
    (h : Keeps fr r0 s) (hk : fr ||| 0x804 = fr) :
    Keeps fr r0 (State.request s n reason arg).1 := by
  unfold State.request
  repeat' (first
    | with_reducible assumption
    | exact lor_sub hk rfl
    | extract_lets
    | with_reducible apply State.overrun_keeps
    | with_reducible apply State.displace_keeps
    | with_reducible apply State.enqueue_keeps
    | with_reducible apply State.setCtx_keeps
    | with_reducible apply keeps_ite
    | with_reducible apply keeps_fst_ite
    | intro _
    | split
    | dsimp +zetaDelta only)

theorem State.afterRun_keeps {fr : Nat} {r0 s : State} {n : Nat}
    (h : Keeps fr r0 s) (hk : fr ||| 0x800 = fr) :
    Keeps fr r0 (State.afterRun s n) := by
  unfold State.afterRun
  repeat' (first
    | with_reducible assumption
    | exact lor_sub hk rfl
    | extract_lets
    | with_reducible apply State.setCtx_keeps
    | with_reducible apply State.enqueue_keeps
    | with_reducible apply keeps_ite
    | intro _
    | split
    | dsimp +zetaDelta only)

theorem State.discardEvals_keeps {fr : Nat} {r0 s : State} {n : Nat}
    (h : Keeps fr r0 s) (hk : fr ||| 0x1000 = fr) :
    Keeps fr r0 (State.discardEvals s n) := by
  unfold State.discardEvals
  repeat' (first
    | with_reducible assumption
    | exact lor_sub hk rfl
    | extract_lets
    | with_reducible apply keeps_ite
    | (fail_if_success (with_reducible apply keeps_pending)); with_reducible apply keeps_ce
    | intro _)

theorem State.endRun_keeps {fr : Nat} {r0 s : State} {n : Nat}
    (h : Keeps fr r0 s) (hk : fr ||| 0x9804 = fr) :
    Keeps fr r0 (State.endRun s n) := by
  unfold State.endRun
  repeat' (first
    | with_reducible assumption
    | exact lor_sub hk rfl
    | extract_lets
    | with_reducible apply State.dropLanes_keeps
    | with_reducible apply State.dequeue_keeps
    | with_reducible apply State.trace_keeps
    | with_reducible apply State.unstageAll_keeps
    | with_reducible apply State.discardEvals_keeps
    | with_reducible apply State.setCtx_keeps
    | with_reducible apply State.displace_keeps
    | with_reducible apply State.afterRun_keeps
    | with_reducible apply keeps_ite
    | intro _)

theorem State.leFault_keeps {fr : Nat} {r0 s : State} {groups : Nat} {pulse : Bool}
    (h : Keeps fr r0 s) (hk : fr ||| 0x418804 = fr) :
    Keeps fr r0 (State.leFault s groups pulse) := by
  unfold State.leFault
  repeat' (first
    | with_reducible assumption
    | exact lor_sub hk rfl
    | with_reducible apply State.each_keeps
    | with_reducible apply State.sourcePulse_keeps
    | with_reducible apply State.sourceOn_keeps
    | with_reducible apply keeps_ite
    | intro _)

theorem State.leFaultRefresh_keeps {fr : Nat} {r0 s : State}
    (h : Keeps fr r0 s) (hk : fr ||| 0x18000 = fr) :
    Keeps fr r0 (State.leFaultRefresh s) := by
  unfold State.leFaultRefresh
  repeat' (first
    | with_reducible assumption
    | exact lor_sub hk rfl
    | extract_lets
    | with_reducible apply State.each_keeps
    | with_reducible apply State.sourceOff_keeps
    | with_reducible apply keeps_ite
    | intro _)

theorem State.raise_keeps {fr : Nat} {r0 s : State} {n : Nat} {e : Exc}
    (h : Keeps fr r0 s) (hk : fr ||| 0x419804 = fr) :
    Keeps fr r0 (State.raise s n e) := by
  unfold State.raise
  repeat' (first
    | with_reducible assumption
    | exact lor_sub hk rfl
    | extract_lets
    | with_reducible apply State.trace_keeps
    | with_reducible apply State.dropLanes_keeps
    | with_reducible apply State.unstageAll_keeps
    | with_reducible apply State.discardEvals_keeps
    | with_reducible apply State.setCtx_keeps
    | with_reducible apply State.setBit_keeps
    | with_reducible apply State.leFault_keeps
    | with_reducible apply keeps_ite
    | intro _)

end Sys2Proof.Machine
end

