-- ==== Sys2Proof/Laws/KeepsLogs.lean ====
section
/-!
SUPPORT. What each operation of Machine/Logs.lean keeps.
-/

namespace Sys2Proof.Machine

theorem State.event_keeps {fr : Nat} {r0 s : State} {payload : List Byte}
    (h : Keeps fr r0 s) (hk : fr ||| 0x80000000004 = fr) :
    Keeps fr r0 (State.event s payload) := by
  unfold State.event
  repeat' (first
    | with_reducible assumption
    | exact lor_sub hk rfl
    | with_reducible apply State.inc_keeps
    | with_reducible apply keeps_ite
    | (fail_if_success (with_reducible apply keeps_pending)); with_reducible apply keeps_evq
    | intro _)

theorem State.spstat_keeps {fr : Nat} {r0 s : State} {n : Nat}
    (h : Keeps fr r0 s) (hk : fr ||| 0x4 = fr) :
    Keeps fr r0 (State.spstat s n) := by
  unfold State.spstat
  repeat' (first
    | with_reducible assumption
    | exact lor_sub hk rfl
    | with_reducible apply State.irq_keeps
    | with_reducible apply State.setBit_keeps
    | with_reducible apply keeps_ite
    | intro _)

theorem State.spareEntry_keeps {fr : Nat} {r0 s : State} {cls : Nat} {act : Nat} {res : Nat} {detail : Nat} {used : Nat} {left : Nat}
    (h : Keeps fr r0 s) (hk : fr ||| 0xc0000000004 = fr) :
    Keeps fr r0 (State.spareEntry s cls act res detail used left) := by
  unfold State.spareEntry
  repeat' (first
    | with_reducible assumption
    | exact lor_sub hk rfl
    | extract_lets
    | with_reducible apply State.spstat_keeps
    | with_reducible apply State.event_keeps
    | with_reducible apply keeps_ite
    | with_reducible apply keeps_snd_ite
    | (fail_if_success (with_reducible apply keeps_pending)); with_reducible apply keeps_spareLog
    | intro _
    | split
    | dsimp +zetaDelta only)

theorem State.spareUsed_keeps {fr : Nat} {r0 s : State} {cls : Nat} {res : Nat} {detail : Nat} {used : Nat} {left : Nat}
    (h : Keeps fr r0 s) (hk : fr ||| 0xc0000000004 = fr) :
    Keeps fr r0 (State.spareUsed s cls res detail used left) := by
  unfold State.spareUsed
  repeat' (first
    | with_reducible assumption
    | exact lor_sub hk rfl
    | with_reducible apply State.spareEntry_keeps
    | with_reducible apply State.spstat_keeps)

theorem State.spareExhausted_keeps {fr : Nat} {r0 s : State} {bitNo : Nat} {cls : Nat} {res : Nat} {detail : Nat} {used : Nat}
    (h : Keeps fr r0 s) (hk : fr ||| 0xc0000000004 = fr) :
    Keeps fr r0 (State.spareExhausted s bitNo cls res detail used) := by
  unfold State.spareExhausted
  repeat' (first
    | with_reducible assumption
    | exact lor_sub hk rfl
    | with_reducible apply State.spareEntry_keeps
    | with_reducible apply State.spstat_keeps)

end Sys2Proof.Machine
end

