-- ==== Sys2Proof/Laws/KeepsAdc.lean ====
section
/-!
SUPPORT. What each operation of Machine/Adc.lean keeps.
-/

namespace Sys2Proof.Machine

theorem State.setConv_keeps {fr : Nat} {r0 s : State} {c : Nat} {x : Conv}
    (h : Keeps fr r0 s) (hk : fr ||| 0x40000 = fr) :
    Keeps fr r0 (State.setConv s c x) := by
  unfold State.setConv
  repeat' (first
    | with_reducible assumption
    | exact lor_sub hk rfl
    | extract_lets
    | (fail_if_success (with_reducible apply keeps_pending)); with_reducible apply keeps_adc)

theorem State.setPhys_keeps {fr : Nat} {r0 s : State} {p : Nat} {x : PhysConv}
    (h : Keeps fr r0 s) (hk : fr ||| 0x40000 = fr) :
    Keeps fr r0 (State.setPhys s p x) := by
  unfold State.setPhys
  repeat' (first
    | with_reducible assumption
    | exact lor_sub hk rfl
    | extract_lets
    | (fail_if_success (with_reducible apply keeps_pending)); with_reducible apply keeps_adc)

theorem State.setXpair_keeps {fr : Nat} {r0 s : State} {i : Nat} {x : XPair}
    (h : Keeps fr r0 s) (hk : fr ||| 0x40000 = fr) :
    Keeps fr r0 (State.setXpair s i x) := by
  unfold State.setXpair
  repeat' (first
    | with_reducible assumption
    | exact lor_sub hk rfl
    | extract_lets
    | (fail_if_success (with_reducible apply keeps_pending)); with_reducible apply keeps_adc)

theorem State.setAdcMap_keeps {fr : Nat} {r0 s : State} {c : Nat} {p : Nat}
    (h : Keeps fr r0 s) (hk : fr ||| 0x40000 = fr) :
    Keeps fr r0 (State.setAdcMap s c p) := by
  unfold State.setAdcMap
  repeat' (first
    | with_reducible assumption
    | exact lor_sub hk rfl
    | extract_lets
    | (fail_if_success (with_reducible apply keeps_pending)); with_reducible apply keeps_adc)

theorem State.setResult_keeps {fr : Nat} {r0 s : State} {i : Nat} {w : Word}
    (h : Keeps fr r0 s) (hk : fr ||| 0x40000 = fr) :
    Keeps fr r0 (State.setResult s i w) := by
  unfold State.setResult
  repeat' (first
    | with_reducible assumption
    | exact lor_sub hk rfl
    | extract_lets
    | (fail_if_success (with_reducible apply keeps_pending)); with_reducible apply keeps_adc)

theorem State.setLast_keeps {fr : Nat} {r0 s : State} {ch : Nat} {w : Word}
    (h : Keeps fr r0 s) (hk : fr ||| 0x40000 = fr) :
    Keeps fr r0 (State.setLast s ch w) := by
  unfold State.setLast
  repeat' (first
    | with_reducible assumption
    | exact lor_sub hk rfl
    | (fail_if_success (with_reducible apply keeps_pending)); with_reducible apply keeps_adc
    | intro _
    | split
    | dsimp +zetaDelta only)

theorem State.setResTag_keeps {fr : Nat} {r0 s : State} {i : Nat} {t : Nat}
    (h : Keeps fr r0 s) (hk : fr ||| 0x40000 = fr) :
    Keeps fr r0 (State.setResTag s i t) := by
  unfold State.setResTag
  repeat' (first
    | with_reducible assumption
    | exact lor_sub hk rfl
    | extract_lets
    | (fail_if_success (with_reducible apply keeps_pending)); with_reducible apply keeps_adc)

theorem State.adcDrop_keeps {fr : Nat} {r0 s : State}
    (h : Keeps fr r0 s) (hk : fr ||| 0x4 = fr) :
    Keeps fr r0 (State.adcDrop s) := by
  unfold State.adcDrop
  repeat' (first
    | with_reducible assumption
    | exact lor_sub hk rfl
    | with_reducible apply State.setBit_keeps
    | with_reducible apply State.inc_keeps)

theorem State.adcTrig_keeps {fr : Nat} {r0 s : State} {c : Nat} {r : SeqRun}
    (h : Keeps fr r0 s) (hk : fr ||| 0x40000 = fr) :
    Keeps fr r0 (State.adcTrig s c r) := by
  unfold State.adcTrig
  repeat' (first
    | with_reducible assumption
    | exact lor_sub hk rfl
    | extract_lets
    | with_reducible apply State.each_keeps
    | with_reducible apply State.request_keeps
    | with_reducible apply keeps_ite
    | (fail_if_success (with_reducible apply keeps_pending)); with_reducible apply keeps_adc
    | with_reducible refine keeps_of_fst (by assumption) ?_
    | intro _
    | split
    | dsimp +zetaDelta only)

theorem State.adcRequests_keeps {fr : Nat} {r0 s : State}
    (h : Keeps fr r0 s) (hk : fr ||| 0x40804 = fr) :
    Keeps fr r0 (State.adcRequests s) := by
  unfold State.adcRequests
  repeat' (first
    | with_reducible assumption
    | exact lor_sub hk rfl
    | extract_lets
    | with_reducible apply State.each_keeps
    | with_reducible apply State.request_keeps
    | with_reducible apply keeps_ite
    | with_reducible apply keeps_snd_ite
    | (fail_if_success (with_reducible apply keeps_pending)); with_reducible apply keeps_adc
    | with_reducible refine keeps_of_fst (by assumption) ?_
    | intro _
    | split
    | dsimp +zetaDelta only)

theorem State.convNext_keeps {fr : Nat} {r0 s : State} {c : Nat} {r : SeqRun}
    (h : Keeps fr r0 s) (hk : fr ||| 0x40000 = fr) :
    Keeps fr r0 (State.convNext s c r) := by
  unfold State.convNext
  repeat' (first
    | with_reducible assumption
    | exact lor_sub hk rfl
    | extract_lets
    | with_reducible apply State.setConv_keeps
    | with_reducible apply keeps_ite
    | intro _
    | split
    | dsimp +zetaDelta only)

theorem State.convSettle_keeps {fr : Nat} {r0 s : State} {c : Nat} {a2 : Nat}
    (h : Keeps fr r0 s) (hk : fr ||| 0x40000 = fr) :
    Keeps fr r0 (State.convSettle s c a2) := by
  induction a2 generalizing s with
  | zero =>
    unfold State.convSettle
    repeat' (first
      | with_reducible assumption
      | exact lor_sub hk rfl
      | with_reducible apply State.convNext_keeps
      | with_reducible apply State.adcTrig_keeps
      | with_reducible apply keeps_ite
      | intro _
      | split)
  | succ n ih =>
    unfold State.convSettle
    repeat' (first
      | with_reducible assumption
      | exact lor_sub hk rfl
      | with_reducible apply ih
      | with_reducible apply State.convNext_keeps
      | with_reducible apply State.adcTrig_keeps
      | with_reducible apply keeps_ite
      | intro _
      | split)

theorem State.idleConv_keeps {fr : Nat} {r0 s : State} {p : Nat}
    (h : Keeps fr r0 s) (hk : fr ||| 0x2 = fr) :
    Keeps fr r0 (State.idleConv s p).2 := by
  unfold State.idleConv
  repeat' (first
    | with_reducible assumption
    | exact lor_sub hk rfl
    | extract_lets
    | with_reducible apply State.takeFree_keeps
    | with_reducible apply keeps_ite
    | with_reducible apply keeps_snd_ite
    | with_reducible refine keeps_of_snd (by assumption) ?_
    | intro _
    | split
    | dsimp +zetaDelta only)

theorem State.convStart_keeps {fr : Nat} {r0 s : State} {c : Nat} {seq : Nat} {inj : Bool} {tag : Nat}
    (h : Keeps fr r0 s) (hk : fr ||| 0x40006 = fr) :
    Keeps fr r0 (State.convStart s c seq inj tag) := by
  unfold State.convStart
  repeat' (first
    | with_reducible assumption
    | exact lor_sub hk rfl
    | extract_lets
    | with_reducible apply State.idleConv_keeps
    | with_reducible apply State.setConv_keeps
    | with_reducible apply State.convSettle_keeps
    | with_reducible apply State.adcDrop_keeps
    | with_reducible apply keeps_ite
    | with_reducible apply keeps_snd_ite
    | with_reducible refine keeps_of_snd (by assumption) ?_
    | intro _
    | split
    | dsimp +zetaDelta only)

theorem State.adcStart_keeps {fr : Nat} {r0 s : State} {mask : Nat} {seq : Nat} {inj : Bool}
    (h : Keeps fr r0 s) (hk : fr ||| 0x40006 = fr) :
    Keeps fr r0 (State.adcStart s mask seq inj) := by
  unfold State.adcStart
  repeat' (first
    | with_reducible assumption
    | exact lor_sub hk rfl
    | extract_lets
    | with_reducible apply State.each_keeps
    | with_reducible apply State.convStart_keeps
    | with_reducible apply keeps_ite
    | (fail_if_success (with_reducible apply keeps_pending)); with_reducible apply keeps_adc
    | intro _)

theorem State.setXchk_keeps {fr : Nat} {r0 s : State} {i : Nat} {on : Bool}
    (h : Keeps fr r0 s) (hk : fr ||| 0x418804 = fr) :
    Keeps fr r0 (State.setXchk s i on) := by
  unfold State.setXchk
  repeat' (first
    | with_reducible assumption
    | exact lor_sub hk rfl
    | with_reducible apply State.putSource_keeps
    | with_reducible apply State.putBit_keeps)

theorem State.xcheck_keeps {fr : Nat} {r0 s : State} {w : Nat} {i : Nat}
    (h : Keeps fr r0 s) (hk : fr ||| 0x458804 = fr) :
    Keeps fr r0 (State.xcheck s w i) := by
  unfold State.xcheck
  repeat' (first
    | with_reducible assumption
    | exact lor_sub hk rfl
    | extract_lets
    | with_reducible apply State.setResult_keeps
    | with_reducible apply State.setBit_keeps
    | with_reducible apply State.inc_keeps
    | with_reducible apply State.setXpair_keeps
    | with_reducible apply State.setXchk_keeps
    | with_reducible apply keeps_ite
    | intro _)

theorem State.readback_keeps {fr : Nat} {r0 s : State} {ch : Nat} {range : Nat} {code : Int}
    (h : Keeps fr r0 s) (hk : fr ||| 0x4 = fr) :
    Keeps fr r0 (State.readback s ch range code) := by
  unfold State.readback
  repeat' (first
    | with_reducible assumption
    | exact lor_sub hk rfl
    | with_reducible apply State.setBit_keeps
    | with_reducible apply State.inc_keeps
    | with_reducible apply keeps_ite
    | intro _
    | split)

theorem State.chpSees_keeps {fr : Nat} {r0 s : State} {w : Nat}
    (h : Keeps fr r0 s) (hk : fr ||| 0x438804 = fr) :
    Keeps fr r0 (State.chpSees s w) := by
  unfold State.chpSees
  repeat' (first
    | with_reducible assumption
    | exact lor_sub hk rfl
    | extract_lets
    | with_reducible apply State.chpCurrent_keeps
    | with_reducible apply State.chpDroop_keeps
    | with_reducible apply keeps_ite
    | intro _
    | split
    | dsimp +zetaDelta only)

theorem State.slotResult_keeps {fr : Nat} {r0 s : State} {c : Nat} {nV : Int}
    (h : Keeps fr r0 s) (hk : fr ||| 0x478804 = fr) :
    Keeps fr r0 (State.slotResult s c nV) := by
  unfold State.slotResult
  repeat' (first
    | with_reducible assumption
    | exact lor_sub hk rfl
    | extract_lets
    | with_reducible apply State.setResult_keeps
    | with_reducible apply State.setResTag_keeps
    | with_reducible apply State.setLast_keeps
    | with_reducible apply State.setPhys_keeps
    | with_reducible apply State.readback_keeps
    | with_reducible apply State.each_keeps
    | with_reducible apply State.xcheck_keeps
    | with_reducible apply State.chpSees_keeps
    | with_reducible apply State.setConv_keeps
    | with_reducible apply State.convSettle_keeps
    | with_reducible apply keeps_ite
    | with_reducible apply keeps_snd_ite
    | intro _
    | split
    | dsimp +zetaDelta only)

theorem execSarSlotResult_keeps {fr : Nat} {r0 s : State} {c : Nat} {nV : Int}
    (h : Keeps fr r0 s) (hk : fr ||| 0x478804 = fr) :
    Answers fr r0 (execSarSlotResult c nV s) := by
  unfold execSarSlotResult
  repeat' (first
    | with_reducible assumption
    | exact lor_sub hk rfl
    | with_reducible apply answers_next
    | with_reducible apply State.slotResult_keeps
    | with_reducible apply State.adcRequests_keeps
    | intro _
    | split
    | dsimp +zetaDelta only)

theorem State.calibrate_keeps {fr : Nat} {r0 s : State} {on : Bool}
    (h : Keeps fr r0 s) (hk : fr ||| 0x40000 = fr) :
    Keeps fr r0 (State.calibrate s on) := by
  unfold State.calibrate
  repeat' (first
    | with_reducible assumption
    | exact lor_sub hk rfl
    | extract_lets
    | (fail_if_success (with_reducible apply keeps_pending)); with_reducible apply keeps_adc)

theorem execCalCoeffApply_keeps {fr : Nat} {r0 s : State} {mask : BitVec 5}
    (h : Keeps fr r0 s) (hk : fr ||| 0x40000 = fr) :
    Answers fr r0 (execCalCoeffApply mask s) := by
  unfold execCalCoeffApply
  repeat' (first
    | with_reducible apply answers_next
    | with_reducible assumption
    | exact lor_sub hk rfl
    | extract_lets
    | with_reducible apply State.each_keeps
    | with_reducible apply State.setPhys_keeps
    | with_reducible apply keeps_ite
    | intro _)

theorem State.adcFail_keeps {fr : Nat} {r0 s : State} {p : Nat}
    (h : Keeps fr r0 s) (hk : fr ||| 0xc0000040004 = fr) :
    Keeps fr r0 (State.adcFail s p) := by
  unfold State.adcFail
  repeat' (first
    | with_reducible assumption
    | exact lor_sub hk rfl
    | extract_lets
    | with_reducible apply State.setBit_keeps
    | with_reducible apply State.setPhys_keeps
    | with_reducible apply State.spareExhausted_keeps
    | with_reducible apply keeps_ite
    | (fail_if_success (with_reducible apply keeps_pending)); with_reducible apply keeps_adc
    | intro _
    | split
    | dsimp +zetaDelta only)

theorem execReferenceCheck_keeps {fr : Nat} {r0 s : State} {p : Nat} {vref : BitVec 16} {vdda : BitVec 16} {agnd : BitVec 16} {done : Bool}
    (h : Keeps fr r0 s) (hk : fr ||| 0xc0000040004 = fr) :
    Answers fr r0 (execReferenceCheck p vref vdda agnd done s) := by
  unfold execReferenceCheck
  repeat' (first
    | with_reducible apply answers_next
    | with_reducible assumption
    | exact lor_sub hk rfl
    | extract_lets
    | with_reducible apply State.inc_keeps
    | with_reducible apply State.adcFail_keeps
    | with_reducible apply State.setPhys_keeps
    | with_reducible apply keeps_ite
    | (fail_if_success (with_reducible apply keeps_pending)); with_reducible apply keeps_adc
    | intro _
    | split
    | dsimp +zetaDelta only)

theorem execRefchkLate_keeps {fr : Nat} {r0 s : State} {p : Nat}
    (h : Keeps fr r0 s) (hk : fr ||| 0x4 = fr) :
    Answers fr r0 (execRefchkLate p s) := by
  unfold execRefchkLate
  repeat' (first
    | with_reducible apply answers_next
    | with_reducible assumption
    | exact lor_sub hk rfl
    | with_reducible apply State.setBit_keeps
    | with_reducible apply keeps_ite
    | intro _)

theorem execSwap_keeps {fr : Nat} {r0 s : State} {c : Nat}
    (h : Keeps fr r0 s) (hk : fr ||| 0x40004 = fr) :
    Answers fr r0 (execSwap c s) := by
  unfold execSwap
  repeat' (first
    | with_reducible apply answers_next
    | with_reducible assumption
    | exact lor_sub hk rfl
    | extract_lets
    | with_reducible apply State.setBit_keeps
    | with_reducible apply keeps_ite
    | (fail_if_success (with_reducible apply keeps_pending)); with_reducible apply keeps_adc
    | intro _)

theorem execRestore_keeps {fr : Nat} {r0 s : State} {c : Nat}
    (h : Keeps fr r0 s) (hk : fr ||| 0x40004 = fr) :
    Answers fr r0 (execRestore c s) := by
  unfold execRestore
  repeat' (first
    | with_reducible apply answers_next
    | with_reducible assumption
    | exact lor_sub hk rfl
    | extract_lets
    | with_reducible apply State.setBit_keeps
    | with_reducible apply keeps_ite
    | (fail_if_success (with_reducible apply keeps_pending)); with_reducible apply keeps_adc
    | intro _)

theorem State.adcMove_keeps {fr : Nat} {r0 s : State} {c : Nat} {p : Nat}
    (h : Keeps fr r0 s) (hk : fr ||| 0x40000 = fr) :
    Keeps fr r0 (State.adcMove s c p) := by
  unfold State.adcMove
  repeat' (first
    | with_reducible assumption
    | exact lor_sub hk rfl
    | extract_lets
    | with_reducible apply State.setConv_keeps
    | with_reducible apply State.setAdcMap_keeps
    | with_reducible apply State.setPhys_keeps
    | with_reducible apply keeps_ite
    | (fail_if_success (with_reducible apply keeps_pending)); with_reducible apply keeps_adc
    | intro _)

theorem execSwapApply_keeps {fr : Nat} {r0 s : State}
    (h : Keeps fr r0 s) (hk : fr ||| 0xc0000040004 = fr) :
    Answers fr r0 (execSwapApply s) := by
  unfold execSwapApply
  repeat' (first
    | with_reducible apply answers_next
    | with_reducible assumption
    | exact lor_sub hk rfl
    | with_reducible apply State.spareUsed_keeps
    | with_reducible apply State.adcMove_keeps
    | split)

theorem execRestoreApply_keeps {fr : Nat} {r0 s : State}
    (h : Keeps fr r0 s) (hk : fr ||| 0xc0000040006 = fr) :
    Answers fr r0 (execRestoreApply s) := by
  unfold execRestoreApply
  repeat' (first
    | with_reducible apply answers_next
    | with_reducible assumption
    | exact lor_sub hk rfl
    | extract_lets
    | with_reducible apply State.takeFree_keeps
    | with_reducible apply State.adcMove_keeps
    | with_reducible apply State.spareEntry_keeps
    | with_reducible refine keeps_of_snd (by assumption) ?_
    | split
    | dsimp +zetaDelta only)

theorem State.adcReconfigure_keeps {fr : Nat} {r0 s : State}
    (h : Keeps fr r0 s) (hk : fr ||| 0x458804 = fr) :
    Keeps fr r0 (State.adcReconfigure s) := by
  unfold State.adcReconfigure
  repeat' (first
    | with_reducible assumption
    | exact lor_sub hk rfl
    | extract_lets
    | with_reducible apply State.each_keeps
    | with_reducible apply State.setXchk_keeps
    | (fail_if_success (with_reducible apply keeps_pending)); with_reducible apply keeps_adc
    | intro _)

theorem State.adcClockLoss_keeps {fr : Nat} {r0 s : State}
    (h : Keeps fr r0 s) (hk : fr ||| 0x40000 = fr) :
    Keeps fr r0 (State.adcClockLoss s) := by
  unfold State.adcClockLoss
  repeat' (first
    | with_reducible assumption
    | exact lor_sub hk rfl
    | extract_lets
    | with_reducible apply State.each_keeps
    | with_reducible apply State.setResult_keeps
    | with_reducible apply State.setLast_keeps
    | with_reducible apply State.setConv_keeps
    | intro _
    | split
    | dsimp +zetaDelta only)

end Sys2Proof.Machine
end

