-- ==== Sys2Proof/Laws/KeepsAng.lean ====
section
/-!
SUPPORT. What each operation of Machine/Ang.lean keeps.
-/

namespace Sys2Proof.Machine

theorem State.angEdge_keeps {fr : Nat} {r0 s : State} {hz : Nat}
    (h : Keeps fr r0 s) (hk : fr ||| 0x200000 = fr) :
    Keeps fr r0 (State.angEdge s hz) := by
  unfold State.angEdge
  repeat' (first
    | with_reducible assumption
    | exact lor_sub hk rfl
    | extract_lets
    | with_reducible apply keeps_ite
    | (fail_if_success (with_reducible apply keeps_pending)); with_reducible apply keeps_ang
    | intro _)

theorem State.angJump_keeps {fr : Nat} {r0 s : State}
    (h : Keeps fr r0 s) (hk : fr ||| 0x200004 = fr) :
    Keeps fr r0 (State.angJump s) := by
  unfold State.angJump
  repeat' (first
    | with_reducible assumption
    | exact lor_sub hk rfl
    | extract_lets
    | with_reducible apply State.inc_keeps
    | with_reducible apply State.setBit_keeps
    | with_reducible apply keeps_ite
    | (fail_if_success (with_reducible apply keeps_pending)); with_reducible apply keeps_ang
    | intro _)

theorem State.angSelect_keeps {fr : Nat} {r0 s : State}
    (h : Keeps fr r0 s) (hk : fr ||| 0x200000 = fr) :
    Keeps fr r0 (State.angSelect s) := by
  unfold State.angSelect
  repeat' (first
    | with_reducible assumption
    | exact lor_sub hk rfl
    | extract_lets
    | with_reducible apply keeps_ite
    | (fail_if_success (with_reducible apply keeps_pending)); with_reducible apply keeps_ang
    | intro _)

theorem State.angRocof_keeps {fr : Nat} {r0 s : State}
    (h : Keeps fr r0 s) (hk : fr ||| 0x200000 = fr) :
    Keeps fr r0 (State.angRocof s) := by
  unfold State.angRocof
  repeat' (first
    | with_reducible assumption
    | exact lor_sub hk rfl
    | extract_lets
    | with_reducible apply keeps_ite
    | with_reducible apply keeps_snd_ite
    | (fail_if_success (with_reducible apply keeps_pending)); with_reducible apply keeps_ang
    | intro _
    | split
    | dsimp +zetaDelta only)

theorem State.angTrack_keeps {fr : Nat} {r0 s : State}
    (h : Keeps fr r0 s) (hk : fr ||| 0x200004 = fr) :
    Keeps fr r0 (State.angTrack s) := by
  unfold State.angTrack
  repeat' (first
    | with_reducible assumption
    | exact lor_sub hk rfl
    | extract_lets
    | with_reducible apply State.setBit_keeps
    | with_reducible apply State.angRocof_keeps
    | with_reducible apply keeps_ite
    | with_reducible apply keeps_snd_ite
    | (fail_if_success (with_reducible apply keeps_pending)); with_reducible apply keeps_ang
    | intro _
    | split
    | dsimp +zetaDelta only)

theorem State.angUpdate_keeps {fr : Nat} {r0 s : State}
    (h : Keeps fr r0 s) (hk : fr ||| 0x200004 = fr) :
    Keeps fr r0 (State.angUpdate s) := by
  unfold State.angUpdate
  repeat' (first
    | with_reducible assumption
    | exact lor_sub hk rfl
    | extract_lets
    | with_reducible apply State.angTrack_keeps
    | with_reducible apply State.angSelect_keeps
    | with_reducible apply State.setReg_keeps
    | with_reducible apply State.angJump_keeps
    | with_reducible apply keeps_ite
    | with_reducible apply keeps_snd_ite
    | (fail_if_success (with_reducible apply keeps_pending)); with_reducible apply keeps_ang
    | intro _
    | split
    | dsimp +zetaDelta only)

theorem execTrackingValid_keeps {fr : Nat} {r0 s : State}
    (h : Keeps fr r0 s) (hk : fr ||| 0x200004 = fr) :
    Answers fr r0 (execTrackingValid s) := by
  unfold execTrackingValid
  repeat' (first
    | with_reducible assumption
    | exact lor_sub hk rfl
    | with_reducible apply answers_next
    | extract_lets
    | with_reducible apply State.angSelect_keeps
    | with_reducible apply State.angJump_keeps
    | with_reducible apply keeps_ite
    | with_reducible apply answers_ite
    | with_reducible apply keeps_snd_ite
    | (fail_if_success (with_reducible apply keeps_pending)); with_reducible apply keeps_ang
    | intro _
    | split
    | dsimp +zetaDelta only)

theorem execAngSrcWrite_keeps {fr : Nat} {r0 s : State} {w : Word}
    (h : Keeps fr r0 s) (hk : fr ||| 0x4 = fr) :
    Answers fr r0 (execAngSrcWrite w s) := by
  unfold execAngSrcWrite
  repeat' (first
    | with_reducible apply answers_next
    | with_reducible assumption
    | exact lor_sub hk rfl
    | with_reducible apply State.setReg_keeps)

theorem execGenStale_keeps {fr : Nat} {r0 s : State}
    (h : Keeps fr r0 s) (hk : fr ||| 0x4 = fr) :
    Answers fr r0 (execGenStale s) := by
  unfold execGenStale
  repeat' (first
    | with_reducible apply answers_next
    | with_reducible assumption
    | exact lor_sub hk rfl
    | with_reducible apply State.setBit_keeps
    | with_reducible apply keeps_ite
    | intro _)

theorem execMasterMiss_keeps {fr : Nat} {r0 s : State}
    (h : Keeps fr r0 s) (hk : fr ||| 0x200004 = fr) :
    Answers fr r0 (execMasterMiss s) := by
  unfold execMasterMiss
  repeat' (first
    | with_reducible apply answers_next
    | with_reducible assumption
    | exact lor_sub hk rfl
    | extract_lets
    | with_reducible apply State.angJump_keeps
    | with_reducible apply State.angSelect_keeps
    | with_reducible apply State.setBit_keeps
    | with_reducible apply keeps_ite
    | (fail_if_success (with_reducible apply keeps_pending)); with_reducible apply keeps_ang
    | intro _)

theorem execAngSnapshotRead_keeps {fr : Nat} {r0 s : State} {which : AngleName}
    (h : Keeps fr r0 s) (hk : fr ||| 0x200000 = fr) :
    Answers fr r0 (execAngSnapshotRead which s) := by
  unfold execAngSnapshotRead
  repeat' (first
    | with_reducible apply answers_next
    | with_reducible assumption
    | exact lor_sub hk rfl
    | extract_lets
    | (fail_if_success (with_reducible apply keeps_pending)); with_reducible apply keeps_ang
    | split
    | dsimp +zetaDelta only)

theorem State.genWriteFreq_keeps {fr : Nat} {r0 s : State} {w : Word}
    (h : Keeps fr r0 s) (hk : fr ||| 0x200000 = fr) :
    Keeps fr r0 (State.genWriteFreq s w) := by
  unfold State.genWriteFreq
  repeat' (first
    | with_reducible assumption
    | exact lor_sub hk rfl
    | extract_lets
    | (fail_if_success (with_reducible apply keeps_pending)); with_reducible apply keeps_ang)

theorem State.genWritePhase_keeps {fr : Nat} {r0 s : State} {w : Word}
    (h : Keeps fr r0 s) (hk : fr ||| 0x200004 = fr) :
    Keeps fr r0 (State.genWritePhase s w) := by
  unfold State.genWritePhase
  repeat' (first
    | with_reducible assumption
    | exact lor_sub hk rfl
    | with_reducible apply State.angJump_keeps
    | (fail_if_success (with_reducible apply keeps_pending)); with_reducible apply keeps_ang
    | intro _
    | split
    | dsimp +zetaDelta only)

theorem State.angCommit_keeps {fr : Nat} {r0 s : State}
    (h : Keeps fr r0 s) (hk : fr ||| 0x4 = fr) :
    Keeps fr r0 (State.angCommit s) := by
  unfold State.angCommit
  repeat' (first
    | with_reducible assumption
    | exact lor_sub hk rfl
    | with_reducible apply State.setReg_keeps
    | intro _
    | split
    | dsimp +zetaDelta only)

theorem State.angBegin_keeps {fr : Nat} {r0 s : State}
    (h : Keeps fr r0 s) (hk : fr ||| 0x200000 = fr) :
    Keeps fr r0 (State.angBegin s) := by
  unfold State.angBegin
  repeat' (first
    | with_reducible assumption
    | exact lor_sub hk rfl
    | extract_lets
    | (fail_if_success (with_reducible apply keeps_pending)); with_reducible apply keeps_ang)

end Sys2Proof.Machine
end

