-- ==== Sys2Proof/Laws/KeepsCmp.lean ====
section
/-!
SUPPORT. What each operation of Machine/Cmp.lean keeps.
-/

namespace Sys2Proof.Machine

theorem State.setCmp_keeps {fr : Nat} {r0 s : State} {n : Nat} {x : Cmp}
    (h : Keeps fr r0 s) (hk : fr ||| 0x100000 = fr) :
    Keeps fr r0 (State.setCmp s n x) := by
  unfold State.setCmp
  repeat' (first
    | with_reducible assumption
    | exact lor_sub hk rfl
    | extract_lets
    | (fail_if_success (with_reducible apply keeps_pending)); with_reducible apply keeps_cmps)

theorem State.setShadow_keeps {fr : Nat} {r0 s : State} {p : Nat} {x : Shadow}
    (h : Keeps fr r0 s) (hk : fr ||| 0x100000 = fr) :
    Keeps fr r0 (State.setShadow s p x) := by
  unfold State.setShadow
  repeat' (first
    | with_reducible assumption
    | exact lor_sub hk rfl
    | extract_lets
    | (fail_if_success (with_reducible apply keeps_pending)); with_reducible apply keeps_cmps)

theorem execComparatorRawChange_keeps {fr : Nat} {r0 s : State} {n : Nat} {nV : Int} {vddaNv : Int}
    (h : Keeps fr r0 s) (hk : fr ||| 0x100000 = fr) :
    Answers fr r0 (execComparatorRawChange n nV vddaNv s) := by
  unfold execComparatorRawChange
  repeat' (first
    | with_reducible assumption
    | exact lor_sub hk rfl
    | with_reducible apply answers_next
    | extract_lets
    | with_reducible apply State.setCmp_keeps
    | with_reducible apply keeps_ite
    | with_reducible apply answers_ite
    | with_reducible apply keeps_snd_ite
    | intro _
    | split
    | dsimp +zetaDelta only)

theorem State.cmpActive_keeps {fr : Nat} {r0 s : State} {n : Nat} {c : Cmp}
    (h : Keeps fr r0 s) (hk : fr ||| 0x538804 = fr) :
    Keeps fr r0 (State.cmpActive s n c) := by
  unfold State.cmpActive
  repeat' (first
    | with_reducible assumption
    | exact lor_sub hk rfl
    | extract_lets
    | with_reducible apply State.setCmp_keeps
    | with_reducible apply State.sourceOn_keeps
    | with_reducible apply State.dcov2Start_keeps
    | with_reducible apply keeps_ite
    | with_reducible apply keeps_snd_ite
    | intro _
    | split
    | dsimp +zetaDelta only)

theorem State.cmpOn_keeps {fr : Nat} {r0 s : State} {n : Nat}
    (h : Keeps fr r0 s) (hk : fr ||| 0x578806 = fr) :
    Keeps fr r0 (State.cmpOn s n) := by
  unfold State.cmpOn
  repeat' (first
    | with_reducible assumption
    | exact lor_sub hk rfl
    | extract_lets
    | with_reducible apply State.cmpActive_keeps
    | with_reducible apply State.irq_keeps
    | with_reducible apply State.adcStart_keeps
    | with_reducible apply State.adcRequests_keeps
    | with_reducible apply keeps_ite
    | with_reducible apply keeps_snd_ite
    | intro _
    | split
    | dsimp +zetaDelta only)

theorem execComparatorFilteredChange_keeps {fr : Nat} {r0 s : State} {n : Nat}
    (h : Keeps fr r0 s) (hk : fr ||| 0x578806 = fr) :
    Answers fr r0 (execComparatorFilteredChange n s) := by
  unfold execComparatorFilteredChange
  repeat' (first
    | with_reducible assumption
    | exact lor_sub hk rfl
    | with_reducible apply answers_next
    | extract_lets
    | with_reducible apply State.inc_keeps
    | with_reducible apply State.setBit_keeps
    | with_reducible apply State.cmpOn_keeps
    | with_reducible apply State.setCmp_keeps
    | with_reducible apply State.sourceOff_keeps
    | with_reducible apply keeps_ite
    | with_reducible apply answers_ite
    | with_reducible apply keeps_snd_ite
    | intro _
    | split
    | dsimp +zetaDelta only)

theorem execTripSourceReleaseProof_keeps {fr : Nat} {r0 s : State} {n : Nat}
    (h : Keeps fr r0 s) (hk : fr ||| 0x118000 = fr) :
    Answers fr r0 (execTripSourceReleaseProof n s) := by
  unfold execTripSourceReleaseProof
  repeat' (first
    | with_reducible apply answers_next
    | with_reducible assumption
    | exact lor_sub hk rfl
    | extract_lets
    | with_reducible apply State.sourceOff_keeps
    | with_reducible apply State.setCmp_keeps
    | with_reducible apply keeps_ite
    | intro _)

theorem State.cmpBegin_keeps {fr : Nat} {r0 s : State} {n : Nat}
    (h : Keeps fr r0 s) (hk : fr ||| 0x538804 = fr) :
    Keeps fr r0 (State.cmpBegin s n) := by
  unfold State.cmpBegin
  repeat' (first
    | with_reducible assumption
    | exact lor_sub hk rfl
    | with_reducible apply State.cmpActive_keeps
    | with_reducible apply State.setCmp_keeps
    | with_reducible apply State.sourceOff_keeps
    | with_reducible apply keeps_ite
    | with_reducible apply keeps_snd_ite
    | intro _
    | split
    | dsimp +zetaDelta only)

theorem State.cmpReconfigure_keeps {fr : Nat} {r0 s : State} {old : State}
    (h : Keeps fr r0 s) (hk : fr ||| 0x538804 = fr) :
    Keeps fr r0 (State.cmpReconfigure s old) := by
  unfold State.cmpReconfigure
  repeat' (first
    | with_reducible assumption
    | exact lor_sub hk rfl
    | extract_lets
    | with_reducible apply State.each_keeps
    | with_reducible apply State.cmpActive_keeps
    | with_reducible apply State.setCmp_keeps
    | with_reducible apply State.sourceOff_keeps
    | with_reducible apply State.cmpBegin_keeps
    | with_reducible apply keeps_ite
    | with_reducible apply keeps_snd_ite
    | intro _
    | split
    | dsimp +zetaDelta only)

theorem execShadowMove_keeps {fr : Nat} {r0 s : State} {p : Nat}
    (h : Keeps fr r0 s) (hk : fr ||| 0x100000 = fr) :
    Answers fr r0 (execShadowMove p s) := by
  unfold execShadowMove
  repeat' (first
    | with_reducible apply answers_next
    | with_reducible assumption
    | exact lor_sub hk rfl
    | with_reducible apply State.setShadow_keeps
    | with_reducible apply keeps_ite
    | intro _)

theorem execShadowDisagree_keeps {fr : Nat} {r0 s : State} {p : Nat}
    (h : Keeps fr r0 s) (hk : fr ||| 0x100004 = fr) :
    Answers fr r0 (execShadowDisagree p s) := by
  unfold execShadowDisagree
  repeat' (first
    | with_reducible apply answers_next
    | with_reducible assumption
    | exact lor_sub hk rfl
    | extract_lets
    | with_reducible apply State.setShadow_keeps
    | with_reducible apply State.setBit_keeps
    | with_reducible apply State.inc_keeps
    | with_reducible apply keeps_ite
    | intro _)

theorem State.cmpFollow_keeps {fr : Nat} {r0 s : State} {n : Nat}
    (h : Keeps fr r0 s) (hk : fr ||| 0x578806 = fr) :
    Keeps fr r0 (State.cmpFollow s n) := by
  unfold State.cmpFollow
  repeat' (first
    | with_reducible assumption
    | exact lor_sub hk rfl
    | extract_lets
    | with_reducible apply State.cmpOn_keeps
    | with_reducible apply State.setCmp_keeps
    | with_reducible apply State.sourceOff_keeps
    | with_reducible apply keeps_ite
    | with_reducible apply keeps_snd_ite
    | intro _
    | split
    | dsimp +zetaDelta only)

theorem State.cmpReplace_keeps {fr : Nat} {r0 s : State} {n : Nat} {p : Nat} {raw : Bool}
    (h : Keeps fr r0 s) (hk : fr ||| 0xc0000578806 = fr) :
    Keeps fr r0 (State.cmpReplace s n p raw) := by
  unfold State.cmpReplace
  repeat' (first
    | with_reducible assumption
    | exact lor_sub hk rfl
    | extract_lets
    | with_reducible apply State.setCmp_keeps
    | with_reducible apply State.cmpFollow_keeps
    | with_reducible apply State.setBit_keeps
    | with_reducible apply State.setShadow_keeps
    | with_reducible apply State.spareUsed_keeps
    | with_reducible apply State.spareExhausted_keeps
    | with_reducible apply State.cmpActive_keeps
    | with_reducible apply keeps_ite
    | with_reducible apply keeps_snd_ite
    | (fail_if_success (with_reducible apply keeps_pending)); with_reducible apply keeps_cmps
    | intro _
    | split
    | dsimp +zetaDelta only)

theorem execShadowMeasurement_keeps {fr : Nat} {r0 s : State} {p : Nat} {rel : Relation}
    (h : Keeps fr r0 s) (hk : fr ||| 0xc0000578806 = fr) :
    Answers fr r0 (execShadowMeasurement p rel s) := by
  unfold execShadowMeasurement
  repeat' (first
    | with_reducible apply answers_next
    | with_reducible assumption
    | exact lor_sub hk rfl
    | extract_lets
    | with_reducible apply State.setShadow_keeps
    | with_reducible apply State.cmpReplace_keeps
    | with_reducible apply State.setBit_keeps
    | with_reducible apply keeps_ite
    | (fail_if_success (with_reducible apply keeps_pending)); with_reducible apply keeps_cmps
    | intro _
    | split
    | dsimp +zetaDelta only)

end Sys2Proof.Machine
end

