-- ==== Sys2Proof/Laws/KeepsPairOps.lean ====
section
/-!
SUPPORT. What each operation of Machine/PairOps.lean keeps.
-/

namespace Sys2Proof.Machine

theorem State.setPair_keeps {fr : Nat} {r0 s : State} {x : Pair}
    (h : Keeps fr r0 s) (hk : fr ||| 0x80000000 = fr) :
    Keeps fr r0 (State.setPair s x) := by
  unfold State.setPair
  repeat' (first
    | with_reducible assumption
    | exact lor_sub hk rfl
    | (fail_if_success (with_reducible apply keeps_pending)); with_reducible apply keeps_pair)

theorem State.pairTrigger_keeps {fr : Nat} {r0 s : State}
    (h : Keeps fr r0 s) (hk : fr ||| 0x80000000 = fr) :
    Keeps fr r0 (State.pairTrigger s) := by
  unfold State.pairTrigger
  repeat' (first
    | with_reducible assumption
    | exact lor_sub hk rfl
    | extract_lets
    | with_reducible apply State.setPair_keeps
    | with_reducible apply keeps_ite
    | intro _)

end Sys2Proof.Machine
end

