-- ==== Sys2Proof/Laws/KeepsDiag.lean ====
section
/-!
SUPPORT. What each operation of Machine/Diag.lean keeps.
-/

namespace Sys2Proof.Machine

theorem State.diagNext_keeps {fr : Nat} {r0 s : State}
    (h : Keeps fr r0 s) (hk : fr ||| 0x10000 = fr) :
    Keeps fr r0 (State.diagNext s) := by
  unfold State.diagNext
  repeat' (first
    | with_reducible assumption
    | exact lor_sub hk rfl
    | extract_lets
    | with_reducible apply keeps_ite
    | (fail_if_success (with_reducible apply keeps_pending)); with_reducible apply keeps_trp
    | intro _
    | split
    | dsimp +zetaDelta only)

theorem State.diagAsk_keeps {fr : Nat} {r0 s : State} {ls : List Nat}
    (h : Keeps fr r0 s) (hk : fr ||| 0x10000 = fr) :
    Keeps fr r0 (State.diagAsk s ls) := by
  unfold State.diagAsk
  repeat' (first
    | with_reducible assumption
    | exact lor_sub hk rfl
    | extract_lets
    | with_reducible apply State.diagNext_keeps
    | (fail_if_success (with_reducible apply keeps_pending)); with_reducible apply keeps_trp)

theorem State.diagEnd_keeps {fr : Nat} {r0 s : State} {v1 : Int} {code : Nat}
    (h : Keeps fr r0 s) (hk : fr ||| 0x418804 = fr) :
    Keeps fr r0 (State.diagEnd s v1 code) := by
  unfold State.diagEnd
  repeat' (first
    | with_reducible assumption
    | exact lor_sub hk rfl
    | extract_lets
    | with_reducible apply State.sourceOff_keeps
    | with_reducible apply State.sourceOn_keeps
    | with_reducible apply State.setBit_keeps
    | with_reducible apply State.diagNext_keeps
    | with_reducible apply keeps_ite
    | (fail_if_success (with_reducible apply keeps_pending)); with_reducible apply keeps_trp
    | intro _
    | split
    | dsimp +zetaDelta only)

theorem State.diagAbort_keeps {fr : Nat} {r0 s : State} {g : Nat}
    (h : Keeps fr r0 s) (hk : fr ||| 0x418804 = fr) :
    Keeps fr r0 (State.diagAbort s g) := by
  unfold State.diagAbort
  repeat' (first
    | with_reducible assumption
    | exact lor_sub hk rfl
    | with_reducible apply State.diagEnd_keeps
    | with_reducible apply keeps_ite
    | intro _
    | split)

theorem execDiagTestLeg_keeps {fr : Nat} {r0 s : State} {l : Nat}
    (h : Keeps fr r0 s) (hk : fr ||| 0x10000 = fr) :
    Answers fr r0 (execDiagTestLeg l s) := by
  unfold execDiagTestLeg
  repeat' (first
    | with_reducible apply answers_next
    | with_reducible assumption
    | exact lor_sub hk rfl
    | with_reducible apply State.diagAsk_keeps)

theorem execDiagTestAll_keeps {fr : Nat} {r0 s : State}
    (h : Keeps fr r0 s) (hk : fr ||| 0x10000 = fr) :
    Answers fr r0 (execDiagTestAll s) := by
  unfold execDiagTestAll
  repeat' (first
    | with_reducible apply answers_next
    | with_reducible assumption
    | exact lor_sub hk rfl
    | with_reducible apply State.diagAsk_keeps)

theorem execDiagPeriodic_keeps {fr : Nat} {r0 s : State} {l : Nat}
    (h : Keeps fr r0 s) (hk : fr ||| 0x10000 = fr) :
    Answers fr r0 (execDiagPeriodic l s) := by
  unfold execDiagPeriodic
  repeat' (first
    | with_reducible apply answers_next
    | with_reducible assumption
    | exact lor_sub hk rfl
    | with_reducible apply State.diagAsk_keeps
    | with_reducible apply keeps_ite
    | intro _)

theorem execDiagFirstConversion_keeps {fr : Nat} {r0 s : State} {v : BitVec 16}
    (h : Keeps fr r0 s) (hk : fr ||| 0x10000 = fr) :
    Answers fr r0 (execDiagFirstConversion v s) := by
  unfold execDiagFirstConversion
  repeat' (first
    | with_reducible apply answers_next
    | with_reducible assumption
    | exact lor_sub hk rfl
    | extract_lets
    | (fail_if_success (with_reducible apply keeps_pending)); with_reducible apply keeps_trp
    | split
    | dsimp +zetaDelta only)

theorem execDiagSecondConversion_keeps {fr : Nat} {r0 s : State} {v : BitVec 16}
    (h : Keeps fr r0 s) (hk : fr ||| 0x418804 = fr) :
    Answers fr r0 (execDiagSecondConversion v s) := by
  unfold execDiagSecondConversion
  repeat' (first
    | with_reducible apply answers_next
    | with_reducible assumption
    | exact lor_sub hk rfl
    | with_reducible apply State.diagEnd_keeps
    | split)

theorem execDiagNoSlot_keeps {fr : Nat} {r0 s : State}
    (h : Keeps fr r0 s) (hk : fr ||| 0x418804 = fr) :
    Answers fr r0 (execDiagNoSlot s) := by
  unfold execDiagNoSlot
  repeat' (first
    | with_reducible apply answers_next
    | with_reducible assumption
    | exact lor_sub hk rfl
    | with_reducible apply State.diagEnd_keeps)

end Sys2Proof.Machine
end

