-- ==== Sys2Proof/Laws/KeepsGridBank.lean ====
section
/-!
SUPPORT. What each operation of Machine/GridBank.lean keeps.
-/

namespace Sys2Proof.Machine

theorem State.grdRestop_keeps {fr : Nat} {r0 s : State} {g : Nat}
    (h : Keeps fr r0 s) (hk : fr ||| 0x408004 = fr) :
    Keeps fr r0 (State.grdRestop s g) := by
  unfold State.grdRestop
  repeat' (first
    | with_reducible assumption
    | exact lor_sub hk rfl
    | with_reducible apply State.inc_keeps
    | with_reducible apply State.groupStop_keeps
    | with_reducible apply keeps_ite
    | intro _)

end Sys2Proof.Machine
end

