-- ==== Sys2Proof/Laws/KeepsPwm.lean ====
section
/-!
SUPPORT. What each operation of Machine/Pwm.lean keeps.
-/

namespace Sys2Proof.Machine

theorem State.planWave_keeps {fr : Nat} {r0 s : State} {g : Nat} {l : Nat} {c : PlanCtx} {prev16 : Int} {w : LegWave} {next : List WaveEv} {inhibit : Bool}
    (h : Keeps fr r0 s) (hk : fr ||| 0x8004 = fr) :
    Keeps fr r0 (State.planWave s g l c prev16 w next inhibit) := by
  unfold State.planWave
  repeat' (first
    | with_reducible assumption
    | exact lor_sub hk rfl
    | extract_lets
    | with_reducible apply State.setLeg_keeps
    | with_reducible apply State.count_keeps
    | with_reducible apply State.setBit_keeps
    | with_reducible apply State.inc_keeps
    | with_reducible apply keeps_ite
    | with_reducible apply keeps_snd_ite
    | intro _
    | split
    | dsimp +zetaDelta only)

theorem State.planGroupLeg_keeps {fr : Nat} {r0 s : State} {g : Nat} {l : Nat} {b : List Word} {c : PlanCtx} {prev16 : Int}
    (h : Keeps fr r0 s) (hk : fr ||| 0x8004 = fr) :
    Keeps fr r0 (State.planGroupLeg s g l b c prev16) := by
  unfold State.planGroupLeg
  repeat' (first
    | with_reducible assumption
    | exact lor_sub hk rfl
    | extract_lets
    | with_reducible apply State.planWave_keeps
    | intro _
    | split
    | dsimp +zetaDelta only)

theorem State.chpPulse_keeps {fr : Nat} {r0 s : State} {g : Nat} {prev16 : Int}
    (h : Keeps fr r0 s) (hk : fr ||| 0x28004 = fr) :
    Keeps fr r0 (State.chpPulse s g prev16) := by
  unfold State.chpPulse
  repeat' (first
    | with_reducible assumption
    | exact lor_sub hk rfl
    | extract_lets
    | with_reducible apply State.planWave_keeps
    | with_reducible apply keeps_ite
    | with_reducible apply keeps_snd_ite
    | (fail_if_success (with_reducible apply keeps_pending)); with_reducible apply keeps_chp
    | intro _
    | split
    | dsimp +zetaDelta only)

theorem State.fireEdge_keeps {fr : Nat} {r0 s : State} {l : Nat} {e : Edge}
    (h : Keeps fr r0 s) (hk : fr ||| 0x8000 = fr) :
    Keeps fr r0 (State.fireEdge s l e) := by
  unfold State.fireEdge
  repeat' (first
    | with_reducible assumption
    | exact lor_sub hk rfl
    | extract_lets
    | with_reducible apply State.setDrive_keeps
    | with_reducible apply State.setLeg_keeps
    | with_reducible apply keeps_ite
    | intro _)

theorem State.flushLeg_keeps {fr : Nat} {r0 s : State} {l : Nat} {upTo : Int}
    (h : Keeps fr r0 s) (hk : fr ||| 0x8000 = fr) :
    Keeps fr r0 (State.flushLeg s l upTo) := by
  unfold State.flushLeg
  repeat' (first
    | with_reducible assumption
    | exact lor_sub hk rfl
    | extract_lets
    | with_reducible apply State.setLeg_keeps
    | with_reducible apply State.fireEdge_keeps
    | with_reducible apply keeps_foldl
    | intro _)

theorem execPwmEdge_keeps {fr : Nat} {r0 s : State} {l : Nat}
    (h : Keeps fr r0 s) (hk : fr ||| 0x8000 = fr) :
    Answers fr r0 (execPwmEdge l s) := by
  unfold execPwmEdge
  repeat' (first
    | with_reducible apply answers_next
    | with_reducible assumption
    | exact lor_sub hk rfl
    | extract_lets
    | with_reducible apply State.setGrp_keeps
    | with_reducible apply State.fireEdge_keeps
    | with_reducible apply State.setLeg_keeps
    | with_reducible apply keeps_ite
    | intro _
    | split
    | dsimp +zetaDelta only)

theorem State.applySeal_keeps {fr : Nat} {r0 s : State} {g : Nat} {first : Bool}
    (h : Keeps fr r0 s) (hk : fr ||| 0x8800 = fr) :
    Keeps fr r0 (State.applySeal s g first) := by
  unfold State.applySeal
  repeat' (first
    | with_reducible assumption
    | exact lor_sub hk rfl
    | extract_lets
    | with_reducible apply State.setBit_keeps
    | with_reducible apply State.count_keeps
    | with_reducible apply State.setGrp_keeps
    | with_reducible apply State.markAll_keeps
    | with_reducible apply keeps_ite
    | intro _)

theorem State.fcarRequest_keeps {fr : Nat} {r0 s : State} {g : Nat} {b : List Word}
    (h : Keeps fr r0 s) (hk : fr ||| 0x8004 = fr) :
    Keeps fr r0 (State.fcarRequest s g b) := by
  unfold State.fcarRequest
  repeat' (first
    | with_reducible assumption
    | exact lor_sub hk rfl
    | extract_lets
    | with_reducible apply State.setBit_keeps
    | with_reducible apply State.setGrp_keeps
    | with_reducible apply keeps_ite
    | intro _)

theorem State.legReturn_keeps {fr : Nat} {r0 s : State} {l : Nat}
    (h : Keeps fr r0 s) (hk : fr ||| 0x8000 = fr) :
    Keeps fr r0 (State.legReturn s l) := by
  unfold State.legReturn
  repeat' (first
    | with_reducible assumption
    | exact lor_sub hk rfl
    | extract_lets
    | with_reducible apply State.setLeg_keeps
    | with_reducible apply keeps_ite
    | intro _)

theorem State.beginPeriod_keeps {fr : Nat} {r0 s : State} {g : Nat} {first : Bool}
    (h : Keeps fr r0 s) (hk : fr ||| 0x28804 = fr) :
    Keeps fr r0 (State.beginPeriod s g first) := by
  unfold State.beginPeriod
  repeat' (first
    | with_reducible assumption
    | exact lor_sub hk rfl
    | extract_lets
    | with_reducible apply State.applySeal_keeps
    | with_reducible apply State.fcarRequest_keeps
    | with_reducible apply State.setGrp_keeps
    | with_reducible apply State.setBit_keeps
    | with_reducible apply State.each_keeps
    | with_reducible apply State.legReturn_keeps
    | with_reducible apply State.planGroupLeg_keeps
    | with_reducible apply State.chpPulse_keeps
    | with_reducible apply State.chpPeriod_keeps
    | with_reducible apply keeps_ite
    | intro _
    | split
    | dsimp +zetaDelta only)

theorem State.cmtRequest_keeps {fr : Nat} {r0 s : State} {g : Nat}
    (h : Keeps fr r0 s) (hk : fr ||| 0x8000 = fr) :
    Keeps fr r0 (State.cmtRequest s g) := by
  unfold State.cmtRequest
  repeat' (first
    | with_reducible assumption
    | exact lor_sub hk rfl
    | extract_lets
    | with_reducible apply State.setGrp_keeps
    | with_reducible apply keeps_ite
    | intro _)

theorem execPwmCmtRequest_keeps {fr : Nat} {r0 s : State} {g : Nat}
    (h : Keeps fr r0 s) (hk : fr ||| 0x8000 = fr) :
    Answers fr r0 (execPwmCmtRequest g s) := by
  unfold execPwmCmtRequest
  repeat' (first
    | with_reducible apply answers_next
    | with_reducible assumption
    | exact lor_sub hk rfl
    | with_reducible apply State.cmtRequest_keeps)

theorem State.groupStart_keeps {fr : Nat} {r0 s : State} {g : Nat}
    (h : Keeps fr r0 s) (hk : fr ||| 0x418804 = fr) :
    Keeps fr r0 (State.groupStart s g) := by
  unfold State.groupStart
  repeat' (first
    | with_reducible assumption
    | exact lor_sub hk rfl
    | extract_lets
    | with_reducible apply State.setGrp_keeps
    | with_reducible apply State.diagAbort_keeps
    | with_reducible apply State.grdRestop_keeps
    | with_reducible apply State.groupLoss_keeps
    | with_reducible apply State.noteRefuse_keeps
    | with_reducible apply keeps_ite
    | with_reducible apply keeps_snd_ite
    | intro _
    | split
    | dsimp +zetaDelta only)

theorem execGroupStart_keeps {fr : Nat} {r0 s : State} {g : Nat}
    (h : Keeps fr r0 s) (hk : fr ||| 0x418804 = fr) :
    Answers fr r0 (execGroupStart g s) := by
  unfold execGroupStart
  repeat' (first
    | with_reducible apply answers_next
    | with_reducible assumption
    | exact lor_sub hk rfl
    | with_reducible apply State.groupStart_keeps
    | with_reducible apply keeps_ite
    | intro _)

theorem State.pwmStart_keeps {fr : Nat} {r0 s : State} {mask : Nat}
    (h : Keeps fr r0 s) (hk : fr ||| 0x418804 = fr) :
    Keeps fr r0 (State.pwmStart s mask) := by
  unfold State.pwmStart
  repeat' (first
    | with_reducible assumption
    | exact lor_sub hk rfl
    | with_reducible apply State.each_keeps
    | with_reducible apply State.groupStart_keeps
    | intro _)

theorem execPwmStart_keeps {fr : Nat} {r0 s : State} {mask : BitVec 8}
    (h : Keeps fr r0 s) (hk : fr ||| 0x418804 = fr) :
    Answers fr r0 (execPwmStart mask s) := by
  unfold execPwmStart
  repeat' (first
    | with_reducible apply answers_next
    | with_reducible assumption
    | exact lor_sub hk rfl
    | with_reducible apply State.pwmStart_keeps)

theorem execGroupStop_keeps {fr : Nat} {r0 s : State} {g : Nat}
    (h : Keeps fr r0 s) (hk : fr ||| 0x408004 = fr) :
    Answers fr r0 (execGroupStop g s) := by
  unfold execGroupStop
  repeat' (first
    | with_reducible apply answers_next
    | with_reducible assumption
    | exact lor_sub hk rfl
    | with_reducible apply State.groupStop_keeps
    | with_reducible apply keeps_ite
    | intro _)

theorem State.pwmStop_keeps {fr : Nat} {r0 s : State} {mask : Nat}
    (h : Keeps fr r0 s) (hk : fr ||| 0x408004 = fr) :
    Keeps fr r0 (State.pwmStop s mask) := by
  unfold State.pwmStop
  repeat' (first
    | with_reducible assumption
    | exact lor_sub hk rfl
    | with_reducible apply State.each_keeps
    | with_reducible apply State.groupStop_keeps
    | intro _)

theorem execPwmStop_keeps {fr : Nat} {r0 s : State} {mask : BitVec 8}
    (h : Keeps fr r0 s) (hk : fr ||| 0x408004 = fr) :
    Answers fr r0 (execPwmStop mask s) := by
  unfold execPwmStop
  repeat' (first
    | with_reducible apply answers_next
    | with_reducible assumption
    | exact lor_sub hk rfl
    | with_reducible apply State.pwmStop_keeps)

theorem execShootBlock_keeps {fr : Nat} {r0 s : State} {o : Nat}
    (h : Keeps fr r0 s) (hk : fr ||| 0x418804 = fr) :
    Answers fr r0 (execShootBlock o s) := by
  unfold execShootBlock
  repeat' (first
    | with_reducible apply answers_next
    | with_reducible assumption
    | exact lor_sub hk rfl
    | extract_lets
    | with_reducible apply State.setGrp_keeps
    | with_reducible apply State.setBit_keeps
    | with_reducible apply State.inc_keeps
    | with_reducible apply State.sourcePulse_keeps
    | with_reducible apply keeps_ite
    | intro _
    | split
    | dsimp +zetaDelta only)

theorem execEventChannelFire_keeps {fr : Nat} {r0 s : State} {g : Nat} {ch : Nat}
    (h : Keeps fr r0 s) (hk : fr ||| 0x800008000 = fr) :
    Answers fr r0 (execEventChannelFire g ch s) := by
  unfold execEventChannelFire
  repeat' (first
    | with_reducible apply answers_next
    | with_reducible assumption
    | exact lor_sub hk rfl
    | extract_lets
    | with_reducible apply State.setGrp_keeps
    | with_reducible apply keeps_ite
    | (fail_if_success (with_reducible apply keeps_pending)); with_reducible apply keeps_pins
    | intro _)

theorem State.alignEval_keeps {fr : Nat} {r0 s : State}
    (h : Keeps fr r0 s) (hk : fr ||| 0x8000 = fr) :
    Keeps fr r0 (State.alignEval s) := by
  unfold State.alignEval
  repeat' (first
    | with_reducible assumption
    | exact lor_sub hk rfl
    | extract_lets
    | (fail_if_success (with_reducible apply keeps_pending)); with_reducible apply keeps_pwm)

theorem State.markFrame_keeps {fr : Nat} {r0 s : State} {pidx : Nat} {err : Int}
    (h : Keeps fr r0 s) (hk : fr ||| 0x8000 = fr) :
    Keeps fr r0 (State.markFrame s pidx err) := by
  unfold State.markFrame
  repeat' (first
    | with_reducible assumption
    | exact lor_sub hk rfl
    | extract_lets
    | with_reducible apply State.alignEval_keeps
    | with_reducible apply State.each_keeps
    | with_reducible apply State.setGrp_keeps
    | with_reducible apply keeps_ite
    | with_reducible apply keeps_snd_ite
    | (fail_if_success (with_reducible apply keeps_pending)); with_reducible apply keeps_pwm
    | intro _
    | split
    | dsimp +zetaDelta only)

theorem execAlignPhaseStep_keeps {fr : Nat} {r0 s : State}
    (h : Keeps fr r0 s) (hk : fr ||| 0x8004 = fr) :
    Answers fr r0 (execAlignPhaseStep s) := by
  unfold execAlignPhaseStep
  repeat' (first
    | with_reducible apply answers_next
    | with_reducible assumption
    | exact lor_sub hk rfl
    | extract_lets
    | with_reducible apply State.alignEval_keeps
    | with_reducible apply State.inc_keeps
    | with_reducible apply keeps_ite
    | (fail_if_success (with_reducible apply keeps_pending)); with_reducible apply keeps_pwm
    | intro _)

theorem execAlignLoss_keeps {fr : Nat} {r0 s : State}
    (h : Keeps fr r0 s) (hk : fr ||| 0x8004 = fr) :
    Answers fr r0 (execAlignLoss s) := by
  unfold execAlignLoss
  repeat' (first
    | with_reducible apply answers_next
    | with_reducible assumption
    | exact lor_sub hk rfl
    | extract_lets
    | with_reducible apply State.setBit_keeps
    | (fail_if_success (with_reducible apply keeps_pending)); with_reducible apply keeps_pwm)

theorem execPwmCntRead_keeps {fr : Nat} {r0 s : State} {g : Nat}
    (h : Keeps fr r0 s) (hk : fr ||| 0x8000 = fr) :
    Answers fr r0 (execPwmCntRead g s) := by
  unfold execPwmCntRead
  repeat' (first
    | with_reducible apply answers_next
    | with_reducible assumption
    | exact lor_sub hk rfl
    | extract_lets
    | with_reducible apply State.setGrp_keeps)

theorem State.freezeAll_keeps {fr : Nat} {r0 s : State}
    (h : Keeps fr r0 s) (hk : fr ||| 0x8000 = fr) :
    Keeps fr r0 (State.freezeAll s) := by
  unfold State.freezeAll
  repeat' (first
    | with_reducible assumption
    | exact lor_sub hk rfl
    | extract_lets
    | with_reducible apply State.each_keeps
    | with_reducible apply State.setGrp_keeps
    | with_reducible apply State.setDrive_keeps
    | with_reducible apply State.quietLeg_keeps
    | with_reducible apply keeps_ite
    | intro _)

theorem State.resumeGroup_keeps {fr : Nat} {r0 s : State} {g : Nat}
    (h : Keeps fr r0 s) (hk : fr ||| 0x8004 = fr) :
    Keeps fr r0 (State.resumeGroup s g) := by
  unfold State.resumeGroup
  repeat' (first
    | with_reducible assumption
    | exact lor_sub hk rfl
    | extract_lets
    | with_reducible apply State.setGrp_keeps
    | with_reducible apply State.groupUntrip_keeps
    | with_reducible apply State.each_keeps
    | with_reducible apply State.setLeg_keeps
    | with_reducible apply State.setBit_keeps
    | with_reducible apply keeps_ite
    | with_reducible apply keeps_snd_ite
    | intro _
    | split
    | dsimp +zetaDelta only)

theorem State.resumeAll_keeps {fr : Nat} {r0 s : State} {ndiv : Nat} {rdiv : Nat}
    (h : Keeps fr r0 s) (hk : fr ||| 0x8404 = fr) :
    Keeps fr r0 (State.resumeAll s ndiv rdiv) := by
  unfold State.resumeAll
  repeat' (first
    | with_reducible assumption
    | exact lor_sub hk rfl
    | extract_lets
    | with_reducible apply State.each_keeps
    | with_reducible apply State.resumeGroup_keeps
    | (fail_if_success (with_reducible apply keeps_pending)); with_reducible apply keeps_clk
    | (fail_if_success (with_reducible apply keeps_pending)); with_reducible apply keeps_pwm
    | intro _
    | split
    | dsimp +zetaDelta only)

end Sys2Proof.Machine
end

