-- ==== Sys2Proof/Laws/KeepsTim.lean ====
section
/-!
SUPPORT. What each operation of Machine/Tim.lean keeps.
-/

namespace Sys2Proof.Machine

theorem State.setTim_keeps {fr : Nat} {r0 s : State} {x : Tim}
    (h : Keeps fr r0 s) (hk : fr ||| 0x200000000 = fr) :
    Keeps fr r0 (State.setTim s x) := by
  unfold State.setTim
  repeat' (first
    | with_reducible assumption
    | exact lor_sub hk rfl
    | (fail_if_success (with_reducible apply keeps_pending)); with_reducible apply keeps_tim)

theorem State.setPtpSlot_keeps {fr : Nat} {r0 s : State} {i : Nat} {x : PtpSlot}
    (h : Keeps fr r0 s) (hk : fr ||| 0x200000000 = fr) :
    Keeps fr r0 (State.setPtpSlot s i x) := by
  unfold State.setPtpSlot
  repeat' (first
    | with_reducible assumption
    | exact lor_sub hk rfl
    | extract_lets
    | with_reducible apply State.setTim_keeps)

theorem State.setPeer_keeps {fr : Nat} {r0 s : State} {m : Nat} {x : PeerDelay}
    (h : Keeps fr r0 s) (hk : fr ||| 0x200000000 = fr) :
    Keeps fr r0 (State.setPeer s m x) := by
  unfold State.setPeer
  repeat' (first
    | with_reducible assumption
    | exact lor_sub hk rfl
    | extract_lets
    | with_reducible apply State.setTim_keeps)

theorem State.setMac_keeps {fr : Nat} {r0 s : State} {m : Nat} {x : Mac}
    (h : Keeps fr r0 s) (hk : fr ||| 0x400000000 = fr) :
    Keeps fr r0 (State.setMac s m x) := by
  unfold State.setMac
  repeat' (first
    | with_reducible assumption
    | exact lor_sub hk rfl
    | extract_lets
    | (fail_if_success (with_reducible apply keeps_pending)); with_reducible apply keeps_eth)

theorem State.timTicks_keeps {fr : Nat} {r0 s : State} {n : Nat}
    (h : Keeps fr r0 s) (hk : fr ||| 0x200000000 = fr) :
    Keeps fr r0 (State.timTicks s n) := by
  unfold State.timTicks
  repeat' (first
    | with_reducible assumption
    | exact lor_sub hk rfl
    | extract_lets
    | with_reducible apply State.setTim_keeps
    | with_reducible apply keeps_ite
    | intro _)

theorem State.timJudge_keeps {fr : Nat} {r0 s : State}
    (h : Keeps fr r0 s) (hk : fr ||| 0x200000000 = fr) :
    Keeps fr r0 (State.timJudge s) := by
  unfold State.timJudge
  repeat' (first
    | with_reducible assumption
    | exact lor_sub hk rfl
    | extract_lets
    | with_reducible apply State.setTim_keeps)

theorem State.wallStep_keeps {fr : Nat} {r0 s : State} {delta : Int}
    (h : Keeps fr r0 s) (hk : fr ||| 0x200400000 = fr) :
    Keeps fr r0 (State.wallStep s delta) := by
  unfold State.wallStep
  repeat' (first
    | with_reducible assumption
    | exact lor_sub hk rfl
    | extract_lets
    | with_reducible apply State.setTim_keeps
    | with_reducible apply State.each_keeps
    | with_reducible apply State.setEvtEntry_keeps
    | with_reducible apply keeps_ite
    | with_reducible apply keeps_foldl
    | intro _)

theorem State.setAdj_keeps {fr : Nat} {r0 s : State} {adj : Int}
    (h : Keeps fr r0 s) (hk : fr ||| 0x200000000 = fr) :
    Keeps fr r0 (State.setAdj s adj) := by
  unfold State.setAdj
  repeat' (first
    | with_reducible assumption
    | exact lor_sub hk rfl
    | extract_lets
    | with_reducible apply State.setTim_keeps
    | with_reducible apply keeps_ite
    | intro _)

theorem State.timLearn_keeps {fr : Nat} {r0 s : State}
    (h : Keeps fr r0 s) (hk : fr ||| 0x200000000 = fr) :
    Keeps fr r0 (State.timLearn s) := by
  unfold State.timLearn
  repeat' (first
    | with_reducible assumption
    | exact lor_sub hk rfl
    | extract_lets
    | with_reducible apply State.setTim_keeps
    | with_reducible apply keeps_ite
    | intro _
    | split
    | dsimp +zetaDelta only)

theorem State.timHoldover_keeps {fr : Nat} {r0 s : State}
    (h : Keeps fr r0 s) (hk : fr ||| 0x200000006 = fr) :
    Keeps fr r0 (State.timHoldover s) := by
  unfold State.timHoldover
  repeat' (first
    | with_reducible assumption
    | exact lor_sub hk rfl
    | extract_lets
    | with_reducible apply State.takeFree_keeps
    | with_reducible apply State.setTim_keeps
    | with_reducible apply State.setBit_keeps
    | with_reducible apply State.timJudge_keeps
    | with_reducible apply keeps_ite
    | with_reducible apply keeps_snd_ite
    | with_reducible refine keeps_of_snd (by assumption) ?_
    | intro _
    | split
    | dsimp +zetaDelta only)

theorem State.takeUtc_keeps {fr : Nat} {r0 s : State} {k : Nat}
    (h : Keeps fr r0 s) (hk : fr ||| 0x200000000 = fr) :
    Keeps fr r0 (State.takeUtc s k) := by
  unfold State.takeUtc
  repeat' (first
    | with_reducible assumption
    | exact lor_sub hk rfl
    | with_reducible apply State.setTim_keeps
    | with_reducible apply keeps_ite
    | with_reducible apply keeps_snd_ite
    | intro _
    | split
    | dsimp +zetaDelta only)

theorem State.timSwitch_keeps {fr : Nat} {r0 s : State} {k : Nat}
    (h : Keeps fr r0 s) (hk : fr ||| 0x200000004 = fr) :
    Keeps fr r0 (State.timSwitch s k) := by
  unfold State.timSwitch
  repeat' (first
    | with_reducible assumption
    | exact lor_sub hk rfl
    | extract_lets
    | with_reducible apply State.setTim_keeps
    | with_reducible apply State.takeUtc_keeps
    | with_reducible apply State.inc_keeps
    | with_reducible apply State.setBit_keeps
    | with_reducible apply State.timJudge_keeps
    | with_reducible apply keeps_ite
    | with_reducible apply keeps_snd_ite
    | intro _
    | split
    | dsimp +zetaDelta only)

theorem State.timLeave_keeps {fr : Nat} {r0 s : State}
    (h : Keeps fr r0 s) (hk : fr ||| 0x200000006 = fr) :
    Keeps fr r0 (State.timLeave s) := by
  unfold State.timLeave
  repeat' (first
    | with_reducible assumption
    | exact lor_sub hk rfl
    | extract_lets
    | with_reducible apply State.setTim_keeps
    | with_reducible apply State.timSwitch_keeps
    | with_reducible apply State.timHoldover_keeps
    | with_reducible apply keeps_ite
    | intro _
    | split
    | dsimp +zetaDelta only)

theorem State.servo_keeps {fr : Nat} {r0 s : State} {off : Int}
    (h : Keeps fr r0 s) (hk : fr ||| 0x200000000 = fr) :
    Keeps fr r0 (State.servo s off) := by
  unfold State.servo
  repeat' (first
    | with_reducible assumption
    | exact lor_sub hk rfl
    | extract_lets
    | with_reducible apply State.setAdj_keeps
    | with_reducible apply State.setTim_keeps
    | with_reducible apply keeps_ite
    | intro _)

theorem State.slotFault_keeps {fr : Nat} {r0 s : State} {k : Nat}
    (h : Keeps fr r0 s) (hk : fr ||| 0x200000006 = fr) :
    Keeps fr r0 (State.slotFault s k) := by
  unfold State.slotFault
  repeat' (first
    | with_reducible assumption
    | exact lor_sub hk rfl
    | extract_lets
    | with_reducible apply State.setPtpSlot_keeps
    | with_reducible apply State.setTim_keeps
    | with_reducible apply State.timLeave_keeps
    | with_reducible apply State.setBit_keeps
    | with_reducible apply State.inc_keeps
    | with_reducible apply keeps_ite
    | intro _)

theorem State.timFollow_keeps {fr : Nat} {r0 s : State} {off : Int}
    (h : Keeps fr r0 s) (hk : fr ||| 0x200000006 = fr) :
    Keeps fr r0 (State.timFollow s off) := by
  unfold State.timFollow
  repeat' (first
    | with_reducible assumption
    | exact lor_sub hk rfl
    | extract_lets
    | with_reducible apply State.setTim_keeps
    | with_reducible apply State.slotFault_keeps
    | with_reducible apply State.timJudge_keeps
    | with_reducible apply State.timLearn_keeps
    | with_reducible apply State.servo_keeps
    | with_reducible apply keeps_ite
    | intro _)

theorem State.timOffset_keeps {fr : Nat} {r0 s : State} {k : Nat} {off : Int}
    (h : Keeps fr r0 s) (hk : fr ||| 0x200400006 = fr) :
    Keeps fr r0 (State.timOffset s k off) := by
  unfold State.timOffset
  repeat' (first
    | with_reducible assumption
    | exact lor_sub hk rfl
    | extract_lets
    | with_reducible apply State.setTim_keeps
    | with_reducible apply State.setPtpSlot_keeps
    | with_reducible apply State.takeUtc_keeps
    | with_reducible apply State.wallStep_keeps
    | with_reducible apply State.inc_keeps
    | with_reducible apply State.setBit_keeps
    | with_reducible apply State.timFollow_keeps
    | with_reducible apply State.timSwitch_keeps
    | with_reducible apply keeps_ite
    | with_reducible apply keeps_snd_ite
    | intro _
    | split
    | dsimp +zetaDelta only)

theorem State.slotSelect_keeps {fr : Nat} {r0 s : State} {k : Nat}
    (h : Keeps fr r0 s) (hk : fr ||| 0x200000006 = fr) :
    Keeps fr r0 (State.slotSelect s k) := by
  unfold State.slotSelect
  repeat' (first
    | with_reducible assumption
    | exact lor_sub hk rfl
    | extract_lets
    | with_reducible apply State.setPtpSlot_keeps
    | with_reducible apply State.timLeave_keeps
    | with_reducible apply State.timSwitch_keeps
    | with_reducible apply keeps_ite
    | intro _)

theorem State.ptpAnnounce_keeps {fr : Nat} {r0 s : State} {k : Nat} {b : List Byte}
    (h : Keeps fr r0 s) (hk : fr ||| 0x200000006 = fr) :
    Keeps fr r0 (State.ptpAnnounce s k b) := by
  unfold State.ptpAnnounce
  repeat' (first
    | with_reducible assumption
    | exact lor_sub hk rfl
    | extract_lets
    | with_reducible apply State.slotSelect_keeps
    | with_reducible apply State.setPtpSlot_keeps
    | with_reducible apply State.inc_keeps
    | with_reducible apply State.setTim_keeps
    | with_reducible apply keeps_ite
    | intro _
    | split
    | dsimp +zetaDelta only)

theorem State.ptpSync_keeps {fr : Nat} {r0 s : State} {k : Nat} {t2 : Nat} {t1 : Nat} {corr : Int}
    (h : Keeps fr r0 s) (hk : fr ||| 0x200400006 = fr) :
    Keeps fr r0 (State.ptpSync s k t2 t1 corr) := by
  unfold State.ptpSync
  repeat' (first
    | with_reducible assumption
    | exact lor_sub hk rfl
    | with_reducible apply State.timOffset_keeps)

theorem State.ptpSlotMsg_keeps {fr : Nat} {r0 s : State} {k : Nat} {t2 : Nat} {b : List Byte}
    (h : Keeps fr r0 s) (hk : fr ||| 0x200400006 = fr) :
    Keeps fr r0 (State.ptpSlotMsg s k t2 b) := by
  unfold State.ptpSlotMsg
  repeat' (first
    | with_reducible assumption
    | exact lor_sub hk rfl
    | extract_lets
    | with_reducible apply State.ptpAnnounce_keeps
    | with_reducible apply State.setPtpSlot_keeps
    | with_reducible apply State.ptpSync_keeps
    | with_reducible apply keeps_ite
    | intro _
    | split
    | dsimp +zetaDelta only)

theorem State.ptpSend_keeps {fr : Nat} {r0 s : State} {mac : Nat} {bytes : List Byte}
    (h : Keeps fr r0 s) (hk : fr ||| 0x400000000 = fr) :
    Keeps fr r0 (State.ptpSend s mac bytes) := by
  unfold State.ptpSend
  repeat' (first
    | with_reducible assumption
    | exact lor_sub hk rfl
    | extract_lets
    | with_reducible apply State.setMac_keeps)

theorem State.peerDone_keeps {fr : Nat} {r0 s : State} {mac : Nat} {t1 : Nat} {t2 : Nat} {t4 : Nat} {corr : Int} {at3 : Option Int}
    (h : Keeps fr r0 s) (hk : fr ||| 0x200000000 = fr) :
    Keeps fr r0 (State.peerDone s mac t1 t2 t4 corr at3) := by
  unfold State.peerDone
  repeat' (first
    | with_reducible assumption
    | exact lor_sub hk rfl
    | extract_lets
    | with_reducible apply State.setPeer_keeps
    | with_reducible apply keeps_ite
    | with_reducible apply keeps_snd_ite
    | intro _
    | split
    | dsimp +zetaDelta only)

theorem State.pdelayMsg_keeps {fr : Nat} {r0 s : State} {mac : Nat} {t : Nat} {b : List Byte}
    (h : Keeps fr r0 s) (hk : fr ||| 0x600000000 = fr) :
    Keeps fr r0 (State.pdelayMsg s mac t b) := by
  unfold State.pdelayMsg
  repeat' (first
    | with_reducible assumption
    | exact lor_sub hk rfl
    | extract_lets
    | with_reducible apply State.ptpSend_keeps
    | with_reducible apply State.setPeer_keeps
    | with_reducible apply State.peerDone_keeps
    | with_reducible apply keeps_ite
    | intro _
    | split
    | dsimp +zetaDelta only)

theorem execFollowUpTimeout_keeps {fr : Nat} {r0 s : State} {slot : Nat}
    (h : Keeps fr r0 s) (hk : fr ||| 0x200000000 = fr) :
    Answers fr r0 (execFollowUpTimeout slot s) := by
  unfold execFollowUpTimeout
  repeat' (first
    | with_reducible apply answers_next
    | with_reducible assumption
    | exact lor_sub hk rfl
    | extract_lets
    | with_reducible apply State.setPtpSlot_keeps
    | with_reducible apply keeps_ite
    | intro _)

theorem State.slotLost_keeps {fr : Nat} {r0 s : State} {k : Nat}
    (h : Keeps fr r0 s) (hk : fr ||| 0x200000006 = fr) :
    Keeps fr r0 (State.slotLost s k) := by
  unfold State.slotLost
  repeat' (first
    | with_reducible assumption
    | exact lor_sub hk rfl
    | extract_lets
    | with_reducible apply State.slotSelect_keeps
    | with_reducible apply State.setPtpSlot_keeps
    | split
    | dsimp +zetaDelta only)

theorem execPtpMasterLoss_keeps {fr : Nat} {r0 s : State} {slot : Nat}
    (h : Keeps fr r0 s) (hk : fr ||| 0x200000006 = fr) :
    Answers fr r0 (execPtpMasterLoss slot s) := by
  unfold execPtpMasterLoss
  repeat' (first
    | with_reducible assumption
    | exact lor_sub hk rfl
    | with_reducible apply answers_next
    | extract_lets
    | with_reducible apply State.slotLost_keeps
    | with_reducible apply State.setTim_keeps
    | with_reducible apply State.timLeave_keeps
    | with_reducible apply keeps_ite
    | with_reducible apply answers_ite
    | with_reducible apply keeps_snd_ite
    | intro _
    | split
    | dsimp +zetaDelta only)

theorem execPdelayReqSend_keeps {fr : Nat} {r0 s : State} {mac : Nat}
    (h : Keeps fr r0 s) (hk : fr ||| 0x600000000 = fr) :
    Answers fr r0 (execPdelayReqSend mac s) := by
  unfold execPdelayReqSend
  repeat' (first
    | with_reducible apply answers_next
    | with_reducible assumption
    | exact lor_sub hk rfl
    | extract_lets
    | with_reducible apply State.setPeer_keeps
    | with_reducible apply State.ptpSend_keeps
    | with_reducible apply keeps_ite
    | intro _)

theorem execResync_keeps {fr : Nat} {r0 s : State}
    (h : Keeps fr r0 s) (hk : fr ||| 0x200000000 = fr) :
    Answers fr r0 (execResync s) := by
  unfold execResync
  repeat' (first
    | with_reducible apply answers_next
    | with_reducible assumption
    | exact lor_sub hk rfl
    | extract_lets
    | with_reducible apply State.timJudge_keeps
    | with_reducible apply State.setTim_keeps)

theorem execSwitch_keeps {fr : Nat} {r0 s : State} {slot : Nat}
    (h : Keeps fr r0 s) (hk : fr ||| 0x200000006 = fr) :
    Answers fr r0 (execSwitch slot s) := by
  unfold execSwitch
  repeat' (first
    | with_reducible apply answers_next
    | with_reducible assumption
    | exact lor_sub hk rfl
    | with_reducible apply State.timSwitch_keeps
    | with_reducible apply State.timLeave_keeps
    | with_reducible apply keeps_ite
    | intro _)

theorem execTimHold_keeps {fr : Nat} {r0 s : State}
    (h : Keeps fr r0 s) (hk : fr ||| 0x200000006 = fr) :
    Answers fr r0 (execTimHold s) := by
  unfold execTimHold
  repeat' (first
    | with_reducible apply answers_next
    | with_reducible assumption
    | exact lor_sub hk rfl
    | with_reducible apply State.timHoldover_keeps)

theorem execEthLinkChange_keeps {fr : Nat} {r0 s : State} {mac : Nat} {link : BitVec 4}
    (h : Keeps fr r0 s) (hk : fr ||| 0x600000006 = fr) :
    Answers fr r0 (execEthLinkChange mac link s) := by
  unfold execEthLinkChange
  repeat' (first
    | with_reducible apply answers_next
    | with_reducible assumption
    | exact lor_sub hk rfl
    | extract_lets
    | with_reducible apply State.setMac_keeps
    | with_reducible apply State.each_keeps
    | with_reducible apply State.setPtpSlot_keeps
    | with_reducible apply State.slotSelect_keeps
    | with_reducible apply keeps_ite
    | intro _)

theorem execHoldoverUpdate_keeps {fr : Nat} {r0 s : State}
    (h : Keeps fr r0 s) (hk : fr ||| 0x200000000 = fr) :
    Answers fr r0 (execHoldoverUpdate s) := by
  unfold execHoldoverUpdate
  repeat' (first
    | with_reducible apply answers_next
    | with_reducible assumption
    | exact lor_sub hk rfl
    | extract_lets
    | with_reducible apply State.setTim_keeps
    | with_reducible apply State.timJudge_keeps
    | with_reducible apply keeps_ite
    | intro _)

theorem execRevertSwitch_keeps {fr : Nat} {r0 s : State}
    (h : Keeps fr r0 s) (hk : fr ||| 0x200000004 = fr) :
    Answers fr r0 (execRevertSwitch s) := by
  unfold execRevertSwitch
  repeat' (first
    | with_reducible apply answers_next
    | with_reducible assumption
    | exact lor_sub hk rfl
    | with_reducible apply State.timSwitch_keeps
    | with_reducible apply keeps_ite
    | intro _)

theorem execTimNsRead_keeps {fr : Nat} {r0 s : State}
    (h : Keeps fr r0 s) (hk : fr ||| 0x200000000 = fr) :
    Answers fr r0 (execTimNsRead s) := by
  unfold execTimNsRead
  repeat' (first
    | with_reducible apply answers_next
    | with_reducible assumption
    | exact lor_sub hk rfl
    | extract_lets
    | with_reducible apply State.setTim_keeps)

theorem State.ttWrite_keeps {fr : Nat} {r0 s : State} {n : Nat} {w : Word}
    (h : Keeps fr r0 s) (hk : fr ||| 0x200000004 = fr) :
    Keeps fr r0 (State.ttWrite s n w) := by
  unfold State.ttWrite
  repeat' (first
    | with_reducible assumption
    | exact lor_sub hk rfl
    | extract_lets
    | with_reducible apply State.setReg_keeps
    | with_reducible apply State.setTim_keeps
    | with_reducible apply State.setBit_keeps
    | with_reducible apply keeps_ite
    | intro _)

theorem execTimeTriggerArm_keeps {fr : Nat} {r0 s : State} {n : Nat} {w : Word}
    (h : Keeps fr r0 s) (hk : fr ||| 0x200000004 = fr) :
    Answers fr r0 (execTimeTriggerArm n w s) := by
  unfold execTimeTriggerArm
  repeat' (first
    | with_reducible apply answers_next
    | with_reducible assumption
    | exact lor_sub hk rfl
    | with_reducible apply State.ttWrite_keeps
    | with_reducible apply keeps_ite
    | intro _)

theorem execTimeTriggerFire_keeps {fr : Nat} {r0 s : State} {n : Nat}
    (h : Keeps fr r0 s) (hk : fr ||| 0x200418804 = fr) :
    Answers fr r0 (execTimeTriggerFire n s) := by
  unfold execTimeTriggerFire
  repeat' (first
    | with_reducible apply answers_next
    | with_reducible assumption
    | exact lor_sub hk rfl
    | extract_lets
    | with_reducible apply State.setTim_keeps
    | with_reducible apply State.setBit_keeps
    | with_reducible apply State.pwmStart_keeps
    | with_reducible apply State.pwmStop_keeps
    | with_reducible apply State.irq_keeps
    | with_reducible apply keeps_ite
    | intro _
    | split
    | dsimp +zetaDelta only)

theorem State.timBegin_keeps {fr : Nat} {r0 s : State}
    (h : Keeps fr r0 s) (hk : fr ||| 0x200000000 = fr) :
    Keeps fr r0 (State.timBegin s) := by
  unfold State.timBegin
  repeat' (first
    | with_reducible assumption
    | exact lor_sub hk rfl
    | extract_lets
    | with_reducible apply State.setTim_keeps)

theorem State.timCommit_keeps {fr : Nat} {r0 s : State} {old : Nat → Nat}
    (h : Keeps fr r0 s) (hk : fr ||| 0x200000006 = fr) :
    Keeps fr r0 (State.timCommit s old) := by
  unfold State.timCommit
  repeat' (first
    | with_reducible assumption
    | exact lor_sub hk rfl
    | with_reducible apply State.timJudge_keeps
    | with_reducible apply State.each_keeps
    | with_reducible apply State.timLeave_keeps
    | with_reducible apply State.setPtpSlot_keeps
    | with_reducible apply keeps_ite
    | intro _)

end Sys2Proof.Machine
end

