-- ==== Sys2Proof/Laws/KeepsMonitor.lean ====
section
/-!
SUPPORT. What each operation of Machine/Monitor.lean keeps.
-/

namespace Sys2Proof.Machine

theorem State.setMon_keeps {fr : Nat} {r0 s : State} {x : Mon}
    (h : Keeps fr r0 s) (hk : fr ||| 0x100000000 = fr) :
    Keeps fr r0 (State.setMon s x) := by
  unfold State.setMon
  repeat' (first
    | with_reducible assumption
    | exact lor_sub hk rfl
    | (fail_if_success (with_reducible apply keeps_pending)); with_reducible apply keeps_mon)

theorem State.setCore_keeps {fr : Nat} {r0 s : State} {i : Nat} {c : MonCore}
    (h : Keeps fr r0 s) (hk : fr ||| 0x100000000 = fr) :
    Keeps fr r0 (State.setCore s i c) := by
  unfold State.setCore
  repeat' (first
    | with_reducible assumption
    | exact lor_sub hk rfl
    | extract_lets
    | with_reducible apply State.setMon_keeps
    | with_reducible apply keeps_ite
    | intro _)

theorem State.monSync_keeps {fr : Nat} {r0 s : State}
    (h : Keeps fr r0 s) (hk : fr ||| 0x418804 = fr) :
    Keeps fr r0 (State.monSync s) := by
  unfold State.monSync
  repeat' (first
    | with_reducible assumption
    | exact lor_sub hk rfl
    | with_reducible apply State.putSource_keeps)

theorem State.monDrive_keeps {fr : Nat} {r0 s : State} {j : Nat} {on : Bool}
    (h : Keeps fr r0 s) (hk : fr ||| 0x100000000 = fr) :
    Keeps fr r0 (State.monDrive s j on) := by
  unfold State.monDrive
  repeat' (first
    | with_reducible assumption
    | exact lor_sub hk rfl
    | extract_lets
    | with_reducible apply State.setMon_keeps
    | with_reducible apply keeps_ite
    | intro _)

theorem State.monCommand_keeps {fr : Nat} {r0 s : State} {j : Nat} {on : Bool}
    (h : Keeps fr r0 s) (hk : fr ||| 0x100000000 = fr) :
    Keeps fr r0 (State.monCommand s j on) := by
  unfold State.monCommand
  repeat' (first
    | with_reducible assumption
    | exact lor_sub hk rfl
    | extract_lets
    | with_reducible apply State.setMon_keeps
    | with_reducible apply State.monDrive_keeps
    | with_reducible apply keeps_ite
    | intro _)

theorem State.monFault_keeps {fr : Nat} {r0 s : State} {i : Nat} {cause : Nat} {code : Nat}
    (h : Keeps fr r0 s) (hk : fr ||| 0x180418804 = fr) :
    Keeps fr r0 (State.monFault s i cause code) := by
  unfold State.monFault
  repeat' (first
    | with_reducible assumption
    | exact lor_sub hk rfl
    | extract_lets
    | with_reducible apply State.each_keeps
    | with_reducible apply State.setCore_keeps
    | with_reducible apply State.monCommand_keeps
    | with_reducible apply State.setMon_keeps
    | with_reducible apply State.monSync_keeps
    | with_reducible apply State.pairTrigger_keeps
    | intro _)

theorem State.monSweep_keeps {fr : Nat} {r0 s : State}
    (h : Keeps fr r0 s) (hk : fr ||| 0x180418804 = fr) :
    Keeps fr r0 (State.monSweep s) := by
  unfold State.monSweep
  repeat' (first
    | with_reducible assumption
    | exact lor_sub hk rfl
    | extract_lets
    | with_reducible apply State.setMon_keeps
    | with_reducible apply State.monFault_keeps
    | with_reducible apply State.each_keeps
    | with_reducible apply State.inc_keeps
    | with_reducible apply State.setBit_keeps
    | with_reducible apply State.setCore_keeps
    | with_reducible apply keeps_ite
    | intro _)

theorem State.setStl_keeps {fr : Nat} {r0 s : State} {i : Nat} {k : Nat} {x : StlChan}
    (h : Keeps fr r0 s) (hk : fr ||| 0x100000000 = fr) :
    Keeps fr r0 (State.setStl s i k x) := by
  unfold State.setStl
  repeat' (first
    | with_reducible assumption
    | exact lor_sub hk rfl
    | extract_lets
    | with_reducible apply State.setCore_keeps)

theorem State.stlSend_keeps {fr : Nat} {r0 s : State} {cores : List Nat} {k : Nat} {d1 : Word}
    (h : Keeps fr r0 s) (hk : fr ||| 0x500000000 = fr) :
    Keeps fr r0 (State.stlSend s cores k d1) := by
  unfold State.stlSend
  repeat' (first
    | with_reducible assumption
    | exact lor_sub hk rfl
    | extract_lets
    | with_reducible apply State.each_keeps
    | with_reducible apply State.setCore_keeps
    | with_reducible apply State.setMac_keeps
    | with_reducible apply keeps_ite
    | intro _)

theorem State.monPort_keeps {fr : Nat} {r0 s : State} {i : Nat} {imm : Nat} {v : Word}
    (h : Keeps fr r0 s) (hk : fr ||| 0x500418804 = fr) :
    Keeps fr r0 (State.monPort s i imm v) := by
  unfold State.monPort
  repeat' (first
    | with_reducible assumption
    | exact lor_sub hk rfl
    | extract_lets
    | with_reducible apply State.inc_keeps
    | with_reducible apply State.monCommand_keeps
    | with_reducible apply State.monSync_keeps
    | with_reducible apply State.each_keeps
    | with_reducible apply State.setCore_keeps
    | with_reducible apply State.setMon_keeps
    | with_reducible apply State.stlSend_keeps
    | with_reducible apply keeps_ite
    | intro _)

theorem State.monEffect_keeps {fr : Nat} {r0 s : State} {i : Nat} {a2 : MonOut}
    (h : Keeps fr r0 s) (hk : fr ||| 0x500418804 = fr) :
    Keeps fr r0 (State.monEffect s i a2) := by
  unfold State.monEffect
  repeat' (first
    | with_reducible assumption
    | exact lor_sub hk rfl
    | with_reducible apply State.monPort_keeps
    | split)

theorem State.monPutOut_keeps {fr : Nat} {r0 s : State} {i : Nat} {pc : Nat} {o : MonOut}
    (h : Keeps fr r0 s) (hk : fr ||| 0x580418804 = fr) :
    Keeps fr r0 (State.monPutOut s i pc o) := by
  unfold State.monPutOut
  repeat' (first
    | with_reducible assumption
    | exact lor_sub hk rfl
    | extract_lets
    | with_reducible apply State.monEffect_keeps
    | with_reducible apply State.setMon_keeps
    | with_reducible apply State.monSweep_keeps
    | with_reducible apply State.monFault_keeps
    | with_reducible apply keeps_ite
    | intro _
    | split
    | dsimp +zetaDelta only)

theorem State.monRun_keeps {fr : Nat} {r0 s : State} {i : Nat} {w : MonWord} {legal : Bool} {f : MonCore → MonEff}
    (h : Keeps fr r0 s) (hk : fr ||| 0x580418804 = fr) :
    Keeps fr r0 (State.monRun s i w legal f) := by
  unfold State.monRun
  repeat' (first
    | with_reducible assumption
    | exact lor_sub hk rfl
    | extract_lets
    | with_reducible apply State.monFault_keeps
    | with_reducible apply State.setCore_keeps
    | with_reducible apply State.setReg_keeps
    | with_reducible apply State.monPutOut_keeps
    | with_reducible apply keeps_ite
    | intro _
    | split
    | dsimp +zetaDelta only)

theorem State.monAlu_keeps {fr : Nat} {r0 s : State} {i : Nat} {w : MonWord} {f : Word → Word → Word}
    (h : Keeps fr r0 s) (hk : fr ||| 0x580418804 = fr) :
    Keeps fr r0 (State.monAlu s i w f) := by
  unfold State.monAlu
  repeat' (first
    | with_reducible assumption
    | exact lor_sub hk rfl
    | with_reducible apply State.monRun_keeps)

theorem State.monAluImm_keeps {fr : Nat} {r0 s : State} {i : Nat} {w : MonWord} {f : Word → BitVec 15 → Word}
    (h : Keeps fr r0 s) (hk : fr ||| 0x580418804 = fr) :
    Keeps fr r0 (State.monAluImm s i w f) := by
  unfold State.monAluImm
  repeat' (first
    | with_reducible assumption
    | exact lor_sub hk rfl
    | with_reducible apply State.monRun_keeps)

theorem State.monOut_keeps {fr : Nat} {r0 s : State} {i : Nat} {w : MonWord}
    (h : Keeps fr r0 s) (hk : fr ||| 0x580418804 = fr) :
    Keeps fr r0 (State.monOut s i w) := by
  unfold State.monOut
  repeat' (first
    | with_reducible assumption
    | exact lor_sub hk rfl
    | with_reducible apply State.monRun_keeps)

theorem execMonNop_keeps {fr : Nat} {r0 s : State} {core : Nat} {w : MonWord}
    (h : Keeps fr r0 s) (hk : fr ||| 0x580418804 = fr) :
    Answers fr r0 (execMonNop core w s) := by
  unfold execMonNop
  repeat' (first
    | with_reducible apply answers_next
    | with_reducible assumption
    | exact lor_sub hk rfl
    | with_reducible apply State.monRun_keeps)

theorem execMonAdd_keeps {fr : Nat} {r0 s : State} {core : Nat} {w : MonWord}
    (h : Keeps fr r0 s) (hk : fr ||| 0x580418804 = fr) :
    Answers fr r0 (execMonAdd core w s) := by
  unfold execMonAdd
  repeat' (first
    | with_reducible apply answers_next
    | with_reducible assumption
    | exact lor_sub hk rfl
    | with_reducible apply State.monAlu_keeps)

theorem execMonSub_keeps {fr : Nat} {r0 s : State} {core : Nat} {w : MonWord}
    (h : Keeps fr r0 s) (hk : fr ||| 0x580418804 = fr) :
    Answers fr r0 (execMonSub core w s) := by
  unfold execMonSub
  repeat' (first
    | with_reducible apply answers_next
    | with_reducible assumption
    | exact lor_sub hk rfl
    | with_reducible apply State.monAlu_keeps)

theorem execMonAnd_keeps {fr : Nat} {r0 s : State} {core : Nat} {w : MonWord}
    (h : Keeps fr r0 s) (hk : fr ||| 0x580418804 = fr) :
    Answers fr r0 (execMonAnd core w s) := by
  unfold execMonAnd
  repeat' (first
    | with_reducible apply answers_next
    | with_reducible assumption
    | exact lor_sub hk rfl
    | with_reducible apply State.monAlu_keeps)

theorem execMonOr_keeps {fr : Nat} {r0 s : State} {core : Nat} {w : MonWord}
    (h : Keeps fr r0 s) (hk : fr ||| 0x580418804 = fr) :
    Answers fr r0 (execMonOr core w s) := by
  unfold execMonOr
  repeat' (first
    | with_reducible apply answers_next
    | with_reducible assumption
    | exact lor_sub hk rfl
    | with_reducible apply State.monAlu_keeps)

theorem execMonXor_keeps {fr : Nat} {r0 s : State} {core : Nat} {w : MonWord}
    (h : Keeps fr r0 s) (hk : fr ||| 0x580418804 = fr) :
    Answers fr r0 (execMonXor core w s) := by
  unfold execMonXor
  repeat' (first
    | with_reducible apply answers_next
    | with_reducible assumption
    | exact lor_sub hk rfl
    | with_reducible apply State.monAlu_keeps)

theorem execMonAddi_keeps {fr : Nat} {r0 s : State} {core : Nat} {w : MonWord}
    (h : Keeps fr r0 s) (hk : fr ||| 0x580418804 = fr) :
    Answers fr r0 (execMonAddi core w s) := by
  unfold execMonAddi
  repeat' (first
    | with_reducible apply answers_next
    | with_reducible assumption
    | exact lor_sub hk rfl
    | with_reducible apply State.monAluImm_keeps)

theorem execMonShl_keeps {fr : Nat} {r0 s : State} {core : Nat} {w : MonWord}
    (h : Keeps fr r0 s) (hk : fr ||| 0x580418804 = fr) :
    Answers fr r0 (execMonShl core w s) := by
  unfold execMonShl
  repeat' (first
    | with_reducible apply answers_next
    | with_reducible assumption
    | exact lor_sub hk rfl
    | with_reducible apply State.monAluImm_keeps)

theorem execMonShr_keeps {fr : Nat} {r0 s : State} {core : Nat} {w : MonWord}
    (h : Keeps fr r0 s) (hk : fr ||| 0x580418804 = fr) :
    Answers fr r0 (execMonShr core w s) := by
  unfold execMonShr
  repeat' (first
    | with_reducible apply answers_next
    | with_reducible assumption
    | exact lor_sub hk rfl
    | with_reducible apply State.monAluImm_keeps)

theorem execMonSra_keeps {fr : Nat} {r0 s : State} {core : Nat} {w : MonWord}
    (h : Keeps fr r0 s) (hk : fr ||| 0x580418804 = fr) :
    Answers fr r0 (execMonSra core w s) := by
  unfold execMonSra
  repeat' (first
    | with_reducible apply answers_next
    | with_reducible assumption
    | exact lor_sub hk rfl
    | with_reducible apply State.monAluImm_keeps)

theorem execMonLi_keeps {fr : Nat} {r0 s : State} {core : Nat} {w : MonWord}
    (h : Keeps fr r0 s) (hk : fr ||| 0x580418804 = fr) :
    Answers fr r0 (execMonLi core w s) := by
  unfold execMonLi
  repeat' (first
    | with_reducible apply answers_next
    | with_reducible assumption
    | exact lor_sub hk rfl
    | with_reducible apply State.monRun_keeps)

theorem execMonAbsd_keeps {fr : Nat} {r0 s : State} {core : Nat} {w : MonWord}
    (h : Keeps fr r0 s) (hk : fr ||| 0x580418804 = fr) :
    Answers fr r0 (execMonAbsd core w s) := by
  unfold execMonAbsd
  repeat' (first
    | with_reducible apply answers_next
    | with_reducible assumption
    | exact lor_sub hk rfl
    | with_reducible apply State.monAlu_keeps)

theorem execMonCmpeq_keeps {fr : Nat} {r0 s : State} {core : Nat} {w : MonWord}
    (h : Keeps fr r0 s) (hk : fr ||| 0x580418804 = fr) :
    Answers fr r0 (execMonCmpeq core w s) := by
  unfold execMonCmpeq
  repeat' (first
    | with_reducible apply answers_next
    | with_reducible assumption
    | exact lor_sub hk rfl
    | with_reducible apply State.monAlu_keeps)

theorem execMonCmplt_keeps {fr : Nat} {r0 s : State} {core : Nat} {w : MonWord}
    (h : Keeps fr r0 s) (hk : fr ||| 0x580418804 = fr) :
    Answers fr r0 (execMonCmplt core w s) := by
  unfold execMonCmplt
  repeat' (first
    | with_reducible apply answers_next
    | with_reducible assumption
    | exact lor_sub hk rfl
    | with_reducible apply State.monAlu_keeps)

theorem execMonCmpltu_keeps {fr : Nat} {r0 s : State} {core : Nat} {w : MonWord}
    (h : Keeps fr r0 s) (hk : fr ||| 0x580418804 = fr) :
    Answers fr r0 (execMonCmpltu core w s) := by
  unfold execMonCmpltu
  repeat' (first
    | with_reducible apply answers_next
    | with_reducible assumption
    | exact lor_sub hk rfl
    | with_reducible apply State.monAlu_keeps)

theorem execMonLd_keeps {fr : Nat} {r0 s : State} {core : Nat} {w : MonWord}
    (h : Keeps fr r0 s) (hk : fr ||| 0x580418804 = fr) :
    Answers fr r0 (execMonLd core w s) := by
  unfold execMonLd
  repeat' (first
    | with_reducible apply answers_next
    | with_reducible assumption
    | exact lor_sub hk rfl
    | with_reducible apply State.monRun_keeps
    | with_reducible apply keeps_ite
    | intro _)

theorem execMonSt_keeps {fr : Nat} {r0 s : State} {core : Nat} {w : MonWord}
    (h : Keeps fr r0 s) (hk : fr ||| 0x580418804 = fr) :
    Answers fr r0 (execMonSt core w s) := by
  unfold execMonSt
  repeat' (first
    | with_reducible apply answers_next
    | with_reducible assumption
    | exact lor_sub hk rfl
    | with_reducible apply State.monRun_keeps
    | with_reducible apply keeps_ite
    | intro _)

theorem execMonBr_keeps {fr : Nat} {r0 s : State} {core : Nat} {w : MonWord}
    (h : Keeps fr r0 s) (hk : fr ||| 0x580418804 = fr) :
    Answers fr r0 (execMonBr core w s) := by
  unfold execMonBr
  repeat' (first
    | with_reducible apply answers_next
    | with_reducible assumption
    | exact lor_sub hk rfl
    | with_reducible apply State.monRun_keeps)

theorem State.monBranch_keeps {fr : Nat} {r0 s : State} {i : Nat} {w : MonWord} {taken : Word → Bool}
    (h : Keeps fr r0 s) (hk : fr ||| 0x580418804 = fr) :
    Keeps fr r0 (State.monBranch s i w taken) := by
  unfold State.monBranch
  repeat' (first
    | with_reducible assumption
    | exact lor_sub hk rfl
    | with_reducible apply State.monRun_keeps
    | with_reducible apply keeps_ite
    | intro _)

theorem execMonBeqz_keeps {fr : Nat} {r0 s : State} {core : Nat} {w : MonWord}
    (h : Keeps fr r0 s) (hk : fr ||| 0x580418804 = fr) :
    Answers fr r0 (execMonBeqz core w s) := by
  unfold execMonBeqz
  repeat' (first
    | with_reducible apply answers_next
    | with_reducible assumption
    | exact lor_sub hk rfl
    | with_reducible apply State.monBranch_keeps)

theorem execMonBnez_keeps {fr : Nat} {r0 s : State} {core : Nat} {w : MonWord}
    (h : Keeps fr r0 s) (hk : fr ||| 0x580418804 = fr) :
    Answers fr r0 (execMonBnez core w s) := by
  unfold execMonBnez
  repeat' (first
    | with_reducible apply answers_next
    | with_reducible assumption
    | exact lor_sub hk rfl
    | with_reducible apply State.monBranch_keeps)

theorem execMonJal_keeps {fr : Nat} {r0 s : State} {core : Nat} {w : MonWord}
    (h : Keeps fr r0 s) (hk : fr ||| 0x580418804 = fr) :
    Answers fr r0 (execMonJal core w s) := by
  unfold execMonJal
  repeat' (first
    | with_reducible apply answers_next
    | with_reducible assumption
    | exact lor_sub hk rfl
    | with_reducible apply State.monRun_keeps)

theorem execMonJr_keeps {fr : Nat} {r0 s : State} {core : Nat} {w : MonWord}
    (h : Keeps fr r0 s) (hk : fr ||| 0x580418804 = fr) :
    Answers fr r0 (execMonJr core w s) := by
  unfold execMonJr
  repeat' (first
    | with_reducible apply answers_next
    | with_reducible assumption
    | exact lor_sub hk rfl
    | with_reducible apply State.monRun_keeps)

theorem execMonIn_keeps {fr : Nat} {r0 s : State} {core : Nat} {w : MonWord}
    (h : Keeps fr r0 s) (hk : fr ||| 0x580418804 = fr) :
    Answers fr r0 (execMonIn core w s) := by
  unfold execMonIn
  repeat' (first
    | with_reducible apply answers_next
    | with_reducible assumption
    | exact lor_sub hk rfl
    | with_reducible apply State.monRun_keeps)

theorem execMonOutGen_keeps {fr : Nat} {r0 s : State} {core : Nat} {w : MonWord}
    (h : Keeps fr r0 s) (hk : fr ||| 0x580418804 = fr) :
    Answers fr r0 (execMonOutGen core w s) := by
  unfold execMonOutGen
  repeat' (first
    | with_reducible apply answers_next
    | with_reducible assumption
    | exact lor_sub hk rfl
    | with_reducible apply State.monOut_keeps)

theorem execMonOutRly_keeps {fr : Nat} {r0 s : State} {core : Nat} {w : MonWord}
    (h : Keeps fr r0 s) (hk : fr ||| 0x580418804 = fr) :
    Answers fr r0 (execMonOutRly core w s) := by
  unfold execMonOutRly
  repeat' (first
    | with_reducible apply answers_next
    | with_reducible assumption
    | exact lor_sub hk rfl
    | with_reducible apply State.monOut_keeps)

theorem execMonOutMonOff_keeps {fr : Nat} {r0 s : State} {core : Nat} {w : MonWord}
    (h : Keeps fr r0 s) (hk : fr ||| 0x580418804 = fr) :
    Answers fr r0 (execMonOutMonOff core w s) := by
  unfold execMonOutMonOff
  repeat' (first
    | with_reducible apply answers_next
    | with_reducible assumption
    | exact lor_sub hk rfl
    | with_reducible apply State.monOut_keeps)

theorem execMonOutUser_keeps {fr : Nat} {r0 s : State} {core : Nat} {w : MonWord}
    (h : Keeps fr r0 s) (hk : fr ||| 0x580418804 = fr) :
    Answers fr r0 (execMonOutUser core w s) := by
  unfold execMonOutUser
  repeat' (first
    | with_reducible apply answers_next
    | with_reducible assumption
    | exact lor_sub hk rfl
    | with_reducible apply State.monOut_keeps)

theorem execMonOutSplit_keeps {fr : Nat} {r0 s : State} {core : Nat} {w : MonWord}
    (h : Keeps fr r0 s) (hk : fr ||| 0x580418804 = fr) :
    Answers fr r0 (execMonOutSplit core w s) := by
  unfold execMonOutSplit
  repeat' (first
    | with_reducible apply answers_next
    | with_reducible assumption
    | exact lor_sub hk rfl
    | with_reducible apply State.monOut_keeps)

theorem execMonOutStlData_keeps {fr : Nat} {r0 s : State} {core : Nat} {w : MonWord}
    (h : Keeps fr r0 s) (hk : fr ||| 0x580418804 = fr) :
    Answers fr r0 (execMonOutStlData core w s) := by
  unfold execMonOutStlData
  repeat' (first
    | with_reducible apply answers_next
    | with_reducible assumption
    | exact lor_sub hk rfl
    | with_reducible apply State.monOut_keeps)

theorem execMonOutStlSend_keeps {fr : Nat} {r0 s : State} {core : Nat} {w : MonWord}
    (h : Keeps fr r0 s) (hk : fr ||| 0x580418804 = fr) :
    Answers fr r0 (execMonOutStlSend core w s) := by
  unfold execMonOutStlSend
  repeat' (first
    | with_reducible apply answers_next
    | with_reducible assumption
    | exact lor_sub hk rfl
    | with_reducible apply State.monOut_keeps)

theorem execMonPub_keeps {fr : Nat} {r0 s : State} {core : Nat} {w : MonWord}
    (h : Keeps fr r0 s) (hk : fr ||| 0x580418804 = fr) :
    Answers fr r0 (execMonPub core w s) := by
  unfold execMonPub
  repeat' (first
    | with_reducible apply answers_next
    | with_reducible assumption
    | exact lor_sub hk rfl
    | with_reducible apply State.monRun_keeps)

theorem execMonXchg_keeps {fr : Nat} {r0 s : State} {core : Nat} {w : MonWord}
    (h : Keeps fr r0 s) (hk : fr ||| 0x580418804 = fr) :
    Answers fr r0 (execMonXchg core w s) := by
  unfold execMonXchg
  repeat' (first
    | with_reducible apply answers_next
    | with_reducible assumption
    | exact lor_sub hk rfl
    | extract_lets
    | with_reducible apply State.monRun_keeps
    | with_reducible apply keeps_ite
    | intro _)

theorem execMonWait_keeps {fr : Nat} {r0 s : State} {core : Nat} {w : MonWord}
    (h : Keeps fr r0 s) (hk : fr ||| 0x580418804 = fr) :
    Answers fr r0 (execMonWait core w s) := by
  unfold execMonWait
  repeat' (first
    | with_reducible apply answers_next
    | with_reducible assumption
    | exact lor_sub hk rfl
    | with_reducible apply State.monRun_keeps)

theorem execMonSafe_keeps {fr : Nat} {r0 s : State} {core : Nat} {w : MonWord}
    (h : Keeps fr r0 s) (hk : fr ||| 0x580418804 = fr) :
    Answers fr r0 (execMonSafe core w s) := by
  unfold execMonSafe
  repeat' (first
    | with_reducible apply answers_next
    | with_reducible assumption
    | exact lor_sub hk rfl
    | with_reducible apply State.monRun_keeps)

theorem State.monStart_keeps {fr : Nat} {r0 s : State}
    (h : Keeps fr r0 s) (hk : fr ||| 0x100000000 = fr) :
    Keeps fr r0 (State.monStart s) := by
  unfold State.monStart
  repeat' (first
    | with_reducible assumption
    | exact lor_sub hk rfl
    | extract_lets
    | with_reducible apply State.setMon_keeps
    | with_reducible apply keeps_ite
    | with_reducible apply keeps_foldl
    | intro _)

theorem State.monEdge_keeps {fr : Nat} {r0 s : State} {rest : List Word} {i : Nat}
    (h : Keeps fr r0 s) (hk : fr ||| 0x100000000 = fr) :
    Keeps fr r0 (State.monEdge s rest i) := by
  unfold State.monEdge
  repeat' (first
    | with_reducible assumption
    | exact lor_sub hk rfl
    | extract_lets
    | with_reducible apply State.setCore_keeps
    | with_reducible apply keeps_ite
    | intro _)

theorem execMonitorTick_keeps {fr : Nat} {r0 s : State} {rb : BitVec 6} {parity : Bool}
    (h : Keeps fr r0 s) (hk : fr ||| 0x180418806 = fr) : Answers fr r0 (execMonitorTick rb parity s) := by
  unfold execMonitorTick
  refine answers_next ?_
  extract_lets mm x1 s1 s2 x2 s3 r s4 x3 s5
  have mon : ∀ t i a b, Keeps fr r0 t → Keeps fr r0 (t.monFault i a b) :=
    fun t i a b ht => State.monFault_keeps ht (lor_sub hk rfl)
  have h1 : Keeps fr r0 s1 := State.setMon_keeps h (lor_sub hk rfl)
  have h2 : Keeps fr r0 s2 :=
    keeps_ite (fun _ => State.monStart_keeps h1 (lor_sub hk rfl)) fun _ =>
      State.each_keeps h1 (lor_sub hk rfl) fun t i ht => keeps_ite (fun _ => mon t i 5 0 ht) fun _ => ht
  have h3 : Keeps fr r0 s3 :=
    keeps_ite (fun _ => State.setMon_keeps h2 (lor_sub hk rfl)) fun _ =>
      keeps_ite (fun _ => State.setMon_keeps h2 (lor_sub hk rfl)) fun _ => h2
  have h4 : Keeps fr r0 s4 :=
    State.each_keeps h3 (lor_sub hk rfl) fun t i ht => State.monEdge_keeps ht (lor_sub hk rfl)
  have h5 : Keeps fr r0 s5 := keeps_free_mon h4 (lor_sub hk rfl)
  exact keeps_ite (fun _ => h1) fun _ => keeps_ite (fun _ => mon s5 0 1 0 h5) fun _ => h5

theorem execSplitComplete_keeps {fr : Nat} {r0 s : State}
    (h : Keeps fr r0 s) (hk : fr ||| 0x100000000 = fr) :
    Answers fr r0 (execSplitComplete s) := by
  unfold execSplitComplete
  repeat' (first
    | with_reducible apply answers_next
    | with_reducible assumption
    | exact lor_sub hk rfl
    | extract_lets
    | with_reducible apply State.setMon_keeps
    | with_reducible apply State.monDrive_keeps
    | with_reducible apply keeps_ite
    | with_reducible apply keeps_foldl
    | intro _)

theorem execLockstepSweep_keeps {fr : Nat} {r0 s : State}
    (h : Keeps fr r0 s) (hk : fr ||| 0x180418804 = fr) :
    Answers fr r0 (execLockstepSweep s) := by
  unfold execLockstepSweep
  repeat' (first
    | with_reducible apply answers_next
    | with_reducible assumption
    | exact lor_sub hk rfl
    | extract_lets
    | with_reducible apply State.monSweep_keeps
    | with_reducible apply State.setMon_keeps
    | with_reducible apply keeps_ite
    | intro _)

theorem execClockCheck_keeps {fr : Nat} {r0 s : State} {ppm : Int}
    (h : Keeps fr r0 s) (hk : fr ||| 0x180418804 = fr) :
    Answers fr r0 (execClockCheck ppm s) := by
  unfold execClockCheck
  repeat' (first
    | with_reducible apply answers_next
    | with_reducible assumption
    | exact lor_sub hk rfl
    | with_reducible apply State.each_keeps
    | with_reducible apply State.monFault_keeps
    | with_reducible apply keeps_ite
    | intro _)

theorem execAdcmConversion_keeps {fr : Nat} {r0 s : State} {k : Nat} {nanovolts : Int}
    (h : Keeps fr r0 s) (hk : fr ||| 0x100000000 = fr) :
    Answers fr r0 (execAdcmConversion k nanovolts s) := by
  unfold execAdcmConversion
  repeat' (first
    | with_reducible apply answers_next
    | with_reducible assumption
    | exact lor_sub hk rfl
    | extract_lets
    | with_reducible apply State.setMon_keeps
    | with_reducible apply keeps_ite
    | intro _)

theorem State.setOptTest_keeps {fr : Nat} {r0 s : State} {j : Nat} {v : Nat}
    (h : Keeps fr r0 s) (hk : fr ||| 0x100000000 = fr) :
    Keeps fr r0 (State.setOptTest s j v) := by
  unfold State.setOptTest
  repeat' (first
    | with_reducible assumption
    | exact lor_sub hk rfl
    | extract_lets
    | with_reducible apply State.setMon_keeps)

theorem execOffPulseTestStart_keeps {fr : Nat} {r0 s : State} {j : Nat}
    (h : Keeps fr r0 s) (hk : fr ||| 0x100000000 = fr) :
    Answers fr r0 (execOffPulseTestStart j s) := by
  unfold execOffPulseTestStart
  repeat' (first
    | with_reducible apply answers_next
    | with_reducible assumption
    | exact lor_sub hk rfl
    | extract_lets
    | with_reducible apply State.setOptTest_keeps
    | with_reducible apply State.setMon_keeps
    | with_reducible apply keeps_ite
    | intro _)

theorem execOffPulseDropCheck_keeps {fr : Nat} {r0 s : State} {j : Nat} {active : Bool}
    (h : Keeps fr r0 s) (hk : fr ||| 0x100000000 = fr) :
    Answers fr r0 (execOffPulseDropCheck j active s) := by
  unfold execOffPulseDropCheck
  repeat' (first
    | with_reducible apply answers_next
    | with_reducible assumption
    | exact lor_sub hk rfl
    | extract_lets
    | with_reducible apply State.setMon_keeps
    | with_reducible apply keeps_ite
    | intro _)

theorem execOffPulseReturn_keeps {fr : Nat} {r0 s : State} {j : Nat}
    (h : Keeps fr r0 s) (hk : fr ||| 0x100000000 = fr) :
    Answers fr r0 (execOffPulseReturn j s) := by
  unfold execOffPulseReturn
  repeat' (first
    | with_reducible apply answers_next
    | with_reducible assumption
    | exact lor_sub hk rfl
    | extract_lets
    | with_reducible apply State.setOptTest_keeps
    | with_reducible apply State.setMon_keeps
    | with_reducible apply keeps_ite
    | intro _)

theorem execOffPulseReturnCheck_keeps {fr : Nat} {r0 s : State} {j : Nat} {active : Bool}
    (h : Keeps fr r0 s) (hk : fr ||| 0x100000004 = fr) :
    Answers fr r0 (execOffPulseReturnCheck j active s) := by
  unfold execOffPulseReturnCheck
  repeat' (first
    | with_reducible apply answers_next
    | with_reducible assumption
    | exact lor_sub hk rfl
    | extract_lets
    | with_reducible apply State.setOptTest_keeps
    | with_reducible apply State.setMon_keeps
    | with_reducible apply State.inc_keeps
    | with_reducible apply keeps_ite
    | intro _)

theorem execContactMismatch_keeps {fr : Nat} {r0 s : State} {j : Nat}
    (h : Keeps fr r0 s) (hk : fr ||| 0x100000000 = fr) :
    Answers fr r0 (execContactMismatch j s) := by
  unfold execContactMismatch
  repeat' (first
    | with_reducible apply answers_next
    | with_reducible assumption
    | exact lor_sub hk rfl
    | extract_lets
    | with_reducible apply State.setMon_keeps
    | with_reducible apply keeps_ite
    | intro _)

theorem State.monAccept_keeps {fr : Nat} {r0 s : State} {prog : List Byte} {params : List Byte}
    (h : Keeps fr r0 s) (hk : fr ||| 0x100418804 = fr) :
    Keeps fr r0 (State.monAccept s prog params) := by
  unfold State.monAccept
  repeat' (first
    | with_reducible assumption
    | exact lor_sub hk rfl
    | extract_lets
    | with_reducible apply State.each_keeps
    | with_reducible apply State.setCore_keeps
    | with_reducible apply State.monCommand_keeps
    | with_reducible apply State.monSync_keeps
    | with_reducible apply State.setMon_keeps
    | with_reducible apply keeps_ite
    | intro _)

theorem State.monBegin_keeps {fr : Nat} {r0 s : State}
    (h : Keeps fr r0 s) (hk : fr ||| 0x418804 = fr) :
    Keeps fr r0 (State.monBegin s) := by
  unfold State.monBegin
  repeat' (first
    | with_reducible assumption
    | exact lor_sub hk rfl
    | with_reducible apply State.monSync_keeps)

end Sys2Proof.Machine
end

