-- ==== Sys2Proof/Laws/KeepsStl.lean ====
section
/-!
SUPPORT. What each operation of Machine/Stl.lean keeps.
-/

namespace Sys2Proof.Machine

theorem State.stlTimeout_keeps {fr : Nat} {r0 s : State} {k : Nat}
    (h : Keeps fr r0 s) (hk : fr ||| 0x100000004 = fr) :
    Keeps fr r0 (State.stlTimeout s k) := by
  unfold State.stlTimeout
  repeat' (first
    | with_reducible assumption
    | exact lor_sub hk rfl
    | extract_lets
    | with_reducible apply State.each_keeps
    | with_reducible apply State.setStl_keeps
    | with_reducible apply State.setBit_keeps
    | with_reducible apply State.inc_keeps
    | intro _
    | split
    | dsimp +zetaDelta only)

theorem State.stlTake_keeps {fr : Nat} {r0 s : State} {i : Nat} {k : Nat} {b : List Byte} {stamp : Nat} {valid : Bool}
    (h : Keeps fr r0 s) (hk : fr ||| 0x100000004 = fr) :
    Keeps fr r0 (State.stlTake s i k b stamp valid) := by
  unfold State.stlTake
  repeat' (first
    | with_reducible assumption
    | exact lor_sub hk rfl
    | extract_lets
    | with_reducible apply State.setStl_keeps
    | with_reducible apply State.inc_keeps
    | with_reducible apply State.setBit_keeps
    | with_reducible apply keeps_ite
    | intro _
    | split
    | dsimp +zetaDelta only)

theorem State.stlReceive_keeps {fr : Nat} {r0 s : State} {b : List Byte} {stamp : Nat} {valid : Bool}
    (h : Keeps fr r0 s) (hk : fr ||| 0x100000004 = fr) :
    Keeps fr r0 (State.stlReceive s b stamp valid) := by
  unfold State.stlReceive
  repeat' (first
    | with_reducible assumption
    | exact lor_sub hk rfl
    | extract_lets
    | with_reducible apply State.each_keeps
    | with_reducible apply State.stlTimeout_keeps
    | with_reducible apply State.stlTake_keeps
    | with_reducible apply keeps_ite
    | with_reducible apply keeps_snd_ite
    | intro _
    | split
    | dsimp +zetaDelta only)

theorem execSafeChannelTimeout_keeps {fr : Nat} {r0 s : State} {k : Nat}
    (h : Keeps fr r0 s) (hk : fr ||| 0x100000004 = fr) :
    Answers fr r0 (execSafeChannelTimeout k s) := by
  unfold execSafeChannelTimeout
  repeat' (first
    | with_reducible assumption
    | exact lor_sub hk rfl
    | with_reducible apply answers_next
    | with_reducible apply State.stlTimeout_keeps
    | with_reducible apply keeps_ite
    | with_reducible apply answers_ite
    | with_reducible apply keeps_snd_ite
    | intro _
    | split
    | dsimp +zetaDelta only)

theorem State.confirmRefuse_keeps {fr : Nat} {r0 s : State}
    (h : Keeps fr r0 s) (hk : fr ||| 0x100000004 = fr) :
    Keeps fr r0 (State.confirmRefuse s) := by
  unfold State.confirmRefuse
  repeat' (first
    | with_reducible assumption
    | exact lor_sub hk rfl
    | extract_lets
    | with_reducible apply State.setBit_keeps
    | with_reducible apply State.setMon_keeps)

theorem execSafConfirm_keeps {fr : Nat} {r0 s : State} {w : Word}
    (h : Keeps fr r0 s) (hk : fr ||| 0x100000004 = fr) :
    Answers fr r0 (execSafConfirm w s) := by
  unfold execSafConfirm
  repeat' (first
    | with_reducible apply answers_next
    | with_reducible assumption
    | exact lor_sub hk rfl
    | extract_lets
    | with_reducible apply State.setMon_keeps
    | with_reducible apply State.confirmRefuse_keeps
    | with_reducible apply keeps_ite
    | intro _)

theorem State.confirmInv_keeps {fr : Nat} {r0 s : State} {w : Word}
    (h : Keeps fr r0 s) (hk : fr ||| 0x10000000c = fr) :
    Keeps fr r0 (State.confirmInv s w) := by
  unfold State.confirmInv
  repeat' (first
    | with_reducible assumption
    | exact lor_sub hk rfl
    | extract_lets
    | with_reducible apply State.confirmRefuse_keeps
    | with_reducible apply State.setBytes_keeps
    | with_reducible apply State.setMon_keeps
    | with_reducible apply keeps_ite
    | intro _
    | split
    | dsimp +zetaDelta only)

end Sys2Proof.Machine
end

