-- ==== Sys2Proof/Laws/KeepsTrestle.lean ====
section
/-!
SUPPORT. What each operation of Machine/Trestle.lean keeps.
-/

namespace Sys2Proof.Machine

theorem State.setTrs_keeps {fr : Nat} {r0 s : State} {x : Trs}
    (h : Keeps fr r0 s) (hk : fr ||| 0x40000000 = fr) :
    Keeps fr r0 (State.setTrs s x) := by
  unfold State.setTrs
  repeat' (first
    | with_reducible assumption
    | exact lor_sub hk rfl
    | (fail_if_success (with_reducible apply keeps_pending)); with_reducible apply keeps_trs)

theorem State.setRole_keeps {fr : Nat} {r0 s : State} {r : Nat} {x : RoleEntry}
    (h : Keeps fr r0 s) (hk : fr ||| 0x40000000 = fr) :
    Keeps fr r0 (State.setRole s r x) := by
  unfold State.setRole
  repeat' (first
    | with_reducible assumption
    | exact lor_sub hk rfl
    | extract_lets
    | with_reducible apply State.setTrs_keeps)

theorem State.trsSendTo_keeps {fr : Nat} {r0 s : State} {dst : Nat} {type : Nat} {epoch : Nat} {flg : Nat} {payload : List Byte}
    (h : Keeps fr r0 s) (hk : fr ||| 0x40000000 = fr) :
    Keeps fr r0 (State.trsSendTo s dst type epoch flg payload) := by
  unfold State.trsSendTo
  repeat' (first
    | with_reducible assumption
    | exact lor_sub hk rfl
    | extract_lets
    | with_reducible apply State.setTrs_keeps)

theorem State.trsSend_keeps {fr : Nat} {r0 s : State} {type : Nat} {epoch : Nat} {flg : Nat} {payload : List Byte}
    (h : Keeps fr r0 s) (hk : fr ||| 0x40000000 = fr) :
    Keeps fr r0 (State.trsSend s type epoch flg payload) := by
  unfold State.trsSend
  repeat' (first
    | with_reducible assumption
    | exact lor_sub hk rfl
    | with_reducible apply State.trsSendTo_keeps)

theorem execTrestleFrameSend_keeps {fr : Nat} {r0 s : State} {ringB : Bool}
    (h : Keeps fr r0 s) (hk : fr ||| 0x40000000 = fr) :
    Answers fr r0 (execTrestleFrameSend ringB s) := by
  unfold execTrestleFrameSend
  repeat' (first
    | with_reducible apply answers_next
    | with_reducible assumption
    | exact lor_sub hk rfl
    | extract_lets
    | with_reducible apply State.setTrs_keeps
    | with_reducible apply keeps_ite
    | intro _
    | split
    | dsimp +zetaDelta only)

theorem execTrestleLinkDown_keeps {fr : Nat} {r0 s : State} {ringB : Bool}
    (h : Keeps fr r0 s) (hk : fr ||| 0x40000000 = fr) :
    Answers fr r0 (execTrestleLinkDown ringB s) := by
  unfold execTrestleLinkDown
  repeat' (first
    | with_reducible apply answers_next
    | with_reducible assumption
    | exact lor_sub hk rfl
    | extract_lets
    | with_reducible apply State.setTrs_keeps
    | with_reducible apply keeps_ite
    | intro _)

theorem execLinkWrap_keeps {fr : Nat} {r0 s : State} {ringB : Bool}
    (h : Keeps fr r0 s) (hk : fr ||| 0x40000004 = fr) :
    Answers fr r0 (execLinkWrap ringB s) := by
  unfold execLinkWrap
  repeat' (first
    | with_reducible apply answers_next
    | with_reducible assumption
    | exact lor_sub hk rfl
    | extract_lets
    | with_reducible apply State.inc_keeps
    | with_reducible apply State.setTrs_keeps
    | with_reducible apply keeps_ite
    | intro _)

theorem execLinkUnwrap_keeps {fr : Nat} {r0 s : State} {ringB : Bool}
    (h : Keeps fr r0 s) (hk : fr ||| 0x40000000 = fr) :
    Answers fr r0 (execLinkUnwrap ringB s) := by
  unfold execLinkUnwrap
  repeat' (first
    | with_reducible apply answers_next
    | with_reducible assumption
    | exact lor_sub hk rfl
    | extract_lets
    | with_reducible apply State.setTrs_keeps
    | with_reducible apply keeps_ite
    | intro _)

theorem execDlySend_keeps {fr : Nat} {r0 s : State} {ringB : Bool}
    (h : Keeps fr r0 s) (hk : fr ||| 0x40000000 = fr) :
    Answers fr r0 (execDlySend ringB s) := by
  unfold execDlySend
  repeat' (first
    | with_reducible apply answers_next
    | with_reducible assumption
    | exact lor_sub hk rfl
    | with_reducible apply State.trsSendTo_keeps)

theorem execDlyFrame_keeps {fr : Nat} {r0 s : State} {ringB : Bool} {back : Option (Nat × Nat)}
    (h : Keeps fr r0 s) (hk : fr ||| 0x40000000 = fr) :
    Answers fr r0 (execDlyFrame ringB back s) := by
  unfold execDlyFrame
  repeat' (first
    | with_reducible assumption
    | exact lor_sub hk rfl
    | with_reducible apply answers_next
    | extract_lets
    | with_reducible apply State.trsSendTo_keeps
    | with_reducible apply State.setTrs_keeps
    | with_reducible apply keeps_ite
    | with_reducible apply answers_ite
    | with_reducible apply keeps_snd_ite
    | intro _
    | split
    | dsimp +zetaDelta only)

theorem execTrestleFrameForward_keeps {fr : Nat} {r0 s : State} {f : TrsFrame} {good : Bool}
    (h : Keeps fr r0 s) (hk : fr ||| 0x40000004 = fr) :
    Answers fr r0 (execTrestleFrameForward f good s) := by
  unfold execTrestleFrameForward
  repeat' (first
    | with_reducible apply answers_next
    | with_reducible assumption
    | exact lor_sub hk rfl
    | extract_lets
    | with_reducible apply State.inc_keeps
    | with_reducible apply State.setTrs_keeps
    | with_reducible apply keeps_ite
    | intro _)

theorem State.stale_keeps {fr : Nat} {r0 s : State}
    (h : Keeps fr r0 s) (hk : fr ||| 0x4 = fr) :
    Keeps fr r0 (State.stale s) := by
  unfold State.stale
  repeat' (first
    | with_reducible assumption
    | exact lor_sub hk rfl
    | with_reducible apply State.setBit_keeps
    | with_reducible apply State.inc_keeps)

theorem State.takeRole_keeps {fr : Nat} {r0 s : State} {r : Nat} {epoch : Nat} {cause : Nat}
    (h : Keeps fr r0 s) (hk : fr ||| 0x40000000 = fr) :
    Keeps fr r0 (State.takeRole s r epoch cause) := by
  unfold State.takeRole
  repeat' (first
    | with_reducible assumption
    | exact lor_sub hk rfl
    | extract_lets
    | with_reducible apply State.setRole_keeps
    | with_reducible apply State.trsSend_keeps)

theorem execEnumerate_keeps {fr : Nat} {r0 s : State}
    (h : Keeps fr r0 s) (hk : fr ||| 0x40000000 = fr) :
    Answers fr r0 (execEnumerate s) := by
  unfold execEnumerate
  repeat' (first
    | with_reducible apply answers_next
    | with_reducible assumption
    | exact lor_sub hk rfl
    | extract_lets
    | with_reducible apply State.setTrs_keeps)

theorem execEnumerationDone_keeps {fr : Nat} {r0 s : State} {rank : Nat} {found : Nat} {ok : Bool}
    (h : Keeps fr r0 s) (hk : fr ||| 0x40000004 = fr) :
    Answers fr r0 (execEnumerationDone rank found ok s) := by
  unfold execEnumerationDone
  repeat' (first
    | with_reducible apply answers_next
    | with_reducible assumption
    | exact lor_sub hk rfl
    | extract_lets
    | with_reducible apply State.setBit_keeps
    | with_reducible apply State.setTrs_keeps
    | with_reducible apply State.setRole_keeps
    | with_reducible apply State.each_keeps
    | with_reducible apply State.takeRole_keeps
    | with_reducible apply keeps_ite
    | intro _)

theorem execRoleAssign_keeps {fr : Nat} {r0 s : State} {role : Nat} {holder : Nat} {epoch : BitVec 16}
    (h : Keeps fr r0 s) (hk : fr ||| 0x40000004 = fr) :
    Answers fr r0 (execRoleAssign role holder epoch s) := by
  unfold execRoleAssign
  repeat' (first
    | with_reducible apply answers_next
    | with_reducible assumption
    | exact lor_sub hk rfl
    | with_reducible apply State.stale_keeps
    | with_reducible apply State.takeRole_keeps
    | with_reducible apply keeps_ite
    | intro _)

theorem State.deposed_keeps {fr : Nat} {r0 s : State} {r : Nat}
    (h : Keeps fr r0 s) (hk : fr ||| 0x80000004 = fr) :
    Keeps fr r0 (State.deposed s r) := by
  unfold State.deposed
  repeat' (first
    | with_reducible assumption
    | exact lor_sub hk rfl
    | extract_lets
    | with_reducible apply State.setBit_keeps
    | with_reducible apply State.setPair_keeps
    | with_reducible apply keeps_ite
    | intro _)

theorem execRoleFrame_keeps {fr : Nat} {r0 s : State} {f : TrsFrame}
    (h : Keeps fr r0 s) (hk : fr ||| 0xc0000004 = fr) :
    Answers fr r0 (execRoleFrame f s) := by
  unfold execRoleFrame
  repeat' (first
    | with_reducible apply answers_next
    | with_reducible assumption
    | exact lor_sub hk rfl
    | extract_lets
    | with_reducible apply State.setRole_keeps
    | with_reducible apply State.deposed_keeps
    | with_reducible apply keeps_ite
    | intro _)

theorem execAngleSend_keeps {fr : Nat} {r0 s : State}
    (h : Keeps fr r0 s) (hk : fr ||| 0x40000000 = fr) :
    Answers fr r0 (execAngleSend s) := by
  unfold execAngleSend
  repeat' (first
    | with_reducible apply answers_next
    | with_reducible assumption
    | exact lor_sub hk rfl
    | extract_lets
    | with_reducible apply State.trsSend_keeps
    | with_reducible apply keeps_ite
    | intro _)

theorem execAngleFrame_keeps {fr : Nat} {r0 s : State} {f : TrsFrame}
    (h : Keeps fr r0 s) (hk : fr ||| 0x40200004 = fr) :
    Answers fr r0 (execAngleFrame f s) := by
  unfold execAngleFrame
  repeat' (first
    | with_reducible apply answers_next
    | with_reducible assumption
    | exact lor_sub hk rfl
    | extract_lets
    | with_reducible apply State.stale_keeps
    | with_reducible apply State.setTrs_keeps
    | with_reducible apply State.angJump_keeps
    | with_reducible apply State.angSelect_keeps
    | with_reducible apply keeps_ite
    | (fail_if_success (with_reducible apply keeps_pending)); with_reducible apply keeps_ang
    | intro _)

theorem execMarkFrame_keeps {fr : Nat} {r0 s : State} {f : TrsFrame} {err : Int}
    (h : Keeps fr r0 s) (hk : fr ||| 0x8004 = fr) :
    Answers fr r0 (execMarkFrame f err s) := by
  unfold execMarkFrame
  repeat' (first
    | with_reducible apply answers_next
    | with_reducible assumption
    | exact lor_sub hk rfl
    | with_reducible apply State.markFrame_keeps
    | with_reducible apply State.stale_keeps
    | with_reducible apply keeps_ite
    | intro _)

end Sys2Proof.Machine
end

