-- ==== Sys2Proof/Laws/KeepsEth.lean ====
section
/-!
SUPPORT. What each operation of Machine/Eth.lean keeps.
-/

namespace Sys2Proof.Machine

theorem State.setEth_keeps {fr : Nat} {r0 s : State} {x : Eth}
    (h : Keeps fr r0 s) (hk : fr ||| 0x400000000 = fr) :
    Keeps fr r0 (State.setEth s x) := by
  unfold State.setEth
  repeat' (first
    | with_reducible assumption
    | exact lor_sub hk rfl
    | (fail_if_success (with_reducible apply keeps_pending)); with_reducible apply keeps_eth)

theorem State.hostFrame_keeps {fr : Nat} {r0 s : State} {f : EthFrame} {stamp : Nat} {copy : Bool} {entry : Nat}
    (h : Keeps fr r0 s) (hk : fr ||| 0x40000000c = fr) :
    Keeps fr r0 (State.hostFrame s f stamp copy entry) := by
  unfold State.hostFrame
  repeat' (first
    | with_reducible assumption
    | exact lor_sub hk rfl
    | extract_lets
    | with_reducible apply State.setBit_keeps
    | with_reducible apply State.inc_keeps
    | with_reducible apply State.setBytes_keeps
    | with_reducible apply State.setEth_keeps
    | with_reducible apply keeps_ite
    | intro _)

theorem State.ethFilter_keeps {fr : Nat} {r0 s : State} {f : EthFrame} {stamp : Nat}
    (h : Keeps fr r0 s) (hk : fr ||| 0x40000000c = fr) :
    Keeps fr r0 (State.ethFilter s f stamp) := by
  unfold State.ethFilter
  repeat' (first
    | with_reducible assumption
    | exact lor_sub hk rfl
    | with_reducible apply State.inc_keeps
    | with_reducible apply State.hostFrame_keeps
    | with_reducible apply keeps_ite
    | intro _
    | split)

theorem execEthFrameReceive_keeps {fr : Nat} {r0 s : State} {f : EthFrame}
    (h : Keeps fr r0 s) (hk : fr ||| 0x70040000e = fr) :
    Answers fr r0 (execEthFrameReceive f s) := by
  unfold execEthFrameReceive
  repeat' (first
    | with_reducible apply answers_next
    | with_reducible assumption
    | exact lor_sub hk rfl
    | extract_lets
    | with_reducible apply State.inc_keeps
    | with_reducible apply State.stlReceive_keeps
    | with_reducible apply State.ethFilter_keeps
    | with_reducible apply State.hostFrame_keeps
    | with_reducible apply State.each_keeps
    | with_reducible apply State.ptpSlotMsg_keeps
    | with_reducible apply State.pdelayMsg_keeps
    | with_reducible apply keeps_ite
    | intro _)

theorem State.setTxq_keeps {fr : Nat} {r0 s : State} {q : Nat} {x : TxQueue}
    (h : Keeps fr r0 s) (hk : fr ||| 0x400000000 = fr) :
    Keeps fr r0 (State.setTxq s q x) := by
  unfold State.setTxq
  repeat' (first
    | with_reducible assumption
    | exact lor_sub hk rfl
    | extract_lets
    | with_reducible apply State.setEth_keeps)

theorem State.descDone_keeps {fr : Nat} {r0 s : State} {q : Nat} {a : Nat} {result : Nat} {stamp : Option Nat}
    (h : Keeps fr r0 s) (hk : fr ||| 0x400000008 = fr) :
    Keeps fr r0 (State.descDone s q a result stamp) := by
  unfold State.descDone
  repeat' (first
    | with_reducible assumption
    | exact lor_sub hk rfl
    | extract_lets
    | with_reducible apply State.setBytes_keeps
    | with_reducible apply State.setByte_keeps
    | with_reducible apply State.setTxq_keeps
    | with_reducible apply keeps_ite
    | with_reducible apply keeps_snd_ite
    | intro _
    | split
    | dsimp +zetaDelta only)

theorem State.txSkip_keeps {fr : Nat} {r0 s : State} {q : Nat} {a2 : Nat}
    (h : Keeps fr r0 s) (hk : fr ||| 0x40000000c = fr) :
    Keeps fr r0 (State.txSkip s q a2) := by
  induction a2 generalizing s with
  | zero =>
    unfold State.txSkip
    repeat' (first
      | with_reducible assumption
      | exact lor_sub hk rfl
      | with_reducible apply State.setTxq_keeps
      | with_reducible apply State.setBit_keeps
      | with_reducible apply State.descDone_keeps
      | with_reducible apply keeps_ite
      | intro _
      | split)
  | succ n ih =>
    unfold State.txSkip
    repeat' (first
      | with_reducible assumption
      | exact lor_sub hk rfl
      | with_reducible apply ih
      | with_reducible apply State.setTxq_keeps
      | with_reducible apply State.setBit_keeps
      | with_reducible apply State.descDone_keeps
      | with_reducible apply keeps_ite
      | intro _
      | split)

theorem execTxqDoorbell_keeps {fr : Nat} {r0 s : State} {mask : BitVec 8}
    (h : Keeps fr r0 s) (hk : fr ||| 0x40000000c = fr) :
    Answers fr r0 (execTxqDoorbell mask s) := by
  unfold execTxqDoorbell
  repeat' (first
    | with_reducible apply answers_next
    | with_reducible assumption
    | exact lor_sub hk rfl
    | extract_lets
    | with_reducible apply State.each_keeps
    | with_reducible apply State.txSkip_keeps
    | with_reducible apply State.setTxq_keeps
    | with_reducible apply keeps_ite
    | intro _)

theorem State.ethLaunch_keeps {fr : Nat} {r0 s : State} {q : Nat} {t : Nat}
    (h : Keeps fr r0 s) (hk : fr ||| 0x400000004 = fr) :
    Keeps fr r0 (State.ethLaunch s q t) := by
  unfold State.ethLaunch
  repeat' (first
    | with_reducible assumption
    | exact lor_sub hk rfl
    | extract_lets
    | with_reducible apply State.setTxq_keeps
    | with_reducible apply State.setBit_keeps
    | with_reducible apply keeps_ite
    | intro _)

theorem State.txStart_keeps {fr : Nat} {r0 s : State} {mac : Nat} {j : TxJob}
    (h : Keeps fr r0 s) (hk : fr ||| 0x400000000 = fr) :
    Keeps fr r0 (State.txStart s mac j) := by
  unfold State.txStart
  repeat' (first
    | with_reducible assumption
    | exact lor_sub hk rfl
    | extract_lets
    | with_reducible apply State.setMac_keeps)

theorem execTimedLaunch_keeps {fr : Nat} {r0 s : State} {q : Nat}
    (h : Keeps fr r0 s) (hk : fr ||| 0x40000000c = fr) :
    Answers fr r0 (execTimedLaunch q s) := by
  unfold execTimedLaunch
  repeat' (first
    | with_reducible assumption
    | exact lor_sub hk rfl
    | with_reducible apply answers_next
    | extract_lets
    | with_reducible apply State.setTxq_keeps
    | with_reducible apply State.inc_keeps
    | with_reducible apply State.setBit_keeps
    | with_reducible apply State.descDone_keeps
    | with_reducible apply State.txSkip_keeps
    | with_reducible apply State.txStart_keeps
    | with_reducible apply keeps_ite
    | with_reducible apply answers_ite
    | with_reducible apply keeps_snd_ite
    | intro _
    | split
    | dsimp +zetaDelta only)

theorem execImmediateTransmit_keeps {fr : Nat} {r0 s : State} {mac : Nat}
    (h : Keeps fr r0 s) (hk : fr ||| 0x400000000 = fr) :
    Answers fr r0 (execImmediateTransmit mac s) := by
  unfold execImmediateTransmit
  repeat' (first
    | with_reducible apply answers_next
    | with_reducible assumption
    | exact lor_sub hk rfl
    | extract_lets
    | with_reducible apply State.txStart_keeps
    | with_reducible apply State.setMac_keeps
    | with_reducible apply keeps_ite
    | intro _
    | split
    | dsimp +zetaDelta only)

theorem execFrameLaunched_keeps {fr : Nat} {r0 s : State} {mac : Nat}
    (h : Keeps fr r0 s) (hk : fr ||| 0x60000000c = fr) :
    Answers fr r0 (execFrameLaunched mac s) := by
  unfold execFrameLaunched
  repeat' (first
    | with_reducible apply answers_next
    | with_reducible assumption
    | exact lor_sub hk rfl
    | extract_lets
    | with_reducible apply State.setMac_keeps
    | with_reducible apply State.setPeer_keeps
    | with_reducible apply State.txSkip_keeps
    | with_reducible apply State.descDone_keeps
    | with_reducible apply keeps_ite
    | intro _
    | split
    | dsimp +zetaDelta only)

theorem State.txDrop_keeps {fr : Nat} {r0 s : State} {q : Nat} {a2 : Nat}
    (h : Keeps fr r0 s) (hk : fr ||| 0x400000008 = fr) :
    Keeps fr r0 (State.txDrop s q a2) := by
  induction a2 generalizing s with
  | zero =>
    unfold State.txDrop
    repeat' (first
      | with_reducible assumption
      | exact lor_sub hk rfl
      | with_reducible apply State.descDone_keeps
      | with_reducible apply keeps_ite
      | intro _
      | split)
  | succ n ih =>
    unfold State.txDrop
    repeat' (first
      | with_reducible assumption
      | exact lor_sub hk rfl
      | with_reducible apply ih
      | with_reducible apply State.descDone_keeps
      | with_reducible apply keeps_ite
      | intro _
      | split)

theorem State.ethCommit_keeps {fr : Nat} {r0 s : State} {old : Nat × Nat}
    (h : Keeps fr r0 s) (hk : fr ||| 0x400000008 = fr) :
    Keeps fr r0 (State.ethCommit s old) := by
  unfold State.ethCommit
  repeat' (first
    | with_reducible assumption
    | exact lor_sub hk rfl
    | extract_lets
    | with_reducible apply State.setEth_keeps
    | with_reducible apply State.each_keeps
    | with_reducible apply State.setTxq_keeps
    | with_reducible apply State.txDrop_keeps
    | with_reducible apply keeps_ite
    | with_reducible apply keeps_snd_ite
    | intro _
    | split
    | dsimp +zetaDelta only)

theorem execTimeSend_keeps {fr : Nat} {r0 s : State}
    (h : Keeps fr r0 s) (hk : fr ||| 0x40000002 = fr) :
    Answers fr r0 (execTimeSend s) := by
  unfold execTimeSend
  repeat' (first
    | with_reducible apply answers_next
    | with_reducible assumption
    | exact lor_sub hk rfl
    | extract_lets
    | with_reducible apply State.takeFree_keeps
    | with_reducible apply State.trsSend_keeps
    | with_reducible apply keeps_ite
    | with_reducible refine keeps_of_snd (by assumption) ?_
    | intro _
    | split
    | dsimp +zetaDelta only)

theorem execTimeFrame_keeps {fr : Nat} {r0 s : State} {f : TrsFrame}
    (h : Keeps fr r0 s) (hk : fr ||| 0x200400006 = fr) :
    Answers fr r0 (execTimeFrame f s) := by
  unfold execTimeFrame
  repeat' (first
    | with_reducible apply answers_next
    | with_reducible assumption
    | exact lor_sub hk rfl
    | extract_lets
    | with_reducible apply State.stale_keeps
    | with_reducible apply State.setTim_keeps
    | with_reducible apply State.timOffset_keeps
    | with_reducible apply keeps_ite
    | intro _)

end Sys2Proof.Machine
end

