-- ==== Sys2Proof/Laws/KeepsMtr.lean ====
section
/-!
SUPPORT. What each operation of Machine/Mtr.lean keeps.
-/

namespace Sys2Proof.Machine

theorem State.setMtr_keeps {fr : Nat} {r0 s : State} {m : Mtr}
    (h : Keeps fr r0 s) (hk : fr ||| 0x8000000 = fr) :
    Keeps fr r0 (State.setMtr s m) := by
  unfold State.setMtr
  repeat' (first
    | with_reducible assumption
    | exact lor_sub hk rfl
    | (fail_if_success (with_reducible apply keeps_pending)); with_reducible apply keeps_mtr)

theorem State.mtrCycleEnd_keeps {fr : Nat} {r0 s : State}
    (h : Keeps fr r0 s) (hk : fr ||| 0x8000004 = fr) :
    Keeps fr r0 (State.mtrCycleEnd s) := by
  unfold State.mtrCycleEnd
  repeat' (first
    | with_reducible assumption
    | exact lor_sub hk rfl
    | extract_lets
    | with_reducible apply State.setMtr_keeps
    | with_reducible apply State.setBit_keeps
    | with_reducible apply State.inc_keeps
    | with_reducible apply keeps_ite
    | intro _
    | split
    | dsimp +zetaDelta only)

theorem State.mtrStrobe_keeps {fr : Nat} {r0 s : State}
    (h : Keeps fr r0 s) (hk : fr ||| 0x8000000 = fr) :
    Keeps fr r0 (State.mtrStrobe s) := by
  unfold State.mtrStrobe
  repeat' (first
    | with_reducible assumption
    | exact lor_sub hk rfl
    | extract_lets
    | with_reducible apply State.setMtr_keeps)

theorem State.mtrProcess_keeps {fr : Nat} {r0 s : State} {k : StrobeMark} {x : List Resample}
    (h : Keeps fr r0 s) (hk : fr ||| 0x8000004 = fr) :
    Keeps fr r0 (State.mtrProcess s k x) := by
  unfold State.mtrProcess
  repeat' (first
    | with_reducible assumption
    | exact lor_sub hk rfl
    | extract_lets
    | with_reducible apply State.setMtr_keeps
    | with_reducible apply State.mtrCycleEnd_keeps
    | with_reducible apply State.setBit_keeps
    | with_reducible apply keeps_ite
    | intro _
    | split
    | dsimp +zetaDelta only)

theorem execSnap_keeps {fr : Nat} {r0 s : State}
    (h : Keeps fr r0 s) (hk : fr ||| 0x8000004 = fr) :
    Answers fr r0 (execSnap s) := by
  unfold execSnap
  repeat' (first
    | with_reducible apply answers_next
    | with_reducible assumption
    | exact lor_sub hk rfl
    | extract_lets
    | with_reducible apply State.setMtr_keeps
    | with_reducible apply State.setReg_keeps
    | with_reducible apply State.setBit_keeps
    | with_reducible apply keeps_ite
    | intro _)

theorem State.mtrCopy_keeps {fr : Nat} {r0 s : State} {r : Nat}
    (h : Keeps fr r0 s) (hk : fr ||| 0x8000000 = fr) :
    Keeps fr r0 (State.mtrCopy s r) := by
  unfold State.mtrCopy
  repeat' (first
    | with_reducible assumption
    | exact lor_sub hk rfl
    | extract_lets
    | with_reducible apply State.setMtr_keeps)

theorem execMtrAccRead_keeps {fr : Nat} {r0 s : State} {r : Nat}
    (h : Keeps fr r0 s) (hk : fr ||| 0x8000000 = fr) :
    Answers fr r0 (execMtrAccRead r s) := by
  unfold execMtrAccRead
  repeat' (first
    | with_reducible apply answers_next
    | with_reducible assumption
    | exact lor_sub hk rfl
    | with_reducible apply State.mtrCopy_keeps)

theorem State.saveAt_keeps {fr : Nat} {r0 s : State} {slot : Nat} {record : List Byte} {emergency : Bool} {failed : Bool}
    (h : Keeps fr r0 s) (hk : fr ||| 0x8000008 = fr) :
    Keeps fr r0 (State.saveAt s slot record emergency failed) := by
  unfold State.saveAt
  repeat' (first
    | with_reducible assumption
    | exact lor_sub hk rfl
    | extract_lets
    | with_reducible apply State.setMtr_keeps
    | with_reducible apply State.setBytes_keeps)

theorem State.saveBegin_keeps {fr : Nat} {r0 s : State} {kind : Nat} {after : Option Nat}
    (h : Keeps fr r0 s) (hk : fr ||| 0x800000a = fr) :
    Keeps fr r0 (State.saveBegin s kind after) := by
  unfold State.saveBegin
  repeat' (first
    | with_reducible assumption
    | exact lor_sub hk rfl
    | extract_lets
    | with_reducible apply State.takeFree_keeps
    | with_reducible apply State.saveAt_keeps
    | with_reducible apply keeps_ite
    | with_reducible refine keeps_of_snd (by assumption) ?_
    | intro _
    | split
    | dsimp +zetaDelta only)

theorem State.saveStart_keeps {fr : Nat} {r0 s : State} {kind : Nat}
    (h : Keeps fr r0 s) (hk : fr ||| 0x800000a = fr) :
    Keeps fr r0 (State.saveStart s kind) := by
  unfold State.saveStart
  repeat' (first
    | with_reducible assumption
    | exact lor_sub hk rfl
    | with_reducible apply State.saveBegin_keeps
    | with_reducible apply keeps_ite
    | intro _)

theorem execPeriodicSave_keeps {fr : Nat} {r0 s : State}
    (h : Keeps fr r0 s) (hk : fr ||| 0x800000a = fr) :
    Answers fr r0 (execPeriodicSave s) := by
  unfold execPeriodicSave
  repeat' (first
    | with_reducible apply answers_next
    | with_reducible assumption
    | exact lor_sub hk rfl
    | with_reducible apply State.saveStart_keeps)

theorem execSave_keeps {fr : Nat} {r0 s : State}
    (h : Keeps fr r0 s) (hk : fr ||| 0x800000a = fr) :
    Answers fr r0 (execSave s) := by
  unfold execSave
  repeat' (first
    | with_reducible apply answers_next
    | with_reducible assumption
    | exact lor_sub hk rfl
    | with_reducible apply State.saveStart_keeps)

theorem State.saveDone_keeps {fr : Nat} {r0 s : State} {ok : Bool}
    (h : Keeps fr r0 s) (hk : fr ||| 0xc000800000e = fr) :
    Keeps fr r0 (State.saveDone s ok) := by
  unfold State.saveDone
  repeat' (first
    | with_reducible assumption
    | exact lor_sub hk rfl
    | extract_lets
    | with_reducible apply State.setBytes_keeps
    | with_reducible apply State.setBit_keeps
    | with_reducible apply State.inc_keeps
    | with_reducible apply State.setMtr_keeps
    | with_reducible apply State.saveAt_keeps
    | with_reducible apply State.takeFree_keeps
    | with_reducible apply State.spareEntry_keeps
    | with_reducible apply State.spareExhausted_keeps
    | with_reducible apply keeps_ite
    | with_reducible refine keeps_of_snd (by assumption) ?_
    | intro _
    | split
    | dsimp +zetaDelta only)

theorem execSaveWriteDone_keeps {fr : Nat} {r0 s : State} {ok : Bool}
    (h : Keeps fr r0 s) (hk : fr ||| 0xc000800000e = fr) :
    Answers fr r0 (execSaveWriteDone ok s) := by
  unfold execSaveWriteDone
  repeat' (first
    | with_reducible apply answers_next
    | with_reducible assumption
    | exact lor_sub hk rfl
    | with_reducible apply State.saveDone_keeps
    | with_reducible apply keeps_ite
    | intro _)

theorem execEmergencySaveDone_keeps {fr : Nat} {r0 s : State} {ok : Bool}
    (h : Keeps fr r0 s) (hk : fr ||| 0xc000800000e = fr) :
    Answers fr r0 (execEmergencySaveDone ok s) := by
  unfold execEmergencySaveDone
  repeat' (first
    | with_reducible apply answers_next
    | with_reducible assumption
    | exact lor_sub hk rfl
    | with_reducible apply State.saveDone_keeps
    | with_reducible apply keeps_ite
    | intro _)

theorem execClearAcc_keeps {fr : Nat} {r0 s : State} {key : BitVec 16}
    (h : Keeps fr r0 s) (hk : fr ||| 0x800000e = fr) :
    Answers fr r0 (execClearAcc key s) := by
  unfold execClearAcc
  repeat' (first
    | with_reducible apply answers_next
    | with_reducible assumption
    | exact lor_sub hk rfl
    | extract_lets
    | with_reducible apply State.saveStart_keeps
    | with_reducible apply State.inc_keeps
    | with_reducible apply State.setMtr_keeps
    | with_reducible apply State.setBit_keeps
    | with_reducible apply keeps_ite
    | intro _)

theorem State.mtrPowerFail_keeps {fr : Nat} {r0 s : State}
    (h : Keeps fr r0 s) (hk : fr ||| 0x800000a = fr) :
    Keeps fr r0 (State.mtrPowerFail s) := by
  unfold State.mtrPowerFail
  repeat' (first
    | with_reducible assumption
    | exact lor_sub hk rfl
    | extract_lets
    | with_reducible apply State.saveBegin_keeps
    | with_reducible apply State.setMtr_keeps
    | split
    | dsimp +zetaDelta only)

theorem State.mtrResume_keeps {fr : Nat} {r0 s : State}
    (h : Keeps fr r0 s) (hk : fr ||| 0x8000000 = fr) :
    Keeps fr r0 (State.mtrResume s) := by
  unfold State.mtrResume
  repeat' (first
    | with_reducible assumption
    | exact lor_sub hk rfl
    | extract_lets
    | with_reducible apply State.setMtr_keeps)

theorem State.mtrRestore_keeps {fr : Nat} {r0 s : State} {saveInt : Nat}
    (h : Keeps fr r0 s) (hk : fr ||| 0x8000000 = fr) :
    Keeps fr r0 (State.mtrRestore s saveInt) := by
  unfold State.mtrRestore
  repeat' (first
    | with_reducible assumption
    | exact lor_sub hk rfl
    | extract_lets
    | with_reducible apply State.setMtr_keeps
    | with_reducible apply keeps_ite
    | with_reducible apply keeps_foldl
    | intro _
    | split
    | dsimp +zetaDelta only)

theorem State.mtrCommit_keeps {fr : Nat} {r0 s : State} {changed : Bool}
    (h : Keeps fr r0 s) (hk : fr ||| 0x8000004 = fr) :
    Keeps fr r0 (State.mtrCommit s changed) := by
  unfold State.mtrCommit
  repeat' (first
    | with_reducible assumption
    | exact lor_sub hk rfl
    | extract_lets
    | with_reducible apply State.setMtr_keeps
    | with_reducible apply State.setBit_keeps
    | with_reducible apply keeps_ite
    | intro _
    | split
    | dsimp +zetaDelta only)

theorem State.mtrSchedCommit_keeps {fr : Nat} {r0 s : State}
    (h : Keeps fr r0 s) (hk : fr ||| 0x8000000 = fr) :
    Keeps fr r0 (State.mtrSchedCommit s) := by
  unfold State.mtrSchedCommit
  repeat' (first
    | with_reducible assumption
    | exact lor_sub hk rfl
    | extract_lets
    | with_reducible apply State.setMtr_keeps)

theorem State.harmWrite_keeps {fr : Nat} {r0 s : State}
    (h : Keeps fr r0 s) (hk : fr ||| 0x800000a = fr) :
    Keeps fr r0 (State.harmWrite s) := by
  unfold State.harmWrite
  repeat' (first
    | with_reducible assumption
    | exact lor_sub hk rfl
    | extract_lets
    | with_reducible apply State.takeFrees_keeps
    | with_reducible apply State.setMtr_keeps
    | with_reducible apply State.setBytes_keeps
    | with_reducible apply keeps_ite
    | with_reducible refine keeps_of_snd (by assumption) ?_
    | intro _
    | split
    | dsimp +zetaDelta only)

theorem State.rmsWrite_keeps {fr : Nat} {r0 s : State}
    (h : Keeps fr r0 s) (hk : fr ||| 0x6 = fr) :
    Keeps fr r0 (State.rmsWrite s) := by
  unfold State.rmsWrite
  repeat' (first
    | with_reducible assumption
    | exact lor_sub hk rfl
    | extract_lets
    | with_reducible apply State.each_keeps
    | with_reducible apply State.setReg_keeps
    | with_reducible apply State.takeFree_keeps
    | with_reducible apply keeps_ite
    | with_reducible refine keeps_of_snd (by assumption) ?_
    | intro _
    | split
    | dsimp +zetaDelta only)

theorem execAggregationWindowEnd_keeps {fr : Nat} {r0 s : State}
    (h : Keeps fr r0 s) (hk : fr ||| 0x800000e = fr) :
    Answers fr r0 (execAggregationWindowEnd s) := by
  unfold execAggregationWindowEnd
  repeat' (first
    | with_reducible apply answers_next
    | with_reducible assumption
    | exact lor_sub hk rfl
    | extract_lets
    | with_reducible apply State.rmsWrite_keeps
    | with_reducible apply State.harmWrite_keeps
    | with_reducible apply State.setMtr_keeps
    | with_reducible apply keeps_ite
    | intro _)

theorem State.pmuTick_keeps {fr : Nat} {r0 s : State} {from' : Nat}
    (h : Keeps fr r0 s) (hk : fr ||| 0x8000000 = fr) :
    Keeps fr r0 (State.pmuTick s from') := by
  unfold State.pmuTick
  repeat' (first
    | with_reducible assumption
    | exact lor_sub hk rfl
    | extract_lets
    | with_reducible apply State.setMtr_keeps
    | with_reducible apply keeps_ite
    | with_reducible apply keeps_snd_ite
    | intro _
    | split
    | dsimp +zetaDelta only)

theorem State.pmuTake_keeps {fr : Nat} {r0 s : State} {k : StrobeMark} {x : List Resample}
    (h : Keeps fr r0 s) (hk : fr ||| 0x8000000 = fr) :
    Keeps fr r0 (State.pmuTake s k x) := by
  unfold State.pmuTake
  repeat' (first
    | with_reducible assumption
    | exact lor_sub hk rfl
    | with_reducible apply State.setMtr_keeps
    | with_reducible apply keeps_ite
    | with_reducible apply keeps_snd_ite
    | intro _
    | split
    | dsimp +zetaDelta only)

theorem execPmuReport_keeps {fr : Nat} {r0 s : State}
    (h : Keeps fr r0 s) (hk : fr ||| 0x800000c = fr) :
    Answers fr r0 (execPmuReport s) := by
  unfold execPmuReport
  repeat' (first
    | with_reducible assumption
    | exact lor_sub hk rfl
    | with_reducible apply answers_next
    | extract_lets
    | with_reducible apply State.setBytes_keeps
    | with_reducible apply State.setMtr_keeps
    | with_reducible apply State.setBit_keeps
    | with_reducible apply State.irq_keeps
    | with_reducible apply keeps_ite
    | with_reducible apply answers_ite
    | with_reducible apply keeps_snd_ite
    | intro _
    | split
    | dsimp +zetaDelta only)

end Sys2Proof.Machine
end

