-- ==== Sys2Proof/Laws/KeepsSdm.lean ====
section
/-!
SUPPORT. What each operation of Machine/Sdm.lean keeps.
-/

namespace Sys2Proof.Machine

theorem State.setSdmCh_keeps {fr : Nat} {r0 s : State} {k : Nat} {x : SdmCh}
    (h : Keeps fr r0 s) (hk : fr ||| 0x80000 = fr) :
    Keeps fr r0 (State.setSdmCh s k x) := by
  unfold State.setSdmCh
  repeat' (first
    | with_reducible assumption
    | exact lor_sub hk rfl
    | extract_lets
    | (fail_if_success (with_reducible apply keeps_pending)); with_reducible apply keeps_sdm)

theorem execSdmCtlWrite_keeps {fr : Nat} {r0 s : State} {k : Nat} {w : Word}
    (h : Keeps fr r0 s) (hk : fr ||| 0x80004 = fr) :
    Answers fr r0 (execSdmCtlWrite k w s) := by
  unfold execSdmCtlWrite
  repeat' (first
    | with_reducible apply answers_next
    | with_reducible assumption
    | exact lor_sub hk rfl
    | extract_lets
    | with_reducible apply State.setSdmCh_keeps
    | with_reducible apply State.setBit_keeps
    | with_reducible apply keeps_ite
    | intro _)

theorem State.sdmMetering_keeps {fr : Nat} {r0 s : State} {k : Nat} {lo : BitVec 28} {hi : BitVec 28} {nLo : Nat} {nHi : Nat}
    (h : Keeps fr r0 s) (hk : fr ||| 0x80004 = fr) :
    Keeps fr r0 (State.sdmMetering s k lo hi nLo nHi) := by
  unfold State.sdmMetering
  repeat' (first
    | with_reducible assumption
    | exact lor_sub hk rfl
    | extract_lets
    | with_reducible apply State.inc_keeps
    | with_reducible apply State.setSdmCh_keeps
    | with_reducible apply State.count_keeps
    | with_reducible apply State.setBit_keeps
    | with_reducible apply keeps_ite
    | with_reducible apply keeps_snd_ite
    | intro _
    | split
    | dsimp +zetaDelta only)

theorem State.sdmTracking_keeps {fr : Nat} {r0 s : State} {k : Nat} {value : BitVec 28} {ovl : Nat}
    (h : Keeps fr r0 s) (hk : fr ||| 0x80000 = fr) :
    Keeps fr r0 (State.sdmTracking s k value ovl) := by
  unfold State.sdmTracking
  repeat' (first
    | with_reducible assumption
    | exact lor_sub hk rfl
    | extract_lets
    | with_reducible apply State.setSdmCh_keeps
    | with_reducible apply keeps_ite
    | with_reducible apply keeps_snd_ite
    | intro _
    | split
    | dsimp +zetaDelta only)

theorem execSdmOutput_keeps {fr : Nat} {r0 s : State} {k : Nat} {x : SdmSample}
    (h : Keeps fr r0 s) (hk : fr ||| 0x80004 = fr) :
    Answers fr r0 (execSdmOutput k x s) := by
  unfold execSdmOutput
  repeat' (first
    | with_reducible assumption
    | exact lor_sub hk rfl
    | with_reducible apply answers_next
    | with_reducible apply State.sdmMetering_keeps
    | with_reducible apply State.sdmTracking_keeps
    | with_reducible apply keeps_ite
    | with_reducible apply answers_ite
    | with_reducible apply keeps_snd_ite
    | intro _
    | split
    | dsimp +zetaDelta only)

theorem State.resampleAt_keeps {fr : Nat} {r0 s : State} {k : Nat} {t : Nat}
    (h : Keeps fr r0 s) (hk : fr ||| 0x2 = fr) :
    Keeps fr r0 (State.resampleAt s k t).2 := by
  unfold State.resampleAt
  repeat' (first
    | with_reducible assumption
    | exact lor_sub hk rfl
    | extract_lets
    | with_reducible apply State.takeFree_keeps
    | with_reducible apply keeps_ite
    | with_reducible apply keeps_snd_ite
    | with_reducible apply keeps_foldl
    | with_reducible refine keeps_of_snd (by assumption) ?_
    | intro _
    | split
    | dsimp +zetaDelta only)

theorem State.resamples_keeps {fr : Nat} {r0 s : State} {t : Nat} {a2 : Nat}
    (h : Keeps fr r0 s) (hk : fr ||| 0x2 = fr) :
    Keeps fr r0 (State.resamples s t a2).2 := by
  induction a2 with
  | zero => exact h
  | succ n ih =>
    unfold State.resamples
    generalize State.resamples s t n = p at ih ⊢
    obtain ⟨xs, u⟩ := p
    dsimp only at ih ⊢
    split
    · exact State.resampleAt_keeps ih (lor_sub hk rfl)
    · exact ih

theorem State.sdmResample_keeps {fr : Nat} {r0 s : State} {k : Nat} {r : Resample}
    (h : Keeps fr r0 s) (hk : fr ||| 0x80000 = fr) :
    Keeps fr r0 (State.sdmResample s k r) := by
  unfold State.sdmResample
  repeat' (first
    | with_reducible assumption
    | exact lor_sub hk rfl
    | extract_lets
    | with_reducible apply State.setSdmCh_keeps
    | with_reducible apply keeps_ite
    | with_reducible apply keeps_snd_ite
    | intro _
    | split
    | dsimp +zetaDelta only)

theorem State.sdmReconfigure_keeps {fr : Nat} {r0 s : State}
    (h : Keeps fr r0 s) (hk : fr ||| 0x80000 = fr) :
    Keeps fr r0 (State.sdmReconfigure s) := by
  unfold State.sdmReconfigure
  repeat' (first
    | with_reducible assumption
    | exact lor_sub hk rfl
    | extract_lets
    | with_reducible apply State.each_keeps
    | with_reducible apply State.setSdmCh_keeps
    | with_reducible apply keeps_ite
    | intro _)

theorem State.sdmClock_keeps {fr : Nat} {r0 s : State} {lost : Bool}
    (h : Keeps fr r0 s) (hk : fr ||| 0x80004 = fr) :
    Keeps fr r0 (State.sdmClock s lost) := by
  unfold State.sdmClock
  repeat' (first
    | with_reducible assumption
    | exact lor_sub hk rfl
    | extract_lets
    | with_reducible apply State.setBit_keeps
    | with_reducible apply State.each_keeps
    | with_reducible apply State.setSdmCh_keeps
    | with_reducible apply keeps_ite
    | (fail_if_success (with_reducible apply keeps_pending)); with_reducible apply keeps_sdm
    | intro _)

end Sys2Proof.Machine
end

