-- ==== Sys2Proof/Laws/KeepsRec.lean ====
section
/-!
SUPPORT. What each operation of Machine/Rec.lean keeps.
-/

namespace Sys2Proof.Machine

theorem State.setRecUnit_keeps {fr : Nat} {r0 s : State} {n : Nat} {u : RecUnit}
    (h : Keeps fr r0 s) (hk : fr ||| 0x10000000 = fr) :
    Keeps fr r0 (State.setRecUnit s n u) := by
  unfold State.setRecUnit
  repeat' (first
    | with_reducible assumption
    | exact lor_sub hk rfl
    | extract_lets
    | (fail_if_success (with_reducible apply keeps_pending)); with_reducible apply keeps_recd)

theorem State.chanSample_keeps {fr : Nat} {r0 s : State} {c : Nat} {a : ChanAcc}
    (h : Keeps fr r0 s) (hk : fr ||| 0x2 = fr) :
    Keeps fr r0 (State.chanSample s c a).2 := by
  unfold State.chanSample
  repeat' (first
    | with_reducible assumption
    | exact lor_sub hk rfl
    | with_reducible apply State.takeFree_keeps
    | with_reducible apply keeps_ite
    | with_reducible apply keeps_snd_ite
    | with_reducible refine keeps_of_snd (by assumption) ?_
    | intro _
    | split)

theorem State.recRaw_keeps {fr : Nat} {r0 s : State} {n : Nat} {x : List Resample} {k : StrobeMark}
    (h : Keeps fr r0 s) (hk : fr ||| 0x10000000 = fr) :
    Keeps fr r0 (State.recRaw s n x k) := by
  unfold State.recRaw
  repeat' (first
    | with_reducible assumption
    | exact lor_sub hk rfl
    | extract_lets
    | with_reducible apply State.setRecUnit_keeps
    | with_reducible apply keeps_ite
    | with_reducible apply keeps_snd_ite
    | with_reducible apply keeps_foldl
    | intro _
    | split
    | dsimp +zetaDelta only)

theorem State.recClock_keeps {fr : Nat} {r0 s : State} {clk : Nat} {arg : Nat} {x : List Resample} {k : StrobeMark}
    (h : Keeps fr r0 s) (hk : fr ||| 0x10000000 = fr) :
    Keeps fr r0 (State.recClock s clk arg x k) := by
  unfold State.recClock
  repeat' (first
    | with_reducible assumption
    | exact lor_sub hk rfl
    | extract_lets
    | with_reducible apply State.each_keeps
    | with_reducible apply State.recRaw_keeps
    | with_reducible apply keeps_ite
    | with_reducible apply keeps_snd_ite
    | intro _
    | split
    | dsimp +zetaDelta only)

theorem State.recStrobe_keeps {fr : Nat} {r0 s : State}
    (h : Keeps fr r0 s) (hk : fr ||| 0x10000000 = fr) :
    Keeps fr r0 (State.recStrobe s) := by
  unfold State.recStrobe
  repeat' (first
    | with_reducible assumption
    | exact lor_sub hk rfl
    | (fail_if_success (with_reducible apply keeps_pending)); with_reducible apply keeps_recd
    | intro _
    | split
    | dsimp +zetaDelta only)

theorem State.mtrStream_keeps {fr : Nat} {r0 s : State}
    (h : Keeps fr r0 s) (hk : fr ||| 0x18080006 = fr) :
    Keeps fr r0 (State.mtrStream s) := by
  unfold State.mtrStream
  repeat' (first
    | with_reducible assumption
    | exact lor_sub hk rfl
    | extract_lets
    | with_reducible apply State.setMtr_keeps
    | with_reducible apply State.resamples_keeps
    | with_reducible apply State.each_keeps
    | with_reducible apply State.sdmResample_keeps
    | with_reducible apply State.mtrProcess_keeps
    | with_reducible apply State.pmuTake_keeps
    | with_reducible apply State.recClock_keeps
    | with_reducible refine keeps_of_snd (by assumption) ?_
    | intro _
    | split
    | dsimp +zetaDelta only)

theorem State.recStream_keeps {fr : Nat} {r0 s : State}
    (h : Keeps fr r0 s) (hk : fr ||| 0x10000002 = fr) :
    Keeps fr r0 (State.recStream s) := by
  unfold State.recStream
  repeat' (first
    | with_reducible assumption
    | exact lor_sub hk rfl
    | extract_lets
    | with_reducible apply State.resamples_keeps
    | with_reducible apply State.recClock_keeps
    | (fail_if_success (with_reducible apply keeps_pending)); with_reducible apply keeps_recd
    | with_reducible refine keeps_of_snd (by assumption) ?_
    | intro _
    | split
    | dsimp +zetaDelta only)

theorem execMtrResample_keeps {fr : Nat} {r0 s : State} {stream : Bool}
    (h : Keeps fr r0 s) (hk : fr ||| 0x18080006 = fr) :
    Answers fr r0 (execMtrResample stream s) := by
  unfold execMtrResample
  repeat' (first
    | with_reducible assumption
    | exact lor_sub hk rfl
    | with_reducible apply answers_next
    | with_reducible apply State.recStream_keeps
    | with_reducible apply State.mtrStream_keeps
    | with_reducible apply keeps_ite
    | with_reducible apply answers_ite
    | with_reducible apply keeps_snd_ite
    | intro _
    | split
    | dsimp +zetaDelta only)

theorem State.recWords_keeps {fr : Nat} {r0 s : State} {u : RecUnit} {a2 : Nat}
    (h : Keeps fr r0 s) (hk : fr ||| 0x2 = fr) :
    Keeps fr r0 (State.recWords s u a2).2 := by
  induction a2 generalizing s with
  | zero =>
    unfold State.recWords
    repeat' (first
      | with_reducible assumption
      | exact lor_sub hk rfl
      | with_reducible apply State.chanSample_keeps
      | with_reducible apply keeps_snd_ite
      | with_reducible refine keeps_of_snd (by assumption) ?_
      | split)
  | succ n ih =>
    unfold State.recWords
    repeat' (first
      | with_reducible assumption
      | exact lor_sub hk rfl
      | with_reducible apply ih
      | with_reducible apply State.chanSample_keeps
      | with_reducible apply keeps_snd_ite
      | with_reducible refine keeps_of_snd (by assumption) ?_
      | split)

theorem State.recSampleNow_keeps {fr : Nat} {r0 s : State} {n : Nat}
    (h : Keeps fr r0 s) (hk : fr ||| 0x2 = fr) :
    Keeps fr r0 (State.recSampleNow s n).2 := by
  unfold State.recSampleNow
  repeat' (first
    | with_reducible assumption
    | exact lor_sub hk rfl
    | extract_lets
    | with_reducible apply State.recWords_keeps
    | with_reducible apply keeps_ite
    | with_reducible apply keeps_snd_ite
    | with_reducible refine keeps_of_snd (by assumption) ?_
    | intro _
    | split
    | dsimp +zetaDelta only)

theorem execRecSample_keeps {fr : Nat} {r0 s : State} {n : Nat}
    (h : Keeps fr r0 s) (hk : fr ||| 0x50000002 = fr) :
    Answers fr r0 (execRecSample n s) := by
  unfold execRecSample
  repeat' (first
    | with_reducible apply answers_next
    | with_reducible assumption
    | exact lor_sub hk rfl
    | extract_lets
    | with_reducible apply State.recSampleNow_keeps
    | with_reducible apply State.setRecUnit_keeps
    | with_reducible apply State.trsSend_keeps
    | with_reducible apply keeps_ite
    | with_reducible refine keeps_of_snd (by assumption) ?_
    | intro _
    | split
    | dsimp +zetaDelta only)

theorem State.recArmed_keeps {fr : Nat} {r0 s : State} {n : Nat}
    (h : Keeps fr r0 s) (hk : fr ||| 0x10000004 = fr) :
    Keeps fr r0 (State.recArmed s n) := by
  unfold State.recArmed
  repeat' (first
    | with_reducible assumption
    | exact lor_sub hk rfl
    | extract_lets
    | with_reducible apply State.maxReg_keeps
    | with_reducible apply State.setRecUnit_keeps
    | split
    | dsimp +zetaDelta only)

theorem State.recTrig_keeps {fr : Nat} {r0 s : State} {n : Nat} {kind : Nat} {index : Nat}
    (h : Keeps fr r0 s) (hk : fr ||| 0x10000004 = fr) :
    Keeps fr r0 (State.recTrig s n kind index) := by
  unfold State.recTrig
  repeat' (first
    | with_reducible assumption
    | exact lor_sub hk rfl
    | extract_lets
    | with_reducible apply State.recArmed_keeps
    | with_reducible apply State.setRecUnit_keeps
    | with_reducible apply State.inc_keeps
    | with_reducible apply State.setBit_keeps
    | with_reducible apply keeps_ite
    | with_reducible apply keeps_snd_ite
    | intro _
    | split
    | dsimp +zetaDelta only)

theorem State.recPatterns_keeps {fr : Nat} {r0 s : State} {n : Nat}
    (h : Keeps fr r0 s) (hk : fr ||| 0x10000000 = fr) :
    Keeps fr r0 (State.recPatterns s n) := by
  unfold State.recPatterns
  repeat' (first
    | with_reducible assumption
    | exact lor_sub hk rfl
    | extract_lets
    | with_reducible apply State.setRecUnit_keeps
    | with_reducible apply keeps_ite
    | with_reducible apply keeps_snd_ite
    | with_reducible apply keeps_foldl
    | intro _
    | split
    | dsimp +zetaDelta only)

theorem State.recFire_keeps {fr : Nat} {r0 s : State} {n : Nat} {b : Nat}
    (h : Keeps fr r0 s) (hk : fr ||| 0x10000004 = fr) :
    Keeps fr r0 (State.recFire s n b) := by
  unfold State.recFire
  repeat' (first
    | with_reducible assumption
    | exact lor_sub hk rfl
    | extract_lets
    | with_reducible apply State.setRecUnit_keeps
    | with_reducible apply State.recTrig_keeps
    | with_reducible apply keeps_ite
    | with_reducible apply keeps_snd_ite
    | intro _
    | split
    | dsimp +zetaDelta only)

theorem State.recEdge_keeps {fr : Nat} {r0 s : State}
    (h : Keeps fr r0 s) (hk : fr ||| 0x10000004 = fr) :
    Keeps fr r0 (State.recEdge s) := by
  unfold State.recEdge
  repeat' (first
    | with_reducible assumption
    | exact lor_sub hk rfl
    | with_reducible apply State.each_keeps
    | with_reducible apply State.recPatterns_keeps
    | with_reducible apply State.recFire_keeps
    | intro _
    | split
    | dsimp +zetaDelta only)

theorem execRecTrigger_keeps {fr : Nat} {r0 s : State} {n : Nat} {kind : Nat} {index : Nat}
    (h : Keeps fr r0 s) (hk : fr ||| 0x10000004 = fr) :
    Answers fr r0 (execRecTrigger n kind index s) := by
  unfold execRecTrigger
  repeat' (first
    | with_reducible assumption
    | exact lor_sub hk rfl
    | with_reducible apply answers_next
    | with_reducible apply State.recFire_keeps
    | with_reducible apply State.recPatterns_keeps
    | with_reducible apply State.recTrig_keeps
    | with_reducible apply keeps_ite
    | with_reducible apply answers_ite
    | with_reducible apply keeps_snd_ite
    | intro _
    | split
    | dsimp +zetaDelta only)

theorem State.recEvent_keeps {fr : Nat} {r0 s : State} {i : Nat}
    (h : Keeps fr r0 s) (hk : fr ||| 0x10000000 = fr) :
    Keeps fr r0 (State.recEvent s i) := by
  unfold State.recEvent
  repeat' (first
    | with_reducible assumption
    | exact lor_sub hk rfl
    | extract_lets
    | with_reducible apply State.each_keeps
    | with_reducible apply State.setRecUnit_keeps
    | intro _)

theorem execRecCmdTrigger_keeps {fr : Nat} {r0 s : State} {mask : BitVec 4}
    (h : Keeps fr r0 s) (hk : fr ||| 0x10000004 = fr) :
    Answers fr r0 (execRecCmdTrigger mask s) := by
  unfold execRecCmdTrigger
  repeat' (first
    | with_reducible apply answers_next
    | with_reducible assumption
    | exact lor_sub hk rfl
    | with_reducible apply State.each_keeps
    | with_reducible apply State.recTrig_keeps
    | with_reducible apply keeps_ite
    | intro _)

theorem execRecArm_keeps {fr : Nat} {r0 s : State} {mask : BitVec 4}
    (h : Keeps fr r0 s) (hk : fr ||| 0x10000004 = fr) :
    Answers fr r0 (execRecArm mask s) := by
  unfold execRecArm
  repeat' (first
    | with_reducible apply answers_next
    | with_reducible assumption
    | exact lor_sub hk rfl
    | extract_lets
    | with_reducible apply State.each_keeps
    | with_reducible apply State.setRecUnit_keeps
    | with_reducible apply State.recArmed_keeps
    | with_reducible apply keeps_ite
    | intro _
    | split
    | dsimp +zetaDelta only)

theorem execRecDisarm_keeps {fr : Nat} {r0 s : State} {mask : BitVec 4}
    (h : Keeps fr r0 s) (hk : fr ||| 0x10000000 = fr) :
    Answers fr r0 (execRecDisarm mask s) := by
  unfold execRecDisarm
  repeat' (first
    | with_reducible apply answers_next
    | with_reducible assumption
    | exact lor_sub hk rfl
    | extract_lets
    | with_reducible apply State.each_keeps
    | with_reducible apply State.setRecUnit_keeps
    | intro _)

theorem execRecRearm_keeps {fr : Nat} {r0 s : State} {n : Nat}
    (h : Keeps fr r0 s) (hk : fr ||| 0x10000004 = fr) :
    Answers fr r0 (execRecRearm n s) := by
  unfold execRecRearm
  repeat' (first
    | with_reducible apply answers_next
    | with_reducible assumption
    | exact lor_sub hk rfl
    | extract_lets
    | with_reducible apply State.recArmed_keeps
    | with_reducible apply keeps_ite
    | intro _)

theorem State.recRing_keeps {fr : Nat} {r0 s : State} {n : Nat} {origin : Nat} {angle : Nat}
    (h : Keeps fr r0 s) (hk : fr ||| 0x10000004 = fr) :
    Keeps fr r0 (State.recRing s n origin angle) := by
  unfold State.recRing
  repeat' (first
    | with_reducible assumption
    | exact lor_sub hk rfl
    | extract_lets
    | with_reducible apply State.recTrig_keeps
    | with_reducible apply State.setRecUnit_keeps
    | with_reducible apply keeps_ite
    | intro _
    | split
    | dsimp +zetaDelta only)

theorem execXtrigFrame_keeps {fr : Nat} {r0 s : State} {f : TrsFrame}
    (h : Keeps fr r0 s) (hk : fr ||| 0x10000004 = fr) :
    Answers fr r0 (execXtrigFrame f s) := by
  unfold execXtrigFrame
  repeat' (first
    | with_reducible apply answers_next
    | with_reducible assumption
    | exact lor_sub hk rfl
    | with_reducible apply State.each_keeps
    | with_reducible apply State.recRing_keeps
    | with_reducible apply keeps_ite
    | intro _)

theorem State.recTrailer_keeps {fr : Nat} {r0 s : State} {c : Nat} {a : ChanAcc}
    (h : Keeps fr r0 s) (hk : fr ||| 0x2 = fr) :
    Keeps fr r0 (State.recTrailer s c a).2 := by
  unfold State.recTrailer
  repeat' (first
    | with_reducible assumption
    | exact lor_sub hk rfl
    | with_reducible apply State.takeFrees_keeps
    | with_reducible apply keeps_ite
    | with_reducible apply keeps_snd_ite
    | with_reducible refine keeps_of_snd (by assumption) ?_
    | intro _
    | split)

theorem State.recTrailers_keeps {fr : Nat} {r0 s : State} {u : RecUnit} {xs : List RecSample} {a3 : Nat}
    (h : Keeps fr r0 s) (hk : fr ||| 0x2 = fr) :
    Keeps fr r0 (State.recTrailers s u xs a3).2 := by
  induction a3 generalizing s with
  | zero =>
    unfold State.recTrailers
    repeat' (first
      | with_reducible assumption
      | exact lor_sub hk rfl
      | with_reducible apply State.recTrailer_keeps
      | with_reducible apply keeps_snd_ite
      | with_reducible apply keeps_foldl
      | with_reducible refine keeps_of_snd (by assumption) ?_
      | intro _
      | split)
  | succ n ih =>
    unfold State.recTrailers
    repeat' (first
      | with_reducible assumption
      | exact lor_sub hk rfl
      | with_reducible apply ih
      | with_reducible apply State.recTrailer_keeps
      | with_reducible apply keeps_snd_ite
      | with_reducible apply keeps_foldl
      | with_reducible refine keeps_of_snd (by assumption) ?_
      | intro _
      | split)

theorem State.recNextBuf_keeps {fr : Nat} {r0 s : State} {n : Nat}
    (h : Keeps fr r0 s) (hk : fr ||| 0x10000004 = fr) :
    Keeps fr r0 (State.recNextBuf s n) := by
  unfold State.recNextBuf
  repeat' (first
    | with_reducible assumption
    | exact lor_sub hk rfl
    | extract_lets
    | with_reducible apply State.setRecUnit_keeps
    | with_reducible apply State.recArmed_keeps
    | with_reducible apply keeps_ite
    | intro _
    | split
    | dsimp +zetaDelta only)

theorem State.recSeal_keeps {fr : Nat} {r0 s : State} {n : Nat} {trunc : Bool}
    (h : Keeps fr r0 s) (hk : fr ||| 0x3000000e = fr) :
    Keeps fr r0 (State.recSeal s n trunc) := by
  unfold State.recSeal
  repeat' (first
    | with_reducible assumption
    | exact lor_sub hk rfl
    | extract_lets
    | with_reducible apply State.recSampleNow_keeps
    | with_reducible apply State.recTrailers_keeps
    | with_reducible apply State.setBytes_keeps
    | with_reducible apply State.setMemWord_keeps
    | with_reducible apply State.putBit_keeps
    | with_reducible apply State.setBit_keeps
    | with_reducible apply State.recNextBuf_keeps
    | with_reducible apply State.setRecUnit_keeps
    | with_reducible apply keeps_ite
    | (fail_if_success (with_reducible apply keeps_pending)); with_reducible apply keeps_shf
    | with_reducible refine keeps_of_snd (by assumption) ?_
    | intro _
    | split
    | dsimp +zetaDelta only)

theorem State.recReload_keeps {fr : Nat} {r0 s : State} {n : Nat} {p : List Byte} {base : Nat}
    (h : Keeps fr r0 s) (hk : fr ||| 0x10000004 = fr) :
    Keeps fr r0 (State.recReload s n p base) := by
  unfold State.recReload
  repeat' (first
    | with_reducible assumption
    | exact lor_sub hk rfl
    | extract_lets
    | with_reducible apply State.setRecUnit_keeps
    | with_reducible apply State.recNextBuf_keeps
    | with_reducible apply keeps_ite
    | intro _)

theorem State.recCommitUnit_keeps {fr : Nat} {r0 s : State} {n : Nat}
    (h : Keeps fr r0 s) (hk : fr ||| 0x10000004 = fr) :
    Keeps fr r0 (State.recCommitUnit s n) := by
  unfold State.recCommitUnit
  repeat' (first
    | with_reducible assumption
    | exact lor_sub hk rfl
    | extract_lets
    | with_reducible apply State.recReload_keeps
    | with_reducible apply State.setRecUnit_keeps
    | with_reducible apply keeps_ite
    | intro _)

theorem State.recCommit_keeps {fr : Nat} {r0 s : State}
    (h : Keeps fr r0 s) (hk : fr ||| 0x10000004 = fr) :
    Keeps fr r0 (State.recCommit s) := by
  unfold State.recCommit
  repeat' (first
    | with_reducible assumption
    | exact lor_sub hk rfl
    | with_reducible apply State.each_keeps
    | with_reducible apply State.recCommitUnit_keeps
    | intro _)

theorem execDrawerSeal_keeps {fr : Nat} {r0 s : State} {n : Nat}
    (h : Keeps fr r0 s) (hk : fr ||| 0x3000000e = fr) :
    Answers fr r0 (execDrawerSeal n s) := by
  unfold execDrawerSeal
  repeat' (first
    | with_reducible apply answers_next
    | with_reducible assumption
    | exact lor_sub hk rfl
    | extract_lets
    | with_reducible apply State.recCommitUnit_keeps
    | with_reducible apply State.recSeal_keeps
    | with_reducible apply keeps_ite
    | intro _
    | split
    | dsimp +zetaDelta only)

theorem execDrawerStored_keeps {fr : Nat} {r0 s : State} {n : Nat}
    (h : Keeps fr r0 s) (hk : fr ||| 0x1000000c = fr) :
    Answers fr r0 (execDrawerStored n s) := by
  unfold execDrawerStored
  repeat' (first
    | with_reducible apply answers_next
    | with_reducible assumption
    | exact lor_sub hk rfl
    | extract_lets
    | with_reducible apply State.setMemWord_keeps
    | with_reducible apply State.setRecUnit_keeps
    | with_reducible apply State.recNextBuf_keeps
    | with_reducible apply keeps_ite
    | (fail_if_success (with_reducible apply keeps_pending)); with_reducible apply keeps_recd
    | intro _
    | split
    | dsimp +zetaDelta only)

theorem State.recPowerFail_keeps {fr : Nat} {r0 s : State}
    (h : Keeps fr r0 s) (hk : fr ||| 0x3000000e = fr) :
    Keeps fr r0 (State.recPowerFail s) := by
  unfold State.recPowerFail
  repeat' (first
    | with_reducible assumption
    | exact lor_sub hk rfl
    | extract_lets
    | with_reducible apply State.each_keeps
    | with_reducible apply State.setRecUnit_keeps
    | with_reducible apply State.recSeal_keeps
    | with_reducible apply keeps_ite
    | with_reducible apply keeps_snd_ite
    | (fail_if_success (with_reducible apply keeps_pending)); with_reducible apply keeps_recd
    | intro _
    | split
    | dsimp +zetaDelta only)

theorem State.recResume_keeps {fr : Nat} {r0 s : State}
    (h : Keeps fr r0 s) (hk : fr ||| 0x10000000 = fr) :
    Keeps fr r0 (State.recResume s) := by
  unfold State.recResume
  repeat' (first
    | with_reducible assumption
    | exact lor_sub hk rfl
    | extract_lets
    | with_reducible apply State.each_keeps
    | with_reducible apply State.setRecUnit_keeps
    | with_reducible apply keeps_ite
    | (fail_if_success (with_reducible apply keeps_pending)); with_reducible apply keeps_recd
    | intro _)

theorem State.recBoot_keeps {fr : Nat} {r0 s : State}
    (h : Keeps fr r0 s) (hk : fr ||| 0x10000004 = fr) :
    Keeps fr r0 (State.recBoot s) := by
  unfold State.recBoot
  repeat' (first
    | with_reducible assumption
    | exact lor_sub hk rfl
    | extract_lets
    | with_reducible apply State.each_keeps
    | with_reducible apply State.setRecUnit_keeps
    | with_reducible apply State.setBit_keeps
    | with_reducible apply keeps_ite
    | (fail_if_success (with_reducible apply keeps_pending)); with_reducible apply keeps_recd
    | intro _)

end Sys2Proof.Machine
end

