-- ==== Sys2Proof/Laws/KeepsEvt.lean ====
section
/-!
SUPPORT. What each operation of Machine/Evt.lean keeps.
-/

namespace Sys2Proof.Machine

theorem State.setEvt_keeps {fr : Nat} {r0 s : State} {x : Evt}
    (h : Keeps fr r0 s) (hk : fr ||| 0x400000 = fr) :
    Keeps fr r0 (State.setEvt s x) := by
  unfold State.setEvt
  repeat' (first
    | with_reducible assumption
    | exact lor_sub hk rfl
    | (fail_if_success (with_reducible apply keeps_pending)); with_reducible apply keeps_evt)

theorem State.hostIrq_keeps {fr : Nat} {r0 s : State} {i : Nat}
    (h : Keeps fr r0 s) (hk : fr ||| 0x400004 = fr) :
    Keeps fr r0 (State.hostIrq s i) := by
  unfold State.hostIrq
  repeat' (first
    | with_reducible assumption
    | exact lor_sub hk rfl
    | extract_lets
    | with_reducible apply State.setEvt_keeps
    | with_reducible apply State.setBit_keeps
    | with_reducible apply keeps_ite
    | intro _)

theorem State.gpioAct_keeps {fr : Nat} {r0 s : State} {pin : Nat} {op : Nat}
    (h : Keeps fr r0 s) (hk : fr ||| 0x800000000 = fr) :
    Keeps fr r0 (State.gpioAct s pin op) := by
  unfold State.gpioAct
  repeat' (first
    | with_reducible assumption
    | exact lor_sub hk rfl
    | extract_lets
    | with_reducible apply keeps_ite
    | (fail_if_success (with_reducible apply keeps_pending)); with_reducible apply keeps_pins
    | intro _)

theorem State.dispatch_keeps {fr : Nat} {r0 s : State} {i : Nat} {due : Nat}
    (h : Keeps fr r0 s) (hk : fr ||| 0xc98448806 = fr) :
    Keeps fr r0 (State.dispatch s i due) := by
  unfold State.dispatch
  repeat' (first
    | with_reducible assumption
    | exact lor_sub hk rfl
    | extract_lets
    | with_reducible apply State.setPair_keeps
    | with_reducible apply State.cmtRequest_keeps
    | with_reducible apply State.adcStart_keeps
    | with_reducible apply State.mtrStrobe_keeps
    | with_reducible apply State.recStrobe_keeps
    | with_reducible apply State.recEvent_keeps
    | with_reducible apply State.gpioAct_keeps
    | with_reducible apply State.ethLaunch_keeps
    | with_reducible apply State.request_keeps
    | with_reducible apply State.hostIrq_keeps
    | with_reducible apply keeps_ite
    | with_reducible apply keeps_snd_ite
    | with_reducible refine keeps_of_fst (by assumption) ?_
    | intro _
    | split
    | dsimp +zetaDelta only)

theorem State.dispatchUpTo_keeps {fr : Nat} {r0 s : State} {a1 : Nat}
    (h : Keeps fr r0 s) (hk : fr ||| 0xc98448806 = fr) :
    Keeps fr r0 (State.dispatchUpTo s a1) := by
  induction a1 generalizing s with
  | zero => exact State.adcRequests_keeps h (lor_sub hk rfl)
  | succ n ih =>
    unfold State.dispatchUpTo
    split
    · exact State.adcRequests_keeps h (lor_sub hk rfl)
    · exact ih (State.dispatch_keeps (State.setEvt_keeps h (lor_sub hk rfl)) (lor_sub hk rfl))

theorem State.fireEntry_keeps {fr : Nat} {r0 s : State} {i : Nat}
    (h : Keeps fr r0 s) (hk : fr ||| 0x400004 = fr) :
    Keeps fr r0 (State.fireEntry s i) := by
  unfold State.fireEntry
  repeat' (first
    | with_reducible assumption
    | exact lor_sub hk rfl
    | extract_lets
    | with_reducible apply State.inc_keeps
    | with_reducible apply State.setBit_keeps
    | with_reducible apply State.setEvtEntry_keeps
    | with_reducible apply keeps_ite
    | intro _)

theorem State.fireAll_keeps {fr : Nat} {r0 s : State} {go : List Nat}
    (h : Keeps fr r0 s) (hk : fr ||| 0xc98448806 = fr) :
    Keeps fr r0 (State.fireAll s go) := by
  unfold State.fireAll
  repeat' (first
    | with_reducible assumption
    | exact lor_sub hk rfl
    | extract_lets
    | with_reducible apply State.each_keeps
    | with_reducible apply State.fireEntry_keeps
    | with_reducible apply State.setEvt_keeps
    | with_reducible apply State.dispatchUpTo_keeps
    | with_reducible apply State.setBit_keeps
    | with_reducible apply State.count_keeps
    | with_reducible apply keeps_ite
    | with_reducible apply keeps_snd_ite
    | intro _
    | split
    | dsimp +zetaDelta only)

theorem execEvtEntryFire_keeps {fr : Nat} {r0 s : State} {due : List Nat}
    (h : Keeps fr r0 s) (hk : fr ||| 0xc98448806 = fr) :
    Answers fr r0 (execEvtEntryFire due s) := by
  unfold execEvtEntryFire
  repeat' (first
    | with_reducible assumption
    | exact lor_sub hk rfl
    | with_reducible apply answers_next
    | with_reducible apply State.fireAll_keeps
    | intro _
    | split
    | dsimp +zetaDelta only)

theorem State.evtFlush_keeps {fr : Nat} {r0 s : State}
    (h : Keeps fr r0 s) (hk : fr ||| 0xc98448806 = fr) :
    Keeps fr r0 (State.evtFlush s) := by
  unfold State.evtFlush
  repeat' (first
    | with_reducible assumption
    | exact lor_sub hk rfl
    | extract_lets
    | with_reducible apply State.fireAll_keeps
    | with_reducible apply State.dispatchUpTo_keeps
    | intro _
    | split
    | dsimp +zetaDelta only)

theorem State.evtReload_keeps {fr : Nat} {r0 s : State} {g : Nat} {pidx : Nat}
    (h : Keeps fr r0 s) (hk : fr ||| 0xc98448806 = fr) :
    Keeps fr r0 (State.evtReload s g pidx) := by
  unfold State.evtReload
  repeat' (first
    | with_reducible assumption
    | exact lor_sub hk rfl
    | with_reducible apply State.each_keeps
    | with_reducible apply State.fireEntry_keeps
    | with_reducible apply State.dispatch_keeps
    | intro _
    | split
    | dsimp +zetaDelta only)

theorem execEvtDeferredDispatch_keeps {fr : Nat} {r0 s : State}
    (h : Keeps fr r0 s) (hk : fr ||| 0xc98448806 = fr) :
    Answers fr r0 (execEvtDeferredDispatch s) := by
  unfold execEvtDeferredDispatch
  repeat' (first
    | with_reducible apply answers_next
    | with_reducible assumption
    | exact lor_sub hk rfl
    | with_reducible apply State.dispatchUpTo_keeps)

theorem execBuiltinStrobe_keeps {fr : Nat} {r0 s : State}
    (h : Keeps fr r0 s) (hk : fr ||| 0x8000000 = fr) :
    Answers fr r0 (execBuiltinStrobe s) := by
  unfold execBuiltinStrobe
  repeat' (first
    | with_reducible apply answers_next
    | with_reducible assumption
    | exact lor_sub hk rfl
    | with_reducible apply State.mtrStrobe_keeps
    | with_reducible apply keeps_ite
    | intro _)

theorem State.fireFirst_keeps {fr : Nat} {r0 s : State} {i : Nat}
    (h : Keeps fr r0 s) (hk : fr ||| 0xc98448806 = fr) :
    Keeps fr r0 (State.fireFirst s i) := by
  unfold State.fireFirst
  repeat' (first
    | with_reducible assumption
    | exact lor_sub hk rfl
    | with_reducible apply State.fireAll_keeps
    | with_reducible apply keeps_ite
    | with_reducible apply keeps_snd_ite
    | intro _
    | split
    | dsimp +zetaDelta only)

theorem State.armAbs_keeps {fr : Nat} {r0 s : State} {i : Nat} {t : Nat}
    (h : Keeps fr r0 s) (hk : fr ||| 0xc98448806 = fr) :
    Keeps fr r0 (State.armAbs s i t) := by
  unfold State.armAbs
  repeat' (first
    | with_reducible assumption
    | exact lor_sub hk rfl
    | extract_lets
    | with_reducible apply State.setBit_keeps
    | with_reducible apply State.fireFirst_keeps
    | with_reducible apply State.setEvtEntry_keeps
    | with_reducible apply keeps_ite
    | with_reducible apply keeps_snd_ite
    | intro _
    | split
    | dsimp +zetaDelta only)

theorem execArmAbs_keeps {fr : Nat} {r0 s : State} {n : Nat} {t : BitVec 96}
    (h : Keeps fr r0 s) (hk : fr ||| 0xc98448806 = fr) :
    Answers fr r0 (execArmAbs n t s) := by
  unfold execArmAbs
  repeat' (first
    | with_reducible apply answers_next
    | with_reducible assumption
    | exact lor_sub hk rfl
    | with_reducible apply State.armAbs_keeps)

theorem State.armHost_keeps {fr : Nat} {r0 s : State} {i : Nat}
    (h : Keeps fr r0 s) (hk : fr ||| 0xc98448806 = fr) :
    Keeps fr r0 (State.armHost s i) := by
  unfold State.armHost
  repeat' (first
    | with_reducible assumption
    | exact lor_sub hk rfl
    | with_reducible apply State.fireFirst_keeps
    | with_reducible apply State.armRel_keeps
    | with_reducible apply State.setBit_keeps
    | with_reducible apply keeps_ite
    | with_reducible apply keeps_snd_ite
    | intro _
    | split
    | dsimp +zetaDelta only)

theorem execArmRel_keeps {fr : Nat} {r0 s : State} {i : Nat}
    (h : Keeps fr r0 s) (hk : fr ||| 0xc98448806 = fr) :
    Answers fr r0 (execArmRel i s) := by
  unfold execArmRel
  repeat' (first
    | with_reducible apply answers_next
    | with_reducible assumption
    | exact lor_sub hk rfl
    | with_reducible apply State.armHost_keeps)

theorem State.disarm_keeps {fr : Nat} {r0 s : State} {i : Nat}
    (h : Keeps fr r0 s) (hk : fr ||| 0x400004 = fr) :
    Keeps fr r0 (State.disarm s i) := by
  unfold State.disarm
  repeat' (first
    | with_reducible assumption
    | exact lor_sub hk rfl
    | with_reducible apply State.setEvtEntry_keeps
    | with_reducible apply State.setBit_keeps
    | with_reducible apply keeps_ite
    | intro _)

theorem execDisarm_keeps {fr : Nat} {r0 s : State} {i : Nat}
    (h : Keeps fr r0 s) (hk : fr ||| 0x400004 = fr) :
    Answers fr r0 (execDisarm i s) := by
  unfold execDisarm
  repeat' (first
    | with_reducible apply answers_next
    | with_reducible assumption
    | exact lor_sub hk rfl
    | with_reducible apply State.disarm_keeps)

theorem State.evtIrqRead_keeps {fr : Nat} {r0 s : State}
    (h : Keeps fr r0 s) (hk : fr ||| 0x400000 = fr) :
    Keeps fr r0 (State.evtIrqRead s) := by
  unfold State.evtIrqRead
  repeat' (first
    | with_reducible assumption
    | exact lor_sub hk rfl
    | extract_lets
    | with_reducible apply State.setEvt_keeps)

theorem execEvtIrqSrcRead_keeps {fr : Nat} {r0 s : State}
    (h : Keeps fr r0 s) (hk : fr ||| 0x400000 = fr) :
    Answers fr r0 (execEvtIrqSrcRead s) := by
  unfold execEvtIrqSrcRead
  repeat' (first
    | with_reducible apply answers_next
    | with_reducible assumption
    | exact lor_sub hk rfl
    | with_reducible apply State.evtIrqRead_keeps)

theorem State.evtCommit_keeps {fr : Nat} {r0 s : State}
    (h : Keeps fr r0 s) (hk : fr ||| 0x400000 = fr) :
    Keeps fr r0 (State.evtCommit s) := by
  unfold State.evtCommit
  repeat' (first
    | with_reducible assumption
    | exact lor_sub hk rfl
    | extract_lets
    | with_reducible apply State.setEvt_keeps
    | with_reducible apply State.each_keeps
    | with_reducible apply State.armRel_keeps
    | intro _)

end Sys2Proof.Machine
end

