-- ==== Sys2Proof/Laws/KeepsFan.lean ====
section
/-!
SUPPORT. What each operation of Machine/Fan.lean keeps.
-/

namespace Sys2Proof.Machine

theorem State.setFan_keeps {fr : Nat} {r0 s : State} {c : Nat} {x : FanCh}
    (h : Keeps fr r0 s) (hk : fr ||| 0x20000000000 = fr) :
    Keeps fr r0 (State.setFan s c x) := by
  unfold State.setFan
  repeat' (first
    | with_reducible assumption
    | exact lor_sub hk rfl
    | (fail_if_success (with_reducible apply keeps_pending)); with_reducible apply keeps_fan)

theorem State.fanAttempt_keeps {fr : Nat} {r0 s : State} {c : Nat}
    (h : Keeps fr r0 s) (hk : fr ||| 0x20000000004 = fr) :
    Keeps fr r0 (State.fanAttempt s c) := by
  unfold State.fanAttempt
  repeat' (first
    | with_reducible assumption
    | exact lor_sub hk rfl
    | extract_lets
    | with_reducible apply State.inc_keeps
    | with_reducible apply State.setFan_keeps)

theorem State.fanStop_keeps {fr : Nat} {r0 s : State} {c : Nat}
    (h : Keeps fr r0 s) (hk : fr ||| 0x20000000000 = fr) :
    Keeps fr r0 (State.fanStop s c) := by
  unfold State.fanStop
  repeat' (first
    | with_reducible assumption
    | exact lor_sub hk rfl
    | extract_lets
    | with_reducible apply State.setFan_keeps)

theorem State.fanFail_keeps {fr : Nat} {r0 s : State} {c : Nat}
    (h : Keeps fr r0 s) (hk : fr ||| 0x20000000004 = fr) :
    Keeps fr r0 (State.fanFail s c) := by
  unfold State.fanFail
  repeat' (first
    | with_reducible assumption
    | exact lor_sub hk rfl
    | extract_lets
    | with_reducible apply State.setFan_keeps
    | with_reducible apply State.irq_keeps
    | with_reducible apply State.setBit_keeps
    | with_reducible apply keeps_ite
    | intro _)

theorem State.fanRun_keeps {fr : Nat} {r0 s : State} {c : Nat} {duty : Nat} {integ : Int}
    (h : Keeps fr r0 s) (hk : fr ||| 0x20000000000 = fr) :
    Keeps fr r0 (State.fanRun s c duty integ) := by
  unfold State.fanRun
  repeat' (first
    | with_reducible assumption
    | exact lor_sub hk rfl
    | extract_lets
    | with_reducible apply State.setFan_keeps
    | with_reducible apply keeps_ite
    | intro _)

theorem State.fanIn_keeps {fr : Nat} {r0 s : State} {c st : Nat} {f : State → State} (h : Keeps fr r0 s)
    (_ : fr ||| 0x0 = fr) (hf : Keeps fr r0 (f s)) : Keeps fr r0 (State.fanIn s c st f) := by
  unfold State.fanIn
  split <;> assumption

theorem execFanStart_keeps {fr : Nat} {r0 s : State} {c : Nat}
    (h : Keeps fr r0 s) (hk : fr ||| 0x20000000004 = fr) :
    Answers fr r0 (execFanStart c s) := by
  unfold execFanStart
  repeat' (first
    | with_reducible apply answers_next
    | with_reducible assumption
    | exact lor_sub hk rfl
    | extract_lets
    | with_reducible apply State.fanAttempt_keeps
    | with_reducible apply State.setFan_keeps
    | with_reducible apply keeps_ite
    | intro _)

theorem execFanStop_keeps {fr : Nat} {r0 s : State} {c : Nat}
    (h : Keeps fr r0 s) (hk : fr ||| 0x20000000000 = fr) :
    Answers fr r0 (execFanStop c s) := by
  unfold execFanStop
  repeat' (first
    | with_reducible apply answers_next
    | with_reducible assumption
    | exact lor_sub hk rfl
    | with_reducible apply State.fanStop_keeps)

theorem State.fanSet_keeps {fr : Nat} {r0 s : State} {c : Nat} {v : Word}
    (h : Keeps fr r0 s) (hk : fr ||| 0x20000000004 = fr) :
    Keeps fr r0 (State.fanSet s c v) := by
  unfold State.fanSet
  repeat' (first
    | with_reducible assumption
    | exact lor_sub hk rfl
    | extract_lets
    | with_reducible apply State.setReg_keeps
    | with_reducible apply State.fanIn_keeps
    | with_reducible apply State.setFan_keeps
    | with_reducible apply State.fanAttempt_keeps
    | with_reducible apply keeps_ite
    | intro _)

theorem execFanSetWrite_keeps {fr : Nat} {r0 s : State} {c : Nat} {v : Word}
    (h : Keeps fr r0 s) (hk : fr ||| 0x20000000004 = fr) :
    Answers fr r0 (execFanSetWrite c v s) := by
  unfold execFanSetWrite
  repeat' (first
    | with_reducible apply answers_next
    | with_reducible assumption
    | exact lor_sub hk rfl
    | with_reducible apply State.fanSet_keeps)

theorem State.fanAlign_keeps {fr : Nat} {r0 s : State} {c : Nat}
    (h : Keeps fr r0 s) (hk : fr ||| 0x20000000000 = fr) :
    Keeps fr r0 (State.fanAlign s c) := by
  unfold State.fanAlign
  repeat' (first
    | with_reducible assumption
    | exact lor_sub hk rfl
    | extract_lets
    | with_reducible apply State.setFan_keeps)

theorem execObserveEnd_keeps {fr : Nat} {r0 s : State} {c : Nat}
    (h : Keeps fr r0 s) (hk : fr ||| 0x20000000002 = fr) :
    Answers fr r0 (execObserveEnd c s) := by
  unfold execObserveEnd
  repeat' (first
    | with_reducible apply answers_next
    | with_reducible assumption
    | exact lor_sub hk rfl
    | extract_lets
    | with_reducible apply State.setFan_keeps
    | with_reducible apply State.takeFrees_keeps
    | with_reducible apply State.fanRun_keeps
    | with_reducible apply State.fanAlign_keeps
    | with_reducible apply keeps_ite
    | with_reducible refine keeps_of_snd (by assumption) ?_
    | intro _)

theorem execBrakePhaseEnd_keeps {fr : Nat} {r0 s : State} {c : Nat}
    (h : Keeps fr r0 s) (hk : fr ||| 0x20000000000 = fr) :
    Answers fr r0 (execBrakePhaseEnd c s) := by
  unfold execBrakePhaseEnd
  repeat' (first
    | with_reducible apply answers_next
    | with_reducible assumption
    | exact lor_sub hk rfl
    | extract_lets
    | with_reducible apply State.fanIn_keeps
    | with_reducible apply State.setFan_keeps
    | with_reducible apply keeps_ite
    | intro _)

theorem execBrakeMaxExpiry_keeps {fr : Nat} {r0 s : State} {c : Nat}
    (h : Keeps fr r0 s) (hk : fr ||| 0x20000000004 = fr) :
    Answers fr r0 (execBrakeMaxExpiry c s) := by
  unfold execBrakeMaxExpiry
  repeat' (first
    | with_reducible apply answers_next
    | with_reducible assumption
    | exact lor_sub hk rfl
    | with_reducible apply State.fanIn_keeps
    | with_reducible apply State.fanFail_keeps
    | intro _)

theorem execAlignEnd_keeps {fr : Nat} {r0 s : State} {c : Nat}
    (h : Keeps fr r0 s) (hk : fr ||| 0x20000000000 = fr) :
    Answers fr r0 (execAlignEnd c s) := by
  unfold execAlignEnd
  repeat' (first
    | with_reducible apply answers_next
    | with_reducible assumption
    | exact lor_sub hk rfl
    | extract_lets
    | with_reducible apply State.fanIn_keeps
    | with_reducible apply State.setFan_keeps
    | intro _)

theorem execOpenLoopCommutation_keeps {fr : Nat} {r0 s : State} {c : Nat} {dt : Nat}
    (h : Keeps fr r0 s) (hk : fr ||| 0x20000000000 = fr) :
    Answers fr r0 (execOpenLoopCommutation c dt s) := by
  unfold execOpenLoopCommutation
  repeat' (first
    | with_reducible apply answers_next
    | with_reducible assumption
    | exact lor_sub hk rfl
    | extract_lets
    | with_reducible apply State.fanIn_keeps
    | with_reducible apply State.setFan_keeps
    | intro _)

theorem execRampTimeout_keeps {fr : Nat} {r0 s : State} {c : Nat}
    (h : Keeps fr r0 s) (hk : fr ||| 0x20000000004 = fr) :
    Answers fr r0 (execRampTimeout c s) := by
  unfold execRampTimeout
  repeat' (first
    | with_reducible apply answers_next
    | with_reducible assumption
    | exact lor_sub hk rfl
    | with_reducible apply State.fanIn_keeps
    | with_reducible apply State.fanFail_keeps
    | intro _)

theorem execBemfCrossing_keeps {fr : Nat} {r0 s : State} {c : Nat} {phase : Nat} {rising : Bool} {dt : Nat}
    (h : Keeps fr r0 s) (hk : fr ||| 0x20000000002 = fr) :
    Answers fr r0 (execBemfCrossing c phase rising dt s) := by
  unfold execBemfCrossing
  repeat' (first
    | with_reducible apply answers_next
    | with_reducible assumption
    | exact lor_sub hk rfl
    | extract_lets
    | with_reducible apply State.setFan_keeps
    | with_reducible apply State.takeFrees_keeps
    | with_reducible apply State.fanRun_keeps
    | with_reducible apply keeps_ite
    | with_reducible refine keeps_of_snd (by assumption) ?_
    | intro _)

theorem execRetryWaitExpiry_keeps {fr : Nat} {r0 s : State} {c : Nat}
    (h : Keeps fr r0 s) (hk : fr ||| 0x20000000004 = fr) :
    Answers fr r0 (execRetryWaitExpiry c s) := by
  unfold execRetryWaitExpiry
  repeat' (first
    | with_reducible apply answers_next
    | with_reducible assumption
    | exact lor_sub hk rfl
    | extract_lets
    | with_reducible apply State.fanIn_keeps
    | with_reducible apply State.fanAttempt_keeps
    | with_reducible apply State.setFan_keeps
    | intro _)

theorem execRetryCountReset_keeps {fr : Nat} {r0 s : State} {c : Nat}
    (h : Keeps fr r0 s) (hk : fr ||| 0x20000000000 = fr) :
    Answers fr r0 (execRetryCountReset c s) := by
  unfold execRetryCountReset
  repeat' (first
    | with_reducible apply answers_next
    | with_reducible assumption
    | exact lor_sub hk rfl
    | extract_lets
    | with_reducible apply State.fanIn_keeps
    | with_reducible apply State.setFan_keeps
    | intro _)

theorem execFanPiStep_keeps {fr : Nat} {r0 s : State} {c : Nat}
    (h : Keeps fr r0 s) (hk : fr ||| 0x20000000000 = fr) :
    Answers fr r0 (execFanPiStep c s) := by
  unfold execFanPiStep
  repeat' (first
    | with_reducible apply answers_next
    | with_reducible assumption
    | exact lor_sub hk rfl
    | extract_lets
    | with_reducible apply State.fanIn_keeps
    | with_reducible apply State.setFan_keeps
    | with_reducible apply keeps_ite
    | intro _)

theorem State.fanStall_keeps {fr : Nat} {r0 s : State} {c : Nat}
    (h : Keeps fr r0 s) (hk : fr ||| 0x20000000004 = fr) :
    Keeps fr r0 (State.fanStall s c) := by
  unfold State.fanStall
  repeat' (first
    | with_reducible assumption
    | exact lor_sub hk rfl
    | with_reducible apply State.fanFail_keeps
    | with_reducible apply State.inc_keeps
    | with_reducible apply State.setBit_keeps)

theorem execStallCrossingTimeout_keeps {fr : Nat} {r0 s : State} {c : Nat}
    (h : Keeps fr r0 s) (hk : fr ||| 0x20000000004 = fr) :
    Answers fr r0 (execStallCrossingTimeout c s) := by
  unfold execStallCrossingTimeout
  repeat' (first
    | with_reducible apply answers_next
    | with_reducible assumption
    | exact lor_sub hk rfl
    | with_reducible apply State.fanIn_keeps
    | with_reducible apply State.fanStall_keeps
    | with_reducible apply keeps_ite
    | intro _)

theorem execStallSpeedTimeout_keeps {fr : Nat} {r0 s : State} {c : Nat}
    (h : Keeps fr r0 s) (hk : fr ||| 0x20000000004 = fr) :
    Answers fr r0 (execStallSpeedTimeout c s) := by
  unfold execStallSpeedTimeout
  repeat' (first
    | with_reducible apply answers_next
    | with_reducible assumption
    | exact lor_sub hk rfl
    | extract_lets
    | with_reducible apply State.fanIn_keeps
    | with_reducible apply State.fanStall_keeps
    | with_reducible apply keeps_ite
    | intro _)

theorem State.fanBegin_keeps {fr : Nat} {r0 s : State} {c : Nat}
    (h : Keeps fr r0 s) (hk : fr ||| 0x20000000004 = fr) :
    Keeps fr r0 (State.fanBegin s c) := by
  unfold State.fanBegin
  repeat' (first
    | with_reducible assumption
    | exact lor_sub hk rfl
    | extract_lets
    | with_reducible apply State.fanAttempt_keeps
    | with_reducible apply State.setFan_keeps
    | with_reducible apply keeps_ite
    | intro _)

theorem State.fansBegin_keeps {fr : Nat} {r0 s : State}
    (h : Keeps fr r0 s) (hk : fr ||| 0x20000000004 = fr) :
    Keeps fr r0 (State.fansBegin s) := by
  unfold State.fansBegin
  repeat' (first
    | with_reducible assumption
    | exact lor_sub hk rfl
    | with_reducible apply State.fanBegin_keeps)

theorem State.fansOff_keeps {fr : Nat} {r0 s : State}
    (h : Keeps fr r0 s) (hk : fr ||| 0x20000000000 = fr) :
    Keeps fr r0 (State.fansOff s) := by
  unfold State.fansOff
  repeat' (first
    | with_reducible assumption
    | exact lor_sub hk rfl
    | with_reducible apply State.fanStop_keeps)

theorem State.fanCommit_keeps {fr : Nat} {r0 s : State} {old : State}
    (h : Keeps fr r0 s) (hk : fr ||| 0x20000000004 = fr) :
    Keeps fr r0 (State.fanCommit s old) := by
  unfold State.fanCommit
  repeat' (first
    | with_reducible assumption
    | exact lor_sub hk rfl
    | with_reducible apply State.each_keeps
    | with_reducible apply State.fanStop_keeps
    | with_reducible apply State.fanBegin_keeps
    | with_reducible apply keeps_ite
    | intro _)

theorem State.fanPowerFail_keeps {fr : Nat} {r0 s : State}
    (h : Keeps fr r0 s) (hk : fr ||| 0x20000000000 = fr) :
    Keeps fr r0 (State.fanPowerFail s) := by
  unfold State.fanPowerFail
  repeat' (first
    | with_reducible assumption
    | exact lor_sub hk rfl
    | extract_lets
    | with_reducible apply State.each_keeps
    | with_reducible apply State.setFan_keeps
    | with_reducible apply keeps_ite
    | intro _)

theorem State.fanResume_keeps {fr : Nat} {r0 s : State}
    (h : Keeps fr r0 s) (hk : fr ||| 0x20000000004 = fr) :
    Keeps fr r0 (State.fanResume s) := by
  unfold State.fanResume
  repeat' (first
    | with_reducible assumption
    | exact lor_sub hk rfl
    | with_reducible apply State.each_keeps
    | with_reducible apply State.fanAttempt_keeps
    | with_reducible apply keeps_ite
    | intro _)

end Sys2Proof.Machine
end

