-- ==== Sys2Proof/Laws/KeepsGrd.lean ====
section
/-!
SUPPORT. What each operation of Machine/Grd.lean keeps.
-/

namespace Sys2Proof.Machine

theorem State.grdMetric_keeps {fr : Nat} {r0 s : State}
    (h : Keeps fr r0 s) (hk : fr ||| 0x800000 = fr) :
    Keeps fr r0 (State.grdMetric s) := by
  unfold State.grdMetric
  repeat' (first
    | with_reducible assumption
    | exact lor_sub hk rfl
    | extract_lets
    | with_reducible apply keeps_ite
    | (fail_if_success (with_reducible apply keeps_pending)); with_reducible apply keeps_grd
    | intro _)

theorem State.islClear_keeps {fr : Nat} {r0 s : State}
    (h : Keeps fr r0 s) (hk : fr ||| 0x1000000 = fr) :
    Keeps fr r0 (State.islClear s) := by
  unfold State.islClear
  repeat' (first
    | with_reducible assumption
    | exact lor_sub hk rfl
    | extract_lets
    | (fail_if_success (with_reducible apply keeps_pending)); with_reducible apply keeps_isl)

theorem State.rtOpen_keeps {fr : Nat} {r0 s : State}
    (h : Keeps fr r0 s) (hk : fr ||| 0x1800000 = fr) :
    Keeps fr r0 (State.rtOpen s) := by
  unfold State.rtOpen
  repeat' (first
    | with_reducible assumption
    | exact lor_sub hk rfl
    | extract_lets
    | with_reducible apply State.islClear_keeps
    | with_reducible apply keeps_ite
    | (fail_if_success (with_reducible apply keeps_pending)); with_reducible apply keeps_grd
    | (fail_if_success (with_reducible apply keeps_pending)); with_reducible apply keeps_isl
    | intro _)

theorem State.rtClose_keeps {fr : Nat} {r0 s : State} {blocked : Bool}
    (h : Keeps fr r0 s) (hk : fr ||| 0x1800000 = fr) :
    Keeps fr r0 (State.rtClose s blocked) := by
  unfold State.rtClose
  repeat' (first
    | with_reducible assumption
    | exact lor_sub hk rfl
    | extract_lets
    | with_reducible apply keeps_ite
    | (fail_if_success (with_reducible apply keeps_pending)); with_reducible apply keeps_grd_isl
    | intro _)

theorem State.grdCeased_keeps {fr : Nat} {r0 s : State} {cause : Nat}
    (h : Keeps fr r0 s) (hk : fr ||| 0x1c08004 = fr) :
    Keeps fr r0 (State.grdCeased s cause) := by
  unfold State.grdCeased
  repeat' (first
    | with_reducible assumption
    | exact lor_sub hk rfl
    | extract_lets
    | with_reducible apply State.rtClose_keeps
    | with_reducible apply State.irq_keeps
    | with_reducible apply State.inc_keeps
    | with_reducible apply State.setBit_keeps
    | with_reducible apply State.each_keeps
    | with_reducible apply State.groupStop_keeps
    | with_reducible apply keeps_ite
    | (fail_if_success (with_reducible apply keeps_pending)); with_reducible apply keeps_grd
    | intro _)

theorem State.grdRide_keeps {fr : Nat} {r0 s : State} {st : Nat}
    (h : Keeps fr r0 s) (hk : fr ||| 0x1800004 = fr) :
    Keeps fr r0 (State.grdRide s st) := by
  unfold State.grdRide
  repeat' (first
    | with_reducible assumption
    | exact lor_sub hk rfl
    | extract_lets
    | with_reducible apply State.rtOpen_keeps
    | with_reducible apply State.inc_keeps
    | with_reducible apply State.setBit_keeps
    | with_reducible apply keeps_ite
    | (fail_if_success (with_reducible apply keeps_pending)); with_reducible apply keeps_grd
    | intro _)

theorem State.grdMove_keeps {fr : Nat} {r0 s : State}
    (h : Keeps fr r0 s) (hk : fr ||| 0x1800004 = fr) :
    Keeps fr r0 (State.grdMove s) := by
  unfold State.grdMove
  repeat' (first
    | with_reducible assumption
    | exact lor_sub hk rfl
    | extract_lets
    | with_reducible apply State.grdRide_keeps
    | with_reducible apply keeps_ite
    | (fail_if_success (with_reducible apply keeps_pending)); with_reducible apply keeps_grd
    | intro _)

theorem State.islUpdate_keeps {fr : Nat} {r0 s : State}
    (h : Keeps fr r0 s) (hk : fr ||| 0x1000004 = fr) :
    Keeps fr r0 (State.islUpdate s) := by
  unfold State.islUpdate
  repeat' (first
    | with_reducible assumption
    | exact lor_sub hk rfl
    | extract_lets
    | with_reducible apply State.inc_keeps
    | with_reducible apply keeps_ite
    | with_reducible apply keeps_foldl
    | (fail_if_success (with_reducible apply keeps_pending)); with_reducible apply keeps_isl
    | intro _)

theorem State.gfRequest_keeps {fr : Nat} {r0 s : State} {island : Bool}
    (h : Keeps fr r0 s) (hk : fr ||| 0x800004 = fr) :
    Keeps fr r0 (State.gfRequest s island).1 := by
  unfold State.gfRequest
  repeat' (first
    | with_reducible assumption
    | exact lor_sub hk rfl
    | extract_lets
    | with_reducible apply State.setBit_keeps
    | with_reducible apply keeps_ite
    | with_reducible apply keeps_fst_ite
    | (fail_if_success (with_reducible apply keeps_pending)); with_reducible apply keeps_grd
    | intro _
    | split)

theorem State.islandDecision_keeps {fr : Nat} {r0 s : State} {cause : Nat}
    (h : Keeps fr r0 s) (hk : fr ||| 0x1c08004 = fr) :
    Keeps fr r0 (State.islandDecision s cause) := by
  unfold State.islandDecision
  repeat' (first
    | with_reducible assumption
    | exact lor_sub hk rfl
    | extract_lets
    | with_reducible apply State.setBit_keeps
    | with_reducible apply State.inc_keeps
    | with_reducible apply State.gfRequest_keeps
    | with_reducible apply State.grdCeased_keeps
    | with_reducible apply keeps_ite
    | (fail_if_success (with_reducible apply keeps_pending)); with_reducible apply keeps_isl
    | (fail_if_success (with_reducible apply keeps_pending)); with_reducible apply keeps_grd
    | with_reducible refine keeps_of_fst (by assumption) ?_
    | intro _)

theorem State.islDecideOnce_keeps {fr : Nat} {r0 s : State} {k : Nat} {cause : Nat}
    (h : Keeps fr r0 s) (hk : fr ||| 0x1c08004 = fr) :
    Keeps fr r0 (State.islDecideOnce s k cause) := by
  unfold State.islDecideOnce
  repeat' (first
    | with_reducible assumption
    | exact lor_sub hk rfl
    | with_reducible apply State.islandDecision_keeps
    | with_reducible apply keeps_ite
    | with_reducible apply keeps_snd_ite
    | (fail_if_success (with_reducible apply keeps_pending)); with_reducible apply keeps_isl
    | intro _
    | split
    | dsimp +zetaDelta only)

theorem State.islDecide_keeps {fr : Nat} {r0 s : State} {k : Nat}
    (h : Keeps fr r0 s) (hk : fr ||| 0x1c08004 = fr) :
    Keeps fr r0 (State.islDecide s k) := by
  unfold State.islDecide
  repeat' (first
    | with_reducible assumption
    | exact lor_sub hk rfl
    | with_reducible apply State.islDecideOnce_keeps
    | with_reducible apply keeps_ite
    | with_reducible apply keeps_snd_ite
    | intro _
    | split
    | dsimp +zetaDelta only)

theorem State.grdCurrents_keeps {fr : Nat} {r0 s : State}
    (h : Keeps fr r0 s) (hk : fr ||| 0x800000 = fr) :
    Keeps fr r0 (State.grdCurrents s) := by
  unfold State.grdCurrents
  repeat' (first
    | with_reducible assumption
    | exact lor_sub hk rfl
    | extract_lets
    | with_reducible apply keeps_ite
    | (fail_if_success (with_reducible apply keeps_pending)); with_reducible apply keeps_grd
    | intro _)

theorem State.grdCurves_keeps {fr : Nat} {r0 s : State}
    (h : Keeps fr r0 s) (hk : fr ||| 0x800000 = fr) :
    Keeps fr r0 (State.grdCurves s) := by
  unfold State.grdCurves
  repeat' (first
    | with_reducible assumption
    | exact lor_sub hk rfl
    | extract_lets
    | with_reducible apply keeps_ite
    | (fail_if_success (with_reducible apply keeps_pending)); with_reducible apply keeps_grd
    | intro _)

theorem State.grdPeak_keeps {fr : Nat} {r0 s : State}
    (h : Keeps fr r0 s) (hk : fr ||| 0x800000 = fr) :
    Keeps fr r0 (State.grdPeak s) := by
  unfold State.grdPeak
  repeat' (first
    | with_reducible assumption
    | exact lor_sub hk rfl
    | extract_lets
    | (fail_if_success (with_reducible apply keeps_pending)); with_reducible apply keeps_grd)

theorem State.grdMachine_keeps {fr : Nat} {r0 s : State}
    (h : Keeps fr r0 s) (hk : fr ||| 0x800000 = fr) :
    Keeps fr r0 (State.grdMachine s) := by
  unfold State.grdMachine
  repeat' (first
    | with_reducible assumption
    | exact lor_sub hk rfl
    | extract_lets
    | with_reducible apply keeps_ite
    | (fail_if_success (with_reducible apply keeps_pending)); with_reducible apply keeps_grd
    | intro _)

theorem State.grdAngUpdate_keeps {fr : Nat} {r0 s : State}
    (h : Keeps fr r0 s) (hk : fr ||| 0x1800000 = fr) :
    Keeps fr r0 (State.grdAngUpdate s) := by
  unfold State.grdAngUpdate
  repeat' (first
    | with_reducible assumption
    | exact lor_sub hk rfl
    | extract_lets
    | with_reducible apply State.grdMachine_keeps
    | with_reducible apply State.grdCurves_keeps
    | with_reducible apply State.grdCurrents_keeps
    | with_reducible apply State.grdPeak_keeps
    | with_reducible apply keeps_ite
    | (fail_if_success (with_reducible apply keeps_pending)); with_reducible apply keeps_grd
    | (fail_if_success (with_reducible apply keeps_pending)); with_reducible apply keeps_isl
    | intro _)

theorem State.grdRecon_keeps {fr : Nat} {r0 s : State}
    (h : Keeps fr r0 s) (hk : fr ||| 0x800000 = fr) :
    Keeps fr r0 (State.grdRecon s) := by
  unfold State.grdRecon
  repeat' (first
    | with_reducible assumption
    | exact lor_sub hk rfl
    | extract_lets
    | with_reducible apply keeps_ite
    | (fail_if_success (with_reducible apply keeps_pending)); with_reducible apply keeps_grd
    | intro _)

theorem execGrdUpdate_keeps {fr : Nat} {r0 s : State}
    (h : Keeps fr r0 s) (hk : fr ||| 0x1c08004 = fr) :
    Answers fr r0 (execGrdUpdate s) := by
  unfold execGrdUpdate
  repeat' (first
    | with_reducible apply answers_next
    | with_reducible assumption
    | exact lor_sub hk rfl
    | extract_lets
    | with_reducible apply State.grdMetric_keeps
    | with_reducible apply State.grdCeased_keeps
    | with_reducible apply State.grdMove_keeps
    | with_reducible apply State.grdRecon_keeps
    | with_reducible apply State.islUpdate_keeps
    | with_reducible apply keeps_ite
    | (fail_if_success (with_reducible apply keeps_pending)); with_reducible apply keeps_grd
    | intro _
    | split
    | dsimp +zetaDelta only)

theorem execRideTimerStop_keeps {fr : Nat} {r0 s : State} {frequency : Bool}
    (h : Keeps fr r0 s) (hk : fr ||| 0x1800004 = fr) :
    Answers fr r0 (execRideTimerStop frequency s) := by
  unfold execRideTimerStop
  repeat' (first
    | with_reducible apply answers_next
    | with_reducible assumption
    | exact lor_sub hk rfl
    | extract_lets
    | with_reducible apply State.grdMove_keeps
    | with_reducible apply keeps_ite
    | (fail_if_success (with_reducible apply keeps_pending)); with_reducible apply keeps_grd
    | intro _)

theorem execRtTailExpiry_keeps {fr : Nat} {r0 s : State}
    (h : Keeps fr r0 s) (hk : fr ||| 0x1800000 = fr) :
    Answers fr r0 (execRtTailExpiry s) := by
  unfold execRtTailExpiry
  repeat' (first
    | with_reducible apply answers_next
    | with_reducible assumption
    | exact lor_sub hk rfl
    | with_reducible apply State.rtClose_keeps
    | with_reducible apply keeps_ite
    | intro _)

theorem execRtMaxExpiry_keeps {fr : Nat} {r0 s : State}
    (h : Keeps fr r0 s) (hk : fr ||| 0x1800000 = fr) :
    Answers fr r0 (execRtMaxExpiry s) := by
  unfold execRtMaxExpiry
  repeat' (first
    | with_reducible apply answers_next
    | with_reducible assumption
    | exact lor_sub hk rfl
    | with_reducible apply State.rtClose_keeps)

theorem execTholdExpiry_keeps {fr : Nat} {r0 s : State}
    (h : Keeps fr r0 s) (hk : fr ||| 0x1c08004 = fr) :
    Answers fr r0 (execTholdExpiry s) := by
  unfold execTholdExpiry
  repeat' (first
    | with_reducible apply answers_next
    | with_reducible assumption
    | exact lor_sub hk rfl
    | extract_lets
    | with_reducible apply State.each_keeps
    | with_reducible apply State.islDecide_keeps
    | with_reducible apply keeps_ite
    | (fail_if_success (with_reducible apply keeps_pending)); with_reducible apply keeps_isl
    | intro _)

theorem execLimitingClear_keeps {fr : Nat} {r0 s : State}
    (h : Keeps fr r0 s) (hk : fr ||| 0x800000 = fr) :
    Answers fr r0 (execLimitingClear s) := by
  unfold execLimitingClear
  repeat' (first
    | with_reducible apply answers_next
    | with_reducible assumption
    | exact lor_sub hk rfl
    | extract_lets
    | with_reducible apply keeps_ite
    | (fail_if_success (with_reducible apply keeps_pending)); with_reducible apply keeps_grd
    | intro _)

theorem execGrdGf_keeps {fr : Nat} {r0 s : State}
    (h : Keeps fr r0 s) (hk : fr ||| 0x800004 = fr) :
    Answers fr r0 (execGrdGf s) := by
  unfold execGrdGf
  repeat' (first
    | with_reducible apply answers_next
    | with_reducible assumption
    | exact lor_sub hk rfl
    | with_reducible apply State.gfRequest_keeps
    | with_reducible refine keeps_of_fst (by assumption) ?_)

theorem execGfTransferTimeout_keeps {fr : Nat} {r0 s : State}
    (h : Keeps fr r0 s) (hk : fr ||| 0x1c08004 = fr) :
    Answers fr r0 (execGfTransferTimeout s) := by
  unfold execGfTransferTimeout
  repeat' (first
    | with_reducible apply answers_next
    | with_reducible assumption
    | exact lor_sub hk rfl
    | extract_lets
    | with_reducible apply State.setBit_keeps
    | with_reducible apply State.grdCeased_keeps
    | with_reducible apply keeps_ite
    | (fail_if_success (with_reducible apply keeps_pending)); with_reducible apply keeps_grd
    | intro _)

theorem State.gfWritten_keeps {fr : Nat} {r0 s : State}
    (h : Keeps fr r0 s) (hk : fr ||| 0x1800004 = fr) :
    Keeps fr r0 (State.gfWritten s) := by
  unfold State.gfWritten
  repeat' (first
    | with_reducible assumption
    | exact lor_sub hk rfl
    | extract_lets
    | with_reducible apply State.setReg_keeps
    | with_reducible apply State.islClear_keeps
    | with_reducible apply State.inc_keeps
    | with_reducible apply keeps_ite
    | (fail_if_success (with_reducible apply keeps_pending)); with_reducible apply keeps_grd
    | intro _)

theorem execGrdGfl_keeps {fr : Nat} {r0 s : State}
    (h : Keeps fr r0 s) (hk : fr ||| 0x800000 = fr) :
    Answers fr r0 (execGrdGfl s) := by
  unfold execGrdGfl
  repeat' (first
    | with_reducible apply answers_next
    | with_reducible assumption
    | exact lor_sub hk rfl
    | extract_lets
    | with_reducible apply keeps_ite
    | (fail_if_success (with_reducible apply keeps_pending)); with_reducible apply keeps_grd
    | intro _)

theorem execGflTransfer_keeps {fr : Nat} {r0 s : State}
    (h : Keeps fr r0 s) (hk : fr ||| 0x800004 = fr) :
    Answers fr r0 (execGflTransfer s) := by
  unfold execGflTransfer
  repeat' (first
    | with_reducible apply answers_next
    | with_reducible assumption
    | exact lor_sub hk rfl
    | extract_lets
    | with_reducible apply State.inc_keeps
    | with_reducible apply State.setReg_keeps
    | with_reducible apply keeps_ite
    | (fail_if_success (with_reducible apply keeps_pending)); with_reducible apply keeps_grd
    | intro _)

theorem execGrdCease_keeps {fr : Nat} {r0 s : State}
    (h : Keeps fr r0 s) (hk : fr ||| 0x1c08004 = fr) :
    Answers fr r0 (execGrdCease s) := by
  unfold execGrdCease
  repeat' (first
    | with_reducible apply answers_next
    | with_reducible assumption
    | exact lor_sub hk rfl
    | with_reducible apply State.grdCeased_keeps
    | with_reducible apply keeps_ite
    | intro _)

theorem execGrdResume_keeps {fr : Nat} {r0 s : State}
    (h : Keeps fr r0 s) (hk : fr ||| 0x1800004 = fr) :
    Answers fr r0 (execGrdResume s) := by
  unfold execGrdResume
  repeat' (first
    | with_reducible apply answers_next
    | with_reducible assumption
    | exact lor_sub hk rfl
    | extract_lets
    | with_reducible apply State.setBit_keeps
    | with_reducible apply keeps_ite
    | (fail_if_success (with_reducible apply keeps_pending)); with_reducible apply keeps_grd_isl
    | intro _)

theorem execReconOk_keeps {fr : Nat} {r0 s : State}
    (h : Keeps fr r0 s) (hk : fr ||| 0x800000 = fr) :
    Answers fr r0 (execReconOk s) := by
  unfold execReconOk
  repeat' (first
    | with_reducible apply answers_next
    | with_reducible assumption
    | exact lor_sub hk rfl
    | extract_lets
    | with_reducible apply keeps_ite
    | (fail_if_success (with_reducible apply keeps_pending)); with_reducible apply keeps_grd
    | intro _)

theorem execPassiveWindowDecision_keeps {fr : Nat} {r0 s : State} {window : Nat}
    (h : Keeps fr r0 s) (hk : fr ||| 0x1c08004 = fr) :
    Answers fr r0 (execPassiveWindowDecision window s) := by
  unfold execPassiveWindowDecision
  repeat' (first
    | with_reducible apply answers_next
    | with_reducible assumption
    | exact lor_sub hk rfl
    | with_reducible apply State.islDecide_keeps)

theorem State.islCycle_keeps {fr : Nat} {r0 s : State}
    (h : Keeps fr r0 s) (hk : fr ||| 0x1c08004 = fr) :
    Keeps fr r0 (State.islCycle s) := by
  unfold State.islCycle
  repeat' (first
    | with_reducible assumption
    | exact lor_sub hk rfl
    | extract_lets
    | with_reducible apply State.islDecideOnce_keeps
    | with_reducible apply keeps_ite
    | with_reducible apply keeps_snd_ite
    | (fail_if_success (with_reducible apply keeps_pending)); with_reducible apply keeps_isl
    | intro _
    | split
    | dsimp +zetaDelta only)

theorem State.islDegrade_keeps {fr : Nat} {r0 s : State}
    (h : Keeps fr r0 s) (hk : fr ||| 0x1000004 = fr) :
    Keeps fr r0 (State.islDegrade s) := by
  unfold State.islDegrade
  repeat' (first
    | with_reducible assumption
    | exact lor_sub hk rfl
    | extract_lets
    | with_reducible apply State.inc_keeps
    | with_reducible apply State.setBit_keeps
    | with_reducible apply State.islClear_keeps
    | with_reducible apply keeps_ite
    | with_reducible apply keeps_snd_ite
    | (fail_if_success (with_reducible apply keeps_pending)); with_reducible apply keeps_isl
    | intro _
    | split
    | dsimp +zetaDelta only)

theorem execChipApply_keeps {fr : Nat} {r0 s : State}
    (h : Keeps fr r0 s) (hk : fr ||| 0x1c08004 = fr) :
    Answers fr r0 (execChipApply s) := by
  unfold execChipApply
  repeat' (first
    | with_reducible assumption
    | exact lor_sub hk rfl
    | with_reducible apply answers_next
    | extract_lets
    | with_reducible apply State.islDegrade_keeps
    | with_reducible apply State.islCycle_keeps
    | with_reducible apply keeps_ite
    | with_reducible apply answers_ite
    | with_reducible apply keeps_snd_ite
    | (fail_if_success (with_reducible apply keeps_pending)); with_reducible apply keeps_isl
    | intro _
    | split
    | dsimp +zetaDelta only)

theorem State.gridCommit_keeps {fr : Nat} {r0 s : State} {old : Word}
    (h : Keeps fr r0 s) (hk : fr ||| 0x1000000 = fr) :
    Keeps fr r0 (State.gridCommit s old) := by
  unfold State.gridCommit
  repeat' (first
    | with_reducible assumption
    | exact lor_sub hk rfl
    | with_reducible apply State.islClear_keeps
    | with_reducible apply keeps_ite
    | intro _)

end Sys2Proof.Machine
end

