-- ==== Sys2Proof/Laws/KeepsGs.lean ====
section
/-!
SUPPORT. What each operation of Machine/Gs.lean keeps.
-/

namespace Sys2Proof.Machine

theorem State.latchBank_keeps {fr : Nat} {r0 s : State} {n : Nat} {bank : Nat}
    (h : Keeps fr r0 s) (hk : fr ||| 0x800 = fr) :
    Keeps fr r0 (State.latchBank s n bank) := by
  unfold State.latchBank
  repeat' (first
    | with_reducible assumption
    | exact lor_sub hk rfl
    | extract_lets
    | with_reducible apply State.setCtx_keeps)

theorem State.gsBump_keeps {fr : Nat} {r0 s : State} {n : Nat} {p : List Byte} {o : Nat}
    (h : Keeps fr r0 s) (hk : fr ||| 0x800 = fr) :
    Keeps fr r0 (State.gsBump s n p o) := by
  unfold State.gsBump
  repeat' (first
    | with_reducible assumption
    | exact lor_sub hk rfl
    | extract_lets
    | with_reducible apply State.setCtx_keeps)

theorem State.gsHop_keeps {fr : Nat} {r0 s : State} {n : Nat} {op : Nat}
    (h : Keeps fr r0 s) (hk : fr ||| 0x2000 = fr) :
    Keeps fr r0 (State.gsHop s n op) := by
  unfold State.gsHop
  repeat' (first
    | with_reducible assumption
    | exact lor_sub hk rfl
    | extract_lets
    | with_reducible apply keeps_ite
    | (fail_if_success (with_reducible apply keeps_pending)); with_reducible apply keeps_gs
    | intro _)

theorem State.gsStart_keeps {fr : Nat} {r0 s : State} {n : Nat} {init : Bool}
    (h : Keeps fr r0 s) (hk : fr ||| 0x2804 = fr) :
    Keeps fr r0 (State.gsStart s n init) := by
  unfold State.gsStart
  repeat' (first
    | with_reducible assumption
    | exact lor_sub hk rfl
    | extract_lets
    | with_reducible apply State.latchBank_keeps
    | with_reducible apply State.setCtx_keeps
    | with_reducible apply State.setBit_keeps
    | with_reducible apply State.inc_keeps
    | with_reducible apply State.gsBump_keeps
    | with_reducible apply State.gsHop_keeps
    | with_reducible apply keeps_ite
    | with_reducible apply keeps_foldl
    | intro _
    | split
    | dsimp +zetaDelta only)

end Sys2Proof.Machine
end

