-- ==== Sys2Proof/Laws/KeepsLeIo.lean ====
section
/-!
SUPPORT. What each operation of Machine/LeIo.lean keeps.
-/

namespace Sys2Proof.Machine

theorem State.latchWords_keeps {fr : Nat} {r0 s : State} {n : Nat} {init : Bool}
    (h : Keeps fr r0 s) (hk : fr ||| 0x800 = fr) :
    Keeps fr r0 (State.latchWords s n init) := by
  unfold State.latchWords
  repeat' (first
    | with_reducible assumption
    | exact lor_sub hk rfl
    | extract_lets
    | with_reducible apply State.setCtx_keeps)

theorem State.ioSnap_keeps {fr : Nat} {r0 s : State} {n : Nat} {a : Nat}
    (h : Keeps fr r0 s) (hk : fr ||| 0x800 = fr) :
    Keeps fr r0 (State.ioSnap s n a) := by
  unfold State.ioSnap
  repeat' (first
    | with_reducible assumption
    | exact lor_sub hk rfl
    | extract_lets
    | with_reducible apply State.setCtx_keeps
    | with_reducible apply keeps_ite
    | intro _)

theorem State.setLifPos_keeps {fr : Nat} {r0 s : State} {p : Nat} {x : LifPos}
    (h : Keeps fr r0 s) (hk : fr ||| 0x2000000 = fr) :
    Keeps fr r0 (State.setLifPos s p x) := by
  unfold State.setLifPos
  repeat' (first
    | with_reducible assumption
    | exact lor_sub hk rfl
    | extract_lets
    | (fail_if_success (with_reducible apply keeps_pending)); with_reducible apply keeps_lif)

theorem State.ioWrite_keeps {fr : Nat} {r0 s : State} {n : Nat} {a : Nat} {v : Word}
    (h : Keeps fr r0 s) (hk : fr ||| 0x3a00804 = fr) :
    Keeps fr r0 (State.ioWrite s n a v) := by
  unfold State.ioWrite
  repeat' (first
    | with_reducible assumption
    | exact lor_sub hk rfl
    | extract_lets
    | with_reducible apply State.genWriteFreq_keeps
    | with_reducible apply State.gfWritten_keeps
    | with_reducible apply State.genWritePhase_keeps
    | with_reducible apply State.setCtx_keeps
    | with_reducible apply State.setLifPos_keeps
    | with_reducible apply keeps_ite
    | (fail_if_success (with_reducible apply keeps_pending)); with_reducible apply keeps_lif
    | intro _)

theorem State.ioStage_keeps {fr : Nat} {r0 s : State} {n : Nat} {a : Nat} {v : Word}
    (h : Keeps fr r0 s) (hk : fr ||| 0x8800 = fr) :
    Keeps fr r0 (State.ioStage s n a v) := by
  unfold State.ioStage
  repeat' (first
    | with_reducible assumption
    | exact lor_sub hk rfl
    | extract_lets
    | with_reducible apply State.stageWord_keeps
    | with_reducible apply State.setCtx_keeps
    | intro _
    | split
    | dsimp +zetaDelta only)

end Sys2Proof.Machine
end

