-- ==== Sys2Proof/Laws/KeepsLeSched.lean ====
section
/-!
SUPPORT. What each operation of Machine/LeSched.lean keeps.
-/

namespace Sys2Proof.Machine

theorem State.beginRun_keeps {fr : Nat} {r0 s : State} {n : Nat}
    (h : Keeps fr r0 s) (hk : fr ||| 0x802804 = fr) :
    Keeps fr r0 (State.beginRun s n) := by
  unfold State.beginRun
  repeat' (first
    | with_reducible assumption
    | exact lor_sub hk rfl
    | extract_lets
    | with_reducible apply State.latchWords_keeps
    | with_reducible apply State.gsStart_keeps
    | with_reducible apply State.setCtx_keeps
    | with_reducible apply State.trace_keeps
    | with_reducible apply keeps_ite
    | with_reducible apply keeps_foldl
    | (fail_if_success (with_reducible apply keeps_pending)); with_reducible apply keeps_grd
    | intro _)

theorem State.resumeRun_keeps {fr : Nat} {r0 s : State} {n : Nat}
    (h : Keeps fr r0 s) (hk : fr ||| 0x804 = fr) :
    Keeps fr r0 (State.resumeRun s n) := by
  unfold State.resumeRun
  repeat' (first
    | with_reducible assumption
    | exact lor_sub hk rfl
    | extract_lets
    | with_reducible apply State.trace_keeps
    | with_reducible apply State.setCtx_keeps)

theorem execContextSwitch_keeps {fr : Nat} {r0 s : State}
    (h : Keeps fr r0 s) (hk : fr ||| 0x802804 = fr) :
    Answers fr r0 (execContextSwitch s) := by
  unfold execContextSwitch
  repeat' (first
    | with_reducible apply answers_next
    | with_reducible assumption
    | exact lor_sub hk rfl
    | extract_lets
    | with_reducible apply State.dequeue_keeps
    | with_reducible apply State.resumeRun_keeps
    | with_reducible apply State.beginRun_keeps
    | with_reducible apply keeps_ite
    | (fail_if_success (with_reducible apply keeps_pending)); with_reducible apply keeps_le
    | intro _
    | split
    | dsimp +zetaDelta only)

theorem execWaitDataArrived_keeps {fr : Nat} {r0 s : State} {n : Nat}
    (h : Keeps fr r0 s) (hk : fr ||| 0x804 = fr) :
    Answers fr r0 (execWaitDataArrived n s) := by
  unfold execWaitDataArrived
  repeat' (first
    | with_reducible apply answers_next
    | with_reducible assumption
    | exact lor_sub hk rfl
    | extract_lets
    | with_reducible apply State.displace_keeps
    | with_reducible apply State.enqueue_keeps
    | with_reducible apply State.setCtx_keeps
    | with_reducible apply keeps_ite
    | intro _)

theorem State.missRaise_keeps {fr : Nat} {r0 s : State} {n : Nat}
    (h : Keeps fr r0 s) (hk : fr ||| 0x804 = fr) :
    Keeps fr r0 (State.missRaise s n) := by
  unfold State.missRaise
  repeat' (first
    | with_reducible assumption
    | exact lor_sub hk rfl
    | extract_lets
    | with_reducible apply State.setBit_keeps
    | with_reducible apply State.setCtxBit_keeps
    | with_reducible apply State.trace_keeps
    | with_reducible apply State.setCtx_keeps)

theorem State.dropStart_keeps {fr : Nat} {r0 s : State} {n : Nat}
    (h : Keeps fr r0 s) (hk : fr ||| 0x800 = fr) :
    Keeps fr r0 (State.dropStart s n) := by
  unfold State.dropStart
  repeat' (first
    | with_reducible assumption
    | exact lor_sub hk rfl
    | with_reducible apply State.afterRun_keeps
    | with_reducible apply State.dequeue_keeps)

theorem State.missRun_keeps {fr : Nat} {r0 s : State} {n : Nat}
    (h : Keeps fr r0 s) (hk : fr ||| 0x419804 = fr) :
    Keeps fr r0 (State.missRun s n) := by
  unfold State.missRun
  repeat' (first
    | with_reducible assumption
    | exact lor_sub hk rfl
    | extract_lets
    | with_reducible apply State.missRaise_keeps
    | with_reducible apply State.setCtx_keeps
    | with_reducible apply State.dropStart_keeps
    | with_reducible apply State.endRun_keeps
    | with_reducible apply State.leFault_keeps
    | with_reducible apply keeps_ite
    | intro _)

theorem State.missPend_keeps {fr : Nat} {r0 s : State} {n : Nat} {q : StartReq}
    (h : Keeps fr r0 s) (hk : fr ||| 0x418804 = fr) :
    Keeps fr r0 (State.missPend s n q) := by
  unfold State.missPend
  repeat' (first
    | with_reducible assumption
    | exact lor_sub hk rfl
    | extract_lets
    | with_reducible apply State.missRaise_keeps
    | with_reducible apply State.setCtx_keeps
    | with_reducible apply State.leFault_keeps
    | with_reducible apply keeps_ite
    | intro _)

theorem execDeadlineMiss_keeps {fr : Nat} {r0 s : State} {n : Nat} {waiting : Bool}
    (h : Keeps fr r0 s) (hk : fr ||| 0x419804 = fr) :
    Answers fr r0 (execDeadlineMiss n waiting s) := by
  unfold execDeadlineMiss
  repeat' (first
    | with_reducible apply answers_next
    | with_reducible assumption
    | exact lor_sub hk rfl
    | extract_lets
    | with_reducible apply State.missPend_keeps
    | with_reducible apply State.missRun_keeps
    | with_reducible apply keeps_ite
    | intro _
    | split
    | dsimp +zetaDelta only)

theorem execJtagHalt_keeps {fr : Nat} {r0 s : State}
    (h : Keeps fr r0 s) (hk : fr ||| 0x408800 = fr) :
    Answers fr r0 (execJtagHalt s) := by
  unfold execJtagHalt
  repeat' (first
    | with_reducible apply answers_next
    | with_reducible assumption
    | exact lor_sub hk rfl
    | extract_lets
    | with_reducible apply State.each_keeps
    | with_reducible apply State.groupLoss_keeps
    | with_reducible apply keeps_ite
    | (fail_if_success (with_reducible apply keeps_pending)); with_reducible apply keeps_le
    | intro _)

theorem execJtagRelease_keeps {fr : Nat} {r0 s : State}
    (h : Keeps fr r0 s) (hk : fr ||| 0x408804 = fr) :
    Answers fr r0 (execJtagRelease s) := by
  unfold execJtagRelease
  repeat' (first
    | with_reducible assumption
    | exact lor_sub hk rfl
    | with_reducible apply answers_next
    | extract_lets
    | with_reducible apply State.each_keeps
    | with_reducible apply State.groupReturn_keeps
    | with_reducible apply State.groupLossAgain_keeps
    | with_reducible apply State.displace_keeps
    | with_reducible apply keeps_ite
    | with_reducible apply answers_ite
    | with_reducible apply keeps_snd_ite
    | (fail_if_success (with_reducible apply keeps_pending)); with_reducible apply keeps_le
    | intro _
    | split
    | dsimp +zetaDelta only)

theorem State.laneFault_keeps {fr : Nat} {r0 s : State}
    (h : Keeps fr r0 s) (hk : fr ||| 0x418804 = fr) :
    Keeps fr r0 (State.laneFault s) := by
  unfold State.laneFault
  repeat' (first
    | with_reducible assumption
    | exact lor_sub hk rfl
    | with_reducible apply State.leFault_keeps
    | with_reducible apply keeps_ite
    | with_reducible apply keeps_snd_ite
    | with_reducible apply keeps_foldl
    | intro _
    | split
    | dsimp +zetaDelta only)

theorem State.laneFail_keeps {fr : Nat} {r0 s : State} {lane : Nat}
    (h : Keeps fr r0 s) (hk : fr ||| 0xc0080418804 = fr) :
    Keeps fr r0 (State.laneFail s lane) := by
  unfold State.laneFail
  repeat' (first
    | with_reducible assumption
    | exact lor_sub hk rfl
    | extract_lets
    | with_reducible apply State.dropLanes_keeps
    | with_reducible apply State.spareExhausted_keeps
    | with_reducible apply State.pairTrigger_keeps
    | with_reducible apply State.laneFault_keeps
    | with_reducible apply keeps_ite
    | with_reducible apply keeps_snd_ite
    | (fail_if_success (with_reducible apply keeps_pending)); with_reducible apply keeps_le
    | intro _
    | split
    | dsimp +zetaDelta only)

theorem execLaneSelftestStart_keeps {fr : Nat} {r0 s : State}
    (h : Keeps fr r0 s) (hk : fr ||| 0x800 = fr) :
    Answers fr r0 (execLaneSelftestStart s) := by
  unfold execLaneSelftestStart
  repeat' (first
    | with_reducible apply answers_next
    | with_reducible assumption
    | exact lor_sub hk rfl
    | extract_lets
    | with_reducible apply keeps_ite
    | (fail_if_success (with_reducible apply keeps_pending)); with_reducible apply keeps_le
    | intro _)

theorem State.nextLane_keeps {fr : Nat} {r0 s : State} {lane : Nat}
    (h : Keeps fr r0 s) (hk : fr ||| 0x800 = fr) :
    Keeps fr r0 (State.nextLane s lane) := by
  unfold State.nextLane
  repeat' (first
    | with_reducible assumption
    | exact lor_sub hk rfl
    | extract_lets
    | with_reducible apply keeps_ite
    | (fail_if_success (with_reducible apply keeps_pending)); with_reducible apply keeps_le
    | intro _)

theorem State.laneRemap_keeps {fr : Nat} {r0 s : State}
    (h : Keeps fr r0 s) (hk : fr ||| 0xc0000000804 = fr) :
    Keeps fr r0 (State.laneRemap s) := by
  unfold State.laneRemap
  repeat' (first
    | with_reducible assumption
    | exact lor_sub hk rfl
    | extract_lets
    | with_reducible apply State.setBit_keeps
    | with_reducible apply State.each_keeps
    | with_reducible apply State.spareUsed_keeps
    | with_reducible apply State.traceUnit_keeps
    | with_reducible apply keeps_ite
    | (fail_if_success (with_reducible apply keeps_pending)); with_reducible apply keeps_le
    | intro _)

theorem execLaneRemapApply_keeps {fr : Nat} {r0 s : State}
    (h : Keeps fr r0 s) (hk : fr ||| 0xc0000000804 = fr) :
    Answers fr r0 (execLaneRemapApply s) := by
  unfold execLaneRemapApply
  repeat' (first
    | with_reducible apply answers_next
    | with_reducible assumption
    | exact lor_sub hk rfl
    | with_reducible apply State.laneRemap_keeps)

theorem execLtestLate_keeps {fr : Nat} {r0 s : State}
    (h : Keeps fr r0 s) (hk : fr ||| 0x4 = fr) :
    Answers fr r0 (execLtestLate s) := by
  unfold execLtestLate
  repeat' (first
    | with_reducible apply answers_next
    | with_reducible assumption
    | exact lor_sub hk rfl
    | with_reducible apply State.setBit_keeps
    | with_reducible apply keeps_ite
    | intro _)

theorem State.ctxCmd_keeps {fr : Nat} {r0 s : State} {epoch : BitVec 16} {f : State → Nat → State}
    (h : Keeps fr r0 s) (hk : fr ||| 0x804 = fr) (hf : ∀ n, Keeps fr r0 (f s n)) : Keeps fr r0 (State.ctxCmd s epoch f) := by
  unfold State.ctxCmd
  dsimp only
  split
  · exact h
  · split
    · exact hf _
    · exact State.setBit_keeps (State.setCtx_keeps h (lor_sub hk rfl)) (lor_sub hk rfl)

theorem State.ctxEnable_keeps {fr : Nat} {r0 s : State} {n : Nat}
    (h : Keeps fr r0 s) (hk : fr ||| 0x800 = fr) :
    Keeps fr r0 (State.ctxEnable s n) := by
  unfold State.ctxEnable
  repeat' (first
    | with_reducible assumption
    | exact lor_sub hk rfl
    | extract_lets
    | with_reducible apply State.setCtx_keeps
    | with_reducible apply keeps_ite
    | intro _)

theorem State.dropReady_keeps {fr : Nat} {r0 s : State} {n : Nat}
    (h : Keeps fr r0 s) (hk : fr ||| 0x9800 = fr) :
    Keeps fr r0 (State.dropReady s n) := by
  unfold State.dropReady
  repeat' (first
    | with_reducible assumption
    | exact lor_sub hk rfl
    | extract_lets
    | with_reducible apply State.dequeue_keeps
    | with_reducible apply State.unstageAll_keeps
    | with_reducible apply State.discardEvals_keeps
    | with_reducible apply State.setCtx_keeps
    | with_reducible apply keeps_ite
    | with_reducible apply keeps_snd_ite
    | intro _
    | split
    | dsimp +zetaDelta only)

theorem State.ctxDisable_keeps {fr : Nat} {r0 s : State} {n : Nat}
    (h : Keeps fr r0 s) (hk : fr ||| 0x19800 = fr) :
    Keeps fr r0 (State.ctxDisable s n) := by
  unfold State.ctxDisable
  repeat' (first
    | with_reducible assumption
    | exact lor_sub hk rfl
    | extract_lets
    | with_reducible apply State.setCtx_keeps
    | with_reducible apply State.leFaultRefresh_keeps
    | with_reducible apply State.dropReady_keeps
    | intro _
    | split
    | dsimp +zetaDelta only)

theorem State.ctxClear_keeps {fr : Nat} {r0 s : State} {n : Nat}
    (h : Keeps fr r0 s) (hk : fr ||| 0x18800 = fr) :
    Keeps fr r0 (State.ctxClear s n) := by
  unfold State.ctxClear
  repeat' (first
    | with_reducible assumption
    | exact lor_sub hk rfl
    | extract_lets
    | with_reducible apply State.leFaultRefresh_keeps
    | with_reducible apply State.setCtx_keeps
    | with_reducible apply keeps_ite
    | intro _)

theorem execCtxEnable_keeps {fr : Nat} {r0 s : State} {epoch : BitVec 16}
    (h : Keeps fr r0 s) (hk : fr ||| 0x804 = fr) :
    Answers fr r0 (execCtxEnable epoch s) := by
  unfold execCtxEnable
  repeat' (first
    | with_reducible apply answers_next
    | with_reducible assumption
    | exact lor_sub hk rfl
    | with_reducible apply State.ctxCmd_keeps
    | with_reducible apply State.ctxEnable_keeps
    | intro _)

theorem execCtxDisable_keeps {fr : Nat} {r0 s : State} {epoch : BitVec 16}
    (h : Keeps fr r0 s) (hk : fr ||| 0x19804 = fr) :
    Answers fr r0 (execCtxDisable epoch s) := by
  unfold execCtxDisable
  repeat' (first
    | with_reducible apply answers_next
    | with_reducible assumption
    | exact lor_sub hk rfl
    | with_reducible apply State.ctxCmd_keeps
    | with_reducible apply State.ctxDisable_keeps
    | intro _)

theorem execCtxClearFault_keeps {fr : Nat} {r0 s : State} {epoch : BitVec 16}
    (h : Keeps fr r0 s) (hk : fr ||| 0x18804 = fr) :
    Answers fr r0 (execCtxClearFault epoch s) := by
  unfold execCtxClearFault
  repeat' (first
    | with_reducible apply answers_next
    | with_reducible assumption
    | exact lor_sub hk rfl
    | with_reducible apply State.ctxCmd_keeps
    | with_reducible apply State.ctxClear_keeps
    | intro _)

theorem execLeCycRead_keeps {fr : Nat} {r0 s : State}
    (h : Keeps fr r0 s) (hk : fr ||| 0x800 = fr) :
    Answers fr r0 (execLeCycRead s) := by
  unfold execLeCycRead
  repeat' (first
    | with_reducible apply answers_next
    | with_reducible assumption
    | exact lor_sub hk rfl
    | extract_lets
    | (fail_if_success (with_reducible apply keeps_pending)); with_reducible apply keeps_le)

theorem State.ctxCommit_keeps {fr : Nat} {r0 s : State} {n : Nat} {d : Option Desc}
    (h : Keeps fr r0 s) (hk : fr ||| 0x59800 = fr) :
    Keeps fr r0 (State.ctxCommit s n d) := by
  unfold State.ctxCommit
  repeat' (first
    | with_reducible assumption
    | exact lor_sub hk rfl
    | extract_lets
    | with_reducible apply State.setCtx_keeps
    | with_reducible apply State.dropReady_keeps
    | with_reducible apply State.ctxDisable_keeps
    | with_reducible apply keeps_ite
    | with_reducible apply keeps_snd_ite
    | (fail_if_success (with_reducible apply keeps_pending)); with_reducible apply keeps_adc
    | intro _
    | split
    | dsimp +zetaDelta only)

theorem State.leCommit_keeps {fr : Nat} {r0 s : State} {old : List Byte}
    (h : Keeps fr r0 s) (hk : fr ||| 0x459804 = fr) :
    Keeps fr r0 (State.leCommit s old) := by
  unfold State.leCommit
  repeat' (first
    | with_reducible assumption
    | exact lor_sub hk rfl
    | extract_lets
    | with_reducible apply State.traceCommit_keeps
    | with_reducible apply State.each_keeps
    | with_reducible apply State.ctxCommit_keeps
    | with_reducible apply State.laneFault_keeps
    | with_reducible apply State.leFaultRefresh_keeps
    | with_reducible apply keeps_ite
    | with_reducible apply keeps_snd_ite
    | intro _
    | split
    | dsimp +zetaDelta only)

end Sys2Proof.Machine
end

