-- ==== Sys2Proof/Laws/KeepsShelf.lean ====
section
/-!
SUPPORT. What each operation of Machine/Shelf.lean keeps.
-/

namespace Sys2Proof.Machine

theorem State.setShf_keeps {fr : Nat} {r0 s : State} {x : Shf}
    (h : Keeps fr r0 s) (hk : fr ||| 0x20000000 = fr) :
    Keeps fr r0 (State.setShf s x) := by
  unfold State.setShf
  repeat' (first
    | with_reducible assumption
    | exact lor_sub hk rfl
    | (fail_if_success (with_reducible apply keeps_pending)); with_reducible apply keeps_shf)

theorem State.setShfStream_keeps {fr : Nat} {r0 s : State} {i : Nat} {x : ShfStream}
    (h : Keeps fr r0 s) (hk : fr ||| 0x20000000 = fr) :
    Keeps fr r0 (State.setShfStream s i x) := by
  unfold State.setShfStream
  repeat' (first
    | with_reducible assumption
    | exact lor_sub hk rfl
    | extract_lets
    | with_reducible apply State.setShf_keeps)

/-- Erasing removes entries, so memory stays canonical. -/
theorem State.eraseRange_keeps {fr : Nat} {r0 s : State} {a n : Nat} (h : Keeps fr r0 s) (hk : fr ||| 0x8 = fr) :
    Keeps fr r0 (State.eraseRange s a n) := by
  refine h.upd hk (fun x hx => ?_) fun w => ?_
  · cases x <;> first | rfl | exact absurd hx (by decide)
  · simp only [State.wf, Bool.and_eq_true] at w ⊢
    exact ⟨SMap.wf_filter _ _ _ w.1, w.2⟩

theorem State.copyRange_keeps {fr : Nat} {r0 s : State} {a : Nat} {b : Nat} {n : Nat}
    (h : Keeps fr r0 s) (hk : fr ||| 0x8 = fr) :
    Keeps fr r0 (State.copyRange s a b n) := by
  unfold State.copyRange
  repeat' (first
    | with_reducible assumption
    | exact lor_sub hk rfl
    | with_reducible apply State.setByte_keeps
    | with_reducible apply State.eraseRange_keeps
    | with_reducible apply keeps_foldl
    | intro _)

theorem State.headerField_keeps {fr : Nat} {r0 s : State} {k : Nat} {off : Nat} {v : Nat}
    (h : Keeps fr r0 s) (hk : fr ||| 0x8 = fr) :
    Keeps fr r0 (State.headerField s k off v) := by
  unfold State.headerField
  repeat' (first
    | with_reducible assumption
    | exact lor_sub hk rfl
    | extract_lets
    | with_reducible apply State.setBytes_keeps
    | intro _
    | split
    | dsimp +zetaDelta only)

theorem State.dropRecords_keeps {fr : Nat} {r0 s : State} {k : Nat}
    (h : Keeps fr r0 s) (hk : fr ||| 0x20000004 = fr) :
    Keeps fr r0 (State.dropRecords s k) := by
  unfold State.dropRecords
  repeat' (first
    | with_reducible assumption
    | exact lor_sub hk rfl
    | extract_lets
    | with_reducible apply State.count_keeps
    | with_reducible apply State.setShf_keeps)

theorem State.linkSector_keeps {fr : Nat} {r0 s : State} {i : Nat} {k : Nat}
    (h : Keeps fr r0 s) (hk : fr ||| 0x20000008 = fr) :
    Keeps fr r0 (State.linkSector s i k) := by
  unfold State.linkSector
  repeat' (first
    | with_reducible assumption
    | exact lor_sub hk rfl
    | extract_lets
    | with_reducible apply State.setBytes_keeps
    | with_reducible apply State.headerField_keeps
    | with_reducible apply State.setShfStream_keeps
    | intro _
    | split
    | dsimp +zetaDelta only)

theorem State.shfTake_keeps {fr : Nat} {r0 s : State} {i : Nat}
    (h : Keeps fr r0 s) (hk : fr ||| 0x20000004 = fr) :
    Keeps fr r0 (State.shfTake s i) := by
  unfold State.shfTake
  repeat' (first
    | with_reducible assumption
    | exact lor_sub hk rfl
    | extract_lets
    | with_reducible apply State.dropRecords_keeps
    | with_reducible apply State.setShfStream_keeps
    | with_reducible apply State.setShf_keeps
    | with_reducible apply keeps_ite
    | intro _
    | split
    | dsimp +zetaDelta only)

theorem State.shfGoOn_keeps {fr : Nat} {r0 s : State}
    (h : Keeps fr r0 s) (hk : fr ||| 0x20000004 = fr) :
    Keeps fr r0 (State.shfGoOn s) := by
  unfold State.shfGoOn
  repeat' (first
    | with_reducible assumption
    | exact lor_sub hk rfl
    | extract_lets
    | with_reducible apply State.shfTake_keeps
    | with_reducible apply State.setShf_keeps
    | with_reducible apply keeps_ite
    | intro _
    | split
    | dsimp +zetaDelta only)

theorem execShfRecordBegin_keeps {fr : Nat} {r0 s : State}
    (h : Keeps fr r0 s) (hk : fr ||| 0x80020000004 = fr) :
    Answers fr r0 (execShfRecordBegin s) := by
  unfold execShfRecordBegin
  repeat' (first
    | with_reducible apply answers_next
    | with_reducible assumption
    | exact lor_sub hk rfl
    | extract_lets
    | with_reducible apply State.setShfStream_keeps
    | with_reducible apply State.setShf_keeps
    | with_reducible apply State.shfGoOn_keeps
    | with_reducible apply keeps_ite
    | (fail_if_success (with_reducible apply keeps_pending)); with_reducible apply keeps_evq
    | intro _
    | split
    | dsimp +zetaDelta only)

theorem State.badSector_keeps {fr : Nat} {r0 s : State} {k : Nat}
    (h : Keeps fr r0 s) (hk : fr ||| 0xc0020000004 = fr) :
    Keeps fr r0 (State.badSector s k) := by
  unfold State.badSector
  repeat' (first
    | with_reducible assumption
    | exact lor_sub hk rfl
    | extract_lets
    | with_reducible apply State.inc_keeps
    | with_reducible apply State.setShf_keeps
    | with_reducible apply State.spareUsed_keeps
    | with_reducible apply State.setBit_keeps
    | with_reducible apply State.spareExhausted_keeps
    | with_reducible apply State.spareEntry_keeps
    | with_reducible apply State.setShfStream_keeps
    | with_reducible apply keeps_ite
    | with_reducible apply keeps_foldl
    | intro _)

theorem State.shfFinish_keeps {fr : Nat} {r0 s : State} {j : ShfJob}
    (h : Keeps fr r0 s) (hk : fr ||| 0x30000004 = fr) :
    Keeps fr r0 (State.shfFinish s j) := by
  unfold State.shfFinish
  repeat' (first
    | with_reducible assumption
    | exact lor_sub hk rfl
    | extract_lets
    | with_reducible apply State.setShf_keeps
    | with_reducible apply State.setBit_keeps
    | with_reducible apply keeps_ite
    | (fail_if_success (with_reducible apply keeps_pending)); with_reducible apply keeps_recd
    | intro _
    | split
    | dsimp +zetaDelta only)

theorem State.pageWritten_keeps {fr : Nat} {r0 s : State} {j : ShfJob}
    (h : Keeps fr r0 s) (hk : fr ||| 0x3000000c = fr) :
    Keeps fr r0 (State.pageWritten s j) := by
  unfold State.pageWritten
  repeat' (first
    | with_reducible assumption
    | exact lor_sub hk rfl
    | extract_lets
    | with_reducible apply State.setBytes_keeps
    | with_reducible apply State.headerField_keeps
    | with_reducible apply State.setShfStream_keeps
    | with_reducible apply State.shfFinish_keeps
    | with_reducible apply State.setShf_keeps
    | with_reducible apply State.shfGoOn_keeps
    | with_reducible apply keeps_ite
    | with_reducible apply keeps_snd_ite
    | intro _
    | split
    | dsimp +zetaDelta only)

theorem execShfPageDone_keeps {fr : Nat} {r0 s : State} {boot : Bool} {ok : Bool}
    (h : Keeps fr r0 s) (hk : fr ||| 0xc003000000c = fr) :
    Answers fr r0 (execShfPageDone boot ok s) := by
  unfold execShfPageDone
  repeat' (first
    | with_reducible apply answers_next
    | with_reducible assumption
    | exact lor_sub hk rfl
    | extract_lets
    | with_reducible apply State.setBit_keeps
    | with_reducible apply State.pageWritten_keeps
    | with_reducible apply State.badSector_keeps
    | with_reducible apply State.setShf_keeps
    | with_reducible apply State.shfGoOn_keeps
    | with_reducible apply State.setShfStream_keeps
    | with_reducible apply keeps_ite
    | intro _
    | split
    | dsimp +zetaDelta only)

theorem execShfEraseDone_keeps {fr : Nat} {r0 s : State} {ok : Bool}
    (h : Keeps fr r0 s) (hk : fr ||| 0xc002000000c = fr) :
    Answers fr r0 (execShfEraseDone ok s) := by
  unfold execShfEraseDone
  repeat' (first
    | with_reducible apply answers_next
    | with_reducible assumption
    | exact lor_sub hk rfl
    | extract_lets
    | with_reducible apply State.setShf_keeps
    | with_reducible apply State.badSector_keeps
    | with_reducible apply State.eraseRange_keeps
    | with_reducible apply State.linkSector_keeps
    | with_reducible apply State.shfGoOn_keeps
    | with_reducible apply keeps_ite
    | intro _
    | split
    | dsimp +zetaDelta only)

theorem execWearLevelMove_keeps {fr : Nat} {r0 s : State}
    (h : Keeps fr r0 s) (hk : fr ||| 0x20000008 = fr) :
    Answers fr r0 (execWearLevelMove s) := by
  unfold execWearLevelMove
  repeat' (first
    | with_reducible assumption
    | exact lor_sub hk rfl
    | with_reducible apply answers_next
    | extract_lets
    | with_reducible apply State.copyRange_keeps
    | with_reducible apply State.setShf_keeps
    | with_reducible apply State.each_keeps
    | with_reducible apply State.headerField_keeps
    | with_reducible apply State.setShfStream_keeps
    | with_reducible apply keeps_ite
    | with_reducible apply answers_ite
    | with_reducible apply keeps_snd_ite
    | intro _
    | split
    | dsimp +zetaDelta only)

theorem execLoc_keeps {fr : Nat} {r0 s : State} {stream : Nat}
    (h : Keeps fr r0 s) (hk : fr ||| 0x20000004 = fr) :
    Answers fr r0 (execLoc stream s) := by
  unfold execLoc
  repeat' (first
    | with_reducible apply answers_next
    | with_reducible assumption
    | exact lor_sub hk rfl
    | extract_lets
    | with_reducible apply State.setBit_keeps
    | with_reducible apply State.setShf_keeps
    | split
    | dsimp +zetaDelta only)

theorem execAppend_keeps {fr : Nat} {r0 s : State}
    (h : Keeps fr r0 s) (hk : fr ||| 0x20000004 = fr) :
    Answers fr r0 (execAppend s) := by
  unfold execAppend
  repeat' (first
    | with_reducible apply answers_next
    | with_reducible assumption
    | exact lor_sub hk rfl
    | extract_lets
    | with_reducible apply State.setBit_keeps
    | with_reducible apply State.setShf_keeps
    | with_reducible apply keeps_ite
    | intro _)

theorem State.shfPowerFail_keeps {fr : Nat} {r0 s : State}
    (h : Keeps fr r0 s) (hk : fr ||| 0x2000000a = fr) :
    Keeps fr r0 (State.shfPowerFail s) := by
  unfold State.shfPowerFail
  repeat' (first
    | with_reducible assumption
    | exact lor_sub hk rfl
    | extract_lets
    | with_reducible apply State.setShf_keeps
    | with_reducible apply State.eraseRange_keeps
    | with_reducible apply State.setBytes_keeps
    | (fail_if_success (with_reducible apply keeps_pending)); with_reducible apply keeps_free
    | intro _
    | split
    | dsimp +zetaDelta only)

theorem State.shfResume_keeps {fr : Nat} {r0 s : State}
    (h : Keeps fr r0 s) (hk : fr ||| 0x20000004 = fr) :
    Keeps fr r0 (State.shfResume s) := by
  unfold State.shfResume
  repeat' (first
    | with_reducible assumption
    | exact lor_sub hk rfl
    | extract_lets
    | with_reducible apply State.shfGoOn_keeps
    | with_reducible apply State.setShf_keeps)

theorem State.shfLife_keeps {fr : Nat} {r0 s : State} {payload : List Byte}
    (h : Keeps fr r0 s) (hk : fr ||| 0x20000000 = fr) :
    Keeps fr r0 (State.shfLife s payload) := by
  unfold State.shfLife
  repeat' (first
    | with_reducible assumption
    | exact lor_sub hk rfl
    | extract_lets
    | with_reducible apply State.setShf_keeps)

theorem State.shfCommit_keeps {fr : Nat} {r0 s : State}
    (h : Keeps fr r0 s) (hk : fr ||| 0x20000004 = fr) :
    Keeps fr r0 (State.shfCommit s) := by
  unfold State.shfCommit
  repeat' (first
    | with_reducible assumption
    | exact lor_sub hk rfl
    | extract_lets
    | with_reducible apply State.each_keeps
    | with_reducible apply State.dropRecords_keeps
    | with_reducible apply State.setShfStream_keeps
    | with_reducible apply keeps_ite
    | with_reducible apply keeps_foldl
    | intro _)

theorem State.shfReset_keeps {fr : Nat} {r0 s : State}
    (h : Keeps fr r0 s) (hk : fr ||| 0x20000000 = fr) :
    Keeps fr r0 (State.shfReset s) := by
  unfold State.shfReset
  repeat' (first
    | with_reducible assumption
    | exact lor_sub hk rfl
    | extract_lets
    | with_reducible apply State.setShf_keeps
    | with_reducible apply State.each_keeps
    | with_reducible apply State.setShfStream_keeps
    | intro _)

end Sys2Proof.Machine
end

