-- ==== Sys2Proof/Laws/KeepsLif.lean ====
section
/-!
SUPPORT. What each operation of Machine/Lif.lean keeps.
-/

namespace Sys2Proof.Machine

theorem State.setLif_keeps {fr : Nat} {r0 s : State} {x : Lif}
    (h : Keeps fr r0 s) (hk : fr ||| 0x2000000 = fr) :
    Keeps fr r0 (State.setLif s x) := by
  unfold State.setLif
  repeat' (first
    | with_reducible assumption
    | exact lor_sub hk rfl
    | (fail_if_success (with_reducible apply keeps_pending)); with_reducible apply keeps_lif)

theorem State.lifCount_keeps {fr : Nat} {r0 s : State} {p : Nat} {b : Int} {c : Int} {half : Bool}
    (h : Keeps fr r0 s) (hk : fr ||| 0x200000c = fr) :
    Keeps fr r0 (State.lifCount s p b c half) := by
  unfold State.lifCount
  repeat' (first
    | with_reducible assumption
    | exact lor_sub hk rfl
    | extract_lets
    | with_reducible apply State.setMemWord_keeps
    | with_reducible apply State.setBit_keeps
    | with_reducible apply State.setLifPos_keeps
    | with_reducible apply keeps_ite
    | intro _)

theorem State.lifClose_keeps {fr : Nat} {r0 s : State} {p : Nat} {a2 : Nat}
    (h : Keeps fr r0 s) (hk : fr ||| 0x200000c = fr) :
    Keeps fr r0 (State.lifClose s p a2) := by
  induction a2 generalizing s with
  | zero =>
    unfold State.lifClose
    repeat' (first
      | with_reducible assumption
      | exact lor_sub hk rfl
      | with_reducible apply State.lifCount_keeps
      | with_reducible apply State.setLifPos_keeps
      | with_reducible apply keeps_ite
      | intro _
      | split)
  | succ n ih =>
    unfold State.lifClose
    repeat' (first
      | with_reducible assumption
      | exact lor_sub hk rfl
      | with_reducible apply ih
      | with_reducible apply State.lifCount_keeps
      | with_reducible apply State.setLifPos_keeps
      | with_reducible apply keeps_ite
      | intro _
      | split)

theorem State.lifReversal_keeps {fr : Nat} {r0 s : State} {p : Nat} {r : Int}
    (h : Keeps fr r0 s) (hk : fr ||| 0x200000c = fr) :
    Keeps fr r0 (State.lifReversal s p r) := by
  unfold State.lifReversal
  repeat' (first
    | with_reducible assumption
    | exact lor_sub hk rfl
    | extract_lets
    | with_reducible apply State.inc_keeps
    | with_reducible apply State.lifCount_keeps
    | with_reducible apply State.setLifPos_keeps
    | with_reducible apply State.lifClose_keeps
    | with_reducible apply keeps_ite
    | intro _)

theorem State.lifTrack_keeps {fr : Nat} {r0 s : State} {p : Nat} {t : Int}
    (h : Keeps fr r0 s) (hk : fr ||| 0x200000c = fr) :
    Keeps fr r0 (State.lifTrack s p t) := by
  unfold State.lifTrack
  repeat' (first
    | with_reducible assumption
    | exact lor_sub hk rfl
    | extract_lets
    | with_reducible apply State.setLifPos_keeps
    | with_reducible apply State.lifReversal_keeps
    | with_reducible apply keeps_ite
    | intro _
    | split
    | dsimp +zetaDelta only)

theorem State.lifGapEntry_keeps {fr : Nat} {r0 s : State} {p : Nat}
    (h : Keeps fr r0 s) (hk : fr ||| 0x80000000006 = fr) :
    Keeps fr r0 (State.lifGapEntry s p) := by
  unfold State.lifGapEntry
  repeat' (first
    | with_reducible assumption
    | exact lor_sub hk rfl
    | extract_lets
    | with_reducible apply State.takeFrees_keeps
    | with_reducible apply State.setBit_keeps
    | with_reducible apply State.event_keeps
    | with_reducible refine keeps_of_snd (by assumption) ?_
    | split
    | dsimp +zetaDelta only)

theorem State.lifModel_keeps {fr : Nat} {r0 s : State} {p : Nat} {ths : Word}
    (h : Keeps fr r0 s) (hk : fr ||| 0x200000e = fr) :
    Keeps fr r0 (State.lifModel s p ths) := by
  unfold State.lifModel
  repeat' (first
    | with_reducible assumption
    | exact lor_sub hk rfl
    | extract_lets
    | with_reducible apply State.takeFrees_keeps
    | with_reducible apply State.lifTrack_keeps
    | with_reducible apply State.setLifPos_keeps
    | with_reducible apply keeps_ite
    | with_reducible refine keeps_of_snd (by assumption) ?_
    | intro _
    | split
    | dsimp +zetaDelta only)

theorem State.lifStep_keeps {fr : Nat} {r0 s : State} {p : Nat}
    (h : Keeps fr r0 s) (hk : fr ||| 0x8000200000e = fr) :
    Keeps fr r0 (State.lifStep s p) := by
  unfold State.lifStep
  repeat' (first
    | with_reducible assumption
    | exact lor_sub hk rfl
    | extract_lets
    | with_reducible apply State.lifGapEntry_keeps
    | with_reducible apply State.setLifPos_keeps
    | with_reducible apply State.inc_keeps
    | with_reducible apply State.lifModel_keeps
    | with_reducible apply keeps_ite
    | intro _)

theorem execLifStep_keeps {fr : Nat} {r0 s : State}
    (h : Keeps fr r0 s) (hk : fr ||| 0x8000200000e = fr) :
    Answers fr r0 (execLifStep s) := by
  unfold execLifStep
  repeat' (first
    | with_reducible apply answers_next
    | with_reducible assumption
    | exact lor_sub hk rfl
    | with_reducible apply State.each_keeps
    | with_reducible apply State.lifStep_keeps
    | intro _)

theorem State.lifRecord_keeps {fr : Nat} {r0 s : State}
    (h : Keeps fr r0 s) (hk : fr ||| 0x22000000 = fr) :
    Keeps fr r0 (State.lifRecord s) := by
  unfold State.lifRecord
  repeat' (first
    | with_reducible assumption
    | exact lor_sub hk rfl
    | extract_lets
    | with_reducible apply State.setLif_keeps
    | with_reducible apply State.shfLife_keeps
    | with_reducible apply State.each_keeps
    | with_reducible apply State.setLifPos_keeps
    | with_reducible apply keeps_ite
    | intro _)

theorem execLifeRecord_keeps {fr : Nat} {r0 s : State}
    (h : Keeps fr r0 s) (hk : fr ||| 0x22000000 = fr) :
    Answers fr r0 (execLifeRecord s) := by
  unfold execLifeRecord
  repeat' (first
    | with_reducible apply answers_next
    | with_reducible assumption
    | exact lor_sub hk rfl
    | with_reducible apply State.lifRecord_keeps)

theorem execLifWrite_keeps {fr : Nat} {r0 s : State}
    (h : Keeps fr r0 s) (hk : fr ||| 0x22000000 = fr) :
    Answers fr r0 (execLifWrite s) := by
  unfold execLifWrite
  repeat' (first
    | with_reducible apply answers_next
    | with_reducible assumption
    | exact lor_sub hk rfl
    | with_reducible apply State.lifRecord_keeps)

theorem execLifClear_keeps {fr : Nat} {r0 s : State} {p : Nat} {key : BitVec 16}
    (h : Keeps fr r0 s) (hk : fr ||| 0x200000c = fr) :
    Answers fr r0 (execLifClear p key s) := by
  unfold execLifClear
  repeat' (first
    | with_reducible assumption
    | exact lor_sub hk rfl
    | with_reducible apply answers_next
    | extract_lets
    | with_reducible apply State.setLifPos_keeps
    | with_reducible apply State.setLif_keeps
    | with_reducible apply State.each_keeps
    | with_reducible apply State.setByte_keeps
    | with_reducible apply State.setBit_keeps
    | with_reducible apply keeps_ite
    | with_reducible apply answers_ite
    | with_reducible apply keeps_snd_ite
    | intro _
    | split
    | dsimp +zetaDelta only)

theorem State.lifRestore_keeps {fr : Nat} {r0 s : State}
    (h : Keeps fr r0 s) (hk : fr ||| 0x2000000 = fr) :
    Keeps fr r0 (State.lifRestore s) := by
  unfold State.lifRestore
  repeat' (first
    | with_reducible assumption
    | exact lor_sub hk rfl
    | extract_lets
    | with_reducible apply State.setLif_keeps
    | with_reducible apply State.each_keeps
    | with_reducible apply State.setLifPos_keeps
    | intro _
    | split
    | dsimp +zetaDelta only)

theorem State.lifCommit_keeps {fr : Nat} {r0 s : State} {old : List Byte}
    (h : Keeps fr r0 s) (hk : fr ||| 0x2000008 = fr) :
    Keeps fr r0 (State.lifCommit s old) := by
  unfold State.lifCommit
  repeat' (first
    | with_reducible assumption
    | exact lor_sub hk rfl
    | extract_lets
    | with_reducible apply State.setLif_keeps
    | with_reducible apply State.setBytes_keeps
    | with_reducible apply State.each_keeps
    | with_reducible apply State.setLifPos_keeps
    | with_reducible apply keeps_ite
    | intro _
    | split
    | dsimp +zetaDelta only)

theorem State.setRowTrack_keeps {fr : Nat} {r0 s : State} {b : Nat} {l : List (Nat × Nat)}
    (h : Keeps fr r0 s) (hk : fr ||| 0x2000000 = fr) :
    Keeps fr r0 (State.setRowTrack s b l) := by
  unfold State.setRowTrack
  repeat' (first
    | with_reducible assumption
    | exact lor_sub hk rfl
    | extract_lets
    | with_reducible apply State.setLif_keeps)

theorem execEccCorrected_keeps {fr : Nat} {r0 s : State} {bank : Nat} {row : Nat}
    (h : Keeps fr r0 s) (hk : fr ||| 0x2000000 = fr) :
    Answers fr r0 (execEccCorrected bank row s) := by
  unfold execEccCorrected
  repeat' (first
    | with_reducible apply answers_next
    | with_reducible assumption
    | exact lor_sub hk rfl
    | extract_lets
    | with_reducible apply State.setRowTrack_keeps
    | with_reducible apply keeps_ite
    | with_reducible apply keeps_foldl
    | intro _)

theorem State.remapStore_keeps {fr : Nat} {r0 s : State}
    (h : Keeps fr r0 s) (hk : fr ||| 0x8 = fr) :
    Keeps fr r0 (State.remapStore s) := by
  unfold State.remapStore
  repeat' (first
    | with_reducible assumption
    | exact lor_sub hk rfl
    | extract_lets
    | with_reducible apply State.setBytes_keeps)

theorem State.eccZero_keeps {fr : Nat} {r0 s : State} {bank : Nat} {a : Nat}
    (h : Keeps fr r0 s) (hk : fr ||| 0x100000808 = fr) :
    Keeps fr r0 (State.eccZero s bank a) := by
  unfold State.eccZero
  repeat' (first
    | with_reducible assumption
    | exact lor_sub hk rfl
    | extract_lets
    | with_reducible apply State.setMemWord_keeps
    | with_reducible apply State.setCtx_keeps
    | with_reducible apply keeps_ite
    | with_reducible apply keeps_snd_ite
    | (fail_if_success (with_reducible apply keeps_pending)); with_reducible apply keeps_mon
    | intro _
    | split
    | dsimp +zetaDelta only)

theorem execRowRemapDone_keeps {fr : Nat} {r0 s : State} {bank : Nat} {row : Nat} {failed : Option Nat}
    (h : Keeps fr r0 s) (hk : fr ||| 0xc010200080c = fr) :
    Answers fr r0 (execRowRemapDone bank row failed s) := by
  unfold execRowRemapDone
  repeat' (first
    | with_reducible apply answers_next
    | with_reducible assumption
    | exact lor_sub hk rfl
    | extract_lets
    | with_reducible apply State.eccZero_keeps
    | with_reducible apply State.setRowTrack_keeps
    | with_reducible apply State.remapStore_keeps
    | with_reducible apply State.setLif_keeps
    | with_reducible apply State.spareUsed_keeps
    | with_reducible apply State.spstat_keeps
    | with_reducible apply State.spareExhausted_keeps
    | with_reducible apply keeps_ite
    | intro _
    | split
    | dsimp +zetaDelta only)

theorem execRowTrackExpiry_keeps {fr : Nat} {r0 s : State} {bank : Nat} {row : Nat}
    (h : Keeps fr r0 s) (hk : fr ||| 0x2000000 = fr) :
    Answers fr r0 (execRowTrackExpiry bank row s) := by
  unfold execRowTrackExpiry
  repeat' (first
    | with_reducible apply answers_next
    | with_reducible assumption
    | exact lor_sub hk rfl
    | with_reducible apply State.setRowTrack_keeps)

theorem State.remapBoot_keeps {fr : Nat} {r0 s : State}
    (h : Keeps fr r0 s) (hk : fr ||| 0x2000004 = fr) :
    Keeps fr r0 (State.remapBoot s) := by
  unfold State.remapBoot
  repeat' (first
    | with_reducible assumption
    | exact lor_sub hk rfl
    | extract_lets
    | with_reducible apply State.each_keeps
    | with_reducible apply State.setLif_keeps
    | with_reducible apply State.spstat_keeps
    | with_reducible apply keeps_ite
    | with_reducible apply keeps_foldl
    | intro _)

theorem State.splogRead_keeps {fr : Nat} {r0 s : State}
    (h : Keeps fr r0 s) (hk : fr ||| 0x40000000000 = fr) :
    Keeps fr r0 (State.splogRead s) := by
  unfold State.splogRead
  repeat' (first
    | with_reducible assumption
    | exact lor_sub hk rfl
    | (fail_if_success (with_reducible apply keeps_pending)); with_reducible apply keeps_spareLog)

theorem execLifSplogRead_keeps {fr : Nat} {r0 s : State}
    (h : Keeps fr r0 s) (hk : fr ||| 0x40000000000 = fr) :
    Answers fr r0 (execLifSplogRead s) := by
  unfold execLifSplogRead
  repeat' (first
    | with_reducible apply answers_next
    | with_reducible assumption
    | exact lor_sub hk rfl
    | with_reducible apply State.splogRead_keeps)

end Sys2Proof.Machine
end

