-- ==== Sys2Proof/Laws/KeepsPair.lean ====
section
/-!
SUPPORT. What each operation of Machine/Pair.lean keeps.
-/

namespace Sys2Proof.Machine

theorem State.pairStandby_keeps {fr : Nat} {r0 s : State}
    (h : Keeps fr r0 s) (hk : fr ||| 0x80000000 = fr) :
    Keeps fr r0 (State.pairStandby s) := by
  unfold State.pairStandby
  repeat' (first
    | with_reducible assumption
    | exact lor_sub hk rfl
    | extract_lets
    | with_reducible apply State.setPair_keeps)

theorem State.pairTakeRoles_keeps {fr : Nat} {r0 s : State} {cause : Nat}
    (h : Keeps fr r0 s) (hk : fr ||| 0x40000000 = fr) :
    Keeps fr r0 (State.pairTakeRoles s cause) := by
  unfold State.pairTakeRoles
  repeat' (first
    | with_reducible assumption
    | exact lor_sub hk rfl
    | with_reducible apply State.each_keeps
    | with_reducible apply State.takeRole_keeps
    | intro _)

theorem State.pairDual_keeps {fr : Nat} {r0 s : State}
    (h : Keeps fr r0 s) (hk : fr ||| 0x80000004 = fr) :
    Keeps fr r0 (State.pairDual s) := by
  unfold State.pairDual
  repeat' (first
    | with_reducible assumption
    | exact lor_sub hk rfl
    | extract_lets
    | with_reducible apply State.setBit_keeps
    | with_reducible apply State.inc_keeps
    | with_reducible apply State.pairStandby_keeps
    | with_reducible apply keeps_ite
    | with_reducible apply keeps_snd_ite
    | intro _
    | split
    | dsimp +zetaDelta only)

theorem State.pairActive_keeps {fr : Nat} {r0 s : State}
    (h : Keeps fr r0 s) (hk : fr ||| 0xc0000000 = fr) :
    Keeps fr r0 (State.pairActive s) := by
  unfold State.pairActive
  repeat' (first
    | with_reducible assumption
    | exact lor_sub hk rfl
    | extract_lets
    | with_reducible apply State.pairTakeRoles_keeps
    | with_reducible apply State.setPair_keeps)

theorem State.takeover_keeps {fr : Nat} {r0 s : State} {cause : Nat}
    (h : Keeps fr r0 s) (hk : fr ||| 0xc0000000 = fr) :
    Keeps fr r0 (State.takeover s cause) := by
  unfold State.takeover
  repeat' (first
    | with_reducible assumption
    | exact lor_sub hk rfl
    | extract_lets
    | with_reducible apply State.setPair_keeps
    | with_reducible apply State.pairTakeRoles_keeps)

theorem State.peerGone_keeps {fr : Nat} {r0 s : State}
    (h : Keeps fr r0 s) (hk : fr ||| 0xc0000004 = fr) :
    Keeps fr r0 (State.peerGone s) := by
  unfold State.peerGone
  repeat' (first
    | with_reducible assumption
    | exact lor_sub hk rfl
    | with_reducible apply State.takeover_keeps
    | with_reducible apply State.setBit_keeps
    | with_reducible apply keeps_ite
    | intro _)

theorem execPairArm_keeps {fr : Nat} {r0 s : State}
    (h : Keeps fr r0 s) (hk : fr ||| 0x80000000 = fr) :
    Answers fr r0 (execPairArm s) := by
  unfold execPairArm
  repeat' (first
    | with_reducible apply answers_next
    | with_reducible assumption
    | exact lor_sub hk rfl
    | extract_lets
    | with_reducible apply State.pairBeat_keeps
    | with_reducible apply State.setPair_keeps
    | with_reducible apply State.pairStandby_keeps
    | with_reducible apply keeps_ite
    | intro _)

theorem execArmActiveTimeout_keeps {fr : Nat} {r0 s : State}
    (h : Keeps fr r0 s) (hk : fr ||| 0xc0000000 = fr) :
    Answers fr r0 (execArmActiveTimeout s) := by
  unfold execArmActiveTimeout
  repeat' (first
    | with_reducible apply answers_next
    | with_reducible assumption
    | exact lor_sub hk rfl
    | with_reducible apply State.pairStandby_keeps
    | with_reducible apply State.pairActive_keeps
    | with_reducible apply keeps_ite
    | intro _)

theorem execPeerAbsentTimeout_keeps {fr : Nat} {r0 s : State}
    (h : Keeps fr r0 s) (hk : fr ||| 0xc0000004 = fr) :
    Answers fr r0 (execPeerAbsentTimeout s) := by
  unfold execPeerAbsentTimeout
  repeat' (first
    | with_reducible assumption
    | exact lor_sub hk rfl
    | with_reducible apply answers_next
    | with_reducible apply State.pairActive_keeps
    | with_reducible apply State.setBit_keeps
    | with_reducible apply State.pairDual_keeps
    | with_reducible apply keeps_ite
    | with_reducible apply answers_ite
    | with_reducible apply keeps_snd_ite
    | intro _
    | split
    | dsimp +zetaDelta only)

theorem execPairActInChange_keeps {fr : Nat} {r0 s : State} {level : Bool} {primary : Bool}
    (h : Keeps fr r0 s) (hk : fr ||| 0xc0000004 = fr) :
    Answers fr r0 (execPairActInChange level primary s) := by
  unfold execPairActInChange
  repeat' (first
    | with_reducible assumption
    | exact lor_sub hk rfl
    | with_reducible apply answers_next
    | extract_lets
    | with_reducible apply State.setPair_keeps
    | with_reducible apply State.pairStandby_keeps
    | with_reducible apply State.pairDual_keeps
    | with_reducible apply State.peerGone_keeps
    | with_reducible apply keeps_ite
    | with_reducible apply answers_ite
    | with_reducible apply keeps_snd_ite
    | intro _
    | split
    | dsimp +zetaDelta only)

theorem execHeartbeatLoss_keeps {fr : Nat} {r0 s : State}
    (h : Keeps fr r0 s) (hk : fr ||| 0xc0000004 = fr) :
    Answers fr r0 (execHeartbeatLoss s) := by
  unfold execHeartbeatLoss
  repeat' (first
    | with_reducible apply answers_next
    | with_reducible assumption
    | exact lor_sub hk rfl
    | extract_lets
    | with_reducible apply State.setPair_keeps
    | with_reducible apply State.setBit_keeps
    | with_reducible apply State.peerGone_keeps
    | with_reducible apply keeps_ite
    | intro _)

theorem execHeartbeatReturn_keeps {fr : Nat} {r0 s : State}
    (h : Keeps fr r0 s) (hk : fr ||| 0x80000000 = fr) :
    Answers fr r0 (execHeartbeatReturn s) := by
  unfold execHeartbeatReturn
  repeat' (first
    | with_reducible apply answers_next
    | with_reducible assumption
    | exact lor_sub hk rfl
    | extract_lets
    | with_reducible apply State.setPair_keeps)

theorem execTakeoverDrive_keeps {fr : Nat} {r0 s : State} {g : Nat}
    (h : Keeps fr r0 s) (hk : fr ||| 0x80000004 = fr) :
    Answers fr r0 (execTakeoverDrive g s) := by
  unfold execTakeoverDrive
  repeat' (first
    | with_reducible apply answers_next
    | with_reducible assumption
    | exact lor_sub hk rfl
    | extract_lets
    | with_reducible apply State.setPair_keeps
    | with_reducible apply State.inc_keeps
    | with_reducible apply keeps_ite
    | intro _
    | split
    | dsimp +zetaDelta only)

theorem execPairHandover_keeps {fr : Nat} {r0 s : State} {epoch : BitVec 16}
    (h : Keeps fr r0 s) (hk : fr ||| 0xc0000004 = fr) :
    Answers fr r0 (execPairHandover epoch s) := by
  unfold execPairHandover
  repeat' (first
    | with_reducible apply answers_next
    | with_reducible assumption
    | exact lor_sub hk rfl
    | extract_lets
    | with_reducible apply State.stale_keeps
    | with_reducible apply State.setBit_keeps
    | with_reducible apply State.trsSendTo_keeps
    | with_reducible apply State.setPair_keeps
    | with_reducible apply keeps_ite
    | intro _)

theorem execHswFrame_keeps {fr : Nat} {r0 s : State} {f : TrsFrame} {msg : HswMsg}
    (h : Keeps fr r0 s) (hk : fr ||| 0x80000000 = fr) :
    Answers fr r0 (execHswFrame f msg s) := by
  unfold execHswFrame
  repeat' (first
    | with_reducible apply answers_next
    | with_reducible assumption
    | exact lor_sub hk rfl
    | extract_lets
    | with_reducible apply State.setPair_keeps
    | with_reducible apply keeps_ite
    | intro _
    | split
    | dsimp +zetaDelta only)

theorem execHandoverSwitch_keeps {fr : Nat} {r0 s : State}
    (h : Keeps fr r0 s) (hk : fr ||| 0xc0000004 = fr) :
    Answers fr r0 (execHandoverSwitch s) := by
  unfold execHandoverSwitch
  repeat' (first
    | with_reducible apply answers_next
    | with_reducible assumption
    | exact lor_sub hk rfl
    | extract_lets
    | with_reducible apply State.pairStandby_keeps
    | with_reducible apply State.inc_keeps
    | with_reducible apply State.setPair_keeps
    | with_reducible apply State.pairActive_keeps
    | with_reducible apply keeps_ite
    | intro _)

theorem execPairTake_keeps {fr : Nat} {r0 s : State}
    (h : Keeps fr r0 s) (hk : fr ||| 0xc0000004 = fr) :
    Answers fr r0 (execPairTake s) := by
  unfold execPairTake
  repeat' (first
    | with_reducible assumption
    | exact lor_sub hk rfl
    | with_reducible apply answers_next
    | with_reducible apply State.takeover_keeps
    | with_reducible apply State.pairDual_keeps
    | with_reducible apply keeps_ite
    | with_reducible apply answers_ite
    | with_reducible apply keeps_snd_ite
    | intro _
    | split
    | dsimp +zetaDelta only)

theorem execPairRejoin_keeps {fr : Nat} {r0 s : State}
    (h : Keeps fr r0 s) (hk : fr ||| 0x80000000 = fr) :
    Answers fr r0 (execPairRejoin s) := by
  unfold execPairRejoin
  repeat' (first
    | with_reducible apply answers_next
    | with_reducible assumption
    | exact lor_sub hk rfl
    | extract_lets
    | with_reducible apply State.pairBeat_keeps
    | with_reducible apply State.pairStandby_keeps
    | with_reducible apply State.setPair_keeps
    | with_reducible apply keeps_ite
    | intro _)

theorem execPeerHeld_keeps {fr : Nat} {r0 s : State}
    (h : Keeps fr r0 s) (hk : fr ||| 0x4 = fr) :
    Answers fr r0 (execPeerHeld s) := by
  unfold execPeerHeld
  repeat' (first
    | with_reducible apply answers_next
    | with_reducible assumption
    | exact lor_sub hk rfl
    | with_reducible apply State.setBit_keeps
    | with_reducible apply keeps_ite
    | intro _)

theorem State.mirSend_keeps {fr : Nat} {r0 s : State} {header : List Byte}
    (h : Keeps fr r0 s) (hk : fr ||| 0xc0000000 = fr) :
    Keeps fr r0 (State.mirSend s header) := by
  unfold State.mirSend
  repeat' (first
    | with_reducible assumption
    | exact lor_sub hk rfl
    | extract_lets
    | with_reducible apply State.setPair_keeps
    | with_reducible apply State.each_keeps
    | with_reducible apply State.trsSendTo_keeps
    | intro _)

theorem State.mirReady_keeps {fr : Nat} {r0 s : State}
    (h : Keeps fr r0 s) (hk : fr ||| 0xc0000000 = fr) :
    Keeps fr r0 (State.mirReady s) := by
  unfold State.mirReady
  repeat' (first
    | with_reducible assumption
    | exact lor_sub hk rfl
    | extract_lets
    | with_reducible apply State.mirSend_keeps
    | with_reducible apply State.setPair_keeps
    | with_reducible apply keeps_ite
    | with_reducible apply keeps_snd_ite
    | intro _
    | split
    | dsimp +zetaDelta only)

theorem State.pairReload_keeps {fr : Nat} {r0 s : State} {g : Nat}
    (h : Keeps fr r0 s) (hk : fr ||| 0xc0000000 = fr) :
    Keeps fr r0 (State.pairReload s g) := by
  unfold State.pairReload
  repeat' (first
    | with_reducible assumption
    | exact lor_sub hk rfl
    | extract_lets
    | with_reducible apply State.setPair_keeps
    | with_reducible apply State.mirReady_keeps
    | with_reducible apply keeps_ite
    | intro _)

theorem execMirrorFrame_keeps {fr : Nat} {r0 s : State} {f : TrsFrame}
    (h : Keeps fr r0 s) (hk : fr ||| 0x80000004 = fr) :
    Answers fr r0 (execMirrorFrame f s) := by
  unfold execMirrorFrame
  repeat' (first
    | with_reducible apply answers_next
    | with_reducible assumption
    | exact lor_sub hk rfl
    | extract_lets
    | with_reducible apply State.stale_keeps
    | with_reducible apply State.inc_keeps
    | with_reducible apply State.setPair_keeps
    | with_reducible apply keeps_ite
    | intro _)

theorem State.mirCompare_keeps {fr : Nat} {r0 s : State} {b : List Byte} {fresh : List Nat}
    (h : Keeps fr r0 s) (hk : fr ||| 0x80000004 = fr) :
    Keeps fr r0 (State.mirCompare s b fresh) := by
  unfold State.mirCompare
  repeat' (first
    | with_reducible assumption
    | exact lor_sub hk rfl
    | extract_lets
    | with_reducible apply State.count_keeps
    | with_reducible apply State.setBit_keeps
    | with_reducible apply State.setPair_keeps
    | with_reducible apply keeps_ite
    | intro _)

theorem State.mirMeter_keeps {fr : Nat} {r0 s : State} {ws : List Word} {pidx : Nat}
    (h : Keeps fr r0 s) (hk : fr ||| 0x8000000 = fr) :
    Keeps fr r0 (State.mirMeter s ws pidx) := by
  unfold State.mirMeter
  repeat' (first
    | with_reducible assumption
    | exact lor_sub hk rfl
    | extract_lets
    | with_reducible apply State.setMtr_keeps
    | with_reducible apply keeps_ite
    | with_reducible apply keeps_foldl
    | intro _)

theorem State.mirPut_keeps {fr : Nat} {r0 s : State} {i : Nat} {ws : List Word} {pidx : Nat}
    (h : Keeps fr r0 s) (hk : fr ||| 0x8400808 = fr) :
    Keeps fr r0 (State.mirPut s i ws pidx) := by
  unfold State.mirPut
  repeat' (first
    | with_reducible assumption
    | exact lor_sub hk rfl
    | extract_lets
    | with_reducible apply State.setCtx_keeps
    | with_reducible apply State.setBytes_keeps
    | with_reducible apply State.mirMeter_keeps
    | with_reducible apply State.each_keeps
    | with_reducible apply State.setEvtEntry_keeps
    | with_reducible apply keeps_ite
    | with_reducible apply keeps_foldl
    | intro _
    | split
    | dsimp +zetaDelta only)

theorem execMirrorApply_keeps {fr : Nat} {r0 s : State} {fresh : List Nat}
    (h : Keeps fr r0 s) (hk : fr ||| 0x8840080c = fr) :
    Answers fr r0 (execMirrorApply fresh s) := by
  unfold execMirrorApply
  repeat' (first
    | with_reducible apply answers_next
    | with_reducible assumption
    | exact lor_sub hk rfl
    | extract_lets
    | with_reducible apply State.setPair_keeps
    | with_reducible apply State.mirCompare_keeps
    | with_reducible apply State.mirPut_keeps
    | with_reducible apply keeps_ite
    | with_reducible apply keeps_foldl
    | intro _
    | split
    | dsimp +zetaDelta only)

theorem State.pairCommit_keeps {fr : Nat} {r0 s : State}
    (h : Keeps fr r0 s) (hk : fr ||| 0x80000000 = fr) :
    Keeps fr r0 (State.pairCommit s) := by
  unfold State.pairCommit
  repeat' (first
    | with_reducible assumption
    | exact lor_sub hk rfl
    | extract_lets
    | with_reducible apply State.pairBeat_keeps
    | with_reducible apply State.setPair_keeps
    | with_reducible apply keeps_ite
    | intro _)

end Sys2Proof.Machine
end

