-- ==== Sys2Proof/Laws/KeepsTier.lean ====
section
/-!
SUPPORT. What each operation of Machine/Tier.lean keeps.
-/

namespace Sys2Proof.Machine

theorem State.setSys_keeps {fr : Nat} {r0 s : State} {x : Sys}
    (h : Keeps fr r0 s) (hk : fr ||| 0x2000000000 = fr) :
    Keeps fr r0 (State.setSys s x) := by
  unfold State.setSys
  repeat' (first
    | with_reducible assumption
    | exact lor_sub hk rfl
    | (fail_if_success (with_reducible apply keeps_pending)); with_reducible apply keeps_sys)

theorem State.setClk_keeps {fr : Nat} {r0 s : State} {x : Clk}
    (h : Keeps fr r0 s) (hk : fr ||| 0x400 = fr) :
    Keeps fr r0 (State.setClk s x) := by
  unfold State.setClk
  repeat' (first
    | with_reducible assumption
    | exact lor_sub hk rfl
    | (fail_if_success (with_reducible apply keeps_pending)); with_reducible apply keeps_clk)

theorem State.learn_keeps {fr : Nat} {r0 s : State}
    (h : Keeps fr r0 s) (hk : fr ||| 0x400 = fr) :
    Keeps fr r0 (State.learn s) := by
  unfold State.learn
  repeat' (first
    | with_reducible assumption
    | exact lor_sub hk rfl
    | extract_lets
    | with_reducible apply State.setClk_keeps)

theorem State.mppWrite_keeps {fr : Nat} {r0 s : State}
    (h : Keeps fr r0 s) (hk : fr ||| 0x8 = fr) :
    Keeps fr r0 (State.mppWrite s) := by
  unfold State.mppWrite
  repeat' (first
    | with_reducible assumption
    | exact lor_sub hk rfl
    | extract_lets
    | with_reducible apply State.setMemWord_keeps
    | with_reducible apply keeps_ite
    | intro _)

theorem State.tier2Begin_keeps {fr : Nat} {r0 s : State}
    (h : Keeps fr r0 s) (hk : fr ||| 0x20000040c0c = fr) :
    Keeps fr r0 (State.tier2Begin s) := by
  unfold State.tier2Begin
  repeat' (first
    | with_reducible assumption
    | exact lor_sub hk rfl
    | extract_lets
    | with_reducible apply State.mppWrite_keeps
    | with_reducible apply State.fansBegin_keeps
    | with_reducible apply State.calibrate_keeps
    | with_reducible apply State.learn_keeps
    | with_reducible apply keeps_ite
    | (fail_if_success (with_reducible apply keeps_pending)); with_reducible apply keeps_le
    | intro _)

theorem State.ctxIdle_keeps {fr : Nat} {r0 s : State} {n : Nat}
    (h : Keeps fr r0 s) (hk : fr ||| 0x19804 = fr) :
    Keeps fr r0 (State.ctxIdle s n) := by
  unfold State.ctxIdle
  repeat' (first
    | with_reducible assumption
    | exact lor_sub hk rfl
    | extract_lets
    | with_reducible apply State.setCtx_keeps
    | with_reducible apply State.leFaultRefresh_keeps
    | with_reducible apply State.endRun_keeps
    | with_reducible apply State.dropStart_keeps
    | with_reducible apply keeps_ite
    | intro _
    | split
    | dsimp +zetaDelta only)

theorem State.leStop_keeps {fr : Nat} {r0 s : State}
    (h : Keeps fr r0 s) (hk : fr ||| 0x19804 = fr) :
    Keeps fr r0 (State.leStop s) := by
  unfold State.leStop
  repeat' (first
    | with_reducible assumption
    | exact lor_sub hk rfl
    | extract_lets
    | with_reducible apply State.each_keeps
    | with_reducible apply State.ctxIdle_keeps
    | with_reducible apply State.unstage_keeps
    | (fail_if_success (with_reducible apply keeps_pending)); with_reducible apply keeps_le
    | intro _)

theorem State.tier2End_keeps {fr : Nat} {r0 s : State}
    (h : Keeps fr r0 s) (hk : fr ||| 0x20000059804 = fr) :
    Keeps fr r0 (State.tier2End s) := by
  unfold State.tier2End
  repeat' (first
    | with_reducible assumption
    | exact lor_sub hk rfl
    | extract_lets
    | with_reducible apply State.calibrate_keeps
    | with_reducible apply State.leStop_keeps
    | with_reducible apply State.fansOff_keeps
    | with_reducible apply keeps_ite
    | intro _)

theorem State.retier_keeps {fr : Nat} {r0 s : State}
    (h : Keeps fr r0 s) (hk : fr ||| 0x20000059d0c = fr) :
    Keeps fr r0 (State.retier s) := by
  unfold State.retier
  repeat' (first
    | with_reducible assumption
    | exact lor_sub hk rfl
    | extract_lets
    | with_reducible apply State.tier2Begin_keeps
    | with_reducible apply State.tier2End_keeps
    | with_reducible apply keeps_ite
    | (fail_if_success (with_reducible apply keeps_pending)); with_reducible apply keeps_tier
    | intro _)

theorem execAdcCalibrationDone_keeps {fr : Nat} {r0 s : State}
    (h : Keeps fr r0 s) (hk : fr ||| 0x20000059d0c = fr) :
    Answers fr r0 (execAdcCalibrationDone s) := by
  unfold execAdcCalibrationDone
  repeat' (first
    | with_reducible apply answers_next
    | with_reducible assumption
    | exact lor_sub hk rfl
    | with_reducible apply State.retier_keeps
    | with_reducible apply State.setBit_keeps
    | with_reducible apply State.calibrate_keeps
    | with_reducible apply keeps_ite
    | intro _)

theorem execSdmCalibrationDone_keeps {fr : Nat} {r0 s : State}
    (h : Keeps fr r0 s) (hk : fr ||| 0x20000059d0c = fr) :
    Answers fr r0 (execSdmCalibrationDone s) := by
  unfold execSdmCalibrationDone
  repeat' (first
    | with_reducible apply answers_next
    | with_reducible assumption
    | exact lor_sub hk rfl
    | with_reducible apply State.retier_keeps
    | with_reducible apply State.setBit_keeps)

theorem execSafConfirmInv_keeps {fr : Nat} {r0 s : State} {w : Word}
    (h : Keeps fr r0 s) (hk : fr ||| 0x20100059d0c = fr) :
    Answers fr r0 (execSafConfirmInv w s) := by
  unfold execSafConfirmInv
  repeat' (first
    | with_reducible apply answers_next
    | with_reducible assumption
    | exact lor_sub hk rfl
    | with_reducible apply State.retier_keeps
    | with_reducible apply State.confirmInv_keeps)

theorem execSelftestChunk_keeps {fr : Nat} {r0 s : State} {failed : Bool}
    (h : Keeps fr r0 s) (hk : fr ||| 0xe0080459d0c = fr) :
    Answers fr r0 (execSelftestChunk failed s) := by
  unfold execSelftestChunk
  repeat' (first
    | with_reducible apply answers_next
    | with_reducible assumption
    | exact lor_sub hk rfl
    | extract_lets
    | with_reducible apply State.nextLane_keeps
    | with_reducible apply State.retier_keeps
    | with_reducible apply State.laneFail_keeps
    | with_reducible apply keeps_ite
    | (fail_if_success (with_reducible apply keeps_pending)); with_reducible apply keeps_le
    | intro _
    | split
    | dsimp +zetaDelta only)

theorem execBandLearningDone_keeps {fr : Nat} {r0 s : State}
    (h : Keeps fr r0 s) (hk : fr ||| 0x20000059d0c = fr) :
    Answers fr r0 (execBandLearningDone s) := by
  unfold execBandLearningDone
  repeat' (first
    | with_reducible apply answers_next
    | with_reducible assumption
    | exact lor_sub hk rfl
    | extract_lets
    | with_reducible apply State.setClk_keeps
    | with_reducible apply State.retier_keeps
    | with_reducible apply keeps_ite
    | intro _)

theorem execMppSampleDone_keeps {fr : Nat} {r0 s : State} {steps : List (BitVec 4)}
    (h : Keeps fr r0 s) (hk : fr ||| 0x2000000008 = fr) :
    Answers fr r0 (execMppSampleDone steps s) := by
  unfold execMppSampleDone
  repeat' (first
    | with_reducible apply answers_next
    | with_reducible assumption
    | exact lor_sub hk rfl
    | extract_lets
    | with_reducible apply State.setSys_keeps
    | with_reducible apply State.mppWrite_keeps
    | with_reducible apply keeps_ite
    | intro _)

end Sys2Proof.Machine
end

