-- ==== Sys2Proof/Laws/KeepsImg.lean ====
section
/-!
SUPPORT. What each operation of Machine/Img.lean keeps.
-/

namespace Sys2Proof.Machine

theorem State.setImg_keeps {fr : Nat} {r0 s : State} {x : Img}
    (h : Keeps fr r0 s) (hk : fr ||| 0x1000000000 = fr) :
    Keeps fr r0 (State.setImg s x) := by
  unfold State.setImg
  repeat' (first
    | with_reducible assumption
    | exact lor_sub hk rfl
    | (fail_if_success (with_reducible apply keeps_pending)); with_reducible apply keeps_img)

theorem State.withImage_keeps {fr : Nat} {r0 s : State} {x : Staged}
    (h : Keeps fr r0 s) (hk : fr ||| 0x10 = fr) :
    Keeps fr r0 (State.withImage s x) := by
  unfold State.withImage
  repeat' (first
    | with_reducible assumption
    | exact lor_sub hk rfl
    | with_reducible apply keeps_ite
    | with_reducible apply keeps_foldl
    | (fail_if_success (with_reducible apply keeps_pending)); with_reducible apply keeps_cfg
    | intro _)

theorem State.imgRefuse_keeps {fr : Nat} {r0 s : State} {load : Bool} {reason : Nat} {section_ : Nat} {detail : Nat}
    (h : Keeps fr r0 s) (hk : fr ||| 0x1000000004 = fr) :
    Keeps fr r0 (State.imgRefuse s load reason section_ detail) := by
  unfold State.imgRefuse
  repeat' (first
    | with_reducible assumption
    | exact lor_sub hk rfl
    | extract_lets
    | with_reducible apply State.setImg_keeps
    | with_reducible apply State.setBit_keeps
    | with_reducible apply keeps_ite
    | intro _)

theorem State.imgNote_keeps {fr : Nat} {r0 s : State} {n : Nat × Nat × Nat}
    (h : Keeps fr r0 s) (hk : fr ||| 0x1000000004 = fr) :
    Keeps fr r0 (State.imgNote s n) := by
  unfold State.imgNote
  repeat' (first
    | with_reducible assumption
    | exact lor_sub hk rfl
    | extract_lets
    | with_reducible apply State.setBit_keeps
    | with_reducible apply State.setImg_keeps
    | with_reducible apply keeps_ite
    | intro _)

theorem State.noteClamps_keeps {fr : Nat} {r0 s : State} {x : Staged}
    (h : Keeps fr r0 s) (hk : fr ||| 0x1000000014 = fr) :
    Keeps fr r0 (State.noteClamps s x) := by
  unfold State.noteClamps
  repeat' (first
    | with_reducible assumption
    | exact lor_sub hk rfl
    | with_reducible apply State.imgNote_keeps
    | with_reducible apply State.withImage_keeps
    | with_reducible apply keeps_foldl
    | intro _)

theorem State.imgNoteRead_keeps {fr : Nat} {r0 s : State}
    (h : Keeps fr r0 s) (hk : fr ||| 0x1000000000 = fr) :
    Keeps fr r0 (State.imgNoteRead s) := by
  unfold State.imgNoteRead
  repeat' (first
    | with_reducible assumption
    | exact lor_sub hk rfl
    | extract_lets
    | with_reducible apply State.setImg_keeps)

theorem execImgNoteRead_keeps {fr : Nat} {r0 s : State}
    (h : Keeps fr r0 s) (hk : fr ||| 0x1000000000 = fr) :
    Answers fr r0 (execImgNoteRead s) := by
  unfold execImgNoteRead
  repeat' (first
    | with_reducible apply answers_next
    | with_reducible assumption
    | exact lor_sub hk rfl
    | with_reducible apply State.imgNoteRead_keeps)

theorem State.writeStaged_keeps {fr : Nat} {r0 s : State} {x : Staged}
    (h : Keeps fr r0 s) (hk : fr ||| 0x8 = fr) :
    Keeps fr r0 (State.writeStaged s x) := by
  unfold State.writeStaged
  repeat' (first
    | with_reducible assumption
    | exact lor_sub hk rfl
    | extract_lets
    | with_reducible apply State.setBytes_keeps
    | split
    | dsimp +zetaDelta only)

theorem State.pwmCommit_keeps {fr : Nat} {r0 s : State} {old : State} {mask : Nat}
    (h : Keeps fr r0 s) (hk : fr ||| 0xc0000008006 = fr) :
    Keeps fr r0 (State.pwmCommit s old mask) := by
  unfold State.pwmCommit
  repeat' (first
    | with_reducible assumption
    | exact lor_sub hk rfl
    | extract_lets
    | with_reducible apply State.each_keeps
    | with_reducible apply State.setGrp_keeps
    | with_reducible apply State.setDrive_keeps
    | with_reducible apply State.spareUsed_keeps
    | with_reducible apply State.takeFree_keeps
    | with_reducible apply keeps_ite
    | with_reducible refine keeps_of_snd (by assumption) ?_
    | intro _
    | split
    | dsimp +zetaDelta only)

theorem State.tripCommit_keeps {fr : Nat} {r0 s : State}
    (h : Keeps fr r0 s) (hk : fr ||| 0x418804 = fr) :
    Keeps fr r0 (State.tripCommit s) := by
  unfold State.tripCommit
  repeat' (first
    | with_reducible assumption
    | exact lor_sub hk rfl
    | extract_lets
    | with_reducible apply State.each_keeps
    | with_reducible apply State.groupUntrip_keeps
    | with_reducible apply State.setGrp_keeps
    | with_reducible apply State.sourceOn_keeps
    | intro _)

theorem State.gpioCommit_keeps {fr : Nat} {r0 s : State}
    (h : Keeps fr r0 s) (hk : fr ||| 0x800000000 = fr) :
    Keeps fr r0 (State.gpioCommit s) := by
  unfold State.gpioCommit
  repeat' (first
    | with_reducible assumption
    | exact lor_sub hk rfl
    | extract_lets
    | with_reducible apply keeps_ite
    | with_reducible apply keeps_foldl
    | (fail_if_success (with_reducible apply keeps_pending)); with_reducible apply keeps_pins
    | intro _)

theorem State.holdupCommit_keeps {fr : Nat} {r0 s : State} {old : State}
    (h : Keeps fr r0 s) (hk : fr ||| 0x400 = fr) :
    Keeps fr r0 (State.holdupCommit s old) := by
  unfold State.holdupCommit
  repeat' (first
    | with_reducible assumption
    | exact lor_sub hk rfl
    | extract_lets
    | with_reducible apply State.learn_keeps
    | with_reducible apply State.setClk_keeps
    | with_reducible apply keeps_ite
    | intro _)

theorem State.applyImage_keeps {fr : Nat} {r0 s : State} {old : State} {x : Staged}
    (h : Keeps fr r0 s) (hk : fr ||| 0xe0fbb5f9c0e = fr) : Keeps fr r0 (State.applyImage s old x) := by
  unfold State.applyImage
  extract_lets t le s0 s1 s2 s3 s4 s5 s6 s7 s8 s9 s9b s10 s11 s12 s13 s14 s15 s16
  have h0 : Keeps fr r0 s0 := keeps_le h (lor_sub hk rfl)
  have h1 : Keeps fr r0 s1 := keeps_ite (fun _ => State.pwmCommit_keeps h0 (lor_sub hk rfl)) fun _ => h0
  have h2 : Keeps fr r0 s2 := keeps_ite
    (fun _ => State.sdmReconfigure_keeps (State.adcReconfigure_keeps h1 (lor_sub hk rfl)) (lor_sub hk rfl)) fun _ => h1
  have h3 : Keeps fr r0 s3 := keeps_ite (fun _ => State.cmpReconfigure_keeps h2 (lor_sub hk rfl)) fun _ => h2
  have h4 : Keeps fr r0 s4 := keeps_ite (fun _ => State.tripCommit_keeps h3 (lor_sub hk rfl)) fun _ => h3
  have h5 : Keeps fr r0 s5 := keeps_ite
    (fun _ => State.angCommit_keeps (State.evtCommit_keeps
      (keeps_ite (fun _ => h4) fun _ => State.mtrSchedCommit_keeps h4 (lor_sub hk rfl)) (lor_sub hk rfl)) (lor_sub hk rfl))
    fun _ => h4
  have h6 : Keeps fr r0 s6 := keeps_ite (fun _ => State.gpioCommit_keeps h5 (lor_sub hk rfl)) fun _ => h5
  have h7 : Keeps fr r0 s7 := keeps_ite (fun _ => State.leCommit_keeps h6 (lor_sub hk rfl)) fun _ => h6
  have h8 : Keeps fr r0 s8 := keeps_ite
    (fun _ => State.pairCommit_keeps (State.gridCommit_keeps h7 (lor_sub hk rfl)) (lor_sub hk rfl)) fun _ => h7
  have h9 : Keeps fr r0 s9 := keeps_ite (fun _ => State.each_keeps h8 (lor_sub hk rfl) fun _ _ ht =>
    State.setCtx_keeps ht (lor_sub hk rfl)) fun _ => h8
  have h9b : Keeps fr r0 s9b := keeps_ite (fun _ => State.setBytes_keeps h9 (lor_sub hk rfl)) fun _ => h9
  have h10 : Keeps fr r0 s10 := keeps_ite (fun _ => State.each_keeps h9b (lor_sub hk rfl) fun _ _ ht =>
    State.setCtx_keeps ht (lor_sub hk rfl)) fun _ => h9b
  have h11 : Keeps fr r0 s11 := keeps_ite (fun _ => State.mtrCommit_keeps h10 (lor_sub hk rfl)) fun _ => h10
  have h12 : Keeps fr r0 s12 := keeps_ite
    (fun _ => State.shfCommit_keeps (State.recCommit_keeps h11 (lor_sub hk rfl)) (lor_sub hk rfl)) fun _ => h11
  have h13 : Keeps fr r0 s13 := keeps_ite
    (fun _ => State.ethCommit_keeps (State.timCommit_keeps h12 (lor_sub hk rfl)) (lor_sub hk rfl)) fun _ => h12
  have h14 : Keeps fr r0 s14 := keeps_ite (fun _ => State.holdupCommit_keeps h13 (lor_sub hk rfl)) fun _ => h13
  have h15 : Keeps fr r0 s15 := keeps_ite (fun _ => State.fanCommit_keeps h14 (lor_sub hk rfl)) fun _ => h14
  have h16 : Keeps fr r0 s16 := keeps_ite (fun _ => State.lifCommit_keeps h15 (lor_sub hk rfl)) fun _ => h15
  exact keeps_ite (fun _ => State.monAccept_keeps h16 (lor_sub hk rfl)) fun _ => h16

theorem State.commitImage_keeps {fr : Nat} {r0 s : State} {x : Staged}
    (h : Keeps fr r0 s) (hk : fr ||| 0xe3fbb5f9d1e = fr) :
    Keeps fr r0 (State.commitImage s x) := by
  unfold State.commitImage
  repeat' (first
    | with_reducible assumption
    | exact lor_sub hk rfl
    | extract_lets
    | with_reducible apply State.setImg_keeps
    | with_reducible apply State.imgRefuse_keeps
    | with_reducible apply State.setSys_keeps
    | with_reducible apply State.retier_keeps
    | with_reducible apply State.evtFlush_keeps
    | with_reducible apply State.noteClamps_keeps
    | with_reducible apply State.withImage_keeps
    | with_reducible apply State.applyImage_keeps
    | with_reducible apply keeps_ite
    | with_reducible apply keeps_snd_ite
    | with_reducible apply keeps_foldl
    | intro _
    | split
    | dsimp +zetaDelta only)

theorem State.bootSelect_keeps {fr : Nat} {r0 s : State} {aErr : Bool} {bErr : Bool}
    (h : Keeps fr r0 s) (hk : fr ||| 0x1000000014 = fr) :
    Keeps fr r0 (State.bootSelect s aErr bErr) := by
  unfold State.bootSelect
  repeat' (first
    | with_reducible assumption
    | exact lor_sub hk rfl
    | extract_lets
    | with_reducible apply State.setImg_keeps
    | with_reducible apply State.setBit_keeps
    | with_reducible apply State.noteClamps_keeps
    | with_reducible apply keeps_ite
    | intro _)

theorem execBootImageCommit_keeps {fr : Nat} {r0 s : State}
    (h : Keeps fr r0 s) (hk : fr ||| 0xe3fbb5f9d1e = fr) :
    Answers fr r0 (execBootImageCommit s) := by
  unfold execBootImageCommit
  repeat' (first
    | with_reducible apply answers_next
    | with_reducible assumption
    | exact lor_sub hk rfl
    | extract_lets
    | with_reducible apply State.setImg_keeps
    | with_reducible apply State.commitImage_keeps
    | with_reducible apply State.writeStaged_keeps
    | with_reducible apply State.imgRefuse_keeps
    | with_reducible apply keeps_ite
    | intro _
    | split
    | dsimp +zetaDelta only)

theorem execLoad_keeps {fr : Nat} {r0 s : State}
    (h : Keeps fr r0 s) (hk : fr ||| 0x1000000004 = fr) :
    Answers fr r0 (execLoad s) := by
  unfold execLoad
  repeat' (first
    | with_reducible apply answers_next
    | with_reducible assumption
    | exact lor_sub hk rfl
    | extract_lets
    | with_reducible apply State.imgRefuse_keeps
    | with_reducible apply State.setImg_keeps
    | with_reducible apply keeps_ite
    | intro _)

theorem execLoadComplete_keeps {fr : Nat} {r0 s : State}
    (h : Keeps fr r0 s) (hk : fr ||| 0x100000001c = fr) :
    Answers fr r0 (execLoadComplete s) := by
  unfold execLoadComplete
  repeat' (first
    | with_reducible apply answers_next
    | with_reducible assumption
    | exact lor_sub hk rfl
    | extract_lets
    | with_reducible apply State.setImg_keeps
    | with_reducible apply State.imgRefuse_keeps
    | with_reducible apply State.withImage_keeps
    | with_reducible apply State.noteClamps_keeps
    | with_reducible apply State.writeStaged_keeps
    | with_reducible apply keeps_ite
    | intro _
    | split
    | dsimp +zetaDelta only)

theorem execCommitAt_keeps {fr : Nat} {r0 s : State}
    (h : Keeps fr r0 s) (hk : fr ||| 0x1000000004 = fr) :
    Answers fr r0 (execCommitAt s) := by
  unfold execCommitAt
  repeat' (first
    | with_reducible apply answers_next
    | with_reducible assumption
    | exact lor_sub hk rfl
    | extract_lets
    | with_reducible apply State.imgRefuse_keeps
    | with_reducible apply State.setImg_keeps
    | with_reducible apply keeps_ite
    | intro _
    | split
    | dsimp +zetaDelta only)

theorem execCommitNow_keeps {fr : Nat} {r0 s : State}
    (h : Keeps fr r0 s) (hk : fr ||| 0xe3fbb5f9d1e = fr) :
    Answers fr r0 (execCommitNow s) := by
  unfold execCommitNow
  repeat' (first
    | with_reducible apply answers_next
    | with_reducible assumption
    | exact lor_sub hk rfl
    | with_reducible apply State.imgRefuse_keeps
    | with_reducible apply State.commitImage_keeps
    | with_reducible apply keeps_ite
    | intro _
    | split)

theorem execCommitInstant_keeps {fr : Nat} {r0 s : State}
    (h : Keeps fr r0 s) (hk : fr ||| 0xe3fbb5f9d1e = fr) :
    Answers fr r0 (execCommitInstant s) := by
  unfold execCommitInstant
  repeat' (first
    | with_reducible apply answers_next
    | with_reducible assumption
    | exact lor_sub hk rfl
    | with_reducible apply State.commitImage_keeps
    | split)

theorem State.commitCancel_keeps {fr : Nat} {r0 s : State}
    (h : Keeps fr r0 s) (hk : fr ||| 0x1000000000 = fr) :
    Keeps fr r0 (State.commitCancel s) := by
  unfold State.commitCancel
  repeat' (first
    | with_reducible assumption
    | exact lor_sub hk rfl
    | extract_lets
    | with_reducible apply State.setImg_keeps)

theorem execCancel_keeps {fr : Nat} {r0 s : State}
    (h : Keeps fr r0 s) (hk : fr ||| 0x1000000000 = fr) :
    Answers fr r0 (execCancel s) := by
  unfold execCancel
  repeat' (first
    | with_reducible apply answers_next
    | with_reducible assumption
    | exact lor_sub hk rfl
    | with_reducible apply State.commitCancel_keeps)

theorem execDiscard_keeps {fr : Nat} {r0 s : State}
    (h : Keeps fr r0 s) (hk : fr ||| 0x1000000000 = fr) :
    Answers fr r0 (execDiscard s) := by
  unfold execDiscard
  repeat' (first
    | with_reducible apply answers_next
    | with_reducible assumption
    | exact lor_sub hk rfl
    | extract_lets
    | with_reducible apply State.commitCancel_keeps
    | with_reducible apply State.setImg_keeps)

theorem State.imgPowerFail_keeps {fr : Nat} {r0 s : State}
    (h : Keeps fr r0 s) (hk : fr ||| 0x1000000004 = fr) :
    Keeps fr r0 (State.imgPowerFail s) := by
  unfold State.imgPowerFail
  repeat' (first
    | with_reducible assumption
    | exact lor_sub hk rfl
    | extract_lets
    | with_reducible apply State.imgRefuse_keeps
    | with_reducible apply State.setImg_keeps
    | with_reducible apply State.commitCancel_keeps
    | with_reducible apply keeps_ite
    | intro _)

theorem execBurn_keeps {fr : Nat} {r0 s : State} {key : BitVec 16} {vddOk : Bool}
    (h : Keeps fr r0 s) (hk : fr ||| 0x1000000000 = fr) :
    Answers fr r0 (execBurn key vddOk s) := by
  unfold execBurn
  repeat' (first
    | with_reducible apply answers_next
    | with_reducible assumption
    | exact lor_sub hk rfl
    | extract_lets
    | with_reducible apply State.setImg_keeps
    | with_reducible apply keeps_ite
    | intro _)

theorem execBurnComplete_keeps {fr : Nat} {r0 s : State} {back : BitVec 1024}
    (h : Keeps fr r0 s) (hk : fr ||| 0x1000000020 = fr) :
    Answers fr r0 (execBurnComplete back s) := by
  unfold execBurnComplete
  repeat' (first
    | with_reducible apply answers_next
    | with_reducible assumption
    | exact lor_sub hk rfl
    | extract_lets
    | with_reducible apply keeps_ite
    | (fail_if_success (with_reducible apply keeps_pending)); with_reducible apply keeps_fuses_img
    | intro _)

theorem execLock_keeps {fr : Nat} {r0 s : State} {key : BitVec 16}
    (h : Keeps fr r0 s) (hk : fr ||| 0x1000000022 = fr) :
    Answers fr r0 (execLock key s) := by
  unfold execLock
  repeat' (first
    | with_reducible apply answers_next
    | with_reducible assumption
    | exact lor_sub hk rfl
    | extract_lets
    | with_reducible apply State.setImg_keeps
    | with_reducible apply State.takeFree_keeps
    | with_reducible apply keeps_ite
    | (fail_if_success (with_reducible apply keeps_pending)); with_reducible apply keeps_fuses_img
    | with_reducible refine keeps_of_snd (by assumption) ?_
    | intro _)

end Sys2Proof.Machine
end

