-- ==== Sys2Proof/Laws/KeepsBoot.lean ====
section
/-!
SUPPORT. What each operation of Machine/Boot.lean keeps.
-/

namespace Sys2Proof.Machine

/-- A reset keeps the queue, the free values and the fuses; memory keeps what lies in the NVM and on the Shelf. -/
theorem State.enterReset_keeps {fr : Nat} {r0 s : State} {cause : Nat} (h : Keeps fr r0 s) (hk : fr ||| 0xfffffffffdc = fr) :
    Keeps fr r0 (State.enterReset s cause) := by
  refine h.upd hk (fun x hx => ?_) fun w => ?_
  · cases x <;> first | exact absurd hx (by decide) | rfl
  · simp only [State.wf, Bool.and_eq_true] at w ⊢
    exact ⟨SMap.wf_filter _ _ _ w.1, rfl⟩

theorem State.resetGroup_keeps {fr : Nat} {r0 s : State} {g : Nat}
    (h : Keeps fr r0 s) (hk : fr ||| 0x408000 = fr) :
    Keeps fr r0 (State.resetGroup s g) := by
  unfold State.resetGroup
  repeat' (first
    | with_reducible assumption
    | exact lor_sub hk rfl
    | extract_lets
    | with_reducible apply State.carrierStopped_keeps
    | with_reducible apply State.setGrp_keeps
    | with_reducible apply State.groupDown_keeps
    | with_reducible apply keeps_ite
    | intro _)

theorem State.orderlyReset_keeps {fr : Nat} {r0 s : State} {cause : Nat}
    (h : Keeps fr r0 s) (hk : fr ||| 0xfffffffffdc = fr) :
    Keeps fr r0 (State.orderlyReset s cause) := by
  unfold State.orderlyReset
  repeat' (first
    | with_reducible assumption
    | exact lor_sub hk rfl
    | extract_lets
    | with_reducible apply State.pairTrigger_keeps
    | with_reducible apply State.each_keeps
    | with_reducible apply State.resetGroup_keeps
    | with_reducible apply State.setSys_keeps
    | with_reducible apply State.enterReset_keeps
    | with_reducible apply keeps_ite
    | intro _)

theorem execResetNAssert_keeps {fr : Nat} {r0 s : State}
    (h : Keeps fr r0 s) (hk : fr ||| 0xfffffffffdc = fr) :
    Answers fr r0 (execResetNAssert s) := by
  unfold execResetNAssert
  repeat' (first
    | with_reducible apply answers_next
    | with_reducible assumption
    | exact lor_sub hk rfl
    | extract_lets
    | with_reducible apply State.orderlyReset_keeps
    | with_reducible apply State.setSys_keeps)

theorem execResetNRelease_keeps {fr : Nat} {r0 s : State} {heldMs : Nat}
    (h : Keeps fr r0 s) (hk : fr ||| 0x2000000000 = fr) :
    Answers fr r0 (execResetNRelease heldMs s) := by
  unfold execResetNRelease
  repeat' (first
    | with_reducible apply answers_next
    | with_reducible assumption
    | exact lor_sub hk rfl
    | extract_lets
    | with_reducible apply State.setSys_keeps
    | with_reducible apply keeps_ite
    | intro _)

theorem execResetLong_keeps {fr : Nat} {r0 s : State}
    (h : Keeps fr r0 s) (hk : fr ||| 0x2000000000 = fr) :
    Answers fr r0 (execResetLong s) := by
  unfold execResetLong
  repeat' (first
    | with_reducible apply answers_next
    | with_reducible assumption
    | exact lor_sub hk rfl
    | extract_lets
    | with_reducible apply State.setSys_keeps
    | with_reducible apply keeps_ite
    | intro _)

theorem State.softReset_keeps {fr : Nat} {r0 s : State} {key : BitVec 16}
    (h : Keeps fr r0 s) (hk : fr ||| 0xfffffffffdc = fr) :
    Keeps fr r0 (State.softReset s key) := by
  unfold State.softReset
  repeat' (first
    | with_reducible assumption
    | exact lor_sub hk rfl
    | with_reducible apply State.orderlyReset_keeps
    | with_reducible apply keeps_ite
    | intro _)

theorem execSoftwareReset_keeps {fr : Nat} {r0 s : State} {key : BitVec 16}
    (h : Keeps fr r0 s) (hk : fr ||| 0xfffffffffdc = fr) :
    Answers fr r0 (execSoftwareReset key s) := by
  unfold execSoftwareReset
  repeat' (first
    | with_reducible apply answers_next
    | with_reducible assumption
    | exact lor_sub hk rfl
    | with_reducible apply State.softReset_keeps)

theorem execResetEntry_keeps {fr : Nat} {r0 s : State}
    (h : Keeps fr r0 s) (hk : fr ||| 0xfffffffffdc = fr) :
    Answers fr r0 (execResetEntry s) := by
  unfold execResetEntry
  repeat' (first
    | with_reducible apply answers_next
    | with_reducible assumption
    | exact lor_sub hk rfl
    | with_reducible apply State.enterReset_keeps
    | with_reducible apply keeps_ite
    | intro _
    | split)

theorem execBrownoutReset_keeps {fr : Nat} {r0 s : State} {store : Bool}
    (h : Keeps fr r0 s) (hk : fr ||| 0xfffffffffdc = fr) :
    Answers fr r0 (execBrownoutReset store s) := by
  unfold execBrownoutReset
  repeat' (first
    | with_reducible apply answers_next
    | with_reducible assumption
    | exact lor_sub hk rfl
    | with_reducible apply State.enterReset_keeps
    | with_reducible apply keeps_ite
    | intro _)

theorem execVddAonLoss_keeps {fr : Nat} {r0 s : State}
    (h : Keeps fr r0 s) (hk : fr ||| 0x2000000000 = fr) :
    Answers fr r0 (execVddAonLoss s) := by
  unfold execVddAonLoss
  repeat' (first
    | with_reducible apply answers_next
    | with_reducible assumption
    | exact lor_sub hk rfl
    | extract_lets
    | with_reducible apply State.setSys_keeps)

theorem execRelease_keeps {fr : Nat} {r0 s : State}
    (h : Keeps fr r0 s) (hk : fr ||| 0x30000002c0 = fr) :
    Answers fr r0 (execRelease s) := by
  unfold execRelease
  repeat' (first
    | with_reducible apply answers_next
    | with_reducible assumption
    | exact lor_sub hk rfl
    | extract_lets
    | with_reducible apply State.setImg_keeps
    | with_reducible apply State.setSys_keeps
    | with_reducible apply keeps_ite
    | (fail_if_success (with_reducible apply keeps_pending)); with_reducible apply keeps_cab_cabRes_inReset
    | intro _)

theorem execShfResetPulseEnd_keeps {fr : Nat} {r0 s : State}
    (h : Keeps fr r0 s) (hk : fr ||| 0x2000000000 = fr) :
    Answers fr r0 (execShfResetPulseEnd s) := by
  unfold execShfResetPulseEnd
  repeat' (first
    | with_reducible apply answers_next
    | with_reducible assumption
    | exact lor_sub hk rfl
    | extract_lets
    | with_reducible apply State.setSys_keeps)

theorem execTier0Guard_keeps {fr : Nat} {r0 s : State}
    (h : Keeps fr r0 s) (hk : fr ||| 0x22000579d0c = fr) :
    Answers fr r0 (execTier0Guard s) := by
  unfold execTier0Guard
  repeat' (first
    | with_reducible apply answers_next
    | with_reducible assumption
    | exact lor_sub hk rfl
    | extract_lets
    | with_reducible apply State.setSys_keeps
    | with_reducible apply State.each_keeps
    | with_reducible apply State.cmpBegin_keeps
    | with_reducible apply State.retier_keeps
    | with_reducible apply State.sourceOn_keeps
    | with_reducible apply keeps_ite
    | (fail_if_success (with_reducible apply keeps_pending)); with_reducible apply keeps_trp
    | intro _)

theorem execPllBootLock_keeps {fr : Nat} {r0 s : State}
    (h : Keeps fr r0 s) (hk : fr ||| 0x22000059d0c = fr) :
    Answers fr r0 (execPllBootLock s) := by
  unfold execPllBootLock
  repeat' (first
    | with_reducible apply answers_next
    | with_reducible assumption
    | exact lor_sub hk rfl
    | extract_lets
    | with_reducible apply State.setSys_keeps
    | with_reducible apply State.retier_keeps
    | with_reducible apply State.setClk_keeps
    | with_reducible apply keeps_ite
    | intro _)

theorem State.bootSaveInt_keeps {fr : Nat} {r0 s : State}
    (h : Keeps fr r0 s) (hk : fr ||| 0x2 = fr) :
    Keeps fr r0 (State.bootSaveInt s).2 := by
  unfold State.bootSaveInt
  repeat' (first
    | with_reducible assumption
    | exact lor_sub hk rfl
    | extract_lets
    | with_reducible apply State.takeFree_keeps
    | with_reducible apply keeps_ite
    | with_reducible apply keeps_snd_ite
    | with_reducible refine keeps_of_snd (by assumption) ?_
    | intro _
    | split
    | dsimp +zetaDelta only)

theorem State.shelfTable_keeps {fr : Nat} {r0 s : State} {table : Option Nat}
    (h : Keeps fr r0 s) (hk : fr ||| 0x20000000 = fr) :
    Keeps fr r0 (State.shelfTable s table) := by
  unfold State.shelfTable
  repeat' (first
    | with_reducible assumption
    | exact lor_sub hk rfl
    | extract_lets
    | with_reducible apply State.setShf_keeps
    | with_reducible apply keeps_ite
    | intro _
    | split
    | dsimp +zetaDelta only)

theorem execBootRomDone_keeps {fr : Nat} {r0 s : State} {lanes : BitVec 18} {retried : BitVec 18} {aErr : Bool} {bErr : Bool} {table : Option Nat}
    (h : Keeps fr r0 s) (hk : fr ||| 0xe32ba659d1e = fr) :
    Answers fr r0 (execBootRomDone lanes retried aErr bErr table s) := by
  unfold execBootRomDone
  repeat' (first
    | with_reducible assumption
    | exact lor_sub hk rfl
    | with_reducible apply answers_next
    | extract_lets
    | with_reducible apply State.each_keeps
    | with_reducible apply State.laneFail_keeps
    | with_reducible apply State.laneRemap_keeps
    | with_reducible apply State.remapBoot_keeps
    | with_reducible apply State.recBoot_keeps
    | with_reducible apply State.shelfTable_keeps
    | with_reducible apply State.lifRestore_keeps
    | with_reducible apply State.bootSelect_keeps
    | with_reducible apply State.bootSaveInt_keeps
    | with_reducible apply State.mtrRestore_keeps
    | with_reducible apply State.setSys_keeps
    | with_reducible apply State.timBegin_keeps
    | with_reducible apply State.angBegin_keeps
    | with_reducible apply State.monBegin_keeps
    | with_reducible apply State.retier_keeps
    | with_reducible apply keeps_ite
    | with_reducible apply answers_ite
    | with_reducible apply keeps_snd_ite
    | (fail_if_success (with_reducible apply keeps_pending)); with_reducible apply keeps_le
    | with_reducible refine keeps_of_snd (by assumption) ?_
    | intro _
    | split
    | dsimp +zetaDelta only)

end Sys2Proof.Machine
end

