-- ==== Sys2Proof/Laws/KeepsCe.lean ====
section
/-!
SUPPORT. What each operation of Machine/Ce.lean keeps.
-/

namespace Sys2Proof.Machine

theorem execCeServiceStart_keeps {fr : Nat} {r0 s : State} (h : Keeps fr r0 s) (hk : fr ||| 0x1004 = fr) :
    Answers fr r0 (execCeServiceStart s) := by
  unfold execCeServiceStart
  refine answers_next (keeps_ite (fun _ => h) fun _ => ?_)
  extract_lets best
  cases best with
  | none => exact h
  | some e => exact State.maxReg_keeps (keeps_ce h (lor_sub hk rfl)) (lor_sub hk rfl)

theorem State.ceCount_keeps {fr : Nat} {r0 s : State} {ctx : Nat} {o : EvalOut}
    (h : Keeps fr r0 s) (hk : fr ||| 0x6 = fr) :
    Keeps fr r0 (State.ceCount s ctx o) := by
  unfold State.ceCount
  repeat' (first
    | with_reducible assumption
    | exact lor_sub hk rfl
    | extract_lets
    | with_reducible apply State.inc_keeps
    | with_reducible apply State.setBit_keeps
    | with_reducible apply State.takeFree_keeps
    | with_reducible apply State.setReg_keeps
    | with_reducible apply keeps_ite
    | with_reducible refine keeps_of_snd (by assumption) ?_
    | intro _
    | split
    | dsimp +zetaDelta only)

theorem execCeEvaluationEnd_keeps {fr : Nat} {r0 s : State}
    (h : Keeps fr r0 s) (hk : fr ||| 0x1806 = fr) :
    Answers fr r0 (execCeEvaluationEnd s) := by
  unfold execCeEvaluationEnd
  repeat' (first
    | with_reducible apply answers_next
    | with_reducible assumption
    | exact lor_sub hk rfl
    | extract_lets
    | with_reducible apply State.takeFrees_keeps
    | with_reducible apply State.ceCount_keeps
    | with_reducible apply State.setCtx_keeps
    | (fail_if_success (with_reducible apply keeps_pending)); with_reducible apply keeps_ce
    | with_reducible refine keeps_of_snd (by assumption) ?_
    | split
    | dsimp +zetaDelta only)

theorem State.plbReact_keeps {fr : Nat} {r0 s : State} {n : Nat} {react : Nat}
    (h : Keeps fr r0 s) (hk : fr ||| 0x418804 = fr) :
    Keeps fr r0 (State.plbReact s n react) := by
  unfold State.plbReact
  repeat' (first
    | with_reducible assumption
    | exact lor_sub hk rfl
    | extract_lets
    | with_reducible apply State.setCtxBit_keeps
    | with_reducible apply State.irq_keeps
    | with_reducible apply State.each_keeps
    | with_reducible apply State.sourceOn_keeps
    | with_reducible apply keeps_ite
    | intro _)

theorem State.plbBucket_keeps {fr : Nat} {r0 s : State} {n : Nat} {new : Nat} {warn : Nat} {act : Nat} {react : Nat}
    (h : Keeps fr r0 s) (hk : fr ||| 0x418804 = fr) :
    Keeps fr r0 (State.plbBucket s n new warn act react) := by
  unfold State.plbBucket
  repeat' (first
    | with_reducible assumption
    | exact lor_sub hk rfl
    | extract_lets
    | with_reducible apply State.setCtx_keeps
    | with_reducible apply State.setBit_keeps
    | with_reducible apply State.setCtxBit_keeps
    | with_reducible apply State.plbReact_keeps
    | with_reducible apply keeps_ite
    | intro _)

theorem State.plbCheck_keeps {fr : Nat} {r0 s : State} {n : Nat} {x : List Word}
    (h : Keeps fr r0 s) (hk : fr ||| 0x418804 = fr) :
    Keeps fr r0 (State.plbCheck s n x) := by
  unfold State.plbCheck
  repeat' (first
    | with_reducible assumption
    | exact lor_sub hk rfl
    | extract_lets
    | with_reducible apply State.setCtx_keeps
    | with_reducible apply State.plbBucket_keeps
    | with_reducible apply keeps_ite
    | intro _
    | split
    | dsimp +zetaDelta only)

theorem execPlbClear_keeps {fr : Nat} {r0 s : State} {epoch : BitVec 16}
    (h : Keeps fr r0 s) (hk : fr ||| 0x18804 = fr) :
    Answers fr r0 (execPlbClear epoch s) := by
  unfold execPlbClear
  repeat' (first
    | with_reducible apply answers_next
    | with_reducible assumption
    | exact lor_sub hk rfl
    | extract_lets
    | with_reducible apply State.setBit_keeps
    | with_reducible apply State.setCtx_keeps
    | with_reducible apply State.clrBit_keeps
    | with_reducible apply State.each_keeps
    | with_reducible apply State.sourceOff_keeps
    | with_reducible apply keeps_ite
    | intro _)

end Sys2Proof.Machine
end

