-- ==== Sys2Proof/Laws/KeepsClock.lean ====
section
/-!
SUPPORT. What each operation of Machine/Clock.lean keeps.
-/

namespace Sys2Proof.Machine

theorem State.lossNoted_keeps {fr : Nat} {r0 s : State} {cnt : Nat}
    (h : Keeps fr r0 s) (hk : fr ||| 0x4 = fr) :
    Keeps fr r0 (State.lossNoted s cnt) := by
  unfold State.lossNoted
  repeat' (first
    | with_reducible assumption
    | exact lor_sub hk rfl
    | with_reducible apply State.inc_keeps
    | with_reducible apply State.setBit_keeps)

theorem State.sysLoss_keeps {fr : Nat} {r0 s : State}
    (h : Keeps fr r0 s) (hk : fr ||| 0x200806d9d0c = fr) :
    Keeps fr r0 (State.sysLoss s) := by
  unfold State.sysLoss
  repeat' (first
    | with_reducible assumption
    | exact lor_sub hk rfl
    | extract_lets
    | with_reducible apply State.setClk_keeps
    | with_reducible apply State.lossNoted_keeps
    | with_reducible apply State.each_keeps
    | with_reducible apply State.groupLoss_keeps
    | with_reducible apply State.diagAbort_keeps
    | with_reducible apply State.angSelect_keeps
    | with_reducible apply State.adcClockLoss_keeps
    | with_reducible apply State.sdmClock_keeps
    | with_reducible apply State.pairTrigger_keeps
    | with_reducible apply State.retier_keeps
    | with_reducible apply keeps_ite
    | with_reducible apply keeps_snd_ite
    | (fail_if_success (with_reducible apply keeps_pending)); with_reducible apply keeps_ang
    | intro _
    | split
    | dsimp +zetaDelta only)

theorem State.ptcLoss_keeps {fr : Nat} {r0 s : State}
    (h : Keeps fr r0 s) (hk : fr ||| 0x20080459d0c = fr) :
    Keeps fr r0 (State.ptcLoss s) := by
  unfold State.ptcLoss
  repeat' (first
    | with_reducible assumption
    | exact lor_sub hk rfl
    | extract_lets
    | with_reducible apply State.setClk_keeps
    | with_reducible apply State.lossNoted_keeps
    | with_reducible apply State.each_keeps
    | with_reducible apply State.setGrp_keeps
    | with_reducible apply State.groupUntrip_keeps
    | with_reducible apply State.groupLoss_keeps
    | with_reducible apply State.diagAbort_keeps
    | with_reducible apply State.pairTrigger_keeps
    | with_reducible apply State.retier_keeps
    | with_reducible apply keeps_ite
    | with_reducible apply keeps_snd_ite
    | (fail_if_success (with_reducible apply keeps_pending)); with_reducible apply keeps_pwm
    | intro _
    | split
    | dsimp +zetaDelta only)

theorem State.ethLoss_keeps {fr : Nat} {r0 s : State}
    (h : Keeps fr r0 s) (hk : fr ||| 0x20200059d0e = fr) :
    Keeps fr r0 (State.ethLoss s) := by
  unfold State.ethLoss
  repeat' (first
    | with_reducible assumption
    | exact lor_sub hk rfl
    | extract_lets
    | with_reducible apply State.lossNoted_keeps
    | with_reducible apply State.setClk_keeps
    | with_reducible apply State.retier_keeps
    | with_reducible apply State.timHoldover_keeps
    | with_reducible apply keeps_ite
    | intro _)

theorem execSysLockLoss_keeps {fr : Nat} {r0 s : State}
    (h : Keeps fr r0 s) (hk : fr ||| 0x200806d9d0c = fr) :
    Answers fr r0 (execSysLockLoss s) := by
  unfold execSysLockLoss
  repeat' (first
    | with_reducible apply answers_next
    | with_reducible assumption
    | exact lor_sub hk rfl
    | with_reducible apply State.sysLoss_keeps)

theorem execPtcLockLoss_keeps {fr : Nat} {r0 s : State}
    (h : Keeps fr r0 s) (hk : fr ||| 0x20080459d0c = fr) :
    Answers fr r0 (execPtcLockLoss s) := by
  unfold execPtcLockLoss
  repeat' (first
    | with_reducible apply answers_next
    | with_reducible assumption
    | exact lor_sub hk rfl
    | with_reducible apply State.ptcLoss_keeps)

theorem execEthLockLoss_keeps {fr : Nat} {r0 s : State}
    (h : Keeps fr r0 s) (hk : fr ||| 0x20200059d0e = fr) :
    Answers fr r0 (execEthLockLoss s) := by
  unfold execEthLockLoss
  repeat' (first
    | with_reducible apply answers_next
    | with_reducible assumption
    | exact lor_sub hk rfl
    | with_reducible apply State.ethLoss_keeps)

theorem execReferenceLoss_keeps {fr : Nat} {r0 s : State}
    (h : Keeps fr r0 s) (hk : fr ||| 0x202806d9d0e = fr) :
    Answers fr r0 (execReferenceLoss s) := by
  unfold execReferenceLoss
  repeat' (first
    | with_reducible apply answers_next
    | with_reducible assumption
    | exact lor_sub hk rfl
    | extract_lets
    | with_reducible apply State.ethLoss_keeps
    | with_reducible apply State.ptcLoss_keeps
    | with_reducible apply State.sysLoss_keeps
    | with_reducible apply State.setClk_keeps)

theorem execReferenceReturn_keeps {fr : Nat} {r0 s : State}
    (h : Keeps fr r0 s) (hk : fr ||| 0x400 = fr) :
    Answers fr r0 (execReferenceReturn s) := by
  unfold execReferenceReturn
  repeat' (first
    | with_reducible apply answers_next
    | with_reducible assumption
    | exact lor_sub hk rfl
    | extract_lets
    | with_reducible apply State.setClk_keeps
    | with_reducible apply keeps_ite
    | intro _)

theorem execPllSearch_keeps {fr : Nat} {r0 s : State}
    (h : Keeps fr r0 s) (hk : fr ||| 0x400 = fr) :
    Answers fr r0 (execPllSearch s) := by
  unfold execPllSearch
  repeat' (first
    | with_reducible apply answers_next
    | with_reducible assumption
    | exact lor_sub hk rfl
    | extract_lets
    | with_reducible apply State.setClk_keeps
    | with_reducible apply keeps_ite
    | intro _)

theorem State.codeLearned_keeps {fr : Nat} {r0 s : State} {op : Nat}
    (h : Keeps fr r0 s) (hk : fr ||| 0x400 = fr) :
    Keeps fr r0 (State.codeLearned s op) := by
  unfold State.codeLearned
  repeat' (first
    | with_reducible assumption
    | exact lor_sub hk rfl
    | extract_lets
    | with_reducible apply State.setClk_keeps)

theorem State.sysReturn_keeps {fr : Nat} {r0 s : State}
    (h : Keeps fr r0 s) (hk : fr ||| 0x200006d9d0c = fr) :
    Keeps fr r0 (State.sysReturn s) := by
  unfold State.sysReturn
  repeat' (first
    | with_reducible assumption
    | exact lor_sub hk rfl
    | extract_lets
    | with_reducible apply State.setClk_keeps
    | with_reducible apply State.each_keeps
    | with_reducible apply State.groupLossAgain_keeps
    | with_reducible apply State.groupReturn_keeps
    | with_reducible apply State.retier_keeps
    | with_reducible apply State.angSelect_keeps
    | with_reducible apply State.sdmClock_keeps
    | intro _)

theorem State.ptcReturn_keeps {fr : Nat} {r0 s : State}
    (h : Keeps fr r0 s) (hk : fr ||| 0x20000459d0c = fr) :
    Keeps fr r0 (State.ptcReturn s) := by
  unfold State.ptcReturn
  repeat' (first
    | with_reducible assumption
    | exact lor_sub hk rfl
    | extract_lets
    | with_reducible apply State.codeLearned_keeps
    | with_reducible apply State.setClk_keeps
    | with_reducible apply State.retier_keeps
    | with_reducible apply State.each_keeps
    | with_reducible apply State.groupLossAgain_keeps
    | with_reducible apply State.groupReturn_keeps
    | intro _)

theorem execPllLockReturn_keeps {fr : Nat} {r0 s : State} {pll : Pll}
    (h : Keeps fr r0 s) (hk : fr ||| 0x200006d9d0c = fr) :
    Answers fr r0 (execPllLockReturn pll s) := by
  unfold execPllLockReturn
  repeat' (first
    | with_reducible apply answers_next
    | with_reducible assumption
    | exact lor_sub hk rfl
    | extract_lets
    | with_reducible apply State.setClk_keeps
    | with_reducible apply State.sysReturn_keeps
    | with_reducible apply State.ptcReturn_keeps
    | with_reducible apply State.retier_keeps
    | with_reducible apply keeps_ite
    | intro _
    | split
    | dsimp +zetaDelta only)

theorem execPtcHop_keeps {fr : Nat} {r0 s : State}
    (h : Keeps fr r0 s) (hk : fr ||| 0xa400 = fr) :
    Answers fr r0 (execPtcHop s) := by
  unfold execPtcHop
  repeat' (first
    | with_reducible apply answers_next
    | with_reducible assumption
    | exact lor_sub hk rfl
    | extract_lets
    | with_reducible apply State.freezeAll_keeps
    | with_reducible apply State.setClk_keeps
    | with_reducible apply keeps_ite
    | (fail_if_success (with_reducible apply keeps_pending)); with_reducible apply keeps_gs
    | intro _
    | split
    | dsimp +zetaDelta only)

theorem execPtcHopResume_keeps {fr : Nat} {r0 s : State} {ns : Nat}
    (h : Keeps fr r0 s) (hk : fr ||| 0x8404 = fr) :
    Answers fr r0 (execPtcHopResume ns s) := by
  unfold execPtcHopResume
  repeat' (first
    | with_reducible apply answers_next
    | with_reducible assumption
    | exact lor_sub hk rfl
    | extract_lets
    | with_reducible apply State.codeLearned_keeps
    | with_reducible apply State.setClk_keeps
    | with_reducible apply State.resumeAll_keeps
    | with_reducible apply State.setBit_keeps
    | with_reducible apply State.inc_keeps
    | with_reducible apply keeps_ite
    | intro _
    | split
    | dsimp +zetaDelta only)

end Sys2Proof.Machine
end

