-- ==== Sys2Proof/Laws/KeepsThm.lean ====
section
/-!
SUPPORT. What each operation of Machine/Thm.lean keeps.
-/

namespace Sys2Proof.Machine

theorem State.setThm_keeps {fr : Nat} {r0 s : State} {x : Thm}
    (h : Keeps fr r0 s) (hk : fr ||| 0x4000000 = fr) :
    Keeps fr r0 (State.setThm s x) := by
  unfold State.setThm
  repeat' (first
    | with_reducible assumption
    | exact lor_sub hk rfl
    | (fail_if_success (with_reducible apply keeps_pending)); with_reducible apply keeps_thm)

theorem State.setPaused_keeps {fr : Nat} {r0 s : State} {on : Bool}
    (h : Keeps fr r0 s) (hk : fr ||| 0x24000004 = fr) :
    Keeps fr r0 (State.setPaused s on) := by
  unfold State.setPaused
  repeat' (first
    | with_reducible assumption
    | exact lor_sub hk rfl
    | extract_lets
    | with_reducible apply State.setThm_keeps
    | with_reducible apply State.shfGoOn_keeps
    | with_reducible apply keeps_ite
    | intro _)

theorem execThmUpdate_keeps {fr : Nat} {r0 s : State} {x : ThmSample}
    (h : Keeps fr r0 s) (hk : fr ||| 0x24000006 = fr) :
    Answers fr r0 (execThmUpdate x s) := by
  unfold execThmUpdate
  repeat' (first
    | with_reducible assumption
    | exact lor_sub hk rfl
    | with_reducible apply answers_next
    | extract_lets
    | with_reducible apply State.setBit_keeps
    | with_reducible apply State.takeFree_keeps
    | with_reducible apply State.setThm_keeps
    | with_reducible apply State.irq_keeps
    | with_reducible apply State.inc_keeps
    | with_reducible apply State.setPaused_keeps
    | with_reducible apply keeps_ite
    | with_reducible apply answers_ite
    | with_reducible apply keeps_snd_ite
    | with_reducible apply keeps_foldl
    | with_reducible refine keeps_of_snd (by assumption) ?_
    | intro _
    | split
    | dsimp +zetaDelta only)

theorem execPauseToggle_keeps {fr : Nat} {r0 s : State}
    (h : Keeps fr r0 s) (hk : fr ||| 0x24000004 = fr) :
    Answers fr r0 (execPauseToggle s) := by
  unfold execPauseToggle
  repeat' (first
    | with_reducible apply answers_next
    | with_reducible assumption
    | exact lor_sub hk rfl
    | with_reducible apply State.setPaused_keeps
    | with_reducible apply keeps_ite
    | intro _)

theorem execRcTrim_keeps {fr : Nat} {r0 s : State}
    (h : Keeps fr r0 s) (hk : fr ||| 0x4000002 = fr) :
    Answers fr r0 (execRcTrim s) := by
  unfold execRcTrim
  repeat' (first
    | with_reducible apply answers_next
    | with_reducible assumption
    | exact lor_sub hk rfl
    | extract_lets
    | with_reducible apply State.takeFree_keeps
    | with_reducible apply State.setThm_keeps
    | with_reducible refine keeps_of_snd (by assumption) ?_
    | split
    | dsimp +zetaDelta only)

theorem execRefCompUpdate_keeps {fr : Nat} {r0 s : State}
    (h : Keeps fr r0 s) (hk : fr ||| 0x4000002 = fr) :
    Answers fr r0 (execRefCompUpdate s) := by
  unfold execRefCompUpdate
  repeat' (first
    | with_reducible apply answers_next
    | with_reducible assumption
    | exact lor_sub hk rfl
    | extract_lets
    | with_reducible apply State.takeFree_keeps
    | with_reducible apply State.setThm_keeps
    | with_reducible refine keeps_of_snd (by assumption) ?_
    | split
    | dsimp +zetaDelta only)

theorem execCompGainApply_keeps {fr : Nat} {r0 s : State}
    (h : Keeps fr r0 s) (hk : fr ||| 0x4000000 = fr) :
    Answers fr r0 (execCompGainApply s) := by
  unfold execCompGainApply
  repeat' (first
    | with_reducible apply answers_next
    | with_reducible assumption
    | exact lor_sub hk rfl
    | extract_lets
    | with_reducible apply State.setThm_keeps
    | split
    | dsimp +zetaDelta only)

end Sys2Proof.Machine
end

