-- ==== Sys2Proof/Laws/KeepsRegRead.lean ====
section
/-!
SUPPORT. What each operation of Machine/RegRead.lean keeps.
-/

namespace Sys2Proof.Machine

theorem State.leClear_keeps {fr : Nat} {r0 s : State} {off : Nat}
    (h : Keeps fr r0 s) (hk : fr ||| 0x800 = fr) :
    Keeps fr r0 (State.leClear s off) := by
  unfold State.leClear
  repeat' (first
    | with_reducible assumption
    | exact lor_sub hk rfl
    | extract_lets
    | with_reducible apply State.setCtx_keeps
    | split
    | dsimp +zetaDelta only)

theorem State.plbClear_keeps {fr : Nat} {r0 s : State} {off : Nat}
    (h : Keeps fr r0 s) (hk : fr ||| 0x800 = fr) :
    Keeps fr r0 (State.plbClear s off) := by
  unfold State.plbClear
  repeat' (first
    | with_reducible assumption
    | exact lor_sub hk rfl
    | extract_lets
    | with_reducible apply State.setCtx_keeps
    | split
    | dsimp +zetaDelta only)

theorem State.rcClear_keeps {fr : Nat} {r0 s : State} {a : Nat}
    (h : Keeps fr r0 s) (hk : fr ||| 0x41006400804 = fr) :
    Keeps fr r0 (State.rcClear s a) := by
  unfold State.rcClear
  repeat' (first
    | with_reducible assumption
    | exact lor_sub hk rfl
    | extract_lets
    | with_reducible apply State.imgNoteRead_keeps
    | with_reducible apply State.evtIrqRead_keeps
    | with_reducible apply State.splogRead_keeps
    | with_reducible apply State.leClear_keeps
    | with_reducible apply State.plbClear_keeps
    | with_reducible apply State.setThm_keeps
    | with_reducible apply State.setLifPos_keeps
    | with_reducible apply State.setReg_keeps
    | with_reducible apply keeps_ite
    | intro _)

theorem State.readSnap_keeps {fr : Nat} {r0 s : State} {a : Nat}
    (h : Keeps fr r0 s) (hk : fr ||| 0x220a208800 = fr) :
    Keeps fr r0 (State.readSnap s a) := by
  unfold State.readSnap
  repeat' (first
    | with_reducible assumption
    | exact lor_sub hk rfl
    | extract_lets
    | with_reducible apply State.setTim_keeps
    | with_reducible apply State.setSys_keeps
    | with_reducible apply State.setGrp_keeps
    | with_reducible apply State.mtrCopy_keeps
    | with_reducible apply State.setLifPos_keeps
    | with_reducible apply keeps_ite
    | (fail_if_success (with_reducible apply keeps_pending)); with_reducible apply keeps_le
    | (fail_if_success (with_reducible apply keeps_pending)); with_reducible apply keeps_ang
    | intro _)

theorem State.readReg_keeps {fr : Nat} {r0 s : State} {a : Nat}
    (h : Keeps fr r0 s) (hk : fr ||| 0x4320e608804 = fr) :
    Keeps fr r0 (State.readReg s a).2 := by
  unfold State.readReg
  repeat' (first
    | with_reducible assumption
    | exact lor_sub hk rfl
    | with_reducible apply State.rcClear_keeps
    | with_reducible apply State.readSnap_keeps
    | with_reducible apply keeps_ite
    | with_reducible apply keeps_snd_ite
    | with_reducible refine keeps_of_snd (by assumption) ?_
    | intro _
    | split)

end Sys2Proof.Machine
end

