-- ==== Sys2Proof/Laws/KeepsHu.lean ====
section
/-!
SUPPORT. What each operation of Machine/Hu.lean keeps.
-/

namespace Sys2Proof.Machine

theorem State.setHu_keeps {fr : Nat} {r0 s : State} {x : Hu}
    (h : Keeps fr r0 s) (hk : fr ||| 0x4000000000 = fr) :
    Keeps fr r0 (State.setHu s x) := by
  unfold State.setHu
  repeat' (first
    | with_reducible assumption
    | exact lor_sub hk rfl
    | (fail_if_success (with_reducible apply keeps_pending)); with_reducible apply keeps_hu)

theorem State.grantEnd_keeps {fr : Nat} {r0 s : State} {result : Nat}
    (h : Keeps fr r0 s) (hk : fr ||| 0x4000000000 = fr) :
    Keeps fr r0 (State.grantEnd s result) := by
  unfold State.grantEnd
  repeat' (first
    | with_reducible assumption
    | exact lor_sub hk rfl
    | extract_lets
    | with_reducible apply State.setHu_keeps
    | with_reducible apply keeps_ite
    | intro _)

theorem execHuBulkConversion_keeps {fr : Nat} {r0 s : State} {code : BitVec 10}
    (h : Keeps fr r0 s) (hk : fr ||| 0x4000000004 = fr) :
    Answers fr r0 (execHuBulkConversion code s) := by
  unfold execHuBulkConversion
  repeat' (first
    | with_reducible apply answers_next
    | with_reducible assumption
    | exact lor_sub hk rfl
    | extract_lets
    | with_reducible apply State.setHu_keeps
    | with_reducible apply State.setReg_keeps
    | with_reducible apply State.inc_keeps
    | with_reducible apply State.setBit_keeps
    | with_reducible apply State.grantEnd_keeps
    | with_reducible apply keeps_ite
    | intro _)

theorem execHuFastSample_keeps {fr : Nat} {r0 s : State} {mv : Nat}
    (h : Keeps fr r0 s) (hk : fr ||| 0x4000000000 = fr) :
    Answers fr r0 (execHuFastSample mv s) := by
  unfold execHuFastSample
  repeat' (first
    | with_reducible apply answers_next
    | with_reducible assumption
    | exact lor_sub hk rfl
    | extract_lets
    | with_reducible apply State.setHu_keeps)

theorem execPowerFailWarning_keeps {fr : Nat} {r0 s : State} {vinUv : Nat} {fastUv : Nat}
    (h : Keeps fr r0 s) (hk : fr ||| 0x250b800000e = fr) :
    Answers fr r0 (execPowerFailWarning vinUv fastUv s) := by
  unfold execPowerFailWarning
  repeat' (first
    | with_reducible assumption
    | exact lor_sub hk rfl
    | with_reducible apply answers_next
    | extract_lets
    | with_reducible apply State.setHu_keeps
    | with_reducible apply State.setBit_keeps
    | with_reducible apply State.clrBit_keeps
    | with_reducible apply State.inc_keeps
    | with_reducible apply State.irq_keeps
    | with_reducible apply State.mtrPowerFail_keeps
    | with_reducible apply State.recPowerFail_keeps
    | with_reducible apply State.shfPowerFail_keeps
    | with_reducible apply State.pairTrigger_keeps
    | with_reducible apply State.fanPowerFail_keeps
    | with_reducible apply State.imgPowerFail_keeps
    | with_reducible apply keeps_ite
    | with_reducible apply answers_ite
    | with_reducible apply keeps_snd_ite
    | intro _
    | split
    | dsimp +zetaDelta only)

theorem execPowerFailWithdraw_keeps {fr : Nat} {r0 s : State} {vinUv : Nat} {fastUv : Nat}
    (h : Keeps fr r0 s) (hk : fr ||| 0x24038000004 = fr) :
    Answers fr r0 (execPowerFailWithdraw vinUv fastUv s) := by
  unfold execPowerFailWithdraw
  repeat' (first
    | with_reducible assumption
    | exact lor_sub hk rfl
    | with_reducible apply answers_next
    | extract_lets
    | with_reducible apply State.setHu_keeps
    | with_reducible apply State.mtrResume_keeps
    | with_reducible apply State.recResume_keeps
    | with_reducible apply State.shfResume_keeps
    | with_reducible apply State.fanResume_keeps
    | with_reducible apply keeps_ite
    | with_reducible apply answers_ite
    | with_reducible apply keeps_snd_ite
    | intro _
    | split
    | dsimp +zetaDelta only)

theorem State.grantRequest_keeps {fr : Nat} {r0 s : State} {mJ : Nat}
    (h : Keeps fr r0 s) (hk : fr ||| 0x4000000000 = fr) :
    Keeps fr r0 (State.grantRequest s mJ) := by
  unfold State.grantRequest
  repeat' (first
    | with_reducible assumption
    | exact lor_sub hk rfl
    | extract_lets
    | with_reducible apply State.setHu_keeps
    | with_reducible apply keeps_ite
    | intro _)

theorem execGrantRequest_keeps {fr : Nat} {r0 s : State} {mJ : BitVec 24}
    (h : Keeps fr r0 s) (hk : fr ||| 0x4000000000 = fr) :
    Answers fr r0 (execGrantRequest mJ s) := by
  unfold execGrantRequest
  repeat' (first
    | with_reducible apply answers_next
    | with_reducible assumption
    | exact lor_sub hk rfl
    | with_reducible apply State.grantRequest_keeps)

theorem execGrantDone_keeps {fr : Nat} {r0 s : State}
    (h : Keeps fr r0 s) (hk : fr ||| 0x4000000000 = fr) :
    Answers fr r0 (execGrantDone s) := by
  unfold execGrantDone
  repeat' (first
    | with_reducible apply answers_next
    | with_reducible assumption
    | exact lor_sub hk rfl
    | with_reducible apply State.grantEnd_keeps)

theorem execGrantExpiry_keeps {fr : Nat} {r0 s : State}
    (h : Keeps fr r0 s) (hk : fr ||| 0x4000000000 = fr) :
    Answers fr r0 (execGrantExpiry s) := by
  unfold execGrantExpiry
  repeat' (first
    | with_reducible apply answers_next
    | with_reducible assumption
    | exact lor_sub hk rfl
    | with_reducible apply State.grantEnd_keeps)

end Sys2Proof.Machine
end

