-- ==== Sys2Proof/Laws/KeepsTrip.lean ====
section
/-!
SUPPORT. What each operation of Machine/Trip.lean keeps.
-/

namespace Sys2Proof.Machine

theorem execTripSourceActive_keeps {fr : Nat} {r0 s : State} {src : Nat}
    (h : Keeps fr r0 s) (hk : fr ||| 0x418804 = fr) :
    Answers fr r0 (execTripSourceActive src s) := by
  unfold execTripSourceActive
  repeat' (first
    | with_reducible apply answers_next
    | with_reducible assumption
    | exact lor_sub hk rfl
    | with_reducible apply State.sourceOn_keeps
    | with_reducible apply keeps_ite
    | intro _)

theorem execTripSourceRelease_keeps {fr : Nat} {r0 s : State} {src : Nat}
    (h : Keeps fr r0 s) (hk : fr ||| 0x18000 = fr) :
    Answers fr r0 (execTripSourceRelease src s) := by
  unfold execTripSourceRelease
  repeat' (first
    | with_reducible apply answers_next
    | with_reducible assumption
    | exact lor_sub hk rfl
    | with_reducible apply State.sourceOff_keeps
    | with_reducible apply keeps_ite
    | intro _)

theorem execOrderedDelayExpiry_keeps {fr : Nat} {r0 s : State} {g : Nat}
    (h : Keeps fr r0 s) (hk : fr ||| 0x8000 = fr) :
    Answers fr r0 (execOrderedDelayExpiry g s) := by
  unfold execOrderedDelayExpiry
  repeat' (first
    | with_reducible apply answers_next
    | with_reducible assumption
    | exact lor_sub hk rfl
    | extract_lets
    | with_reducible apply State.setGrp_keeps
    | with_reducible apply State.each_keeps
    | with_reducible apply State.setDrive_keeps
    | with_reducible apply State.groupSafe_keeps
    | with_reducible apply keeps_ite
    | intro _)

theorem State.tripClear_keeps {fr : Nat} {r0 s : State} {g : Nat}
    (h : Keeps fr r0 s) (hk : fr ||| 0x8004 = fr) :
    Keeps fr r0 (State.tripClear s g) := by
  unfold State.tripClear
  repeat' (first
    | with_reducible assumption
    | exact lor_sub hk rfl
    | extract_lets
    | with_reducible apply State.inc_keeps
    | with_reducible apply State.setBit_keeps
    | with_reducible apply State.groupUntrip_keeps
    | with_reducible apply State.setGrp_keeps
    | with_reducible apply keeps_ite
    | intro _)

theorem execTrpClr_keeps {fr : Nat} {r0 s : State} {mask : BitVec 8}
    (h : Keeps fr r0 s) (hk : fr ||| 0x8004 = fr) :
    Answers fr r0 (execTrpClr mask s) := by
  unfold execTrpClr
  repeat' (first
    | with_reducible apply answers_next
    | with_reducible assumption
    | exact lor_sub hk rfl
    | with_reducible apply State.each_keeps
    | with_reducible apply State.tripClear_keeps
    | intro _)

theorem State.tripRefuse_keeps {fr : Nat} {r0 s : State}
    (h : Keeps fr r0 s) (hk : fr ||| 0x4 = fr) :
    Keeps fr r0 (State.tripRefuse s) := by
  unfold State.tripRefuse
  repeat' (first
    | with_reducible assumption
    | exact lor_sub hk rfl
    | with_reducible apply State.inc_keeps
    | with_reducible apply State.setBit_keeps)

theorem execDckRelease_keeps {fr : Nat} {r0 s : State}
    (h : Keeps fr r0 s) (hk : fr ||| 0x10004 = fr) :
    Answers fr r0 (execDckRelease s) := by
  unfold execDckRelease
  repeat' (first
    | with_reducible apply answers_next
    | with_reducible assumption
    | exact lor_sub hk rfl
    | extract_lets
    | with_reducible apply State.tripRefuse_keeps
    | with_reducible apply keeps_ite
    | (fail_if_success (with_reducible apply keeps_pending)); with_reducible apply keeps_trp
    | intro _)

theorem execLegClear_keeps {fr : Nat} {r0 s : State} {l : Nat}
    (h : Keeps fr r0 s) (hk : fr ||| 0x8004 = fr) :
    Answers fr r0 (execLegClear l s) := by
  unfold execLegClear
  repeat' (first
    | with_reducible apply answers_next
    | with_reducible assumption
    | exact lor_sub hk rfl
    | extract_lets
    | with_reducible apply State.tripRefuse_keeps
    | with_reducible apply State.setLeg_keeps
    | with_reducible apply keeps_ite
    | intro _)

theorem execFltNChange_keeps {fr : Nat} {r0 s : State} {l : Nat} {high : Bool}
    (h : Keeps fr r0 s) (hk : fr ||| 0x8000 = fr) :
    Answers fr r0 (execFltNChange l high s) := by
  unfold execFltNChange
  repeat' (first
    | with_reducible apply answers_next
    | with_reducible assumption
    | exact lor_sub hk rfl
    | extract_lets
    | with_reducible apply State.setLeg_keeps
    | with_reducible apply keeps_ite
    | intro _)

theorem execFltFilterPass_keeps {fr : Nat} {r0 s : State} {l : Nat} {high : Bool}
    (h : Keeps fr r0 s) (hk : fr ||| 0x418804 = fr) :
    Answers fr r0 (execFltFilterPass l high s) := by
  unfold execFltFilterPass
  repeat' (first
    | with_reducible apply answers_next
    | with_reducible assumption
    | exact lor_sub hk rfl
    | extract_lets
    | with_reducible apply State.setLeg_keeps
    | with_reducible apply State.fltOff_keeps
    | with_reducible apply State.setBit_keeps
    | with_reducible apply State.inc_keeps
    | with_reducible apply State.fltOn_keeps
    | with_reducible apply keeps_ite
    | intro _)

theorem execFltBlankClose_keeps {fr : Nat} {r0 s : State} {l : Nat}
    (h : Keeps fr r0 s) (hk : fr ||| 0x418804 = fr) :
    Answers fr r0 (execFltBlankClose l s) := by
  unfold execFltBlankClose
  repeat' (first
    | with_reducible apply answers_next
    | with_reducible assumption
    | exact lor_sub hk rfl
    | extract_lets
    | with_reducible apply State.setLeg_keeps
    | with_reducible apply State.fltOn_keeps
    | with_reducible apply keeps_ite
    | intro _)

theorem execTripInChange_keeps {fr : Nat} {r0 s : State} {n : Nat} {high : Bool}
    (h : Keeps fr r0 s) (hk : fr ||| 0x418804 = fr) :
    Answers fr r0 (execTripInChange n high s) := by
  unfold execTripInChange
  repeat' (first
    | with_reducible apply answers_next
    | with_reducible assumption
    | exact lor_sub hk rfl
    | with_reducible apply State.putSource_keeps
    | with_reducible apply keeps_ite
    | intro _)

theorem execAutoClear_keeps {fr : Nat} {r0 s : State} {l : Nat}
    (h : Keeps fr r0 s) (hk : fr ||| 0x8004 = fr) :
    Answers fr r0 (execAutoClear l s) := by
  unfold execAutoClear
  repeat' (first
    | with_reducible apply answers_next
    | with_reducible assumption
    | exact lor_sub hk rfl
    | extract_lets
    | with_reducible apply State.inc_keeps
    | with_reducible apply State.setLeg_keeps
    | with_reducible apply keeps_ite
    | intro _)

theorem execTryCountReset_keeps {fr : Nat} {r0 s : State} {l : Nat}
    (h : Keeps fr r0 s) (hk : fr ||| 0x8000 = fr) :
    Answers fr r0 (execTryCountReset l s) := by
  unfold execTryCountReset
  repeat' (first
    | with_reducible apply answers_next
    | with_reducible assumption
    | exact lor_sub hk rfl
    | extract_lets
    | with_reducible apply State.setLeg_keeps)

theorem execChpClear_keeps {fr : Nat} {r0 s : State}
    (h : Keeps fr r0 s) (hk : fr ||| 0x38000 = fr) :
    Answers fr r0 (execChpClear s) := by
  unfold execChpClear
  repeat' (first
    | with_reducible apply answers_next
    | with_reducible assumption
    | exact lor_sub hk rfl
    | extract_lets
    | with_reducible apply State.sourceOff_keeps
    | with_reducible apply keeps_ite
    | (fail_if_success (with_reducible apply keeps_pending)); with_reducible apply keeps_chp
    | intro _
    | split
    | dsimp +zetaDelta only)

theorem execDcov2StopStep_keeps {fr : Nat} {r0 s : State}
    (h : Keeps fr r0 s) (hk : fr ||| 0x428004 = fr) :
    Answers fr r0 (execDcov2StopStep s) := by
  unfold execDcov2StopStep
  repeat' (first
    | with_reducible apply answers_next
    | with_reducible assumption
    | exact lor_sub hk rfl
    | with_reducible apply State.dcov2Go_keeps)

theorem execDcOv3Transition_keeps {fr : Nat} {r0 s : State} {nV : Int} {vddaNv : Int}
    (h : Keeps fr r0 s) (hk : fr ||| 0x418804 = fr) :
    Answers fr r0 (execDcOv3Transition nV vddaNv s) := by
  unfold execDcOv3Transition
  repeat' (first
    | with_reducible assumption
    | exact lor_sub hk rfl
    | with_reducible apply answers_next
    | extract_lets
    | with_reducible apply State.putSource_keeps
    | with_reducible apply keeps_ite
    | with_reducible apply answers_ite
    | with_reducible apply keeps_snd_ite
    | (fail_if_success (with_reducible apply keeps_pending)); with_reducible apply keeps_trp
    | intro _
    | split
    | dsimp +zetaDelta only)

end Sys2Proof.Machine
end

