-- ==== Sys2Proof/Laws/KeepsRegWrite.lean ====
section
/-!
SUPPORT. What each operation of Machine/RegWrite.lean keeps.
-/

namespace Sys2Proof.Machine

theorem stateOf_keeps {fr : Nat} {r0 s : State} {o : Out} (h : Answers fr r0 o) : Keeps fr r0 (stateOf o s) := by
  obtain ⟨t, e, ht⟩ := h.next
  rw [e]
  exact ht

theorem State.regStore_keeps {fr : Nat} {r0 s : State} {a : Nat} {v : Word}
    (h : Keeps fr r0 s) (hk : fr ||| 0x4 = fr) :
    Keeps fr r0 (State.regStore s a v) := by
  unfold State.regStore
  repeat' (first
    | with_reducible assumption
    | exact lor_sub hk rfl
    | extract_lets
    | with_reducible apply State.setReg_keeps)

theorem State.imgCmd_keeps {fr : Nat} {r0 s : State} {v : Word}
    (h : Keeps fr r0 s) (hk : fr ||| 0xe3fbb5f9d1e = fr) :
    Keeps fr r0 (State.imgCmd s v) := by
  unfold State.imgCmd
  repeat' (first
    | with_reducible assumption
    | exact lor_sub hk rfl
    | with_reducible apply stateOf_keeps
    | with_reducible apply execLoad_keeps
    | with_reducible apply execCommitAt_keeps
    | with_reducible apply execCommitNow_keeps
    | with_reducible apply execCancel_keeps
    | with_reducible apply execDiscard_keeps
    | split)

theorem State.cabCmd_keeps {fr : Nat} {r0 s : State} {v : Word}
    (h : Keeps fr r0 s) (hk : fr ||| 0x1000000022 = fr) :
    Keeps fr r0 (State.cabCmd s v) := by
  unfold State.cabCmd
  repeat' (first
    | with_reducible assumption
    | exact lor_sub hk rfl
    | with_reducible apply stateOf_keeps
    | with_reducible apply execBurn_keeps
    | with_reducible apply execLock_keeps
    | split)

theorem State.evtCmd_keeps {fr : Nat} {r0 s : State} {v : Word}
    (h : Keeps fr r0 s) (hk : fr ||| 0xc98448806 = fr) :
    Keeps fr r0 (State.evtCmd s v) := by
  unfold State.evtCmd
  repeat' (first
    | with_reducible assumption
    | exact lor_sub hk rfl
    | extract_lets
    | with_reducible apply State.armAbs_keeps
    | with_reducible apply State.armHost_keeps
    | with_reducible apply State.disarm_keeps
    | split
    | dsimp +zetaDelta only)

theorem State.leCmd_keeps {fr : Nat} {r0 s : State} {v : Word}
    (h : Keeps fr r0 s) (hk : fr ||| 0x19804 = fr) :
    Keeps fr r0 (State.leCmd s v) := by
  unfold State.leCmd
  repeat' (first
    | with_reducible assumption
    | exact lor_sub hk rfl
    | with_reducible apply State.ctxCmd_keeps
    | with_reducible apply State.ctxEnable_keeps
    | with_reducible apply State.ctxDisable_keeps
    | with_reducible apply State.ctxClear_keeps
    | intro _
    | split)

theorem State.groupCmd_keeps {fr : Nat} {r0 s : State} {g : Nat} {v : Word}
    (h : Keeps fr r0 s) (hk : fr ||| 0x418804 = fr) :
    Keeps fr r0 (State.groupCmd s g v) := by
  unfold State.groupCmd
  repeat' (first
    | with_reducible assumption
    | exact lor_sub hk rfl
    | with_reducible apply State.groupStart_keeps
    | with_reducible apply State.groupStop_keeps
    | with_reducible apply State.noteRefuse_keeps
    | intro _
    | split
    | dsimp +zetaDelta only)

theorem State.adcCmd_keeps {fr : Nat} {r0 s : State} {v : Word}
    (h : Keeps fr r0 s) (hk : fr ||| 0x40004 = fr) :
    Keeps fr r0 (State.adcCmd s v) := by
  unfold State.adcCmd
  repeat' (first
    | with_reducible assumption
    | exact lor_sub hk rfl
    | with_reducible apply stateOf_keeps
    | with_reducible apply execSwap_keeps
    | with_reducible apply execRestore_keeps
    | split)

theorem State.trpCmd_keeps {fr : Nat} {r0 s : State} {v : Word}
    (h : Keeps fr r0 s) (hk : fr ||| 0x18004 = fr) :
    Keeps fr r0 (State.trpCmd s v) := by
  unfold State.trpCmd
  repeat' (first
    | with_reducible assumption
    | exact lor_sub hk rfl
    | with_reducible apply stateOf_keeps
    | with_reducible apply execDckRelease_keeps
    | with_reducible apply execLegClear_keeps
    | split)

theorem State.gdsCmd_keeps {fr : Nat} {r0 s : State} {v : Word}
    (h : Keeps fr r0 s) (hk : fr ||| 0x10000 = fr) :
    Keeps fr r0 (State.gdsCmd s v) := by
  unfold State.gdsCmd
  repeat' (first
    | with_reducible assumption
    | exact lor_sub hk rfl
    | extract_lets
    | with_reducible apply State.diagAsk_keeps
    | with_reducible apply keeps_ite
    | intro _)

theorem State.grdCmd_keeps {fr : Nat} {r0 s : State} {v : Word}
    (h : Keeps fr r0 s) (hk : fr ||| 0x1c08004 = fr) :
    Keeps fr r0 (State.grdCmd s v) := by
  unfold State.grdCmd
  repeat' (first
    | with_reducible assumption
    | exact lor_sub hk rfl
    | with_reducible apply stateOf_keeps
    | with_reducible apply execGrdGf_keeps
    | with_reducible apply execGrdGfl_keeps
    | with_reducible apply execGrdCease_keeps
    | with_reducible apply execGrdResume_keeps
    | split)

theorem State.mtrCmd_keeps {fr : Nat} {r0 s : State} {v : Word}
    (h : Keeps fr r0 s) (hk : fr ||| 0x800000e = fr) :
    Keeps fr r0 (State.mtrCmd s v) := by
  unfold State.mtrCmd
  repeat' (first
    | with_reducible assumption
    | exact lor_sub hk rfl
    | with_reducible apply stateOf_keeps
    | with_reducible apply execSnap_keeps
    | with_reducible apply State.saveStart_keeps
    | with_reducible apply execClearAcc_keeps
    | split)

theorem State.recCmd_keeps {fr : Nat} {r0 s : State} {v : Word}
    (h : Keeps fr r0 s) (hk : fr ||| 0x10000004 = fr) :
    Keeps fr r0 (State.recCmd s v) := by
  unfold State.recCmd
  repeat' (first
    | with_reducible assumption
    | exact lor_sub hk rfl
    | extract_lets
    | with_reducible apply stateOf_keeps
    | with_reducible apply execRecCmdTrigger_keeps
    | with_reducible apply execRecArm_keeps
    | with_reducible apply execRecDisarm_keeps
    | split
    | dsimp +zetaDelta only)

theorem State.shfCmd_keeps {fr : Nat} {r0 s : State} {v : Word}
    (h : Keeps fr r0 s) (hk : fr ||| 0x20000004 = fr) :
    Keeps fr r0 (State.shfCmd s v) := by
  unfold State.shfCmd
  repeat' (first
    | with_reducible assumption
    | exact lor_sub hk rfl
    | with_reducible apply stateOf_keeps
    | with_reducible apply execLoc_keeps
    | with_reducible apply execAppend_keeps
    | split)

theorem State.timCmd_keeps {fr : Nat} {r0 s : State} {v : Word}
    (h : Keeps fr r0 s) (hk : fr ||| 0x200000006 = fr) :
    Keeps fr r0 (State.timCmd s v) := by
  unfold State.timCmd
  repeat' (first
    | with_reducible assumption
    | exact lor_sub hk rfl
    | with_reducible apply stateOf_keeps
    | with_reducible apply execResync_keeps
    | with_reducible apply execSwitch_keeps
    | with_reducible apply State.timHoldover_keeps
    | split)

theorem State.pairCmd_keeps {fr : Nat} {r0 s : State} {v : Word}
    (h : Keeps fr r0 s) (hk : fr ||| 0xc0000004 = fr) :
    Keeps fr r0 (State.pairCmd s v) := by
  unfold State.pairCmd
  repeat' (first
    | with_reducible assumption
    | exact lor_sub hk rfl
    | with_reducible apply stateOf_keeps
    | with_reducible apply execPairArm_keeps
    | with_reducible apply execPairHandover_keeps
    | with_reducible apply execPairTake_keeps
    | with_reducible apply execPairRejoin_keeps
    | split)

theorem State.lifCmd_keeps {fr : Nat} {r0 s : State} {v : Word}
    (h : Keeps fr r0 s) (hk : fr ||| 0x2200000c = fr) :
    Keeps fr r0 (State.lifCmd s v) := by
  unfold State.lifCmd
  repeat' (first
    | with_reducible assumption
    | exact lor_sub hk rfl
    | with_reducible apply State.lifRecord_keeps
    | with_reducible apply stateOf_keeps
    | with_reducible apply execLifClear_keeps
    | split)

theorem State.fanCmd_keeps {fr : Nat} {r0 s : State} {c : Nat} {v : Word}
    (h : Keeps fr r0 s) (hk : fr ||| 0x20000000004 = fr) :
    Keeps fr r0 (State.fanCmd s c v) := by
  unfold State.fanCmd
  repeat' (first
    | with_reducible assumption
    | exact lor_sub hk rfl
    | with_reducible apply stateOf_keeps
    | with_reducible apply execFanStart_keeps
    | with_reducible apply State.fanStop_keeps
    | split)

theorem State.regCommand_keeps {fr : Nat} {r0 s : State} {a : Nat} {v : Word}
    (h : Keeps fr r0 s) (hk : fr ||| 0xffffffffffe = fr) :
    OptKeeps fr r0 (State.regCommand s a v) := by
  unfold State.regCommand
  repeat' (first
    | with_reducible assumption
    | exact lor_sub hk rfl
    | extract_lets
    | with_reducible apply State.softReset_keeps
    | with_reducible apply State.setSys_keeps
    | with_reducible apply State.imgCmd_keeps
    | with_reducible apply State.cabCmd_keeps
    | with_reducible apply stateOf_keeps
    | with_reducible apply execAngSrcWrite_keeps
    | with_reducible apply State.evtCmd_keeps
    | with_reducible apply State.leCmd_keeps
    | with_reducible apply execPlbClear_keeps
    | with_reducible apply State.pwmStart_keeps
    | with_reducible apply State.pwmStop_keeps
    | with_reducible apply State.groupCmd_keeps
    | with_reducible apply State.cmtRequest_keeps
    | with_reducible apply State.adcCmd_keeps
    | with_reducible apply execSdmCtlWrite_keeps
    | with_reducible apply execTrpClr_keeps
    | with_reducible apply State.trpCmd_keeps
    | with_reducible apply State.gdsCmd_keeps
    | with_reducible apply execChpClear_keeps
    | with_reducible apply State.grdCmd_keeps
    | with_reducible apply State.mtrCmd_keeps
    | with_reducible apply State.recCmd_keeps
    | with_reducible apply State.shfCmd_keeps
    | with_reducible apply State.timCmd_keeps
    | with_reducible apply State.ttWrite_keeps
    | with_reducible apply execTxqDoorbell_keeps
    | with_reducible apply execSafConfirm_keeps
    | with_reducible apply State.retier_keeps
    | with_reducible apply State.confirmInv_keeps
    | with_reducible apply execEnumerate_keeps
    | with_reducible apply execRoleAssign_keeps
    | with_reducible apply State.pairCmd_keeps
    | with_reducible apply State.grantEnd_keeps
    | with_reducible apply State.grantRequest_keeps
    | with_reducible apply State.lifCmd_keeps
    | with_reducible apply State.fanCmd_keeps
    | with_reducible apply State.fanSet_keeps
    | with_reducible apply OptKeeps.none
    | with_reducible apply OptKeeps.some
    | with_reducible apply opt_ite
    | with_reducible apply keeps_ite
    | intro _)

theorem State.regWrite_keeps {fr : Nat} {r0 s : State} {a : Nat} {v : Word} (h : Keeps fr r0 s)
    (hk : fr ||| 0xffffffffffe = fr) : Keeps fr r0 (State.regWrite s a v) :=
  (State.regCommand_keeps h (lor_sub hk rfl)).getD (State.regStore_keeps h (lor_sub hk rfl))

theorem execReadClear_keeps {fr : Nat} {r0 s : State} {addr : Word}
    (h : Keeps fr r0 s) (hk : fr ||| 0x4b20e608804 = fr) :
    Answers fr r0 (execReadClear addr s) := by
  unfold execReadClear
  repeat' (first
    | with_reducible apply answers_next
    | with_reducible assumption
    | exact lor_sub hk rfl
    | extract_lets
    | with_reducible apply State.readReg_keeps
    | (fail_if_success (with_reducible apply keeps_pending)); with_reducible apply keeps_host
    | with_reducible refine keeps_of_snd (by assumption) ?_)

theorem execRegisterWrite_keeps {fr : Nat} {r0 s : State} {addr : Word} {value : Word}
    (h : Keeps fr r0 s) (hk : fr ||| 0xffffffffffe = fr) :
    Answers fr r0 (execRegisterWrite addr value s) := by
  unfold execRegisterWrite
  repeat' (first
    | with_reducible apply answers_next
    | with_reducible assumption
    | exact lor_sub hk rfl
    | with_reducible apply State.regWrite_keeps)

theorem execDieidRead_keeps {fr : Nat} {r0 s : State}
    (h : Keeps fr r0 s) (hk : fr ||| 0x220a208800 = fr) :
    Answers fr r0 (execDieidRead s) := by
  unfold execDieidRead
  repeat' (first
    | with_reducible apply answers_next
    | with_reducible assumption
    | exact lor_sub hk rfl
    | with_reducible apply State.readSnap_keeps)

end Sys2Proof.Machine
end

