-- ==== Sys2Proof/Laws/KeepsHost.lean ====
section
/-!
SUPPORT. What each operation of Machine/Host.lean keeps.
-/

namespace Sys2Proof.Machine

theorem State.setHost_keeps {fr : Nat} {r0 s : State} {x : Hst}
    (h : Keeps fr r0 s) (hk : fr ||| 0x8000000000 = fr) :
    Keeps fr r0 (State.setHost s x) := by
  unfold State.setHost
  repeat' (first
    | with_reducible assumption
    | exact lor_sub hk rfl
    | (fail_if_success (with_reducible apply keeps_pending)); with_reducible apply keeps_host)

theorem State.respond_keeps {fr : Nat} {r0 s : State} {tag : Nat} {rank : Nat} {x : Answer}
    (h : Keeps fr r0 s) (hk : fr ||| 0x8000000000 = fr) :
    Keeps fr r0 (State.respond s tag rank x) := by
  unfold State.respond
  repeat' (first
    | with_reducible assumption
    | exact lor_sub hk rfl
    | extract_lets
    | with_reducible apply State.setHost_keeps)

theorem State.readWord_keeps {fr : Nat} {r0 s : State} {a : Nat}
    (h : Keeps fr r0 s) (hk : fr ||| 0x4320e608804 = fr) :
    Keeps fr r0 (State.readWord s a).2 := by
  unfold State.readWord
  repeat' (first
    | with_reducible assumption
    | exact lor_sub hk rfl
    | with_reducible apply State.readReg_keeps
    | with_reducible apply keeps_ite
    | with_reducible apply keeps_snd_ite
    | with_reducible refine keeps_of_snd (by assumption) ?_
    | intro _
    | split)

theorem State.writeWord_keeps {fr : Nat} {r0 s : State} {a : Nat} {v : Word}
    (h : Keeps fr r0 s) (hk : fr ||| 0xffffffffffe = fr) :
    Keeps fr r0 (State.writeWord s a v) := by
  unfold State.writeWord
  repeat' (first
    | with_reducible assumption
    | exact lor_sub hk rfl
    | with_reducible apply State.regWrite_keeps
    | with_reducible apply State.setMemWord_keeps
    | with_reducible apply keeps_ite
    | intro _)

theorem State.readWords_keeps {fr : Nat} {r0 s : State} {l : List Nat} (h : Keeps fr r0 s) (hk : fr ||| 0x4320e608804 = fr) :
    Keeps fr r0 (State.readWords s l).2 := by
  unfold State.readWords
  dsimp only
  have key : ∀ (l : List Nat) (x : List Word × State), Keeps fr r0 x.2 →
      Keeps fr r0 (l.foldl (fun x a => ((x.2.readWord a).1 :: x.1, (x.2.readWord a).2)) x).2 := by
    intro l
    induction l with
    | nil => exact fun _ hx => hx
    | cons a l ih => exact fun x hx => ih _ (State.readWord_keeps hx (lor_sub hk rfl))
  exact key l ([], s) h

theorem State.writeWords_keeps {fr : Nat} {r0 s : State} {a1 : List (Nat × Word)}
    (h : Keeps fr r0 s) (hk : fr ||| 0xffffffffffe = fr) :
    Keeps fr r0 (State.writeWords s a1) := by
  induction a1 generalizing s with
  | nil =>
    unfold State.writeWords
    repeat' (first
      | with_reducible assumption
      | exact lor_sub hk rfl
      | with_reducible apply State.writeWord_keeps
      | split)
  | cons y l ih =>
    unfold State.writeWords
    repeat' (first
      | with_reducible assumption
      | exact lor_sub hk rfl
      | with_reducible apply ih
      | with_reducible apply State.writeWord_keeps
      | split)

theorem State.doorbell_keeps {fr : Nat} {r0 s : State} {q : HostReq}
    (h : Keeps fr r0 s) (hk : fr ||| 0x804 = fr) :
    Keeps fr r0 (State.doorbell s q).2 := by
  unfold State.doorbell
  repeat' (first
    | with_reducible assumption
    | exact lor_sub hk rfl
    | extract_lets
    | with_reducible apply State.setBit_keeps
    | with_reducible apply State.setCtx_keeps
    | with_reducible apply State.request_keeps
    | with_reducible apply keeps_ite
    | with_reducible apply keeps_snd_ite
    | with_reducible refine keeps_of_snd (by assumption) ?_
    | with_reducible refine keeps_of_fst (by assumption) ?_
    | intro _
    | split)

theorem State.hostExec_keeps {fr : Nat} {r0 s : State} {q : HostReq}
    (h : Keeps fr r0 s) (hk : fr ||| 0xffffffffffe = fr) :
    Keeps fr r0 (State.hostExec s q).2 := by
  unfold State.hostExec
  repeat' (first
    | with_reducible assumption
    | exact lor_sub hk rfl
    | extract_lets
    | with_reducible apply State.readWords_keeps
    | with_reducible apply State.writeWords_keeps
    | with_reducible apply State.doorbell_keeps
    | with_reducible apply keeps_snd_ite
    | with_reducible refine keeps_of_snd (by assumption) ?_
    | split
    | dsimp +zetaDelta only)

theorem State.hostHere_keeps {fr : Nat} {r0 s : State} {q : HostReq}
    (h : Keeps fr r0 s) (hk : fr ||| 0xffffffffffe = fr) :
    Keeps fr r0 (State.hostHere s q).2 := by
  unfold State.hostHere
  repeat' (first
    | with_reducible assumption
    | exact lor_sub hk rfl
    | with_reducible apply State.stale_keeps
    | with_reducible apply State.hostExec_keeps
    | with_reducible apply keeps_ite
    | with_reducible apply keeps_snd_ite
    | with_reducible refine keeps_of_snd (by assumption) ?_
    | intro _
    | split)

theorem State.carry_keeps {fr : Nat} {r0 s : State} {q : HostReq} {rank : Nat}
    (h : Keeps fr r0 s) (hk : fr ||| 0x40000000 = fr) :
    Keeps fr r0 (State.carry s q rank) := by
  unfold State.carry
  repeat' (first
    | with_reducible assumption
    | exact lor_sub hk rfl
    | extract_lets
    | with_reducible apply State.trsSendTo_keeps
    | with_reducible apply keeps_foldl
    | intro _)

theorem State.hostRequest_keeps {fr : Nat} {r0 s : State} {q : HostReq}
    (h : Keeps fr r0 s) (hk : fr ||| 0xffffffffffe = fr) :
    Keeps fr r0 (State.hostRequest s q) := by
  unfold State.hostRequest
  repeat' (first
    | with_reducible assumption
    | exact lor_sub hk rfl
    | extract_lets
    | with_reducible apply State.irq_keeps
    | with_reducible apply State.inc_keeps
    | with_reducible apply State.setBit_keeps
    | with_reducible apply State.setHost_keeps
    | with_reducible apply State.respond_keeps
    | with_reducible apply State.hostHere_keeps
    | with_reducible apply State.carry_keeps
    | with_reducible apply keeps_ite
    | with_reducible refine keeps_of_snd (by assumption) ?_
    | intro _
    | split
    | dsimp +zetaDelta only)

theorem execRead_keeps {fr : Nat} {r0 s : State} {q : HostReq}
    (h : Keeps fr r0 s) (hk : fr ||| 0xffffffffffe = fr) :
    Answers fr r0 (execRead q s) := by
  unfold execRead
  repeat' (first
    | with_reducible apply answers_next
    | with_reducible assumption
    | exact lor_sub hk rfl
    | with_reducible apply State.hostRequest_keeps
    | with_reducible apply keeps_ite
    | intro _)

theorem execWrite_keeps {fr : Nat} {r0 s : State} {q : HostReq}
    (h : Keeps fr r0 s) (hk : fr ||| 0xffffffffffe = fr) :
    Answers fr r0 (execWrite q s) := by
  unfold execWrite
  repeat' (first
    | with_reducible apply answers_next
    | with_reducible assumption
    | exact lor_sub hk rfl
    | with_reducible apply State.hostRequest_keeps
    | with_reducible apply keeps_ite
    | intro _)

theorem execDoorbell_keeps {fr : Nat} {r0 s : State} {q : HostReq}
    (h : Keeps fr r0 s) (hk : fr ||| 0xffffffffffe = fr) :
    Answers fr r0 (execDoorbell q s) := by
  unfold execDoorbell
  repeat' (first
    | with_reducible apply answers_next
    | with_reducible assumption
    | exact lor_sub hk rfl
    | with_reducible apply State.hostRequest_keeps
    | with_reducible apply keeps_ite
    | intro _)

theorem execRequestFrameError_keeps {fr : Nat} {r0 s : State} {crc : Bool} {tag : Byte}
    (h : Keeps fr r0 s) (hk : fr ||| 0x8000000004 = fr) :
    Answers fr r0 (execRequestFrameError crc tag s) := by
  unfold execRequestFrameError
  repeat' (first
    | with_reducible apply answers_next
    | with_reducible assumption
    | exact lor_sub hk rfl
    | extract_lets
    | with_reducible apply State.irq_keeps
    | with_reducible apply State.inc_keeps
    | with_reducible apply State.setBit_keeps
    | with_reducible apply State.respond_keeps
    | with_reducible apply keeps_ite
    | intro _)

theorem execUnknownFrame_keeps {fr : Nat} {r0 s : State}
    (h : Keeps fr r0 s) (hk : fr ||| 0x4 = fr) :
    Answers fr r0 (execUnknownFrame s) := by
  unfold execUnknownFrame
  repeat' (first
    | with_reducible apply answers_next
    | with_reducible assumption
    | exact lor_sub hk rfl
    | with_reducible apply State.irq_keeps
    | with_reducible apply State.inc_keeps
    | with_reducible apply State.setBit_keeps
    | with_reducible apply keeps_ite
    | intro _)

theorem execFetch_keeps {fr : Nat} {r0 s : State} {bytes : Nat}
    (h : Keeps fr r0 s) (hk : fr ||| 0x8000000000 = fr) :
    Answers fr r0 (execFetch bytes s) := by
  unfold execFetch
  repeat' (first
    | with_reducible apply answers_next
    | with_reducible assumption
    | exact lor_sub hk rfl
    | extract_lets
    | with_reducible apply State.setHost_keeps
    | with_reducible apply keeps_ite
    | intro _
    | split
    | dsimp +zetaDelta only)

theorem State.sendAnswer_keeps {fr : Nat} {r0 s : State} {dst : Nat} {tag : Nat} {x : Answer}
    (h : Keeps fr r0 s) (hk : fr ||| 0x40000000 = fr) :
    Keeps fr r0 (State.sendAnswer s dst tag x) := by
  unfold State.sendAnswer
  repeat' (first
    | with_reducible assumption
    | exact lor_sub hk rfl
    | extract_lets
    | with_reducible apply State.trsSendTo_keeps
    | with_reducible apply keeps_foldl
    | intro _)

theorem State.remoteExec_keeps {fr : Nat} {r0 s : State} {src : Nat} {q : HostReq}
    (h : Keeps fr r0 s) (hk : fr ||| 0xffffffffffe = fr) :
    Keeps fr r0 (State.remoteExec s src q) := by
  unfold State.remoteExec
  repeat' (first
    | with_reducible assumption
    | exact lor_sub hk rfl
    | extract_lets
    | with_reducible apply State.hostHere_keeps
    | with_reducible apply State.sendAnswer_keeps
    | with_reducible refine keeps_of_snd (by assumption) ?_)

theorem execHreqFrame_keeps {fr : Nat} {r0 s : State} {f : TrsFrame}
    (h : Keeps fr r0 s) (hk : fr ||| 0xffffffffffe = fr) :
    Answers fr r0 (execHreqFrame f s) := by
  unfold execHreqFrame
  repeat' (first
    | with_reducible apply answers_next
    | with_reducible assumption
    | exact lor_sub hk rfl
    | extract_lets
    | with_reducible apply State.setHost_keeps
    | with_reducible apply State.remoteExec_keeps
    | with_reducible apply keeps_ite
    | intro _)

theorem State.inboundData_keeps {fr : Nat} {r0 s : State} {f : TrsFrame}
    (h : Keeps fr r0 s) (hk : fr ||| 0xffffffffffe = fr) :
    Keeps fr r0 (State.inboundData s f) := by
  unfold State.inboundData
  repeat' (first
    | with_reducible assumption
    | exact lor_sub hk rfl
    | extract_lets
    | with_reducible apply State.remoteExec_keeps
    | with_reducible apply State.setHost_keeps
    | split
    | dsimp +zetaDelta only)

theorem State.remoteDone_keeps {fr : Nat} {r0 s : State} {x : Remote} {a : Answer}
    (h : Keeps fr r0 s) (hk : fr ||| 0x8000000000 = fr) :
    Keeps fr r0 (State.remoteDone s x a) := by
  unfold State.remoteDone
  repeat' (first
    | with_reducible assumption
    | exact lor_sub hk rfl
    | extract_lets
    | with_reducible apply State.respond_keeps
    | with_reducible apply State.setHost_keeps)

theorem State.remoteData_keeps {fr : Nat} {r0 s : State} {f : TrsFrame}
    (h : Keeps fr r0 s) (hk : fr ||| 0x8000000000 = fr) :
    Keeps fr r0 (State.remoteData s f) := by
  unfold State.remoteData
  repeat' (first
    | with_reducible assumption
    | exact lor_sub hk rfl
    | extract_lets
    | with_reducible apply State.remoteDone_keeps
    | with_reducible apply State.setHost_keeps
    | with_reducible apply keeps_ite
    | intro _
    | split
    | dsimp +zetaDelta only)

theorem execHdataFrame_keeps {fr : Nat} {r0 s : State} {f : TrsFrame}
    (h : Keeps fr r0 s) (hk : fr ||| 0xffffffffffe = fr) :
    Answers fr r0 (execHdataFrame f s) := by
  unfold execHdataFrame
  repeat' (first
    | with_reducible apply answers_next
    | with_reducible assumption
    | exact lor_sub hk rfl
    | with_reducible apply State.remoteData_keeps
    | with_reducible apply State.inboundData_keeps
    | with_reducible apply keeps_ite
    | intro _)

theorem execHrspFrame_keeps {fr : Nat} {r0 s : State} {f : TrsFrame}
    (h : Keeps fr r0 s) (hk : fr ||| 0x8000000004 = fr) :
    Answers fr r0 (execHrspFrame f s) := by
  unfold execHrspFrame
  repeat' (first
    | with_reducible apply answers_next
    | with_reducible assumption
    | exact lor_sub hk rfl
    | extract_lets
    | with_reducible apply State.inc_keeps
    | with_reducible apply State.remoteDone_keeps
    | with_reducible apply State.setHost_keeps
    | with_reducible apply keeps_ite
    | intro _
    | split
    | dsimp +zetaDelta only)

theorem execRemoteTimeout_keeps {fr : Nat} {r0 s : State} {tag : BitVec 6}
    (h : Keeps fr r0 s) (hk : fr ||| 0x8000000004 = fr) :
    Answers fr r0 (execRemoteTimeout tag s) := by
  unfold execRemoteTimeout
  repeat' (first
    | with_reducible apply answers_next
    | with_reducible assumption
    | exact lor_sub hk rfl
    | with_reducible apply State.remoteDone_keeps
    | with_reducible apply State.inc_keeps
    | with_reducible apply State.setBit_keeps
    | with_reducible apply keeps_ite
    | intro _
    | split)

theorem execUnreachTimeout_keeps {fr : Nat} {r0 s : State} {tag : BitVec 6}
    (h : Keeps fr r0 s) (hk : fr ||| 0x8000000000 = fr) :
    Answers fr r0 (execUnreachTimeout tag s) := by
  unfold execUnreachTimeout
  repeat' (first
    | with_reducible apply answers_next
    | with_reducible assumption
    | exact lor_sub hk rfl
    | with_reducible apply State.remoteDone_keeps
    | with_reducible apply keeps_ite
    | intro _
    | split)

end Sys2Proof.Machine
end

