-- ==== Sys2Proof/Laws/KeepsJtag.lean ====
section
/-!
SUPPORT. What each operation of Machine/Jtag.lean keeps.
-/

namespace Sys2Proof.Machine

theorem State.setJtag_keeps {fr : Nat} {r0 s : State} {x : Jtag}
    (h : Keeps fr r0 s) (hk : fr ||| 0x10000000000 = fr) :
    Keeps fr r0 (State.setJtag s x) := by
  unfold State.setJtag
  repeat' (first
    | with_reducible assumption
    | exact lor_sub hk rfl
    | (fail_if_success (with_reducible apply keeps_pending)); with_reducible apply keeps_jtag)

theorem execJtagBypass_keeps {fr : Nat} {r0 s : State}
    (h : Keeps fr r0 s) (hk : fr ||| 0x10000000000 = fr) :
    Answers fr r0 (execJtagBypass s) := by
  unfold execJtagBypass
  repeat' (first
    | with_reducible apply answers_next
    | with_reducible assumption
    | exact lor_sub hk rfl
    | extract_lets
    | with_reducible apply State.setJtag_keeps)

theorem execJtagIdcode_keeps {fr : Nat} {r0 s : State}
    (h : Keeps fr r0 s) (hk : fr ||| 0x10000000000 = fr) :
    Answers fr r0 (execJtagIdcode s) := by
  unfold execJtagIdcode
  repeat' (first
    | with_reducible apply answers_next
    | with_reducible assumption
    | exact lor_sub hk rfl
    | extract_lets
    | with_reducible apply State.setJtag_keeps)

theorem execJtagSamplePreload_keeps {fr : Nat} {r0 s : State} {load : List (Ball × Bool)}
    (h : Keeps fr r0 s) (hk : fr ||| 0x10000000000 = fr) :
    Answers fr r0 (execJtagSamplePreload load s) := by
  unfold execJtagSamplePreload
  repeat' (first
    | with_reducible apply answers_next
    | with_reducible assumption
    | exact lor_sub hk rfl
    | extract_lets
    | with_reducible apply State.setJtag_keeps)

theorem execJtagExtest_keeps {fr : Nat} {r0 s : State}
    (h : Keeps fr r0 s) (hk : fr ||| 0x10000000000 = fr) :
    Answers fr r0 (execJtagExtest s) := by
  unfold execJtagExtest
  repeat' (first
    | with_reducible apply answers_next
    | with_reducible assumption
    | exact lor_sub hk rfl
    | extract_lets
    | with_reducible apply State.setJtag_keeps
    | with_reducible apply keeps_ite
    | intro _)

theorem execTrstNAssert_keeps {fr : Nat} {r0 s : State}
    (h : Keeps fr r0 s) (hk : fr ||| 0x10000000000 = fr) :
    Answers fr r0 (execTrstNAssert s) := by
  unfold execTrstNAssert
  repeat' (first
    | with_reducible apply answers_next
    | with_reducible assumption
    | exact lor_sub hk rfl
    | with_reducible apply State.setJtag_keeps)

end Sys2Proof.Machine
end

