-- ==== Sys2Proof/Laws/KeepsLeIssue.lean ====
section
/-!
SUPPORT. What each operation of Machine/LeIssue.lean keeps.
-/

namespace Sys2Proof.Machine

theorem LeRes.reg_keeps {fr : Nat} {r0 s : State} {f : Ctx → Ctx} {n : Nat}
    (h : Keeps fr r0 s) (hk : fr ||| 0x800 = fr) :
    ResKeeps fr r0 (LeRes.reg f s n) := by
  unfold LeRes.reg
  repeat' (first
    | with_reducible assumption
    | exact lor_sub hk rfl
    | with_reducible apply State.setCtx_keeps
    | with_reducible apply ResKeeps.exc
    | with_reducible apply ResKeeps.ok
    | with_reducible apply ResKeeps.jump
    | with_reducible apply ResKeeps.stay
    | with_reducible apply res_ite)

theorem LeRes.branch_keeps {fr : Nat} {r0 s : State} {w : LeWord} {cond : Ctx → Bool} {n : Nat}
    (h : Keeps fr r0 s) (hk : fr ||| 0x0 = fr) :
    ResKeeps fr r0 (LeRes.branch w cond s n) := by
  unfold LeRes.branch
  repeat' (first
    | with_reducible assumption
    | exact lor_sub hk rfl
    | with_reducible apply ResKeeps.exc
    | with_reducible apply ResKeeps.ok
    | with_reducible apply ResKeeps.jump
    | with_reducible apply ResKeeps.stay
    | with_reducible apply res_ite
    | with_reducible apply keeps_ite
    | intro _)

theorem State.setPc_keeps {fr : Nat} {r0 s : State} {n : Nat} {pc : Nat}
    (h : Keeps fr r0 s) (hk : fr ||| 0x800 = fr) :
    Keeps fr r0 (State.setPc s n pc) := by
  unfold State.setPc
  repeat' (first
    | with_reducible assumption
    | exact lor_sub hk rfl
    | extract_lets
    | with_reducible apply State.setCtx_keeps)

theorem State.leIssue_keeps {fr : Nat} {r0 s : State} {form : Form} {w : LeWord} {ecc : Ecc}
    {body : State → Nat → LeRes} (h : Keeps fr r0 s) (hk : fr ||| 0x419804 = fr)
    (hb : ∀ n, ResKeeps fr r0 (body s n)) : Keeps fr r0 (State.leIssue s form w ecc body) := by
  unfold State.leIssue
  have e : ∀ n x, Keeps fr r0 (s.raise n x) := fun n x => State.raise_keeps h (lor_sub hk rfl)
  have p : ∀ t n x, Keeps fr r0 t → Keeps fr r0 (t.setPc n x) := fun t n x ht => State.setPc_keeps ht (lor_sub hk rfl)
  have b := hb s.le.running
  dsimp only
  repeat' (first
    | exact h
    | apply e
    | with_reducible apply keeps_ite
    | intro _
    | split)
  all_goals simp only [*] at b; cases b; first | assumption | (apply p; assumption)

theorem State.leYield_keeps {fr : Nat} {r0 s : State} {n : Nat}
    (h : Keeps fr r0 s) (hk : fr ||| 0x800 = fr) :
    ResKeeps fr r0 (State.leYield s n) := by
  unfold State.leYield
  repeat' (first
    | with_reducible assumption
    | exact lor_sub hk rfl
    | extract_lets
    | with_reducible apply State.dropLanes_keeps
    | with_reducible apply State.setCtx_keeps
    | with_reducible apply State.enqueue_keeps
    | with_reducible apply ResKeeps.exc
    | with_reducible apply ResKeeps.ok
    | with_reducible apply ResKeeps.jump
    | with_reducible apply ResKeeps.stay
    | with_reducible apply res_ite
    | with_reducible apply keeps_ite
    | intro _)

theorem State.leSignal_keeps {fr : Nat} {r0 s : State} {_n : Nat} {target : Nat}
    (h : Keeps fr r0 s) (hk : fr ||| 0x804 = fr) :
    Keeps fr r0 (State.leSignal s _n target) := by
  unfold State.leSignal
  repeat' (first
    | with_reducible assumption
    | exact lor_sub hk rfl
    | with_reducible apply State.request_keeps
    | with_reducible refine keeps_of_fst (by assumption) ?_)

theorem State.leLoad_keeps {fr : Nat} {r0 s : State} {w : LeWord} {n : Nat}
    (h : Keeps fr r0 s) (hk : fr ||| 0x800 = fr) :
    ResKeeps fr r0 (State.leLoad w s n) := by
  unfold State.leLoad
  repeat' (first
    | with_reducible assumption
    | exact lor_sub hk rfl
    | extract_lets
    | with_reducible apply State.setCtx_keeps
    | with_reducible apply ResKeeps.exc
    | with_reducible apply ResKeeps.ok
    | with_reducible apply ResKeeps.jump
    | with_reducible apply ResKeeps.stay
    | with_reducible apply res_ite
    | with_reducible apply keeps_ite
    | intro _)

theorem State.leStore_keeps {fr : Nat} {r0 s : State} {w : LeWord} {n : Nat}
    (h : Keeps fr r0 s) (hk : fr ||| 0x8 = fr) :
    ResKeeps fr r0 (State.leStore w s n) := by
  unfold State.leStore
  repeat' (first
    | with_reducible assumption
    | exact lor_sub hk rfl
    | extract_lets
    | with_reducible apply State.setMemWord_keeps
    | with_reducible apply ResKeeps.exc
    | with_reducible apply ResKeeps.ok
    | with_reducible apply ResKeeps.jump
    | with_reducible apply ResKeeps.stay
    | with_reducible apply res_ite
    | with_reducible apply keeps_ite
    | with_reducible apply keeps_foldl
    | intro _)

theorem State.lePi_keeps {fr : Nat} {r0 s : State} {w : LeWord} {n : Nat}
    (h : Keeps fr r0 s) (hk : fr ||| 0x800 = fr) :
    ResKeeps fr r0 (State.lePi w s n) := by
  unfold State.lePi
  repeat' (first
    | with_reducible assumption
    | exact lor_sub hk rfl
    | extract_lets
    | with_reducible apply State.setCtx_keeps
    | with_reducible apply ResKeeps.exc
    | with_reducible apply ResKeeps.ok
    | with_reducible apply ResKeeps.jump
    | with_reducible apply ResKeeps.stay
    | with_reducible apply res_ite
    | with_reducible apply keeps_foldl
    | intro _)

theorem State.leBump_keeps {fr : Nat} {r0 s : State} {w : LeWord} {n : Nat}
    (h : Keeps fr r0 s) (hk : fr ||| 0x800 = fr) :
    ResKeeps fr r0 (State.leBump w s n) := by
  unfold State.leBump
  repeat' (first
    | with_reducible assumption
    | exact lor_sub hk rfl
    | extract_lets
    | with_reducible apply State.setCtx_keeps
    | with_reducible apply ResKeeps.exc
    | with_reducible apply ResKeeps.ok
    | with_reducible apply ResKeeps.jump
    | with_reducible apply ResKeeps.stay
    | with_reducible apply res_ite)

theorem State.leBiquad_keeps {fr : Nat} {r0 s : State} {w : LeWord} {n : Nat}
    (h : Keeps fr r0 s) (hk : fr ||| 0x800 = fr) :
    ResKeeps fr r0 (State.leBiquad w s n) := by
  unfold State.leBiquad
  repeat' (first
    | with_reducible assumption
    | exact lor_sub hk rfl
    | extract_lets
    | with_reducible apply State.setCtx_keeps
    | with_reducible apply ResKeeps.exc
    | with_reducible apply ResKeeps.ok
    | with_reducible apply ResKeeps.jump
    | with_reducible apply ResKeeps.stay
    | with_reducible apply res_ite
    | with_reducible apply keeps_ite
    | with_reducible apply keeps_foldl
    | intro _)

theorem State.leWait_keeps {fr : Nat} {r0 s : State} {n : Nat} {remaining : Nat}
    (h : Keeps fr r0 s) (hk : fr ||| 0x800 = fr) :
    ResKeeps fr r0 (State.leWait s n remaining) := by
  unfold State.leWait
  repeat' (first
    | with_reducible assumption
    | exact lor_sub hk rfl
    | extract_lets
    | with_reducible apply State.dropLanes_keeps
    | with_reducible apply State.setCtx_keeps
    | with_reducible apply ResKeeps.exc
    | with_reducible apply ResKeeps.ok
    | with_reducible apply ResKeeps.jump
    | with_reducible apply ResKeeps.stay
    | with_reducible apply res_ite
    | with_reducible apply keeps_ite
    | intro _)

theorem State.leRdres_keeps {fr : Nat} {r0 s : State} {w : LeWord} {remaining : Nat} {n : Nat}
    (h : Keeps fr r0 s) (hk : fr ||| 0x800 = fr) :
    ResKeeps fr r0 (State.leRdres w remaining s n) := by
  unfold State.leRdres
  repeat' (first
    | with_reducible assumption
    | exact lor_sub hk rfl
    | extract_lets
    | with_reducible apply State.leWait_keeps
    | with_reducible apply State.ioSnap_keeps
    | with_reducible apply State.setCtx_keeps
    | with_reducible apply ResKeeps.exc
    | with_reducible apply ResKeeps.ok
    | with_reducible apply ResKeeps.jump
    | with_reducible apply ResKeeps.stay
    | with_reducible apply res_ite
    | with_reducible apply keeps_ite
    | with_reducible apply keeps_foldl
    | intro _
    | split
    | dsimp +zetaDelta only)

theorem State.leWrite_keeps {fr : Nat} {r0 s : State} {w : LeWord} {x : Desc → Nat → Option Exc}
    {f : State → Nat → Nat → Word → State} {n : Nat} (h : Keeps fr r0 s) (_ : fr ||| 0x0 = fr)
    (hf : ∀ t n a v, Keeps fr r0 t → Keeps fr r0 (f t n a v)) : ResKeeps fr r0 (State.leWrite w x f s n) := by
  unfold State.leWrite
  dsimp only
  split
  · exact .exc
  · split
    · exact .exc
    · exact .ok (keeps_foldl h fun t y ht => hf t n _ _ ht)

theorem State.leCommitMask_keeps {fr : Nat} {r0 s : State} {w : LeWord} {n : Nat}
    (h : Keeps fr r0 s) (hk : fr ||| 0x8804 = fr) :
    ResKeeps fr r0 (State.leCommitMask w s n) := by
  unfold State.leCommitMask
  repeat' (first
    | with_reducible assumption
    | exact lor_sub hk rfl
    | extract_lets
    | with_reducible apply State.sealGroup_keeps
    | with_reducible apply ResKeeps.exc
    | with_reducible apply ResKeeps.ok
    | with_reducible apply ResKeeps.jump
    | with_reducible apply ResKeeps.stay
    | with_reducible apply res_ite
    | with_reducible apply keeps_ite
    | with_reducible apply keeps_foldl
    | intro _)

theorem State.leCandset_keeps {fr : Nat} {r0 s : State} {w : LeWord} {n : Nat}
    (h : Keeps fr r0 s) (hk : fr ||| 0x800 = fr) :
    ResKeeps fr r0 (State.leCandset w s n) := by
  unfold State.leCandset
  repeat' (first
    | with_reducible assumption
    | exact lor_sub hk rfl
    | extract_lets
    | with_reducible apply State.setCtx_keeps
    | with_reducible apply ResKeeps.exc
    | with_reducible apply ResKeeps.ok
    | with_reducible apply ResKeeps.jump
    | with_reducible apply ResKeeps.stay
    | with_reducible apply res_ite
    | with_reducible apply keeps_ite
    | intro _)

theorem State.leCandeval_keeps {fr : Nat} {r0 s : State} {w : LeWord} {remaining : Nat} {n : Nat}
    (h : Keeps fr r0 s) (hk : fr ||| 0x419804 = fr) :
    ResKeeps fr r0 (State.leCandeval w remaining s n) := by
  unfold State.leCandeval
  repeat' (first
    | with_reducible assumption
    | exact lor_sub hk rfl
    | extract_lets
    | with_reducible apply State.leWait_keeps
    | with_reducible apply State.plbCheck_keeps
    | with_reducible apply State.setCtx_keeps
    | with_reducible apply ResKeeps.exc
    | with_reducible apply ResKeeps.ok
    | with_reducible apply ResKeeps.jump
    | with_reducible apply ResKeeps.stay
    | with_reducible apply res_ite
    | with_reducible apply keeps_ite
    | (fail_if_success (with_reducible apply keeps_pending)); with_reducible apply keeps_ce
    | intro _
    | split
    | dsimp +zetaDelta only)

theorem State.stageResult_keeps {fr : Nat} {r0 s : State} {n : Nat} {r : EvalResult}
    (h : Keeps fr r0 s) (hk : fr ||| 0x8800 = fr) :
    Keeps fr r0 (State.stageResult s n r) := by
  unfold State.stageResult
  repeat' (first
    | with_reducible assumption
    | exact lor_sub hk rfl
    | extract_lets
    | with_reducible apply State.stageWord_keeps
    | with_reducible apply State.setCtx_keeps
    | with_reducible apply keeps_ite
    | intro _
    | split
    | dsimp +zetaDelta only)

theorem State.leCandsel_keeps {fr : Nat} {r0 s : State} {w : LeWord} {remaining : Nat} {n : Nat}
    (h : Keeps fr r0 s) (hk : fr ||| 0x8800 = fr) :
    ResKeeps fr r0 (State.leCandsel w remaining s n) := by
  unfold State.leCandsel
  repeat' (first
    | with_reducible assumption
    | exact lor_sub hk rfl
    | extract_lets
    | with_reducible apply State.setCtx_keeps
    | with_reducible apply State.leWait_keeps
    | with_reducible apply State.stageResult_keeps
    | with_reducible apply ResKeeps.exc
    | with_reducible apply ResKeeps.ok
    | with_reducible apply ResKeeps.jump
    | with_reducible apply ResKeeps.stay
    | with_reducible apply res_ite
    | with_reducible apply keeps_ite
    | intro _
    | split
    | dsimp +zetaDelta only)

end Sys2Proof.Machine
end

