-- ==== Sys2Proof/Laws/KeepsLeInstr.lean ====
section
/-!
SUPPORT. What each operation of Machine/LeInstr.lean keeps.
-/

namespace Sys2Proof.Machine

theorem execLeNop_keeps {fr : Nat} {r0 s : State} {w : LeWord} {ecc : Ecc}
    (h : Keeps fr r0 s) (hk : fr ||| 0x419804 = fr) :
    Answers fr r0 (execLeNop w ecc s) := by
  unfold execLeNop
  repeat' (first
    | with_reducible apply answers_next
    | with_reducible assumption
    | exact lor_sub hk rfl
    | with_reducible apply State.leIssue_keeps
    | with_reducible apply LeRes.reg_keeps
    | with_reducible apply ResKeeps.exc
    | with_reducible apply ResKeeps.ok
    | with_reducible apply ResKeeps.jump
    | with_reducible apply ResKeeps.stay
    | with_reducible apply res_ite
    | intro _)

theorem execLeYield_keeps {fr : Nat} {r0 s : State} {w : LeWord} {ecc : Ecc}
    (h : Keeps fr r0 s) (hk : fr ||| 0x419804 = fr) :
    Answers fr r0 (execLeYield w ecc s) := by
  unfold execLeYield
  repeat' (first
    | with_reducible apply answers_next
    | with_reducible assumption
    | exact lor_sub hk rfl
    | with_reducible apply State.leIssue_keeps
    | with_reducible apply State.leYield_keeps
    | with_reducible apply ResKeeps.exc
    | with_reducible apply ResKeeps.ok
    | with_reducible apply ResKeeps.jump
    | with_reducible apply ResKeeps.stay
    | with_reducible apply res_ite
    | intro _)

theorem execLeBr_keeps {fr : Nat} {r0 s : State} {w : LeWord} {ecc : Ecc}
    (h : Keeps fr r0 s) (hk : fr ||| 0x419804 = fr) :
    Answers fr r0 (execLeBr w ecc s) := by
  unfold execLeBr
  repeat' (first
    | with_reducible apply answers_next
    | with_reducible assumption
    | exact lor_sub hk rfl
    | with_reducible apply State.leIssue_keeps
    | with_reducible apply LeRes.branch_keeps
    | with_reducible apply ResKeeps.exc
    | with_reducible apply ResKeeps.ok
    | with_reducible apply ResKeeps.jump
    | with_reducible apply ResKeeps.stay
    | with_reducible apply res_ite
    | intro _)

theorem execLeBeqz_keeps {fr : Nat} {r0 s : State} {w : LeWord} {ecc : Ecc}
    (h : Keeps fr r0 s) (hk : fr ||| 0x419804 = fr) :
    Answers fr r0 (execLeBeqz w ecc s) := by
  unfold execLeBeqz
  repeat' (first
    | with_reducible apply answers_next
    | with_reducible assumption
    | exact lor_sub hk rfl
    | with_reducible apply State.leIssue_keeps
    | with_reducible apply LeRes.branch_keeps
    | with_reducible apply ResKeeps.exc
    | with_reducible apply ResKeeps.ok
    | with_reducible apply ResKeeps.jump
    | with_reducible apply ResKeeps.stay
    | with_reducible apply res_ite
    | intro _)

theorem execLeBnez_keeps {fr : Nat} {r0 s : State} {w : LeWord} {ecc : Ecc}
    (h : Keeps fr r0 s) (hk : fr ||| 0x419804 = fr) :
    Answers fr r0 (execLeBnez w ecc s) := by
  unfold execLeBnez
  repeat' (first
    | with_reducible apply answers_next
    | with_reducible assumption
    | exact lor_sub hk rfl
    | with_reducible apply State.leIssue_keeps
    | with_reducible apply LeRes.branch_keeps
    | with_reducible apply ResKeeps.exc
    | with_reducible apply ResKeeps.ok
    | with_reducible apply ResKeeps.jump
    | with_reducible apply ResKeeps.stay
    | with_reducible apply res_ite
    | intro _)

theorem execLeBltz_keeps {fr : Nat} {r0 s : State} {w : LeWord} {ecc : Ecc}
    (h : Keeps fr r0 s) (hk : fr ||| 0x419804 = fr) :
    Answers fr r0 (execLeBltz w ecc s) := by
  unfold execLeBltz
  repeat' (first
    | with_reducible apply answers_next
    | with_reducible assumption
    | exact lor_sub hk rfl
    | with_reducible apply State.leIssue_keeps
    | with_reducible apply LeRes.branch_keeps
    | with_reducible apply ResKeeps.exc
    | with_reducible apply ResKeeps.ok
    | with_reducible apply ResKeeps.jump
    | with_reducible apply ResKeeps.stay
    | with_reducible apply res_ite
    | intro _)

theorem execLeBgez_keeps {fr : Nat} {r0 s : State} {w : LeWord} {ecc : Ecc}
    (h : Keeps fr r0 s) (hk : fr ||| 0x419804 = fr) :
    Answers fr r0 (execLeBgez w ecc s) := by
  unfold execLeBgez
  repeat' (first
    | with_reducible apply answers_next
    | with_reducible assumption
    | exact lor_sub hk rfl
    | with_reducible apply State.leIssue_keeps
    | with_reducible apply LeRes.branch_keeps
    | with_reducible apply ResKeeps.exc
    | with_reducible apply ResKeeps.ok
    | with_reducible apply ResKeeps.jump
    | with_reducible apply ResKeeps.stay
    | with_reducible apply res_ite
    | intro _)

theorem execLeDbnz_keeps {fr : Nat} {r0 s : State} {w : LeWord} {ecc : Ecc}
    (h : Keeps fr r0 s) (hk : fr ||| 0x419804 = fr) :
    Answers fr r0 (execLeDbnz w ecc s) := by
  unfold execLeDbnz
  repeat' (first
    | with_reducible apply answers_next
    | with_reducible assumption
    | exact lor_sub hk rfl
    | extract_lets
    | with_reducible apply State.leIssue_keeps
    | with_reducible apply State.setCtx_keeps
    | with_reducible apply ResKeeps.exc
    | with_reducible apply ResKeeps.ok
    | with_reducible apply ResKeeps.jump
    | with_reducible apply ResKeeps.stay
    | with_reducible apply res_ite
    | with_reducible apply keeps_ite
    | intro _)

theorem execLeBpany_keeps {fr : Nat} {r0 s : State} {w : LeWord} {ecc : Ecc}
    (h : Keeps fr r0 s) (hk : fr ||| 0x419804 = fr) :
    Answers fr r0 (execLeBpany w ecc s) := by
  unfold execLeBpany
  repeat' (first
    | with_reducible apply answers_next
    | with_reducible assumption
    | exact lor_sub hk rfl
    | with_reducible apply State.leIssue_keeps
    | with_reducible apply LeRes.branch_keeps
    | with_reducible apply ResKeeps.exc
    | with_reducible apply ResKeeps.ok
    | with_reducible apply ResKeeps.jump
    | with_reducible apply ResKeeps.stay
    | with_reducible apply res_ite
    | intro _)

theorem execLeBpall_keeps {fr : Nat} {r0 s : State} {w : LeWord} {ecc : Ecc}
    (h : Keeps fr r0 s) (hk : fr ||| 0x419804 = fr) :
    Answers fr r0 (execLeBpall w ecc s) := by
  unfold execLeBpall
  repeat' (first
    | with_reducible apply answers_next
    | with_reducible assumption
    | exact lor_sub hk rfl
    | with_reducible apply State.leIssue_keeps
    | with_reducible apply LeRes.branch_keeps
    | with_reducible apply ResKeeps.exc
    | with_reducible apply ResKeeps.ok
    | with_reducible apply ResKeeps.jump
    | with_reducible apply ResKeeps.stay
    | with_reducible apply res_ite
    | intro _)

theorem execLeJal_keeps {fr : Nat} {r0 s : State} {w : LeWord} {ecc : Ecc}
    (h : Keeps fr r0 s) (hk : fr ||| 0x419804 = fr) :
    Answers fr r0 (execLeJal w ecc s) := by
  unfold execLeJal
  repeat' (first
    | with_reducible apply answers_next
    | with_reducible assumption
    | exact lor_sub hk rfl
    | extract_lets
    | with_reducible apply State.leIssue_keeps
    | with_reducible apply State.setCtx_keeps
    | with_reducible apply ResKeeps.exc
    | with_reducible apply ResKeeps.ok
    | with_reducible apply ResKeeps.jump
    | with_reducible apply ResKeeps.stay
    | with_reducible apply res_ite
    | intro _)

theorem execLeJr_keeps {fr : Nat} {r0 s : State} {w : LeWord} {ecc : Ecc}
    (h : Keeps fr r0 s) (hk : fr ||| 0x419804 = fr) :
    Answers fr r0 (execLeJr w ecc s) := by
  unfold execLeJr
  repeat' (first
    | with_reducible apply answers_next
    | with_reducible assumption
    | exact lor_sub hk rfl
    | with_reducible apply State.leIssue_keeps
    | with_reducible apply ResKeeps.exc
    | with_reducible apply ResKeeps.ok
    | with_reducible apply ResKeeps.jump
    | with_reducible apply ResKeeps.stay
    | with_reducible apply res_ite
    | intro _)

theorem execLeAdd_keeps {fr : Nat} {r0 s : State} {w : LeWord} {ecc : Ecc}
    (h : Keeps fr r0 s) (hk : fr ||| 0x419804 = fr) :
    Answers fr r0 (execLeAdd w ecc s) := by
  unfold execLeAdd
  repeat' (first
    | with_reducible apply answers_next
    | with_reducible assumption
    | exact lor_sub hk rfl
    | with_reducible apply State.leIssue_keeps
    | with_reducible apply LeRes.reg_keeps
    | with_reducible apply ResKeeps.exc
    | with_reducible apply ResKeeps.ok
    | with_reducible apply ResKeeps.jump
    | with_reducible apply ResKeeps.stay
    | with_reducible apply res_ite
    | intro _)

theorem execLeSub_keeps {fr : Nat} {r0 s : State} {w : LeWord} {ecc : Ecc}
    (h : Keeps fr r0 s) (hk : fr ||| 0x419804 = fr) :
    Answers fr r0 (execLeSub w ecc s) := by
  unfold execLeSub
  repeat' (first
    | with_reducible apply answers_next
    | with_reducible assumption
    | exact lor_sub hk rfl
    | with_reducible apply State.leIssue_keeps
    | with_reducible apply LeRes.reg_keeps
    | with_reducible apply ResKeeps.exc
    | with_reducible apply ResKeeps.ok
    | with_reducible apply ResKeeps.jump
    | with_reducible apply ResKeeps.stay
    | with_reducible apply res_ite
    | intro _)

theorem execLeNeg_keeps {fr : Nat} {r0 s : State} {w : LeWord} {ecc : Ecc}
    (h : Keeps fr r0 s) (hk : fr ||| 0x419804 = fr) :
    Answers fr r0 (execLeNeg w ecc s) := by
  unfold execLeNeg
  repeat' (first
    | with_reducible apply answers_next
    | with_reducible assumption
    | exact lor_sub hk rfl
    | with_reducible apply State.leIssue_keeps
    | with_reducible apply LeRes.reg_keeps
    | with_reducible apply ResKeeps.exc
    | with_reducible apply ResKeeps.ok
    | with_reducible apply ResKeeps.jump
    | with_reducible apply ResKeeps.stay
    | with_reducible apply res_ite
    | intro _)

theorem execLeAbs_keeps {fr : Nat} {r0 s : State} {w : LeWord} {ecc : Ecc}
    (h : Keeps fr r0 s) (hk : fr ||| 0x419804 = fr) :
    Answers fr r0 (execLeAbs w ecc s) := by
  unfold execLeAbs
  repeat' (first
    | with_reducible apply answers_next
    | with_reducible assumption
    | exact lor_sub hk rfl
    | with_reducible apply State.leIssue_keeps
    | with_reducible apply LeRes.reg_keeps
    | with_reducible apply ResKeeps.exc
    | with_reducible apply ResKeeps.ok
    | with_reducible apply ResKeeps.jump
    | with_reducible apply ResKeeps.stay
    | with_reducible apply res_ite
    | intro _)

theorem execLeMin_keeps {fr : Nat} {r0 s : State} {w : LeWord} {ecc : Ecc}
    (h : Keeps fr r0 s) (hk : fr ||| 0x419804 = fr) :
    Answers fr r0 (execLeMin w ecc s) := by
  unfold execLeMin
  repeat' (first
    | with_reducible apply answers_next
    | with_reducible assumption
    | exact lor_sub hk rfl
    | with_reducible apply State.leIssue_keeps
    | with_reducible apply LeRes.reg_keeps
    | with_reducible apply ResKeeps.exc
    | with_reducible apply ResKeeps.ok
    | with_reducible apply ResKeeps.jump
    | with_reducible apply ResKeeps.stay
    | with_reducible apply res_ite
    | intro _)

theorem execLeMax_keeps {fr : Nat} {r0 s : State} {w : LeWord} {ecc : Ecc}
    (h : Keeps fr r0 s) (hk : fr ||| 0x419804 = fr) :
    Answers fr r0 (execLeMax w ecc s) := by
  unfold execLeMax
  repeat' (first
    | with_reducible apply answers_next
    | with_reducible assumption
    | exact lor_sub hk rfl
    | with_reducible apply State.leIssue_keeps
    | with_reducible apply LeRes.reg_keeps
    | with_reducible apply ResKeeps.exc
    | with_reducible apply ResKeeps.ok
    | with_reducible apply ResKeeps.jump
    | with_reducible apply ResKeeps.stay
    | with_reducible apply res_ite
    | intro _)

theorem execLeClamp_keeps {fr : Nat} {r0 s : State} {w : LeWord} {ecc : Ecc}
    (h : Keeps fr r0 s) (hk : fr ||| 0x419804 = fr) :
    Answers fr r0 (execLeClamp w ecc s) := by
  unfold execLeClamp
  repeat' (first
    | with_reducible apply answers_next
    | with_reducible assumption
    | exact lor_sub hk rfl
    | with_reducible apply State.leIssue_keeps
    | with_reducible apply LeRes.reg_keeps
    | with_reducible apply ResKeeps.exc
    | with_reducible apply ResKeeps.ok
    | with_reducible apply ResKeeps.jump
    | with_reducible apply ResKeeps.stay
    | with_reducible apply res_ite
    | intro _)

theorem execLeMul_keeps {fr : Nat} {r0 s : State} {w : LeWord} {ecc : Ecc}
    (h : Keeps fr r0 s) (hk : fr ||| 0x419804 = fr) :
    Answers fr r0 (execLeMul w ecc s) := by
  unfold execLeMul
  repeat' (first
    | with_reducible apply answers_next
    | with_reducible assumption
    | exact lor_sub hk rfl
    | with_reducible apply State.leIssue_keeps
    | with_reducible apply LeRes.reg_keeps
    | with_reducible apply ResKeeps.exc
    | with_reducible apply ResKeeps.ok
    | with_reducible apply ResKeeps.jump
    | with_reducible apply ResKeeps.stay
    | with_reducible apply res_ite
    | intro _)

theorem execLeAddi_keeps {fr : Nat} {r0 s : State} {w : LeWord} {ecc : Ecc}
    (h : Keeps fr r0 s) (hk : fr ||| 0x419804 = fr) :
    Answers fr r0 (execLeAddi w ecc s) := by
  unfold execLeAddi
  repeat' (first
    | with_reducible apply answers_next
    | with_reducible assumption
    | exact lor_sub hk rfl
    | with_reducible apply State.leIssue_keeps
    | with_reducible apply LeRes.reg_keeps
    | with_reducible apply ResKeeps.exc
    | with_reducible apply ResKeeps.ok
    | with_reducible apply ResKeeps.jump
    | with_reducible apply ResKeeps.stay
    | with_reducible apply res_ite
    | intro _)

theorem execLeAnd_keeps {fr : Nat} {r0 s : State} {w : LeWord} {ecc : Ecc}
    (h : Keeps fr r0 s) (hk : fr ||| 0x419804 = fr) :
    Answers fr r0 (execLeAnd w ecc s) := by
  unfold execLeAnd
  repeat' (first
    | with_reducible apply answers_next
    | with_reducible assumption
    | exact lor_sub hk rfl
    | with_reducible apply State.leIssue_keeps
    | with_reducible apply LeRes.reg_keeps
    | with_reducible apply ResKeeps.exc
    | with_reducible apply ResKeeps.ok
    | with_reducible apply ResKeeps.jump
    | with_reducible apply ResKeeps.stay
    | with_reducible apply res_ite
    | intro _)

theorem execLeOr_keeps {fr : Nat} {r0 s : State} {w : LeWord} {ecc : Ecc}
    (h : Keeps fr r0 s) (hk : fr ||| 0x419804 = fr) :
    Answers fr r0 (execLeOr w ecc s) := by
  unfold execLeOr
  repeat' (first
    | with_reducible apply answers_next
    | with_reducible assumption
    | exact lor_sub hk rfl
    | with_reducible apply State.leIssue_keeps
    | with_reducible apply LeRes.reg_keeps
    | with_reducible apply ResKeeps.exc
    | with_reducible apply ResKeeps.ok
    | with_reducible apply ResKeeps.jump
    | with_reducible apply ResKeeps.stay
    | with_reducible apply res_ite
    | intro _)

theorem execLeXor_keeps {fr : Nat} {r0 s : State} {w : LeWord} {ecc : Ecc}
    (h : Keeps fr r0 s) (hk : fr ||| 0x419804 = fr) :
    Answers fr r0 (execLeXor w ecc s) := by
  unfold execLeXor
  repeat' (first
    | with_reducible apply answers_next
    | with_reducible assumption
    | exact lor_sub hk rfl
    | with_reducible apply State.leIssue_keeps
    | with_reducible apply LeRes.reg_keeps
    | with_reducible apply ResKeeps.exc
    | with_reducible apply ResKeeps.ok
    | with_reducible apply ResKeeps.jump
    | with_reducible apply ResKeeps.stay
    | with_reducible apply res_ite
    | intro _)

theorem execLeNot_keeps {fr : Nat} {r0 s : State} {w : LeWord} {ecc : Ecc}
    (h : Keeps fr r0 s) (hk : fr ||| 0x419804 = fr) :
    Answers fr r0 (execLeNot w ecc s) := by
  unfold execLeNot
  repeat' (first
    | with_reducible apply answers_next
    | with_reducible assumption
    | exact lor_sub hk rfl
    | with_reducible apply State.leIssue_keeps
    | with_reducible apply LeRes.reg_keeps
    | with_reducible apply ResKeeps.exc
    | with_reducible apply ResKeeps.ok
    | with_reducible apply ResKeeps.jump
    | with_reducible apply ResKeeps.stay
    | with_reducible apply res_ite
    | intro _)

theorem execLeShl_keeps {fr : Nat} {r0 s : State} {w : LeWord} {ecc : Ecc}
    (h : Keeps fr r0 s) (hk : fr ||| 0x419804 = fr) :
    Answers fr r0 (execLeShl w ecc s) := by
  unfold execLeShl
  repeat' (first
    | with_reducible apply answers_next
    | with_reducible assumption
    | exact lor_sub hk rfl
    | with_reducible apply State.leIssue_keeps
    | with_reducible apply LeRes.reg_keeps
    | with_reducible apply ResKeeps.exc
    | with_reducible apply ResKeeps.ok
    | with_reducible apply ResKeeps.jump
    | with_reducible apply ResKeeps.stay
    | with_reducible apply res_ite
    | intro _)

theorem execLeShr_keeps {fr : Nat} {r0 s : State} {w : LeWord} {ecc : Ecc}
    (h : Keeps fr r0 s) (hk : fr ||| 0x419804 = fr) :
    Answers fr r0 (execLeShr w ecc s) := by
  unfold execLeShr
  repeat' (first
    | with_reducible apply answers_next
    | with_reducible assumption
    | exact lor_sub hk rfl
    | with_reducible apply State.leIssue_keeps
    | with_reducible apply LeRes.reg_keeps
    | with_reducible apply ResKeeps.exc
    | with_reducible apply ResKeeps.ok
    | with_reducible apply ResKeeps.jump
    | with_reducible apply ResKeeps.stay
    | with_reducible apply res_ite
    | intro _)

theorem execLeSra_keeps {fr : Nat} {r0 s : State} {w : LeWord} {ecc : Ecc}
    (h : Keeps fr r0 s) (hk : fr ||| 0x419804 = fr) :
    Answers fr r0 (execLeSra w ecc s) := by
  unfold execLeSra
  repeat' (first
    | with_reducible apply answers_next
    | with_reducible assumption
    | exact lor_sub hk rfl
    | with_reducible apply State.leIssue_keeps
    | with_reducible apply LeRes.reg_keeps
    | with_reducible apply ResKeeps.exc
    | with_reducible apply ResKeeps.ok
    | with_reducible apply ResKeeps.jump
    | with_reducible apply ResKeeps.stay
    | with_reducible apply res_ite
    | intro _)

theorem execLeMac_keeps {fr : Nat} {r0 s : State} {w : LeWord} {ecc : Ecc}
    (h : Keeps fr r0 s) (hk : fr ||| 0x419804 = fr) :
    Answers fr r0 (execLeMac w ecc s) := by
  unfold execLeMac
  repeat' (first
    | with_reducible apply answers_next
    | with_reducible assumption
    | exact lor_sub hk rfl
    | with_reducible apply State.leIssue_keeps
    | with_reducible apply LeRes.reg_keeps
    | with_reducible apply ResKeeps.exc
    | with_reducible apply ResKeeps.ok
    | with_reducible apply ResKeeps.jump
    | with_reducible apply ResKeeps.stay
    | with_reducible apply res_ite
    | intro _)

theorem execLeMsu_keeps {fr : Nat} {r0 s : State} {w : LeWord} {ecc : Ecc}
    (h : Keeps fr r0 s) (hk : fr ||| 0x419804 = fr) :
    Answers fr r0 (execLeMsu w ecc s) := by
  unfold execLeMsu
  repeat' (first
    | with_reducible apply answers_next
    | with_reducible assumption
    | exact lor_sub hk rfl
    | with_reducible apply State.leIssue_keeps
    | with_reducible apply LeRes.reg_keeps
    | with_reducible apply ResKeeps.exc
    | with_reducible apply ResKeeps.ok
    | with_reducible apply ResKeeps.jump
    | with_reducible apply ResKeeps.stay
    | with_reducible apply res_ite
    | intro _)

theorem execLeAccset_keeps {fr : Nat} {r0 s : State} {w : LeWord} {ecc : Ecc}
    (h : Keeps fr r0 s) (hk : fr ||| 0x419804 = fr) :
    Answers fr r0 (execLeAccset w ecc s) := by
  unfold execLeAccset
  repeat' (first
    | with_reducible apply answers_next
    | with_reducible assumption
    | exact lor_sub hk rfl
    | with_reducible apply State.leIssue_keeps
    | with_reducible apply LeRes.reg_keeps
    | with_reducible apply ResKeeps.exc
    | with_reducible apply ResKeeps.ok
    | with_reducible apply ResKeeps.jump
    | with_reducible apply ResKeeps.stay
    | with_reducible apply res_ite
    | intro _)

theorem execLeAccrd_keeps {fr : Nat} {r0 s : State} {w : LeWord} {ecc : Ecc}
    (h : Keeps fr r0 s) (hk : fr ||| 0x419804 = fr) :
    Answers fr r0 (execLeAccrd w ecc s) := by
  unfold execLeAccrd
  repeat' (first
    | with_reducible apply answers_next
    | with_reducible assumption
    | exact lor_sub hk rfl
    | with_reducible apply State.leIssue_keeps
    | with_reducible apply LeRes.reg_keeps
    | with_reducible apply ResKeeps.exc
    | with_reducible apply ResKeeps.ok
    | with_reducible apply ResKeeps.jump
    | with_reducible apply ResKeeps.stay
    | with_reducible apply res_ite
    | intro _)

theorem execLeCmpeq_keeps {fr : Nat} {r0 s : State} {w : LeWord} {ecc : Ecc}
    (h : Keeps fr r0 s) (hk : fr ||| 0x419804 = fr) :
    Answers fr r0 (execLeCmpeq w ecc s) := by
  unfold execLeCmpeq
  repeat' (first
    | with_reducible apply answers_next
    | with_reducible assumption
    | exact lor_sub hk rfl
    | with_reducible apply State.leIssue_keeps
    | with_reducible apply LeRes.reg_keeps
    | with_reducible apply ResKeeps.exc
    | with_reducible apply ResKeeps.ok
    | with_reducible apply ResKeeps.jump
    | with_reducible apply ResKeeps.stay
    | with_reducible apply res_ite
    | intro _)

theorem execLeCmplt_keeps {fr : Nat} {r0 s : State} {w : LeWord} {ecc : Ecc}
    (h : Keeps fr r0 s) (hk : fr ||| 0x419804 = fr) :
    Answers fr r0 (execLeCmplt w ecc s) := by
  unfold execLeCmplt
  repeat' (first
    | with_reducible apply answers_next
    | with_reducible assumption
    | exact lor_sub hk rfl
    | with_reducible apply State.leIssue_keeps
    | with_reducible apply LeRes.reg_keeps
    | with_reducible apply ResKeeps.exc
    | with_reducible apply ResKeeps.ok
    | with_reducible apply ResKeeps.jump
    | with_reducible apply ResKeeps.stay
    | with_reducible apply res_ite
    | intro _)

theorem execLeCmple_keeps {fr : Nat} {r0 s : State} {w : LeWord} {ecc : Ecc}
    (h : Keeps fr r0 s) (hk : fr ||| 0x419804 = fr) :
    Answers fr r0 (execLeCmple w ecc s) := by
  unfold execLeCmple
  repeat' (first
    | with_reducible apply answers_next
    | with_reducible assumption
    | exact lor_sub hk rfl
    | with_reducible apply State.leIssue_keeps
    | with_reducible apply LeRes.reg_keeps
    | with_reducible apply ResKeeps.exc
    | with_reducible apply ResKeeps.ok
    | with_reducible apply ResKeeps.jump
    | with_reducible apply ResKeeps.stay
    | with_reducible apply res_ite
    | intro _)

theorem execLeCmpltu_keeps {fr : Nat} {r0 s : State} {w : LeWord} {ecc : Ecc}
    (h : Keeps fr r0 s) (hk : fr ||| 0x419804 = fr) :
    Answers fr r0 (execLeCmpltu w ecc s) := by
  unfold execLeCmpltu
  repeat' (first
    | with_reducible apply answers_next
    | with_reducible assumption
    | exact lor_sub hk rfl
    | with_reducible apply State.leIssue_keeps
    | with_reducible apply LeRes.reg_keeps
    | with_reducible apply ResKeeps.exc
    | with_reducible apply ResKeeps.ok
    | with_reducible apply ResKeeps.jump
    | with_reducible apply ResKeeps.stay
    | with_reducible apply res_ite
    | intro _)

theorem execLeFcmpeq_keeps {fr : Nat} {r0 s : State} {w : LeWord} {ecc : Ecc}
    (h : Keeps fr r0 s) (hk : fr ||| 0x419804 = fr) :
    Answers fr r0 (execLeFcmpeq w ecc s) := by
  unfold execLeFcmpeq
  repeat' (first
    | with_reducible apply answers_next
    | with_reducible assumption
    | exact lor_sub hk rfl
    | with_reducible apply State.leIssue_keeps
    | with_reducible apply LeRes.reg_keeps
    | with_reducible apply ResKeeps.exc
    | with_reducible apply ResKeeps.ok
    | with_reducible apply ResKeeps.jump
    | with_reducible apply ResKeeps.stay
    | with_reducible apply res_ite
    | intro _)

theorem execLeFcmplt_keeps {fr : Nat} {r0 s : State} {w : LeWord} {ecc : Ecc}
    (h : Keeps fr r0 s) (hk : fr ||| 0x419804 = fr) :
    Answers fr r0 (execLeFcmplt w ecc s) := by
  unfold execLeFcmplt
  repeat' (first
    | with_reducible apply answers_next
    | with_reducible assumption
    | exact lor_sub hk rfl
    | with_reducible apply State.leIssue_keeps
    | with_reducible apply LeRes.reg_keeps
    | with_reducible apply ResKeeps.exc
    | with_reducible apply ResKeeps.ok
    | with_reducible apply ResKeeps.jump
    | with_reducible apply ResKeeps.stay
    | with_reducible apply res_ite
    | intro _)

theorem execLeFcmple_keeps {fr : Nat} {r0 s : State} {w : LeWord} {ecc : Ecc}
    (h : Keeps fr r0 s) (hk : fr ||| 0x419804 = fr) :
    Answers fr r0 (execLeFcmple w ecc s) := by
  unfold execLeFcmple
  repeat' (first
    | with_reducible apply answers_next
    | with_reducible assumption
    | exact lor_sub hk rfl
    | with_reducible apply State.leIssue_keeps
    | with_reducible apply LeRes.reg_keeps
    | with_reducible apply ResKeeps.exc
    | with_reducible apply ResKeeps.ok
    | with_reducible apply ResKeeps.jump
    | with_reducible apply ResKeeps.stay
    | with_reducible apply res_ite
    | intro _)

theorem execLePand_keeps {fr : Nat} {r0 s : State} {w : LeWord} {ecc : Ecc}
    (h : Keeps fr r0 s) (hk : fr ||| 0x419804 = fr) :
    Answers fr r0 (execLePand w ecc s) := by
  unfold execLePand
  repeat' (first
    | with_reducible apply answers_next
    | with_reducible assumption
    | exact lor_sub hk rfl
    | with_reducible apply State.leIssue_keeps
    | with_reducible apply LeRes.reg_keeps
    | with_reducible apply ResKeeps.exc
    | with_reducible apply ResKeeps.ok
    | with_reducible apply ResKeeps.jump
    | with_reducible apply ResKeeps.stay
    | with_reducible apply res_ite
    | intro _)

theorem execLePor_keeps {fr : Nat} {r0 s : State} {w : LeWord} {ecc : Ecc}
    (h : Keeps fr r0 s) (hk : fr ||| 0x419804 = fr) :
    Answers fr r0 (execLePor w ecc s) := by
  unfold execLePor
  repeat' (first
    | with_reducible apply answers_next
    | with_reducible assumption
    | exact lor_sub hk rfl
    | with_reducible apply State.leIssue_keeps
    | with_reducible apply LeRes.reg_keeps
    | with_reducible apply ResKeeps.exc
    | with_reducible apply ResKeeps.ok
    | with_reducible apply ResKeeps.jump
    | with_reducible apply ResKeeps.stay
    | with_reducible apply res_ite
    | intro _)

theorem execLePxor_keeps {fr : Nat} {r0 s : State} {w : LeWord} {ecc : Ecc}
    (h : Keeps fr r0 s) (hk : fr ||| 0x419804 = fr) :
    Answers fr r0 (execLePxor w ecc s) := by
  unfold execLePxor
  repeat' (first
    | with_reducible apply answers_next
    | with_reducible assumption
    | exact lor_sub hk rfl
    | with_reducible apply State.leIssue_keeps
    | with_reducible apply LeRes.reg_keeps
    | with_reducible apply ResKeeps.exc
    | with_reducible apply ResKeeps.ok
    | with_reducible apply ResKeeps.jump
    | with_reducible apply ResKeeps.stay
    | with_reducible apply res_ite
    | intro _)

theorem execLePnot_keeps {fr : Nat} {r0 s : State} {w : LeWord} {ecc : Ecc}
    (h : Keeps fr r0 s) (hk : fr ||| 0x419804 = fr) :
    Answers fr r0 (execLePnot w ecc s) := by
  unfold execLePnot
  repeat' (first
    | with_reducible apply answers_next
    | with_reducible assumption
    | exact lor_sub hk rfl
    | with_reducible apply State.leIssue_keeps
    | with_reducible apply LeRes.reg_keeps
    | with_reducible apply ResKeeps.exc
    | with_reducible apply ResKeeps.ok
    | with_reducible apply ResKeeps.jump
    | with_reducible apply ResKeeps.stay
    | with_reducible apply res_ite
    | intro _)

theorem execLePset_keeps {fr : Nat} {r0 s : State} {w : LeWord} {ecc : Ecc}
    (h : Keeps fr r0 s) (hk : fr ||| 0x419804 = fr) :
    Answers fr r0 (execLePset w ecc s) := by
  unfold execLePset
  repeat' (first
    | with_reducible apply answers_next
    | with_reducible assumption
    | exact lor_sub hk rfl
    | with_reducible apply State.leIssue_keeps
    | with_reducible apply LeRes.reg_keeps
    | with_reducible apply ResKeeps.exc
    | with_reducible apply ResKeeps.ok
    | with_reducible apply ResKeeps.jump
    | with_reducible apply ResKeeps.stay
    | with_reducible apply res_ite
    | intro _)

theorem execLePtos_keeps {fr : Nat} {r0 s : State} {w : LeWord} {ecc : Ecc}
    (h : Keeps fr r0 s) (hk : fr ||| 0x419804 = fr) :
    Answers fr r0 (execLePtos w ecc s) := by
  unfold execLePtos
  repeat' (first
    | with_reducible apply answers_next
    | with_reducible assumption
    | exact lor_sub hk rfl
    | with_reducible apply State.leIssue_keeps
    | with_reducible apply LeRes.reg_keeps
    | with_reducible apply ResKeeps.exc
    | with_reducible apply ResKeeps.ok
    | with_reducible apply ResKeeps.jump
    | with_reducible apply ResKeeps.stay
    | with_reducible apply res_ite
    | intro _)

theorem execLeStop_keeps {fr : Nat} {r0 s : State} {w : LeWord} {ecc : Ecc}
    (h : Keeps fr r0 s) (hk : fr ||| 0x419804 = fr) :
    Answers fr r0 (execLeStop w ecc s) := by
  unfold execLeStop
  repeat' (first
    | with_reducible apply answers_next
    | with_reducible assumption
    | exact lor_sub hk rfl
    | with_reducible apply State.leIssue_keeps
    | with_reducible apply LeRes.reg_keeps
    | with_reducible apply ResKeeps.exc
    | with_reducible apply ResKeeps.ok
    | with_reducible apply ResKeeps.jump
    | with_reducible apply ResKeeps.stay
    | with_reducible apply res_ite
    | intro _)

theorem execLeSel_keeps {fr : Nat} {r0 s : State} {w : LeWord} {ecc : Ecc}
    (h : Keeps fr r0 s) (hk : fr ||| 0x419804 = fr) :
    Answers fr r0 (execLeSel w ecc s) := by
  unfold execLeSel
  repeat' (first
    | with_reducible apply answers_next
    | with_reducible assumption
    | exact lor_sub hk rfl
    | with_reducible apply State.leIssue_keeps
    | with_reducible apply LeRes.reg_keeps
    | with_reducible apply ResKeeps.exc
    | with_reducible apply ResKeeps.ok
    | with_reducible apply ResKeeps.jump
    | with_reducible apply ResKeeps.stay
    | with_reducible apply res_ite
    | intro _)

theorem execLeFadd_keeps {fr : Nat} {r0 s : State} {w : LeWord} {ecc : Ecc}
    (h : Keeps fr r0 s) (hk : fr ||| 0x419804 = fr) :
    Answers fr r0 (execLeFadd w ecc s) := by
  unfold execLeFadd
  repeat' (first
    | with_reducible apply answers_next
    | with_reducible assumption
    | exact lor_sub hk rfl
    | with_reducible apply State.leIssue_keeps
    | with_reducible apply LeRes.reg_keeps
    | with_reducible apply ResKeeps.exc
    | with_reducible apply ResKeeps.ok
    | with_reducible apply ResKeeps.jump
    | with_reducible apply ResKeeps.stay
    | with_reducible apply res_ite
    | intro _)

theorem execLeFsub_keeps {fr : Nat} {r0 s : State} {w : LeWord} {ecc : Ecc}
    (h : Keeps fr r0 s) (hk : fr ||| 0x419804 = fr) :
    Answers fr r0 (execLeFsub w ecc s) := by
  unfold execLeFsub
  repeat' (first
    | with_reducible apply answers_next
    | with_reducible assumption
    | exact lor_sub hk rfl
    | with_reducible apply State.leIssue_keeps
    | with_reducible apply LeRes.reg_keeps
    | with_reducible apply ResKeeps.exc
    | with_reducible apply ResKeeps.ok
    | with_reducible apply ResKeeps.jump
    | with_reducible apply ResKeeps.stay
    | with_reducible apply res_ite
    | intro _)

theorem execLeFmul_keeps {fr : Nat} {r0 s : State} {w : LeWord} {ecc : Ecc}
    (h : Keeps fr r0 s) (hk : fr ||| 0x419804 = fr) :
    Answers fr r0 (execLeFmul w ecc s) := by
  unfold execLeFmul
  repeat' (first
    | with_reducible apply answers_next
    | with_reducible assumption
    | exact lor_sub hk rfl
    | with_reducible apply State.leIssue_keeps
    | with_reducible apply LeRes.reg_keeps
    | with_reducible apply ResKeeps.exc
    | with_reducible apply ResKeeps.ok
    | with_reducible apply ResKeeps.jump
    | with_reducible apply ResKeeps.stay
    | with_reducible apply res_ite
    | intro _)

theorem execLeFma_keeps {fr : Nat} {r0 s : State} {w : LeWord} {ecc : Ecc}
    (h : Keeps fr r0 s) (hk : fr ||| 0x419804 = fr) :
    Answers fr r0 (execLeFma w ecc s) := by
  unfold execLeFma
  repeat' (first
    | with_reducible apply answers_next
    | with_reducible assumption
    | exact lor_sub hk rfl
    | with_reducible apply State.leIssue_keeps
    | with_reducible apply LeRes.reg_keeps
    | with_reducible apply ResKeeps.exc
    | with_reducible apply ResKeeps.ok
    | with_reducible apply ResKeeps.jump
    | with_reducible apply ResKeeps.stay
    | with_reducible apply res_ite
    | intro _)

theorem execLeFmin_keeps {fr : Nat} {r0 s : State} {w : LeWord} {ecc : Ecc}
    (h : Keeps fr r0 s) (hk : fr ||| 0x419804 = fr) :
    Answers fr r0 (execLeFmin w ecc s) := by
  unfold execLeFmin
  repeat' (first
    | with_reducible apply answers_next
    | with_reducible assumption
    | exact lor_sub hk rfl
    | with_reducible apply State.leIssue_keeps
    | with_reducible apply LeRes.reg_keeps
    | with_reducible apply ResKeeps.exc
    | with_reducible apply ResKeeps.ok
    | with_reducible apply ResKeeps.jump
    | with_reducible apply ResKeeps.stay
    | with_reducible apply res_ite
    | intro _)

theorem execLeFmax_keeps {fr : Nat} {r0 s : State} {w : LeWord} {ecc : Ecc}
    (h : Keeps fr r0 s) (hk : fr ||| 0x419804 = fr) :
    Answers fr r0 (execLeFmax w ecc s) := by
  unfold execLeFmax
  repeat' (first
    | with_reducible apply answers_next
    | with_reducible assumption
    | exact lor_sub hk rfl
    | with_reducible apply State.leIssue_keeps
    | with_reducible apply LeRes.reg_keeps
    | with_reducible apply ResKeeps.exc
    | with_reducible apply ResKeeps.ok
    | with_reducible apply ResKeeps.jump
    | with_reducible apply ResKeeps.stay
    | with_reducible apply res_ite
    | intro _)

theorem execLeFabs_keeps {fr : Nat} {r0 s : State} {w : LeWord} {ecc : Ecc}
    (h : Keeps fr r0 s) (hk : fr ||| 0x419804 = fr) :
    Answers fr r0 (execLeFabs w ecc s) := by
  unfold execLeFabs
  repeat' (first
    | with_reducible apply answers_next
    | with_reducible assumption
    | exact lor_sub hk rfl
    | with_reducible apply State.leIssue_keeps
    | with_reducible apply LeRes.reg_keeps
    | with_reducible apply ResKeeps.exc
    | with_reducible apply ResKeeps.ok
    | with_reducible apply ResKeeps.jump
    | with_reducible apply ResKeeps.stay
    | with_reducible apply res_ite
    | intro _)

theorem execLeFneg_keeps {fr : Nat} {r0 s : State} {w : LeWord} {ecc : Ecc}
    (h : Keeps fr r0 s) (hk : fr ||| 0x419804 = fr) :
    Answers fr r0 (execLeFneg w ecc s) := by
  unfold execLeFneg
  repeat' (first
    | with_reducible apply answers_next
    | with_reducible assumption
    | exact lor_sub hk rfl
    | with_reducible apply State.leIssue_keeps
    | with_reducible apply LeRes.reg_keeps
    | with_reducible apply ResKeeps.exc
    | with_reducible apply ResKeeps.ok
    | with_reducible apply ResKeeps.jump
    | with_reducible apply ResKeeps.stay
    | with_reducible apply res_ite
    | intro _)

theorem execLeFcvtf_keeps {fr : Nat} {r0 s : State} {w : LeWord} {ecc : Ecc}
    (h : Keeps fr r0 s) (hk : fr ||| 0x419804 = fr) :
    Answers fr r0 (execLeFcvtf w ecc s) := by
  unfold execLeFcvtf
  repeat' (first
    | with_reducible apply answers_next
    | with_reducible assumption
    | exact lor_sub hk rfl
    | with_reducible apply State.leIssue_keeps
    | with_reducible apply LeRes.reg_keeps
    | with_reducible apply ResKeeps.exc
    | with_reducible apply ResKeeps.ok
    | with_reducible apply ResKeeps.jump
    | with_reducible apply ResKeeps.stay
    | with_reducible apply res_ite
    | intro _)

theorem execLeFcvtx_keeps {fr : Nat} {r0 s : State} {w : LeWord} {ecc : Ecc}
    (h : Keeps fr r0 s) (hk : fr ||| 0x419804 = fr) :
    Answers fr r0 (execLeFcvtx w ecc s) := by
  unfold execLeFcvtx
  repeat' (first
    | with_reducible apply answers_next
    | with_reducible assumption
    | exact lor_sub hk rfl
    | with_reducible apply State.leIssue_keeps
    | with_reducible apply LeRes.reg_keeps
    | with_reducible apply ResKeeps.exc
    | with_reducible apply ResKeeps.ok
    | with_reducible apply ResKeeps.jump
    | with_reducible apply ResKeeps.stay
    | with_reducible apply res_ite
    | intro _)

theorem execLeLd_keeps {fr : Nat} {r0 s : State} {w : LeWord} {ecc : Ecc}
    (h : Keeps fr r0 s) (hk : fr ||| 0x419804 = fr) :
    Answers fr r0 (execLeLd w ecc s) := by
  unfold execLeLd
  repeat' (first
    | with_reducible apply answers_next
    | with_reducible assumption
    | exact lor_sub hk rfl
    | with_reducible apply State.leIssue_keeps
    | with_reducible apply State.leLoad_keeps
    | with_reducible apply ResKeeps.exc
    | with_reducible apply ResKeeps.ok
    | with_reducible apply ResKeeps.jump
    | with_reducible apply ResKeeps.stay
    | with_reducible apply res_ite
    | intro _)

theorem execLeSt_keeps {fr : Nat} {r0 s : State} {w : LeWord} {ecc : Ecc}
    (h : Keeps fr r0 s) (hk : fr ||| 0x41980c = fr) :
    Answers fr r0 (execLeSt w ecc s) := by
  unfold execLeSt
  repeat' (first
    | with_reducible apply answers_next
    | with_reducible assumption
    | exact lor_sub hk rfl
    | with_reducible apply State.leIssue_keeps
    | with_reducible apply State.leStore_keeps
    | with_reducible apply ResKeeps.exc
    | with_reducible apply ResKeeps.ok
    | with_reducible apply ResKeeps.jump
    | with_reducible apply ResKeeps.stay
    | with_reducible apply res_ite
    | intro _)

theorem execLeLi_keeps {fr : Nat} {r0 s : State} {w : LeWord} {ecc : Ecc}
    (h : Keeps fr r0 s) (hk : fr ||| 0x419804 = fr) :
    Answers fr r0 (execLeLi w ecc s) := by
  unfold execLeLi
  repeat' (first
    | with_reducible apply answers_next
    | with_reducible assumption
    | exact lor_sub hk rfl
    | with_reducible apply State.leIssue_keeps
    | with_reducible apply LeRes.reg_keeps
    | with_reducible apply ResKeeps.exc
    | with_reducible apply ResKeeps.ok
    | with_reducible apply ResKeeps.jump
    | with_reducible apply ResKeeps.stay
    | with_reducible apply res_ite
    | intro _)

theorem execLeMov_keeps {fr : Nat} {r0 s : State} {w : LeWord} {ecc : Ecc}
    (h : Keeps fr r0 s) (hk : fr ||| 0x419804 = fr) :
    Answers fr r0 (execLeMov w ecc s) := by
  unfold execLeMov
  repeat' (first
    | with_reducible apply answers_next
    | with_reducible assumption
    | exact lor_sub hk rfl
    | with_reducible apply State.leIssue_keeps
    | with_reducible apply LeRes.reg_keeps
    | with_reducible apply ResKeeps.exc
    | with_reducible apply ResKeeps.ok
    | with_reducible apply ResKeeps.jump
    | with_reducible apply ResKeeps.stay
    | with_reducible apply res_ite
    | intro _)

theorem execLeVext_keeps {fr : Nat} {r0 s : State} {w : LeWord} {ecc : Ecc}
    (h : Keeps fr r0 s) (hk : fr ||| 0x419804 = fr) :
    Answers fr r0 (execLeVext w ecc s) := by
  unfold execLeVext
  repeat' (first
    | with_reducible apply answers_next
    | with_reducible assumption
    | exact lor_sub hk rfl
    | with_reducible apply State.leIssue_keeps
    | with_reducible apply LeRes.reg_keeps
    | with_reducible apply ResKeeps.exc
    | with_reducible apply ResKeeps.ok
    | with_reducible apply ResKeeps.jump
    | with_reducible apply ResKeeps.stay
    | with_reducible apply res_ite
    | intro _)

theorem execLeVins_keeps {fr : Nat} {r0 s : State} {w : LeWord} {ecc : Ecc}
    (h : Keeps fr r0 s) (hk : fr ||| 0x419804 = fr) :
    Answers fr r0 (execLeVins w ecc s) := by
  unfold execLeVins
  repeat' (first
    | with_reducible apply answers_next
    | with_reducible assumption
    | exact lor_sub hk rfl
    | with_reducible apply State.leIssue_keeps
    | with_reducible apply LeRes.reg_keeps
    | with_reducible apply ResKeeps.exc
    | with_reducible apply ResKeeps.ok
    | with_reducible apply ResKeeps.jump
    | with_reducible apply ResKeeps.stay
    | with_reducible apply res_ite
    | intro _)

theorem execLeRsum_keeps {fr : Nat} {r0 s : State} {w : LeWord} {ecc : Ecc}
    (h : Keeps fr r0 s) (hk : fr ||| 0x419804 = fr) :
    Answers fr r0 (execLeRsum w ecc s) := by
  unfold execLeRsum
  repeat' (first
    | with_reducible apply answers_next
    | with_reducible assumption
    | exact lor_sub hk rfl
    | with_reducible apply State.leIssue_keeps
    | with_reducible apply LeRes.reg_keeps
    | with_reducible apply ResKeeps.exc
    | with_reducible apply ResKeeps.ok
    | with_reducible apply ResKeeps.jump
    | with_reducible apply ResKeeps.stay
    | with_reducible apply res_ite
    | intro _)

theorem execLeVidx_keeps {fr : Nat} {r0 s : State} {w : LeWord} {ecc : Ecc}
    (h : Keeps fr r0 s) (hk : fr ||| 0x419804 = fr) :
    Answers fr r0 (execLeVidx w ecc s) := by
  unfold execLeVidx
  repeat' (first
    | with_reducible apply answers_next
    | with_reducible assumption
    | exact lor_sub hk rfl
    | with_reducible apply State.leIssue_keeps
    | with_reducible apply LeRes.reg_keeps
    | with_reducible apply ResKeeps.exc
    | with_reducible apply ResKeeps.ok
    | with_reducible apply ResKeeps.jump
    | with_reducible apply ResKeeps.stay
    | with_reducible apply res_ite
    | intro _)

theorem execLeGetf_keeps {fr : Nat} {r0 s : State} {w : LeWord} {ecc : Ecc}
    (h : Keeps fr r0 s) (hk : fr ||| 0x419804 = fr) :
    Answers fr r0 (execLeGetf w ecc s) := by
  unfold execLeGetf
  repeat' (first
    | with_reducible apply answers_next
    | with_reducible assumption
    | exact lor_sub hk rfl
    | with_reducible apply State.leIssue_keeps
    | with_reducible apply LeRes.reg_keeps
    | with_reducible apply ResKeeps.exc
    | with_reducible apply ResKeeps.ok
    | with_reducible apply ResKeeps.jump
    | with_reducible apply ResKeeps.stay
    | with_reducible apply res_ite
    | intro _)

theorem execLeClrf_keeps {fr : Nat} {r0 s : State} {w : LeWord} {ecc : Ecc}
    (h : Keeps fr r0 s) (hk : fr ||| 0x419804 = fr) :
    Answers fr r0 (execLeClrf w ecc s) := by
  unfold execLeClrf
  repeat' (first
    | with_reducible apply answers_next
    | with_reducible assumption
    | exact lor_sub hk rfl
    | with_reducible apply State.leIssue_keeps
    | with_reducible apply LeRes.reg_keeps
    | with_reducible apply ResKeeps.exc
    | with_reducible apply ResKeeps.ok
    | with_reducible apply ResKeeps.jump
    | with_reducible apply ResKeeps.stay
    | with_reducible apply res_ite
    | intro _)

theorem execLeClarke_keeps {fr : Nat} {r0 s : State} {w : LeWord} {ecc : Ecc}
    (h : Keeps fr r0 s) (hk : fr ||| 0x419804 = fr) :
    Answers fr r0 (execLeClarke w ecc s) := by
  unfold execLeClarke
  repeat' (first
    | with_reducible apply answers_next
    | with_reducible assumption
    | exact lor_sub hk rfl
    | with_reducible apply State.leIssue_keeps
    | with_reducible apply LeRes.reg_keeps
    | with_reducible apply ResKeeps.exc
    | with_reducible apply ResKeeps.ok
    | with_reducible apply ResKeeps.jump
    | with_reducible apply ResKeeps.stay
    | with_reducible apply res_ite
    | intro _)

theorem execLeSincos_keeps {fr : Nat} {r0 s : State} {w : LeWord} {ecc : Ecc}
    (h : Keeps fr r0 s) (hk : fr ||| 0x419804 = fr) :
    Answers fr r0 (execLeSincos w ecc s) := by
  unfold execLeSincos
  repeat' (first
    | with_reducible apply answers_next
    | with_reducible assumption
    | exact lor_sub hk rfl
    | with_reducible apply State.leIssue_keeps
    | with_reducible apply LeRes.reg_keeps
    | with_reducible apply ResKeeps.exc
    | with_reducible apply ResKeeps.ok
    | with_reducible apply ResKeeps.jump
    | with_reducible apply ResKeeps.stay
    | with_reducible apply res_ite
    | intro _)

theorem execLePark_keeps {fr : Nat} {r0 s : State} {w : LeWord} {ecc : Ecc}
    (h : Keeps fr r0 s) (hk : fr ||| 0x419804 = fr) :
    Answers fr r0 (execLePark w ecc s) := by
  unfold execLePark
  repeat' (first
    | with_reducible apply answers_next
    | with_reducible assumption
    | exact lor_sub hk rfl
    | with_reducible apply State.leIssue_keeps
    | with_reducible apply LeRes.reg_keeps
    | with_reducible apply ResKeeps.exc
    | with_reducible apply ResKeeps.ok
    | with_reducible apply ResKeeps.jump
    | with_reducible apply ResKeeps.stay
    | with_reducible apply res_ite
    | intro _)

theorem execLeIpark_keeps {fr : Nat} {r0 s : State} {w : LeWord} {ecc : Ecc}
    (h : Keeps fr r0 s) (hk : fr ||| 0x419804 = fr) :
    Answers fr r0 (execLeIpark w ecc s) := by
  unfold execLeIpark
  repeat' (first
    | with_reducible apply answers_next
    | with_reducible assumption
    | exact lor_sub hk rfl
    | with_reducible apply State.leIssue_keeps
    | with_reducible apply LeRes.reg_keeps
    | with_reducible apply ResKeeps.exc
    | with_reducible apply ResKeeps.ok
    | with_reducible apply ResKeeps.jump
    | with_reducible apply ResKeeps.stay
    | with_reducible apply res_ite
    | intro _)

theorem execLeAtan2_keeps {fr : Nat} {r0 s : State} {w : LeWord} {ecc : Ecc}
    (h : Keeps fr r0 s) (hk : fr ||| 0x419804 = fr) :
    Answers fr r0 (execLeAtan2 w ecc s) := by
  unfold execLeAtan2
  repeat' (first
    | with_reducible apply answers_next
    | with_reducible assumption
    | exact lor_sub hk rfl
    | with_reducible apply State.leIssue_keeps
    | with_reducible apply LeRes.reg_keeps
    | with_reducible apply ResKeeps.exc
    | with_reducible apply ResKeeps.ok
    | with_reducible apply ResKeeps.jump
    | with_reducible apply ResKeeps.stay
    | with_reducible apply res_ite
    | intro _)

theorem execLeSqrt_keeps {fr : Nat} {r0 s : State} {w : LeWord} {ecc : Ecc}
    (h : Keeps fr r0 s) (hk : fr ||| 0x419804 = fr) :
    Answers fr r0 (execLeSqrt w ecc s) := by
  unfold execLeSqrt
  repeat' (first
    | with_reducible apply answers_next
    | with_reducible assumption
    | exact lor_sub hk rfl
    | with_reducible apply State.leIssue_keeps
    | with_reducible apply LeRes.reg_keeps
    | with_reducible apply ResKeeps.exc
    | with_reducible apply ResKeeps.ok
    | with_reducible apply ResKeeps.jump
    | with_reducible apply ResKeeps.stay
    | with_reducible apply res_ite
    | intro _)

theorem execLeRecip_keeps {fr : Nat} {r0 s : State} {w : LeWord} {ecc : Ecc}
    (h : Keeps fr r0 s) (hk : fr ||| 0x419804 = fr) :
    Answers fr r0 (execLeRecip w ecc s) := by
  unfold execLeRecip
  repeat' (first
    | with_reducible apply answers_next
    | with_reducible assumption
    | exact lor_sub hk rfl
    | with_reducible apply State.leIssue_keeps
    | with_reducible apply LeRes.reg_keeps
    | with_reducible apply ResKeeps.exc
    | with_reducible apply ResKeeps.ok
    | with_reducible apply ResKeeps.jump
    | with_reducible apply ResKeeps.stay
    | with_reducible apply res_ite
    | intro _)

theorem execLePistep_keeps {fr : Nat} {r0 s : State} {w : LeWord} {ecc : Ecc}
    (h : Keeps fr r0 s) (hk : fr ||| 0x419804 = fr) :
    Answers fr r0 (execLePistep w ecc s) := by
  unfold execLePistep
  repeat' (first
    | with_reducible apply answers_next
    | with_reducible assumption
    | exact lor_sub hk rfl
    | with_reducible apply State.leIssue_keeps
    | with_reducible apply State.lePi_keeps
    | with_reducible apply ResKeeps.exc
    | with_reducible apply ResKeeps.ok
    | with_reducible apply ResKeeps.jump
    | with_reducible apply ResKeeps.stay
    | with_reducible apply res_ite
    | intro _)

theorem execLePibump_keeps {fr : Nat} {r0 s : State} {w : LeWord} {ecc : Ecc}
    (h : Keeps fr r0 s) (hk : fr ||| 0x419804 = fr) :
    Answers fr r0 (execLePibump w ecc s) := by
  unfold execLePibump
  repeat' (first
    | with_reducible apply answers_next
    | with_reducible assumption
    | exact lor_sub hk rfl
    | with_reducible apply State.leIssue_keeps
    | with_reducible apply State.leBump_keeps
    | with_reducible apply ResKeeps.exc
    | with_reducible apply ResKeeps.ok
    | with_reducible apply ResKeeps.jump
    | with_reducible apply ResKeeps.stay
    | with_reducible apply res_ite
    | intro _)

theorem execLeBqstep_keeps {fr : Nat} {r0 s : State} {w : LeWord} {ecc : Ecc}
    (h : Keeps fr r0 s) (hk : fr ||| 0x419804 = fr) :
    Answers fr r0 (execLeBqstep w ecc s) := by
  unfold execLeBqstep
  repeat' (first
    | with_reducible apply answers_next
    | with_reducible assumption
    | exact lor_sub hk rfl
    | with_reducible apply State.leIssue_keeps
    | with_reducible apply State.leBiquad_keeps
    | with_reducible apply ResKeeps.exc
    | with_reducible apply ResKeeps.ok
    | with_reducible apply ResKeeps.jump
    | with_reducible apply ResKeeps.stay
    | with_reducible apply res_ite
    | intro _)

theorem execLeRdres_keeps {fr : Nat} {r0 s : State} {w : LeWord} {ecc : Ecc} {remaining : Nat}
    (h : Keeps fr r0 s) (hk : fr ||| 0x419804 = fr) :
    Answers fr r0 (execLeRdres w ecc remaining s) := by
  unfold execLeRdres
  repeat' (first
    | with_reducible apply answers_next
    | with_reducible assumption
    | exact lor_sub hk rfl
    | with_reducible apply State.leIssue_keeps
    | with_reducible apply State.leRdres_keeps
    | with_reducible apply ResKeeps.exc
    | with_reducible apply ResKeeps.ok
    | with_reducible apply ResKeeps.jump
    | with_reducible apply ResKeeps.stay
    | with_reducible apply res_ite
    | intro _)

theorem execLeStage_keeps {fr : Nat} {r0 s : State} {w : LeWord} {ecc : Ecc}
    (h : Keeps fr r0 s) (hk : fr ||| 0x419804 = fr) :
    Answers fr r0 (execLeStage w ecc s) := by
  unfold execLeStage
  repeat' (first
    | with_reducible apply answers_next
    | with_reducible assumption
    | exact lor_sub hk rfl
    | with_reducible apply State.leIssue_keeps
    | with_reducible apply State.leWrite_keeps
    | with_reducible apply State.ioStage_keeps
    | with_reducible apply ResKeeps.exc
    | with_reducible apply ResKeeps.ok
    | with_reducible apply ResKeeps.jump
    | with_reducible apply ResKeeps.stay
    | with_reducible apply res_ite
    | intro _)

theorem execLeIost_keeps {fr : Nat} {r0 s : State} {w : LeWord} {ecc : Ecc}
    (h : Keeps fr r0 s) (hk : fr ||| 0x3e19804 = fr) :
    Answers fr r0 (execLeIost w ecc s) := by
  unfold execLeIost
  repeat' (first
    | with_reducible apply answers_next
    | with_reducible assumption
    | exact lor_sub hk rfl
    | with_reducible apply State.leIssue_keeps
    | with_reducible apply State.leWrite_keeps
    | with_reducible apply State.ioWrite_keeps
    | with_reducible apply ResKeeps.exc
    | with_reducible apply ResKeeps.ok
    | with_reducible apply ResKeeps.jump
    | with_reducible apply ResKeeps.stay
    | with_reducible apply res_ite
    | intro _)

theorem execLeCommit_keeps {fr : Nat} {r0 s : State} {w : LeWord} {ecc : Ecc}
    (h : Keeps fr r0 s) (hk : fr ||| 0x419804 = fr) :
    Answers fr r0 (execLeCommit w ecc s) := by
  unfold execLeCommit
  repeat' (first
    | with_reducible apply answers_next
    | with_reducible assumption
    | exact lor_sub hk rfl
    | with_reducible apply State.leIssue_keeps
    | with_reducible apply State.leCommitMask_keeps
    | with_reducible apply ResKeeps.exc
    | with_reducible apply ResKeeps.ok
    | with_reducible apply ResKeeps.jump
    | with_reducible apply ResKeeps.stay
    | with_reducible apply res_ite
    | intro _)

theorem execLeTrc_keeps {fr : Nat} {r0 s : State} {w : LeWord} {ecc : Ecc}
    (h : Keeps fr r0 s) (hk : fr ||| 0x419804 = fr) :
    Answers fr r0 (execLeTrc w ecc s) := by
  unfold execLeTrc
  repeat' (first
    | with_reducible apply answers_next
    | with_reducible assumption
    | exact lor_sub hk rfl
    | with_reducible apply State.leIssue_keeps
    | with_reducible apply State.trace_keeps
    | with_reducible apply ResKeeps.exc
    | with_reducible apply ResKeeps.ok
    | with_reducible apply ResKeeps.jump
    | with_reducible apply ResKeeps.stay
    | with_reducible apply res_ite
    | intro _)

theorem execLeSig_keeps {fr : Nat} {r0 s : State} {w : LeWord} {ecc : Ecc}
    (h : Keeps fr r0 s) (hk : fr ||| 0x419804 = fr) :
    Answers fr r0 (execLeSig w ecc s) := by
  unfold execLeSig
  repeat' (first
    | with_reducible apply answers_next
    | with_reducible assumption
    | exact lor_sub hk rfl
    | with_reducible apply State.leIssue_keeps
    | with_reducible apply State.leSignal_keeps
    | with_reducible apply ResKeeps.exc
    | with_reducible apply ResKeeps.ok
    | with_reducible apply ResKeeps.jump
    | with_reducible apply ResKeeps.stay
    | with_reducible apply res_ite
    | intro _)

theorem execLeCandset_keeps {fr : Nat} {r0 s : State} {w : LeWord} {ecc : Ecc}
    (h : Keeps fr r0 s) (hk : fr ||| 0x419804 = fr) :
    Answers fr r0 (execLeCandset w ecc s) := by
  unfold execLeCandset
  repeat' (first
    | with_reducible apply answers_next
    | with_reducible assumption
    | exact lor_sub hk rfl
    | with_reducible apply State.leIssue_keeps
    | with_reducible apply State.leCandset_keeps
    | with_reducible apply ResKeeps.exc
    | with_reducible apply ResKeeps.ok
    | with_reducible apply ResKeeps.jump
    | with_reducible apply ResKeeps.stay
    | with_reducible apply res_ite
    | intro _)

theorem execLeCandeval_keeps {fr : Nat} {r0 s : State} {w : LeWord} {ecc : Ecc} {remaining : Nat}
    (h : Keeps fr r0 s) (hk : fr ||| 0x419804 = fr) :
    Answers fr r0 (execLeCandeval w ecc remaining s) := by
  unfold execLeCandeval
  repeat' (first
    | with_reducible apply answers_next
    | with_reducible assumption
    | exact lor_sub hk rfl
    | with_reducible apply State.leIssue_keeps
    | with_reducible apply State.leCandeval_keeps
    | with_reducible apply ResKeeps.exc
    | with_reducible apply ResKeeps.ok
    | with_reducible apply ResKeeps.jump
    | with_reducible apply ResKeeps.stay
    | with_reducible apply res_ite
    | intro _)

theorem execLeCandsel_keeps {fr : Nat} {r0 s : State} {w : LeWord} {ecc : Ecc} {remaining : Nat}
    (h : Keeps fr r0 s) (hk : fr ||| 0x419804 = fr) :
    Answers fr r0 (execLeCandsel w ecc remaining s) := by
  unfold execLeCandsel
  repeat' (first
    | with_reducible apply answers_next
    | with_reducible assumption
    | exact lor_sub hk rfl
    | with_reducible apply State.leIssue_keeps
    | with_reducible apply State.leCandsel_keeps
    | with_reducible apply ResKeeps.exc
    | with_reducible apply ResKeeps.ok
    | with_reducible apply ResKeeps.jump
    | with_reducible apply ResKeeps.stay
    | with_reducible apply res_ite
    | intro _)

theorem execReservedOpcode_keeps {fr : Nat} {r0 s : State} {w : LeWord} {ecc : Ecc}
    (h : Keeps fr r0 s) (hk : fr ||| 0x419804 = fr) :
    Answers fr r0 (execReservedOpcode w ecc s) := by
  unfold execReservedOpcode
  repeat' (first
    | with_reducible apply answers_next
    | with_reducible assumption
    | exact lor_sub hk rfl
    | with_reducible apply State.leIssue_keeps
    | with_reducible apply LeRes.reg_keeps
    | with_reducible apply ResKeeps.exc
    | with_reducible apply ResKeeps.ok
    | with_reducible apply ResKeeps.jump
    | with_reducible apply ResKeeps.stay
    | with_reducible apply res_ite
    | intro _)

end Sys2Proof.Machine
end

