-- ==== Sys2Proof/Laws/KeepsReload.lean ====
section
/-!
SUPPORT. What each operation of Machine/Reload.lean keeps.
-/

namespace Sys2Proof.Machine

theorem State.sendMark_keeps {fr : Nat} {r0 s : State} {g : Nat}
    (h : Keeps fr r0 s) (hk : fr ||| 0x40000000 = fr) :
    Keeps fr r0 (State.sendMark s g) := by
  unfold State.sendMark
  repeat' (first
    | with_reducible assumption
    | exact lor_sub hk rfl
    | with_reducible apply State.trsSend_keeps
    | with_reducible apply keeps_ite
    | intro _)

theorem State.reloadHooks_keeps {fr : Nat} {r0 s : State} {g : Nat}
    (h : Keeps fr r0 s) (hk : fr ||| 0xd0000000 = fr) :
    Keeps fr r0 (State.reloadHooks s g) := by
  unfold State.reloadHooks
  repeat' (first
    | with_reducible assumption
    | exact lor_sub hk rfl
    | with_reducible apply State.pairReload_keeps
    | with_reducible apply State.recClock_keeps
    | with_reducible apply State.sendMark_keeps)

theorem execReload_keeps {fr : Nat} {r0 s : State} {g : Nat}
    (h : Keeps fr r0 s) (hk : fr ||| 0xcd8468806 = fr) :
    Answers fr r0 (execReload g s) := by
  unfold execReload
  repeat' (first
    | with_reducible assumption
    | exact lor_sub hk rfl
    | with_reducible apply answers_next
    | extract_lets
    | with_reducible apply State.each_keeps
    | with_reducible apply State.flushLeg_keeps
    | with_reducible apply State.setGrp_keeps
    | with_reducible apply State.evtReload_keeps
    | with_reducible apply State.beginPeriod_keeps
    | with_reducible apply State.reloadHooks_keeps
    | with_reducible apply keeps_ite
    | with_reducible apply answers_ite
    | with_reducible apply keeps_snd_ite
    | intro _
    | split
    | dsimp +zetaDelta only)

theorem execGroupStartPoint_keeps {fr : Nat} {r0 s : State} {g : Nat}
    (h : Keeps fr r0 s) (hk : fr ||| 0xcd8468806 = fr) :
    Answers fr r0 (execGroupStartPoint g s) := by
  unfold execGroupStartPoint
  repeat' (first
    | with_reducible assumption
    | exact lor_sub hk rfl
    | with_reducible apply answers_next
    | extract_lets
    | with_reducible apply State.setGrp_keeps
    | with_reducible apply State.each_keeps
    | with_reducible apply State.setDrive_keeps
    | with_reducible apply State.quietLeg_keeps
    | with_reducible apply State.carrierStarted_keeps
    | with_reducible apply State.evtReload_keeps
    | with_reducible apply State.beginPeriod_keeps
    | with_reducible apply State.reloadHooks_keeps
    | with_reducible apply keeps_ite
    | with_reducible apply answers_ite
    | with_reducible apply keeps_snd_ite
    | intro _
    | split
    | dsimp +zetaDelta only)

theorem execLeEnd_keeps {fr : Nat} {r0 s : State} {w : LeWord} {ecc : Ecc}
    (h : Keeps fr r0 s) (hk : fr ||| 0xc0419804 = fr) :
    Answers fr r0 (execLeEnd w ecc s) := by
  unfold execLeEnd
  repeat' (first
    | with_reducible apply answers_next
    | with_reducible assumption
    | exact lor_sub hk rfl
    | with_reducible apply State.mirReady_keeps
    | with_reducible apply State.leIssue_keeps
    | with_reducible apply State.endRun_keeps
    | with_reducible apply ResKeeps.exc
    | with_reducible apply ResKeeps.ok
    | with_reducible apply ResKeeps.jump
    | with_reducible apply ResKeeps.stay
    | with_reducible apply res_ite
    | intro _)

end Sys2Proof.Machine
end

