-- ==== Sys2Proof/Laws/KeepsSpt.lean ====
section
/-!
SUPPORT. What each operation of Machine/Spt.lean keeps.
-/

namespace Sys2Proof.Machine

theorem State.setSpt_keeps {fr : Nat} {r0 s : State} {i : Nat} {c : SptCh}
    (h : Keeps fr r0 s) (hk : fr ||| 0x4000 = fr) :
    Keeps fr r0 (State.setSpt s i c) := by
  unfold State.setSpt
  repeat' (first
    | with_reducible assumption
    | exact lor_sub hk rfl
    | (fail_if_success (with_reducible apply keeps_pending)); with_reducible apply keeps_spt)

theorem State.sptUpdate_keeps {fr : Nat} {r0 s : State} {ch : Nat} {raw : Word}
    (h : Keeps fr r0 s) (hk : fr ||| 0x4000 = fr) :
    Keeps fr r0 (State.sptUpdate s ch raw) := by
  unfold State.sptUpdate
  repeat' (first
    | with_reducible assumption
    | exact lor_sub hk rfl
    | extract_lets
    | with_reducible apply State.setSpt_keeps
    | with_reducible apply keeps_ite
    | intro _)

theorem execSetpointUpdate_keeps {fr : Nat} {r0 s : State} {code : BitVec 12}
    (h : Keeps fr r0 s) (hk : fr ||| 0x4000 = fr) :
    Answers fr r0 (execSetpointUpdate code s) := by
  unfold execSetpointUpdate
  repeat' (first
    | with_reducible assumption
    | exact lor_sub hk rfl
    | with_reducible apply answers_next
    | extract_lets
    | with_reducible apply State.sptUpdate_keeps
    | with_reducible apply keeps_ite
    | with_reducible apply answers_ite
    | with_reducible apply keeps_snd_ite
    | (fail_if_success (with_reducible apply keeps_pending)); with_reducible apply keeps_spt
    | intro _
    | split
    | dsimp +zetaDelta only)

theorem execSetpPEdge_keeps {fr : Nat} {r0 s : State} {rising : Bool} {since : Nat}
    (h : Keeps fr r0 s) (hk : fr ||| 0x4000 = fr) :
    Answers fr r0 (execSetpPEdge rising since s) := by
  unfold execSetpPEdge
  repeat' (first
    | with_reducible apply answers_next
    | with_reducible assumption
    | exact lor_sub hk rfl
    | extract_lets
    | with_reducible apply keeps_ite
    | (fail_if_success (with_reducible apply keeps_pending)); with_reducible apply keeps_spt
    | intro _)

theorem execSetpointLos_keeps {fr : Nat} {r0 s : State} {pulse : Bool}
    (h : Keeps fr r0 s) (hk : fr ||| 0x4004 = fr) :
    Answers fr r0 (execSetpointLos pulse s) := by
  unfold execSetpointLos
  repeat' (first
    | with_reducible apply answers_next
    | with_reducible assumption
    | exact lor_sub hk rfl
    | extract_lets
    | with_reducible apply State.inc_keeps
    | with_reducible apply State.setBit_keeps
    | with_reducible apply State.setSpt_keeps
    | with_reducible apply keeps_ite
    | intro _)

theorem execSetpointRecover_keeps {fr : Nat} {r0 s : State} {pulse : Bool}
    (h : Keeps fr r0 s) (hk : fr ||| 0x4000 = fr) :
    Answers fr r0 (execSetpointRecover pulse s) := by
  unfold execSetpointRecover
  repeat' (first
    | with_reducible apply answers_next
    | with_reducible assumption
    | exact lor_sub hk rfl
    | extract_lets
    | with_reducible apply State.setSpt_keeps
    | with_reducible apply keeps_ite
    | intro _)

end Sys2Proof.Machine
end

