-- ==== Sys2Proof/Laws/KeepsStep.lean ====
section
/-!
SUPPORT. What each operation of Machine/Step.lean keeps.
-/

namespace Sys2Proof.Machine

theorem State.withPending_keeps {fr : Nat} {r0 s : State} {q : List Instr}
    (h : Keeps fr r0 s) (hk : fr ||| 0x1 = fr) :
    Keeps fr r0 (State.withPending s q) := by
  unfold State.withPending
  repeat' (first
    | with_reducible assumption
    | exact lor_sub hk rfl
    | (fail_if_success (with_reducible apply keeps_free)); with_reducible apply keeps_pending)

theorem State.withFetchWord_keeps {fr : Nat} {r0 s : State} {nbits : Nat} {w : Nat}
    (h : Keeps fr r0 s) (hk : fr ||| 0x1 = fr) :
    Keeps fr r0 (State.withFetchWord s nbits w) := by
  unfold State.withFetchWord
  repeat' (first
    | with_reducible assumption
    | exact lor_sub hk rfl
    | with_reducible apply State.withPending_keeps
    | split)

end Sys2Proof.Machine
end

