-- ==== Sys2Proof/Laws/KeepsTime.lean ====
section
/-!
SUPPORT. What each operation of Machine/Time.lean keeps.
-/

namespace Sys2Proof.Machine

theorem State.carrierRun_keeps {fr : Nat} {r0 s : State} {units : Nat} {g : Nat}
    (h : Keeps fr r0 s) (hk : fr ||| 0x8000 = fr) :
    Keeps fr r0 (State.carrierRun s units g) := by
  unfold State.carrierRun
  repeat' (first
    | with_reducible assumption
    | exact lor_sub hk rfl
    | extract_lets
    | with_reducible apply State.setGrp_keeps
    | with_reducible apply keeps_ite
    | intro _)

theorem State.carriersRun_keeps {fr : Nat} {r0 s : State} {units : Nat}
    (h : Keeps fr r0 s) (hk : fr ||| 0x8000 = fr) :
    Keeps fr r0 (State.carriersRun s units) := by
  unfold State.carriersRun
  repeat' (first
    | with_reducible assumption
    | exact lor_sub hk rfl
    | with_reducible apply State.each_keeps
    | with_reducible apply State.carrierRun_keeps
    | with_reducible apply keeps_ite
    | intro _)

theorem State.countEdge_keeps {fr : Nat} {r0 s : State}
    (h : Keeps fr r0 s) (hk : fr ||| 0xc00 = fr) :
    Keeps fr r0 (State.countEdge s) := by
  unfold State.countEdge
  repeat' (first
    | with_reducible assumption
    | exact lor_sub hk rfl
    | extract_lets
    | (fail_if_success (with_reducible apply keeps_pending)); with_reducible apply keeps_clk_le)

theorem State.recTick_keeps {fr : Nat} {r0 s : State}
    (h : Keeps fr r0 s) (hk : fr ||| 0x10000000 = fr) :
    Keeps fr r0 (State.recTick s) := by
  unfold State.recTick
  repeat' (first
    | with_reducible assumption
    | exact lor_sub hk rfl
    | with_reducible apply State.recClock_keeps
    | with_reducible apply keeps_ite
    | intro _)

theorem State.edge_keeps {fr : Nat} {r0 s : State}
    (h : Keeps fr r0 s) (hk : fr ||| 0x2d8208c0e = fr) :
    Keeps fr r0 (State.edge s) := by
  unfold State.edge
  repeat' (first
    | with_reducible assumption
    | exact lor_sub hk rfl
    | extract_lets
    | with_reducible apply State.angEdge_keeps
    | with_reducible apply State.angJump_keeps
    | with_reducible apply State.countEdge_keeps
    | with_reducible apply State.carriersRun_keeps
    | with_reducible apply State.timTicks_keeps
    | with_reducible apply State.pmuTick_keeps
    | with_reducible apply State.recTick_keeps
    | with_reducible apply State.recEdge_keeps
    | with_reducible apply State.traceDrains_keeps
    | with_reducible apply State.mirReady_keeps
    | with_reducible apply keeps_ite
    | with_reducible apply keeps_snd_ite
    | intro _
    | split
    | dsimp +zetaDelta only)

theorem State.edges_keeps {fr : Nat} {r0 a1 : State} {a0 : Nat}
    (h : Keeps fr r0 a1) (hk : fr ||| 0x2d8208c0e = fr) :
    Keeps fr r0 (State.edges a0 a1) := by
  induction a0 generalizing a1 with
  | zero =>
    unfold State.edges
    repeat' (first
      | with_reducible assumption
      | exact lor_sub hk rfl
      | with_reducible apply State.edge_keeps
      | split)
  | succ n ih =>
    unfold State.edges
    repeat' (first
      | with_reducible assumption
      | exact lor_sub hk rfl
      | with_reducible apply ih
      | with_reducible apply State.edge_keeps
      | split)

theorem execAngUpdate_keeps {fr : Nat} {r0 s : State}
    (h : Keeps fr r0 s) (hk : fr ||| 0x2d9a08c0e = fr) :
    Answers fr r0 (execAngUpdate s) := by
  unfold execAngUpdate
  repeat' (first
    | with_reducible assumption
    | exact lor_sub hk rfl
    | with_reducible apply answers_next
    | extract_lets
    | with_reducible apply State.edges_keeps
    | with_reducible apply State.angUpdate_keeps
    | with_reducible apply State.grdAngUpdate_keeps
    | with_reducible apply keeps_ite
    | with_reducible apply answers_ite
    | with_reducible apply keeps_snd_ite
    | (fail_if_success (with_reducible apply keeps_pending)); with_reducible apply keeps_ang
    | intro _
    | split
    | dsimp +zetaDelta only)

end Sys2Proof.Machine
end

