-- ==== Sys2Proof/Laws/Lanes.lean ====
section
/-!
SUPPORT. The laws of the Loop Engine's registers and of the lanes: a read after a write, and what an instruction over
the lanes that take part leaves.
-/

namespace Sys2Proof.Machine

@[simp] theorem Ctx.sReg_setS (c : Ctx) (n k : Nat) (x : Word) :
    (c.setS n x).sReg k = if k = n then x else c.sReg k := SMap.get_set _ _ _ _ _
@[simp] theorem Ctx.vReg_setV (c : Ctx) (n i r j : Nat) (x : Word) (hi : i < 16) (hj : j < 16) :
    (c.setV n i x).vReg r j = if r = n ∧ j = i then x else c.vReg r j := by
  unfold Ctx.vReg Ctx.setV
  rw [SMap.get_set]
  have : (16 * r + j = 16 * n + i) ↔ (r = n ∧ j = i) := by omega
  simp only [this]
@[simp] theorem Ctx.pReg_setP (c : Ctx) (n k : Nat) (x : BitVec 16) :
    (c.setP n x).pReg k = if k = n then x else c.pReg k := SMap.get_set _ _ _ _ _

/-- Every lane of a form is below 16. -/
theorem leLanes_lt (w : LeWord) (i : Nat) (h : i ∈ leLanes w) : i < 16 := by
  unfold leLanes at h
  split at h <;> simp at h <;> omega

/-- A data register after a write of one lane. -/
theorem Ctx.data_setDst (c : Ctx) (w : LeWord) (n i r j : Nat) (x : Word) (hi : i ∈ leLanes w) (hj : j ∈ leLanes w) :
    (c.setDst w n i x).data w r j = if r = n ∧ j = i then x else c.data w r j := by
  have h1 := leLanes_lt w i hi
  have h2 := leLanes_lt w j hj
  unfold Ctx.setDst Ctx.data
  by_cases hv : w.v = true
  · simp [hv, h1, h2]
  · simp only [leLanes, hv, Bool.false_eq_true, if_false, List.mem_singleton] at hi hj ⊢
    subst hi hj
    simp

@[simp] theorem Ctx.data_addFlags (c : Ctx) (w : LeWord) (r i : Nat) (f : Word) :
    (c.addFlags f).data w r i = c.data w r i := rfl

/-- The writes of one lane, in their order, and its flags. -/
def Ctx.laneWrites (w : LeWord) (l : List (Nat × Word)) (i : Nat) (c : Ctx) : Ctx :=
  l.foldl (fun c p => c.setDst w p.1 i p.2) c

/-- The word that the last write of a register in a list gives. -/
def lastWrite (r : Nat) : List (Nat × Word) → Option Word
  | [] => none
  | p :: l => match lastWrite r l with
    | some x => some x
    | none => if r = p.1 then some p.2 else none

theorem Ctx.data_laneWrites (w : LeWord) (l : List (Nat × Word)) (i r j : Nat) (c : Ctx)
    (hi : i ∈ leLanes w) (hj : j ∈ leLanes w) :
    (c.laneWrites w l i).data w r j = if j = i then (lastWrite r l).getD (c.data w r j) else c.data w r j := by
  unfold Ctx.laneWrites
  induction l generalizing c with
  | nil => simp [lastWrite]
  | cons p l ih =>
    rw [List.foldl_cons, ih, c.data_setDst w p.1 i r j p.2 hi hj]
    by_cases h : j = i
    · subst h
      rw [lastWrite]
      cases h2 : lastWrite r l <;> by_cases h3 : r = p.1 <;> simp [h3]
    · simp [h]

/-- Everything but the data registers stands across the writes of a lane. -/
theorem Ctx.rest_laneWrites (w : LeWord) (l : List (Nat × Word)) (i : Nat) (c : Ctx) :
    ∃ s v, c.laneWrites w l i = { c with s := s, v := v } ∧ (if w.v then s = c.s else v = c.v) := by
  unfold Ctx.laneWrites
  induction l generalizing c with
  | nil => exact ⟨c.s, c.v, rfl, by split <;> rfl⟩
  | cons p l ih =>
    obtain ⟨s, v, h, h2⟩ := ih (c.setDst w p.1 i p.2)
    refine ⟨s, v, ?_, ?_⟩
    · rw [List.foldl_cons, h]
      unfold Ctx.setDst
      split <;> rfl
    · revert h2
      unfold Ctx.setDst
      split <;> simp [Ctx.setS, Ctx.setV]

/-- The lanes that take part, each with its writes and its flags. -/
theorem Ctx.data_lanes (w : LeWord) (wr : Nat → List (Nat × Word)) (fl : Nat → Word) (ls : List Nat) (c : Ctx)
    (hn : ls.Nodup) (hl : ∀ i ∈ ls, i ∈ leLanes w) :
    let c' := ls.foldl (fun c i => (c.laneWrites w (wr i) i).addFlags (fl i)) c
    (∀ r, ∀ j ∈ leLanes w, c'.data w r j = (if j ∈ ls then lastWrite r (wr j) else none).getD (c.data w r j)) ∧
    (if w.v then c'.s = c.s else c'.v = c.v) ∧
    c'.flags = ls.foldl (fun m i => m ||| fl i) c.flags ∧
    c' = { c with s := c'.s, v := c'.v, flags := c'.flags } := by
  induction ls generalizing c with
  | nil => exact ⟨fun r j _ => by simp, by split <;> rfl, rfl, rfl⟩
  | cons i ls ih =>
    rw [List.nodup_cons] at hn
    have hi := hl i (List.mem_cons_self ..)
    obtain ⟨h1, h2, h3, h4⟩ := ih ((c.laneWrites w (wr i) i).addFlags (fl i)) hn.2
      (fun j hj => hl j (List.mem_cons_of_mem _ hj))
    obtain ⟨s, v, hr, hr2⟩ := c.rest_laneWrites w (wr i) i
    refine ⟨?_, ?_, ?_, ?_⟩
    · intro r j hj
      rw [List.foldl_cons, h1 r j hj, Ctx.data_addFlags, c.data_laneWrites w (wr i) i r j hi hj]
      by_cases hji : j = i
      · subst hji
        simp [hn.1]
      · by_cases hm : j ∈ ls <;> simp [hji, hm]
    · revert h2
      rw [List.foldl_cons]
      split
      · next hv =>
        intro h2; rw [h2, hr]; simp only [hv, if_true] at hr2; simpa [Ctx.addFlags] using hr2
      · next hv =>
        intro h2; rw [h2, hr]; simp only [hv] at hr2; simpa [Ctx.addFlags] using hr2
    · rw [List.foldl_cons, List.foldl_cons, h3, hr]
      rfl
    · rw [List.foldl_cons]
      conv => lhs; rw [h4]
      rw [hr]
      rfl

/-- The lanes that take part are lanes of the form, each once. -/
theorem Ctx.taking_nodup (c : Ctx) (w : LeWord) : (c.taking w).Nodup := by
  unfold Ctx.taking leLanes
  split
  · exact (List.nodup_range).filter _
  · exact (show ([0] : List Nat).Nodup by simp).filter _

theorem Ctx.taking_mem (c : Ctx) (w : LeWord) (i : Nat) (h : i ∈ c.taking w) : i ∈ leLanes w :=
  (List.mem_filter.mp h).1

theorem foldl_or (l : List Nat) (f : Nat → Word) (m : Word) :
    l.foldl (fun m i => m ||| f i) m = m ||| l.foldl (fun m i => m ||| f i) 0 := by
  induction l generalizing m with
  | nil => simp
  | cons i l ih => rw [List.foldl_cons, List.foldl_cons, ih, ih (0 ||| f i)]; simp [BitVec.or_assoc]

/-- What an instruction over the lanes leaves in the state. -/
theorem dataResult_of_lanes (s : State) (w : LeWord) (wr : Nat → List (Nat × Word)) (fl : Nat → Word) (c' : Ctx)
    (hc : c' = (s.cur.taking w).foldl (fun c i => (c.laneWrites w (wr i) i).addFlags (fl i)) s.cur) :
    DataResult s (s.afterLe c' (s.cur.pc + 1)) w (fun r i => if i ∈ s.cur.taking w then lastWrite r (wr i) else none)
      (laneFlags s w fl) := by
  obtain ⟨h1, h2, h3, h4⟩ := Ctx.data_lanes w wr fl (s.cur.taking w) s.cur (s.cur.taking_nodup w) (s.cur.taking_mem w)
  rw [← hc] at h1 h2 h3 h4
  have hx : (s.afterLe c' (s.cur.pc + 1)).ctx s.le.running = { c' with pc := s.cur.pc + 1 } := by
    simp [State.afterLe, State.setPc, State.ctx, State.setCtx]
  unfold DataResult
  rw [hx]
  refine ⟨fun r i hi => h1 r i hi, h2, ?_, ?_⟩
  · rw [h3]; exact foldl_or _ _ _
  · simp only [State.afterLe]
    rw [h4]

theorem laneResult_of_map (s : State) (w : LeWord) (f : Nat → Word × Word) :
    LaneResult s (s.afterLe (s.cur.mapLanes w f) (s.cur.pc + 1)) w f := by
  have h := dataResult_of_lanes s w (fun i => [(w.d.toNat, (f i).1)]) (fun i => (f i).2) (s.cur.mapLanes w f) rfl
  have hg : (fun r i => if i ∈ s.cur.taking w then lastWrite r [(w.d.toNat, (f i).1)] else none)
      = fun r i => if r = w.d.toNat ∧ i ∈ s.cur.taking w then some (f i).1 else none := by
    funext r i
    by_cases h1 : i ∈ s.cur.taking w <;> by_cases h2 : r = w.d.toNat <;> simp [lastWrite, h1, h2]
  rw [hg] at h
  exact h

theorem pairResult_of_map (s : State) (w : LeWord) (f : Nat → (Word × Word) × Word) :
    PairResult s (s.afterLe (s.cur.mapPair w f) (s.cur.pc + 1)) w f := by
  have h := dataResult_of_lanes s w (fun i => [(w.d.toNat, (f i).1.1), (w.d.toNat + 1, (f i).1.2)]) (fun i => (f i).2)
    (s.cur.mapPair w f) rfl
  have hg : (fun r i => if i ∈ s.cur.taking w then
      lastWrite r [(w.d.toNat, (f i).1.1), (w.d.toNat + 1, (f i).1.2)] else none)
      = fun r i => if i ∈ s.cur.taking w then
        (if r = w.d.toNat + 1 then some (f i).1.2 else if r = w.d.toNat then some (f i).1.1 else none) else none := by
    funext r i
    by_cases h1 : i ∈ s.cur.taking w <;> by_cases h2 : r = w.d.toNat + 1 <;> simp [lastWrite, h1, h2]
  rw [hg] at h
  exact h

/-- Without a fraction, R108's rounding gives the number itself. -/
@[simp] theorem roundShift_zero (n : Bool) (x : Int) : roundShift n x 0 = x := by
  unfold roundShift
  split <;> omega

/-! ### An instruction issues -/

/-- An instruction that completes with a state from which the next one follows. -/
theorem leIssue_ok (s t : State) (f : Form) (w : LeWord) (body : State → Nat → LeRes) (h : Issues s f w)
    (hb : body s s.le.running = .ok t) :
    s.leIssue f w .clean body = t.setPc s.le.running (s.cur.pc + 1) := by
  obtain ⟨h1, h2, h3, h4⟩ := h
  have h5 : ¬ (s.ctx s.le.running).codeWords ≤ (s.ctx s.le.running).pc := Nat.not_le.mpr h4
  simp [State.leIssue, h1, h2, h3, h5, hb, State.cur]

theorem leIssue_stay (s t : State) (f : Form) (w : LeWord) (body : State → Nat → LeRes) (h : Issues s f w)
    (hb : body s s.le.running = .stay t) : s.leIssue f w .clean body = t := by
  obtain ⟨h1, h2, h3, h4⟩ := h
  have h5 : ¬ (s.ctx s.le.running).codeWords ≤ (s.ctx s.le.running).pc := Nat.not_le.mpr h4
  simp [State.leIssue, h1, h2, h3, h5, hb]

theorem leIssue_jump (s t : State) (f : Form) (w : LeWord) (body : State → Nat → LeRes) (k : Int) (h : Issues s f w)
    (hb : body s s.le.running = .jump t k) (h0 : 0 ≤ k) (hk : k < s.cur.codeWords) :
    s.leIssue f w .clean body = t.setPc s.le.running k.toNat := by
  obtain ⟨h1, h2, h3, h4⟩ := h
  have h5 : ¬ (s.ctx s.le.running).codeWords ≤ (s.ctx s.le.running).pc := Nat.not_le.mpr h4
  have h6 : ¬ (k < 0 ∨ ((s.ctx s.le.running).codeWords : Int) ≤ k) := by
    have : k < (s.ctx s.le.running).codeWords := hk
    omega
  simp [State.leIssue, h1, h2, h3, h5, hb, h6]

theorem leIssue_exc (s : State) (f : Form) (w : LeWord) (body : State → Nat → LeRes) (e : Exc) (h : Issues s f w)
    (hb : body s s.le.running = .exc e) : s.leIssue f w .clean body = s.raise s.le.running e := by
  obtain ⟨h1, h2, h3, h4⟩ := h
  have h5 : ¬ (s.ctx s.le.running).codeWords ≤ (s.ctx s.le.running).pc := Nat.not_le.mpr h4
  simp [State.leIssue, h1, h2, h3, h5, hb]

/-- An instruction on the registers of its context alone. -/
theorem leIssue_reg (s : State) (f : Form) (w : LeWord) (b : Ctx → Ctx) (h : Issues s f w) :
    s.leIssue f w .clean (LeRes.reg b) = s.afterLe (b s.cur) (s.cur.pc + 1) :=
  leIssue_ok s _ f w _ h rfl

end Sys2Proof.Machine
end

