-- ==== Sys2Proof/Laws/MonitorLaws.lean ====
section
/-!
SUPPORT. What an instruction of the Monitor leaves where it meets no fault.
-/

namespace Sys2Proof.Machine

/-- An instruction that meets no fault and does not wait. -/
theorem monRun_ok (s : State) (i : Nat) (w : MonWord) (legal : Bool) (f : MonCore → MonEff)
    (h : MonIssues s i w legal (f (s.core i)).reads) (hf : (f (s.core i)).fault = none) (hw : (f (s.core i)).wait = false)
    (hn : ∀ t, (f (s.core i)).next = some t → 0 ≤ t ∧ t < monNWords s.mon.prog) :
    s.monRun i w legal f = s.monAfter i (f (s.core i)) := by
  obtain ⟨h1, h2, h3, h4, h5⟩ := h
  unfold State.monRun
  have h6 : ¬ monNWords s.mon.prog ≤ (s.core i).pc := Nat.not_le.mpr h2
  simp only [h1, h3, h4, h5, h6, hf, hw, Bool.not_true, Bool.false_eq_true, if_false]
  have h7 : ((f (s.core i)).next.isSome && !(decide (0 ≤ (f (s.core i)).next.getD (((s.core i).pc : Int) + 1)) &&
      decide ((f (s.core i)).next.getD (((s.core i).pc : Int) + 1) < (monNWords s.mon.prog : Int)))) = false := by
    cases hx : (f (s.core i)).next with
    | none => simp
    | some t => have := hn t hx; simp [this.1, this.2]
  simp only [h7, Bool.false_eq_true, if_false]
  unfold State.monAfter MonCore.after
  simp only [hw]
  all_goals rfl

/-- The same, with the effect named. -/
theorem monRun_eq (s : State) (i : Nat) (w : MonWord) (legal : Bool) (f : MonCore → MonEff) (e : MonEff)
    (he : f (s.core i) = e) (h : MonIssues s i w legal e.reads) (hf : e.fault = none) (hw : e.wait = false)
    (hn : ∀ t, e.next = some t → 0 ≤ t ∧ t < monNWords s.mon.prog) : s.monRun i w legal f = s.monAfter i e := by
  subst he
  exact monRun_ok s i w legal f h hf hw hn

/-- SAFE and every fault that an instruction raises by itself. -/
theorem monRun_fault (s : State) (i : Nat) (w : MonWord) (legal : Bool) (f : MonCore → MonEff) (e : MonEff)
    (x : Nat × Nat) (he : f (s.core i) = e) (h : MonIssues s i w legal e.reads) (hf : e.fault = some x) :
    s.monRun i w legal f = s.monFault i x.1 x.2 := by
  subst he
  obtain ⟨h1, h2, h3, h4, h5⟩ := h
  have h6 : ¬ monNWords s.mon.prog ≤ (s.core i).pc := Nat.not_le.mpr h2
  simp [State.monRun, h1, h3, h4, h5, h6, hf]

end Sys2Proof.Machine
end

