-- ==== Sys2Proof/Laws/State.lean ====
section
/-!
SUPPORT. What each plain update of the state leaves in every field: the field it sets holds the value, every other field
is as it was. No later proof unfolds a record update.
-/

namespace Sys2Proof.Machine

@[simp] theorem State.setReg_fields (s : State) (a : Nat) (v : Word) :
    (s.setReg a v).pending = s.pending ∧ (s.setReg a v).free = s.free ∧
    (s.setReg a v).regs = SMap.set regReset s.regs a v ∧ (s.setReg a v).mem = s.mem ∧ (s.setReg a v).cfg = s.cfg ∧
    (s.setReg a v).fuses = s.fuses ∧ (s.setReg a v).cab = s.cab ∧ (s.setReg a v).cabRes = s.cabRes ∧
    (s.setReg a v).tier = s.tier ∧ (s.setReg a v).inReset = s.inReset ∧ (s.setReg a v).clk = s.clk ∧
    (s.setReg a v).le = s.le ∧ (s.setReg a v).ce = s.ce ∧ (s.setReg a v).gs = s.gs ∧ (s.setReg a v).spt = s.spt ∧
    (s.setReg a v).pwm = s.pwm ∧ (s.setReg a v).trp = s.trp ∧ (s.setReg a v).chp = s.chp ∧
    (s.setReg a v).adc = s.adc ∧ (s.setReg a v).sdm = s.sdm ∧ (s.setReg a v).cmps = s.cmps ∧
    (s.setReg a v).ang = s.ang ∧ (s.setReg a v).evt = s.evt ∧ (s.setReg a v).grd = s.grd ∧
    (s.setReg a v).isl = s.isl ∧ (s.setReg a v).lif = s.lif ∧ (s.setReg a v).thm = s.thm ∧
    (s.setReg a v).mtr = s.mtr ∧ (s.setReg a v).recd = s.recd ∧ (s.setReg a v).shf = s.shf ∧
    (s.setReg a v).trs = s.trs ∧ (s.setReg a v).pair = s.pair ∧ (s.setReg a v).mon = s.mon ∧
    (s.setReg a v).tim = s.tim ∧ (s.setReg a v).eth = s.eth ∧ (s.setReg a v).pins = s.pins ∧
    (s.setReg a v).img = s.img ∧ (s.setReg a v).sys = s.sys ∧ (s.setReg a v).hu = s.hu ∧
    (s.setReg a v).host = s.host ∧ (s.setReg a v).jtag = s.jtag ∧ (s.setReg a v).fan = s.fan ∧
    (s.setReg a v).spareLog = s.spareLog ∧ (s.setReg a v).evq = s.evq :=
  ⟨rfl, rfl, rfl, rfl, rfl, rfl, rfl, rfl, rfl, rfl, rfl, rfl, rfl, rfl, rfl, rfl, rfl, rfl, rfl, rfl,
    rfl, rfl, rfl, rfl, rfl, rfl, rfl, rfl, rfl, rfl, rfl, rfl, rfl, rfl, rfl, rfl, rfl, rfl, rfl, rfl, rfl, rfl, rfl, rfl⟩

@[simp] theorem State.setByte_fields (s : State) (a : Nat) (v : Byte) :
    (s.setByte a v).pending = s.pending ∧ (s.setByte a v).free = s.free ∧ (s.setByte a v).regs = s.regs ∧
    (s.setByte a v).mem = SMap.set memReset s.mem a v ∧ (s.setByte a v).cfg = s.cfg ∧
    (s.setByte a v).fuses = s.fuses ∧ (s.setByte a v).cab = s.cab ∧ (s.setByte a v).cabRes = s.cabRes ∧
    (s.setByte a v).tier = s.tier ∧ (s.setByte a v).inReset = s.inReset ∧ (s.setByte a v).clk = s.clk ∧
    (s.setByte a v).le = s.le ∧ (s.setByte a v).ce = s.ce ∧ (s.setByte a v).gs = s.gs ∧ (s.setByte a v).spt = s.spt ∧
    (s.setByte a v).pwm = s.pwm ∧ (s.setByte a v).trp = s.trp ∧ (s.setByte a v).chp = s.chp ∧
    (s.setByte a v).adc = s.adc ∧ (s.setByte a v).sdm = s.sdm ∧ (s.setByte a v).cmps = s.cmps ∧
    (s.setByte a v).ang = s.ang ∧ (s.setByte a v).evt = s.evt ∧ (s.setByte a v).grd = s.grd ∧
    (s.setByte a v).isl = s.isl ∧ (s.setByte a v).lif = s.lif ∧ (s.setByte a v).thm = s.thm ∧
    (s.setByte a v).mtr = s.mtr ∧ (s.setByte a v).recd = s.recd ∧ (s.setByte a v).shf = s.shf ∧
    (s.setByte a v).trs = s.trs ∧ (s.setByte a v).pair = s.pair ∧ (s.setByte a v).mon = s.mon ∧
    (s.setByte a v).tim = s.tim ∧ (s.setByte a v).eth = s.eth ∧ (s.setByte a v).pins = s.pins ∧
    (s.setByte a v).img = s.img ∧ (s.setByte a v).sys = s.sys ∧ (s.setByte a v).hu = s.hu ∧
    (s.setByte a v).host = s.host ∧ (s.setByte a v).jtag = s.jtag ∧ (s.setByte a v).fan = s.fan ∧
    (s.setByte a v).spareLog = s.spareLog ∧ (s.setByte a v).evq = s.evq :=
  ⟨rfl, rfl, rfl, rfl, rfl, rfl, rfl, rfl, rfl, rfl, rfl, rfl, rfl, rfl, rfl, rfl, rfl, rfl, rfl, rfl,
    rfl, rfl, rfl, rfl, rfl, rfl, rfl, rfl, rfl, rfl, rfl, rfl, rfl, rfl, rfl, rfl, rfl, rfl, rfl, rfl, rfl, rfl, rfl, rfl⟩

@[simp] theorem State.setTim_fields (s : State) (x : Tim) :
    (s.setTim x).pending = s.pending ∧ (s.setTim x).free = s.free ∧ (s.setTim x).regs = s.regs ∧
    (s.setTim x).mem = s.mem ∧ (s.setTim x).cfg = s.cfg ∧ (s.setTim x).fuses = s.fuses ∧ (s.setTim x).cab = s.cab ∧
    (s.setTim x).cabRes = s.cabRes ∧ (s.setTim x).tier = s.tier ∧ (s.setTim x).inReset = s.inReset ∧
    (s.setTim x).clk = s.clk ∧ (s.setTim x).le = s.le ∧ (s.setTim x).ce = s.ce ∧ (s.setTim x).gs = s.gs ∧
    (s.setTim x).spt = s.spt ∧ (s.setTim x).pwm = s.pwm ∧ (s.setTim x).trp = s.trp ∧ (s.setTim x).chp = s.chp ∧
    (s.setTim x).adc = s.adc ∧ (s.setTim x).sdm = s.sdm ∧ (s.setTim x).cmps = s.cmps ∧ (s.setTim x).ang = s.ang ∧
    (s.setTim x).evt = s.evt ∧ (s.setTim x).grd = s.grd ∧ (s.setTim x).isl = s.isl ∧ (s.setTim x).lif = s.lif ∧
    (s.setTim x).thm = s.thm ∧ (s.setTim x).mtr = s.mtr ∧ (s.setTim x).recd = s.recd ∧ (s.setTim x).shf = s.shf ∧
    (s.setTim x).trs = s.trs ∧ (s.setTim x).pair = s.pair ∧ (s.setTim x).mon = s.mon ∧ (s.setTim x).tim = x ∧
    (s.setTim x).eth = s.eth ∧ (s.setTim x).pins = s.pins ∧ (s.setTim x).img = s.img ∧ (s.setTim x).sys = s.sys ∧
    (s.setTim x).hu = s.hu ∧ (s.setTim x).host = s.host ∧ (s.setTim x).jtag = s.jtag ∧ (s.setTim x).fan = s.fan ∧
    (s.setTim x).spareLog = s.spareLog ∧ (s.setTim x).evq = s.evq :=
  ⟨rfl, rfl, rfl, rfl, rfl, rfl, rfl, rfl, rfl, rfl, rfl, rfl, rfl, rfl, rfl, rfl, rfl, rfl, rfl, rfl,
    rfl, rfl, rfl, rfl, rfl, rfl, rfl, rfl, rfl, rfl, rfl, rfl, rfl, rfl, rfl, rfl, rfl, rfl, rfl, rfl, rfl, rfl, rfl, rfl⟩

@[simp] theorem State.setEvt_fields (s : State) (x : Evt) :
    (s.setEvt x).pending = s.pending ∧ (s.setEvt x).free = s.free ∧ (s.setEvt x).regs = s.regs ∧
    (s.setEvt x).mem = s.mem ∧ (s.setEvt x).cfg = s.cfg ∧ (s.setEvt x).fuses = s.fuses ∧ (s.setEvt x).cab = s.cab ∧
    (s.setEvt x).cabRes = s.cabRes ∧ (s.setEvt x).tier = s.tier ∧ (s.setEvt x).inReset = s.inReset ∧
    (s.setEvt x).clk = s.clk ∧ (s.setEvt x).le = s.le ∧ (s.setEvt x).ce = s.ce ∧ (s.setEvt x).gs = s.gs ∧
    (s.setEvt x).spt = s.spt ∧ (s.setEvt x).pwm = s.pwm ∧ (s.setEvt x).trp = s.trp ∧ (s.setEvt x).chp = s.chp ∧
    (s.setEvt x).adc = s.adc ∧ (s.setEvt x).sdm = s.sdm ∧ (s.setEvt x).cmps = s.cmps ∧ (s.setEvt x).ang = s.ang ∧
    (s.setEvt x).evt = x ∧ (s.setEvt x).grd = s.grd ∧ (s.setEvt x).isl = s.isl ∧ (s.setEvt x).lif = s.lif ∧
    (s.setEvt x).thm = s.thm ∧ (s.setEvt x).mtr = s.mtr ∧ (s.setEvt x).recd = s.recd ∧ (s.setEvt x).shf = s.shf ∧
    (s.setEvt x).trs = s.trs ∧ (s.setEvt x).pair = s.pair ∧ (s.setEvt x).mon = s.mon ∧ (s.setEvt x).tim = s.tim ∧
    (s.setEvt x).eth = s.eth ∧ (s.setEvt x).pins = s.pins ∧ (s.setEvt x).img = s.img ∧ (s.setEvt x).sys = s.sys ∧
    (s.setEvt x).hu = s.hu ∧ (s.setEvt x).host = s.host ∧ (s.setEvt x).jtag = s.jtag ∧ (s.setEvt x).fan = s.fan ∧
    (s.setEvt x).spareLog = s.spareLog ∧ (s.setEvt x).evq = s.evq :=
  ⟨rfl, rfl, rfl, rfl, rfl, rfl, rfl, rfl, rfl, rfl, rfl, rfl, rfl, rfl, rfl, rfl, rfl, rfl, rfl, rfl,
    rfl, rfl, rfl, rfl, rfl, rfl, rfl, rfl, rfl, rfl, rfl, rfl, rfl, rfl, rfl, rfl, rfl, rfl, rfl, rfl, rfl, rfl, rfl, rfl⟩

@[simp] theorem State.setLif_fields (s : State) (x : Lif) :
    (s.setLif x).pending = s.pending ∧ (s.setLif x).free = s.free ∧ (s.setLif x).regs = s.regs ∧
    (s.setLif x).mem = s.mem ∧ (s.setLif x).cfg = s.cfg ∧ (s.setLif x).fuses = s.fuses ∧ (s.setLif x).cab = s.cab ∧
    (s.setLif x).cabRes = s.cabRes ∧ (s.setLif x).tier = s.tier ∧ (s.setLif x).inReset = s.inReset ∧
    (s.setLif x).clk = s.clk ∧ (s.setLif x).le = s.le ∧ (s.setLif x).ce = s.ce ∧ (s.setLif x).gs = s.gs ∧
    (s.setLif x).spt = s.spt ∧ (s.setLif x).pwm = s.pwm ∧ (s.setLif x).trp = s.trp ∧ (s.setLif x).chp = s.chp ∧
    (s.setLif x).adc = s.adc ∧ (s.setLif x).sdm = s.sdm ∧ (s.setLif x).cmps = s.cmps ∧ (s.setLif x).ang = s.ang ∧
    (s.setLif x).evt = s.evt ∧ (s.setLif x).grd = s.grd ∧ (s.setLif x).isl = s.isl ∧ (s.setLif x).lif = x ∧
    (s.setLif x).thm = s.thm ∧ (s.setLif x).mtr = s.mtr ∧ (s.setLif x).recd = s.recd ∧ (s.setLif x).shf = s.shf ∧
    (s.setLif x).trs = s.trs ∧ (s.setLif x).pair = s.pair ∧ (s.setLif x).mon = s.mon ∧ (s.setLif x).tim = s.tim ∧
    (s.setLif x).eth = s.eth ∧ (s.setLif x).pins = s.pins ∧ (s.setLif x).img = s.img ∧ (s.setLif x).sys = s.sys ∧
    (s.setLif x).hu = s.hu ∧ (s.setLif x).host = s.host ∧ (s.setLif x).jtag = s.jtag ∧ (s.setLif x).fan = s.fan ∧
    (s.setLif x).spareLog = s.spareLog ∧ (s.setLif x).evq = s.evq :=
  ⟨rfl, rfl, rfl, rfl, rfl, rfl, rfl, rfl, rfl, rfl, rfl, rfl, rfl, rfl, rfl, rfl, rfl, rfl, rfl, rfl,
    rfl, rfl, rfl, rfl, rfl, rfl, rfl, rfl, rfl, rfl, rfl, rfl, rfl, rfl, rfl, rfl, rfl, rfl, rfl, rfl, rfl, rfl, rfl, rfl⟩

@[simp] theorem State.setThm_fields (s : State) (x : Thm) :
    (s.setThm x).pending = s.pending ∧ (s.setThm x).free = s.free ∧ (s.setThm x).regs = s.regs ∧
    (s.setThm x).mem = s.mem ∧ (s.setThm x).cfg = s.cfg ∧ (s.setThm x).fuses = s.fuses ∧ (s.setThm x).cab = s.cab ∧
    (s.setThm x).cabRes = s.cabRes ∧ (s.setThm x).tier = s.tier ∧ (s.setThm x).inReset = s.inReset ∧
    (s.setThm x).clk = s.clk ∧ (s.setThm x).le = s.le ∧ (s.setThm x).ce = s.ce ∧ (s.setThm x).gs = s.gs ∧
    (s.setThm x).spt = s.spt ∧ (s.setThm x).pwm = s.pwm ∧ (s.setThm x).trp = s.trp ∧ (s.setThm x).chp = s.chp ∧
    (s.setThm x).adc = s.adc ∧ (s.setThm x).sdm = s.sdm ∧ (s.setThm x).cmps = s.cmps ∧ (s.setThm x).ang = s.ang ∧
    (s.setThm x).evt = s.evt ∧ (s.setThm x).grd = s.grd ∧ (s.setThm x).isl = s.isl ∧ (s.setThm x).lif = s.lif ∧
    (s.setThm x).thm = x ∧ (s.setThm x).mtr = s.mtr ∧ (s.setThm x).recd = s.recd ∧ (s.setThm x).shf = s.shf ∧
    (s.setThm x).trs = s.trs ∧ (s.setThm x).pair = s.pair ∧ (s.setThm x).mon = s.mon ∧ (s.setThm x).tim = s.tim ∧
    (s.setThm x).eth = s.eth ∧ (s.setThm x).pins = s.pins ∧ (s.setThm x).img = s.img ∧ (s.setThm x).sys = s.sys ∧
    (s.setThm x).hu = s.hu ∧ (s.setThm x).host = s.host ∧ (s.setThm x).jtag = s.jtag ∧ (s.setThm x).fan = s.fan ∧
    (s.setThm x).spareLog = s.spareLog ∧ (s.setThm x).evq = s.evq :=
  ⟨rfl, rfl, rfl, rfl, rfl, rfl, rfl, rfl, rfl, rfl, rfl, rfl, rfl, rfl, rfl, rfl, rfl, rfl, rfl, rfl,
    rfl, rfl, rfl, rfl, rfl, rfl, rfl, rfl, rfl, rfl, rfl, rfl, rfl, rfl, rfl, rfl, rfl, rfl, rfl, rfl, rfl, rfl, rfl, rfl⟩

@[simp] theorem State.setHu_fields (s : State) (x : Hu) :
    (s.setHu x).pending = s.pending ∧ (s.setHu x).free = s.free ∧ (s.setHu x).regs = s.regs ∧
    (s.setHu x).mem = s.mem ∧ (s.setHu x).cfg = s.cfg ∧ (s.setHu x).fuses = s.fuses ∧ (s.setHu x).cab = s.cab ∧
    (s.setHu x).cabRes = s.cabRes ∧ (s.setHu x).tier = s.tier ∧ (s.setHu x).inReset = s.inReset ∧
    (s.setHu x).clk = s.clk ∧ (s.setHu x).le = s.le ∧ (s.setHu x).ce = s.ce ∧ (s.setHu x).gs = s.gs ∧
    (s.setHu x).spt = s.spt ∧ (s.setHu x).pwm = s.pwm ∧ (s.setHu x).trp = s.trp ∧ (s.setHu x).chp = s.chp ∧
    (s.setHu x).adc = s.adc ∧ (s.setHu x).sdm = s.sdm ∧ (s.setHu x).cmps = s.cmps ∧ (s.setHu x).ang = s.ang ∧
    (s.setHu x).evt = s.evt ∧ (s.setHu x).grd = s.grd ∧ (s.setHu x).isl = s.isl ∧ (s.setHu x).lif = s.lif ∧
    (s.setHu x).thm = s.thm ∧ (s.setHu x).mtr = s.mtr ∧ (s.setHu x).recd = s.recd ∧ (s.setHu x).shf = s.shf ∧
    (s.setHu x).trs = s.trs ∧ (s.setHu x).pair = s.pair ∧ (s.setHu x).mon = s.mon ∧ (s.setHu x).tim = s.tim ∧
    (s.setHu x).eth = s.eth ∧ (s.setHu x).pins = s.pins ∧ (s.setHu x).img = s.img ∧ (s.setHu x).sys = s.sys ∧
    (s.setHu x).hu = x ∧ (s.setHu x).host = s.host ∧ (s.setHu x).jtag = s.jtag ∧ (s.setHu x).fan = s.fan ∧
    (s.setHu x).spareLog = s.spareLog ∧ (s.setHu x).evq = s.evq :=
  ⟨rfl, rfl, rfl, rfl, rfl, rfl, rfl, rfl, rfl, rfl, rfl, rfl, rfl, rfl, rfl, rfl, rfl, rfl, rfl, rfl,
    rfl, rfl, rfl, rfl, rfl, rfl, rfl, rfl, rfl, rfl, rfl, rfl, rfl, rfl, rfl, rfl, rfl, rfl, rfl, rfl, rfl, rfl, rfl, rfl⟩

@[simp] theorem State.setHost_fields (s : State) (x : Hst) :
    (s.setHost x).pending = s.pending ∧ (s.setHost x).free = s.free ∧ (s.setHost x).regs = s.regs ∧
    (s.setHost x).mem = s.mem ∧ (s.setHost x).cfg = s.cfg ∧ (s.setHost x).fuses = s.fuses ∧
    (s.setHost x).cab = s.cab ∧ (s.setHost x).cabRes = s.cabRes ∧ (s.setHost x).tier = s.tier ∧
    (s.setHost x).inReset = s.inReset ∧ (s.setHost x).clk = s.clk ∧ (s.setHost x).le = s.le ∧
    (s.setHost x).ce = s.ce ∧ (s.setHost x).gs = s.gs ∧ (s.setHost x).spt = s.spt ∧ (s.setHost x).pwm = s.pwm ∧
    (s.setHost x).trp = s.trp ∧ (s.setHost x).chp = s.chp ∧ (s.setHost x).adc = s.adc ∧ (s.setHost x).sdm = s.sdm ∧
    (s.setHost x).cmps = s.cmps ∧ (s.setHost x).ang = s.ang ∧ (s.setHost x).evt = s.evt ∧ (s.setHost x).grd = s.grd ∧
    (s.setHost x).isl = s.isl ∧ (s.setHost x).lif = s.lif ∧ (s.setHost x).thm = s.thm ∧ (s.setHost x).mtr = s.mtr ∧
    (s.setHost x).recd = s.recd ∧ (s.setHost x).shf = s.shf ∧ (s.setHost x).trs = s.trs ∧
    (s.setHost x).pair = s.pair ∧ (s.setHost x).mon = s.mon ∧ (s.setHost x).tim = s.tim ∧ (s.setHost x).eth = s.eth ∧
    (s.setHost x).pins = s.pins ∧ (s.setHost x).img = s.img ∧ (s.setHost x).sys = s.sys ∧ (s.setHost x).hu = s.hu ∧
    (s.setHost x).host = x ∧ (s.setHost x).jtag = s.jtag ∧ (s.setHost x).fan = s.fan ∧
    (s.setHost x).spareLog = s.spareLog ∧ (s.setHost x).evq = s.evq :=
  ⟨rfl, rfl, rfl, rfl, rfl, rfl, rfl, rfl, rfl, rfl, rfl, rfl, rfl, rfl, rfl, rfl, rfl, rfl, rfl, rfl,
    rfl, rfl, rfl, rfl, rfl, rfl, rfl, rfl, rfl, rfl, rfl, rfl, rfl, rfl, rfl, rfl, rfl, rfl, rfl, rfl, rfl, rfl, rfl, rfl⟩

@[simp] theorem State.setMtr_fields (s : State) (x : Mtr) :
    (s.setMtr x).pending = s.pending ∧ (s.setMtr x).free = s.free ∧ (s.setMtr x).regs = s.regs ∧
    (s.setMtr x).mem = s.mem ∧ (s.setMtr x).cfg = s.cfg ∧ (s.setMtr x).fuses = s.fuses ∧ (s.setMtr x).cab = s.cab ∧
    (s.setMtr x).cabRes = s.cabRes ∧ (s.setMtr x).tier = s.tier ∧ (s.setMtr x).inReset = s.inReset ∧
    (s.setMtr x).clk = s.clk ∧ (s.setMtr x).le = s.le ∧ (s.setMtr x).ce = s.ce ∧ (s.setMtr x).gs = s.gs ∧
    (s.setMtr x).spt = s.spt ∧ (s.setMtr x).pwm = s.pwm ∧ (s.setMtr x).trp = s.trp ∧ (s.setMtr x).chp = s.chp ∧
    (s.setMtr x).adc = s.adc ∧ (s.setMtr x).sdm = s.sdm ∧ (s.setMtr x).cmps = s.cmps ∧ (s.setMtr x).ang = s.ang ∧
    (s.setMtr x).evt = s.evt ∧ (s.setMtr x).grd = s.grd ∧ (s.setMtr x).isl = s.isl ∧ (s.setMtr x).lif = s.lif ∧
    (s.setMtr x).thm = s.thm ∧ (s.setMtr x).mtr = x ∧ (s.setMtr x).recd = s.recd ∧ (s.setMtr x).shf = s.shf ∧
    (s.setMtr x).trs = s.trs ∧ (s.setMtr x).pair = s.pair ∧ (s.setMtr x).mon = s.mon ∧ (s.setMtr x).tim = s.tim ∧
    (s.setMtr x).eth = s.eth ∧ (s.setMtr x).pins = s.pins ∧ (s.setMtr x).img = s.img ∧ (s.setMtr x).sys = s.sys ∧
    (s.setMtr x).hu = s.hu ∧ (s.setMtr x).host = s.host ∧ (s.setMtr x).jtag = s.jtag ∧ (s.setMtr x).fan = s.fan ∧
    (s.setMtr x).spareLog = s.spareLog ∧ (s.setMtr x).evq = s.evq :=
  ⟨rfl, rfl, rfl, rfl, rfl, rfl, rfl, rfl, rfl, rfl, rfl, rfl, rfl, rfl, rfl, rfl, rfl, rfl, rfl, rfl,
    rfl, rfl, rfl, rfl, rfl, rfl, rfl, rfl, rfl, rfl, rfl, rfl, rfl, rfl, rfl, rfl, rfl, rfl, rfl, rfl, rfl, rfl, rfl, rfl⟩

@[simp] theorem State.setMon_fields (s : State) (x : Mon) :
    (s.setMon x).pending = s.pending ∧ (s.setMon x).free = s.free ∧ (s.setMon x).regs = s.regs ∧
    (s.setMon x).mem = s.mem ∧ (s.setMon x).cfg = s.cfg ∧ (s.setMon x).fuses = s.fuses ∧ (s.setMon x).cab = s.cab ∧
    (s.setMon x).cabRes = s.cabRes ∧ (s.setMon x).tier = s.tier ∧ (s.setMon x).inReset = s.inReset ∧
    (s.setMon x).clk = s.clk ∧ (s.setMon x).le = s.le ∧ (s.setMon x).ce = s.ce ∧ (s.setMon x).gs = s.gs ∧
    (s.setMon x).spt = s.spt ∧ (s.setMon x).pwm = s.pwm ∧ (s.setMon x).trp = s.trp ∧ (s.setMon x).chp = s.chp ∧
    (s.setMon x).adc = s.adc ∧ (s.setMon x).sdm = s.sdm ∧ (s.setMon x).cmps = s.cmps ∧ (s.setMon x).ang = s.ang ∧
    (s.setMon x).evt = s.evt ∧ (s.setMon x).grd = s.grd ∧ (s.setMon x).isl = s.isl ∧ (s.setMon x).lif = s.lif ∧
    (s.setMon x).thm = s.thm ∧ (s.setMon x).mtr = s.mtr ∧ (s.setMon x).recd = s.recd ∧ (s.setMon x).shf = s.shf ∧
    (s.setMon x).trs = s.trs ∧ (s.setMon x).pair = s.pair ∧ (s.setMon x).mon = x ∧ (s.setMon x).tim = s.tim ∧
    (s.setMon x).eth = s.eth ∧ (s.setMon x).pins = s.pins ∧ (s.setMon x).img = s.img ∧ (s.setMon x).sys = s.sys ∧
    (s.setMon x).hu = s.hu ∧ (s.setMon x).host = s.host ∧ (s.setMon x).jtag = s.jtag ∧ (s.setMon x).fan = s.fan ∧
    (s.setMon x).spareLog = s.spareLog ∧ (s.setMon x).evq = s.evq :=
  ⟨rfl, rfl, rfl, rfl, rfl, rfl, rfl, rfl, rfl, rfl, rfl, rfl, rfl, rfl, rfl, rfl, rfl, rfl, rfl, rfl,
    rfl, rfl, rfl, rfl, rfl, rfl, rfl, rfl, rfl, rfl, rfl, rfl, rfl, rfl, rfl, rfl, rfl, rfl, rfl, rfl, rfl, rfl, rfl, rfl⟩

@[simp] theorem State.setShf_fields (s : State) (x : Shf) :
    (s.setShf x).pending = s.pending ∧ (s.setShf x).free = s.free ∧ (s.setShf x).regs = s.regs ∧
    (s.setShf x).mem = s.mem ∧ (s.setShf x).cfg = s.cfg ∧ (s.setShf x).fuses = s.fuses ∧ (s.setShf x).cab = s.cab ∧
    (s.setShf x).cabRes = s.cabRes ∧ (s.setShf x).tier = s.tier ∧ (s.setShf x).inReset = s.inReset ∧
    (s.setShf x).clk = s.clk ∧ (s.setShf x).le = s.le ∧ (s.setShf x).ce = s.ce ∧ (s.setShf x).gs = s.gs ∧
    (s.setShf x).spt = s.spt ∧ (s.setShf x).pwm = s.pwm ∧ (s.setShf x).trp = s.trp ∧ (s.setShf x).chp = s.chp ∧
    (s.setShf x).adc = s.adc ∧ (s.setShf x).sdm = s.sdm ∧ (s.setShf x).cmps = s.cmps ∧ (s.setShf x).ang = s.ang ∧
    (s.setShf x).evt = s.evt ∧ (s.setShf x).grd = s.grd ∧ (s.setShf x).isl = s.isl ∧ (s.setShf x).lif = s.lif ∧
    (s.setShf x).thm = s.thm ∧ (s.setShf x).mtr = s.mtr ∧ (s.setShf x).recd = s.recd ∧ (s.setShf x).shf = x ∧
    (s.setShf x).trs = s.trs ∧ (s.setShf x).pair = s.pair ∧ (s.setShf x).mon = s.mon ∧ (s.setShf x).tim = s.tim ∧
    (s.setShf x).eth = s.eth ∧ (s.setShf x).pins = s.pins ∧ (s.setShf x).img = s.img ∧ (s.setShf x).sys = s.sys ∧
    (s.setShf x).hu = s.hu ∧ (s.setShf x).host = s.host ∧ (s.setShf x).jtag = s.jtag ∧ (s.setShf x).fan = s.fan ∧
    (s.setShf x).spareLog = s.spareLog ∧ (s.setShf x).evq = s.evq :=
  ⟨rfl, rfl, rfl, rfl, rfl, rfl, rfl, rfl, rfl, rfl, rfl, rfl, rfl, rfl, rfl, rfl, rfl, rfl, rfl, rfl,
    rfl, rfl, rfl, rfl, rfl, rfl, rfl, rfl, rfl, rfl, rfl, rfl, rfl, rfl, rfl, rfl, rfl, rfl, rfl, rfl, rfl, rfl, rfl, rfl⟩

@[simp] theorem State.setSys_fields (s : State) (x : Sys) :
    (s.setSys x).pending = s.pending ∧ (s.setSys x).free = s.free ∧ (s.setSys x).regs = s.regs ∧
    (s.setSys x).mem = s.mem ∧ (s.setSys x).cfg = s.cfg ∧ (s.setSys x).fuses = s.fuses ∧ (s.setSys x).cab = s.cab ∧
    (s.setSys x).cabRes = s.cabRes ∧ (s.setSys x).tier = s.tier ∧ (s.setSys x).inReset = s.inReset ∧
    (s.setSys x).clk = s.clk ∧ (s.setSys x).le = s.le ∧ (s.setSys x).ce = s.ce ∧ (s.setSys x).gs = s.gs ∧
    (s.setSys x).spt = s.spt ∧ (s.setSys x).pwm = s.pwm ∧ (s.setSys x).trp = s.trp ∧ (s.setSys x).chp = s.chp ∧
    (s.setSys x).adc = s.adc ∧ (s.setSys x).sdm = s.sdm ∧ (s.setSys x).cmps = s.cmps ∧ (s.setSys x).ang = s.ang ∧
    (s.setSys x).evt = s.evt ∧ (s.setSys x).grd = s.grd ∧ (s.setSys x).isl = s.isl ∧ (s.setSys x).lif = s.lif ∧
    (s.setSys x).thm = s.thm ∧ (s.setSys x).mtr = s.mtr ∧ (s.setSys x).recd = s.recd ∧ (s.setSys x).shf = s.shf ∧
    (s.setSys x).trs = s.trs ∧ (s.setSys x).pair = s.pair ∧ (s.setSys x).mon = s.mon ∧ (s.setSys x).tim = s.tim ∧
    (s.setSys x).eth = s.eth ∧ (s.setSys x).pins = s.pins ∧ (s.setSys x).img = s.img ∧ (s.setSys x).sys = x ∧
    (s.setSys x).hu = s.hu ∧ (s.setSys x).host = s.host ∧ (s.setSys x).jtag = s.jtag ∧ (s.setSys x).fan = s.fan ∧
    (s.setSys x).spareLog = s.spareLog ∧ (s.setSys x).evq = s.evq :=
  ⟨rfl, rfl, rfl, rfl, rfl, rfl, rfl, rfl, rfl, rfl, rfl, rfl, rfl, rfl, rfl, rfl, rfl, rfl, rfl, rfl,
    rfl, rfl, rfl, rfl, rfl, rfl, rfl, rfl, rfl, rfl, rfl, rfl, rfl, rfl, rfl, rfl, rfl, rfl, rfl, rfl, rfl, rfl, rfl, rfl⟩

@[simp] theorem State.setClk_fields (s : State) (x : Clk) :
    (s.setClk x).pending = s.pending ∧ (s.setClk x).free = s.free ∧ (s.setClk x).regs = s.regs ∧
    (s.setClk x).mem = s.mem ∧ (s.setClk x).cfg = s.cfg ∧ (s.setClk x).fuses = s.fuses ∧ (s.setClk x).cab = s.cab ∧
    (s.setClk x).cabRes = s.cabRes ∧ (s.setClk x).tier = s.tier ∧ (s.setClk x).inReset = s.inReset ∧
    (s.setClk x).clk = x ∧ (s.setClk x).le = s.le ∧ (s.setClk x).ce = s.ce ∧ (s.setClk x).gs = s.gs ∧
    (s.setClk x).spt = s.spt ∧ (s.setClk x).pwm = s.pwm ∧ (s.setClk x).trp = s.trp ∧ (s.setClk x).chp = s.chp ∧
    (s.setClk x).adc = s.adc ∧ (s.setClk x).sdm = s.sdm ∧ (s.setClk x).cmps = s.cmps ∧ (s.setClk x).ang = s.ang ∧
    (s.setClk x).evt = s.evt ∧ (s.setClk x).grd = s.grd ∧ (s.setClk x).isl = s.isl ∧ (s.setClk x).lif = s.lif ∧
    (s.setClk x).thm = s.thm ∧ (s.setClk x).mtr = s.mtr ∧ (s.setClk x).recd = s.recd ∧ (s.setClk x).shf = s.shf ∧
    (s.setClk x).trs = s.trs ∧ (s.setClk x).pair = s.pair ∧ (s.setClk x).mon = s.mon ∧ (s.setClk x).tim = s.tim ∧
    (s.setClk x).eth = s.eth ∧ (s.setClk x).pins = s.pins ∧ (s.setClk x).img = s.img ∧ (s.setClk x).sys = s.sys ∧
    (s.setClk x).hu = s.hu ∧ (s.setClk x).host = s.host ∧ (s.setClk x).jtag = s.jtag ∧ (s.setClk x).fan = s.fan ∧
    (s.setClk x).spareLog = s.spareLog ∧ (s.setClk x).evq = s.evq :=
  ⟨rfl, rfl, rfl, rfl, rfl, rfl, rfl, rfl, rfl, rfl, rfl, rfl, rfl, rfl, rfl, rfl, rfl, rfl, rfl, rfl,
    rfl, rfl, rfl, rfl, rfl, rfl, rfl, rfl, rfl, rfl, rfl, rfl, rfl, rfl, rfl, rfl, rfl, rfl, rfl, rfl, rfl, rfl, rfl, rfl⟩

@[simp] theorem State.setImg_fields (s : State) (x : Img) :
    (s.setImg x).pending = s.pending ∧ (s.setImg x).free = s.free ∧ (s.setImg x).regs = s.regs ∧
    (s.setImg x).mem = s.mem ∧ (s.setImg x).cfg = s.cfg ∧ (s.setImg x).fuses = s.fuses ∧ (s.setImg x).cab = s.cab ∧
    (s.setImg x).cabRes = s.cabRes ∧ (s.setImg x).tier = s.tier ∧ (s.setImg x).inReset = s.inReset ∧
    (s.setImg x).clk = s.clk ∧ (s.setImg x).le = s.le ∧ (s.setImg x).ce = s.ce ∧ (s.setImg x).gs = s.gs ∧
    (s.setImg x).spt = s.spt ∧ (s.setImg x).pwm = s.pwm ∧ (s.setImg x).trp = s.trp ∧ (s.setImg x).chp = s.chp ∧
    (s.setImg x).adc = s.adc ∧ (s.setImg x).sdm = s.sdm ∧ (s.setImg x).cmps = s.cmps ∧ (s.setImg x).ang = s.ang ∧
    (s.setImg x).evt = s.evt ∧ (s.setImg x).grd = s.grd ∧ (s.setImg x).isl = s.isl ∧ (s.setImg x).lif = s.lif ∧
    (s.setImg x).thm = s.thm ∧ (s.setImg x).mtr = s.mtr ∧ (s.setImg x).recd = s.recd ∧ (s.setImg x).shf = s.shf ∧
    (s.setImg x).trs = s.trs ∧ (s.setImg x).pair = s.pair ∧ (s.setImg x).mon = s.mon ∧ (s.setImg x).tim = s.tim ∧
    (s.setImg x).eth = s.eth ∧ (s.setImg x).pins = s.pins ∧ (s.setImg x).img = x ∧ (s.setImg x).sys = s.sys ∧
    (s.setImg x).hu = s.hu ∧ (s.setImg x).host = s.host ∧ (s.setImg x).jtag = s.jtag ∧ (s.setImg x).fan = s.fan ∧
    (s.setImg x).spareLog = s.spareLog ∧ (s.setImg x).evq = s.evq :=
  ⟨rfl, rfl, rfl, rfl, rfl, rfl, rfl, rfl, rfl, rfl, rfl, rfl, rfl, rfl, rfl, rfl, rfl, rfl, rfl, rfl,
    rfl, rfl, rfl, rfl, rfl, rfl, rfl, rfl, rfl, rfl, rfl, rfl, rfl, rfl, rfl, rfl, rfl, rfl, rfl, rfl, rfl, rfl, rfl, rfl⟩

@[simp] theorem State.setPair_fields (s : State) (x : Pair) :
    (s.setPair x).pending = s.pending ∧ (s.setPair x).free = s.free ∧ (s.setPair x).regs = s.regs ∧
    (s.setPair x).mem = s.mem ∧ (s.setPair x).cfg = s.cfg ∧ (s.setPair x).fuses = s.fuses ∧
    (s.setPair x).cab = s.cab ∧ (s.setPair x).cabRes = s.cabRes ∧ (s.setPair x).tier = s.tier ∧
    (s.setPair x).inReset = s.inReset ∧ (s.setPair x).clk = s.clk ∧ (s.setPair x).le = s.le ∧
    (s.setPair x).ce = s.ce ∧ (s.setPair x).gs = s.gs ∧ (s.setPair x).spt = s.spt ∧ (s.setPair x).pwm = s.pwm ∧
    (s.setPair x).trp = s.trp ∧ (s.setPair x).chp = s.chp ∧ (s.setPair x).adc = s.adc ∧ (s.setPair x).sdm = s.sdm ∧
    (s.setPair x).cmps = s.cmps ∧ (s.setPair x).ang = s.ang ∧ (s.setPair x).evt = s.evt ∧ (s.setPair x).grd = s.grd ∧
    (s.setPair x).isl = s.isl ∧ (s.setPair x).lif = s.lif ∧ (s.setPair x).thm = s.thm ∧ (s.setPair x).mtr = s.mtr ∧
    (s.setPair x).recd = s.recd ∧ (s.setPair x).shf = s.shf ∧ (s.setPair x).trs = s.trs ∧ (s.setPair x).pair = x ∧
    (s.setPair x).mon = s.mon ∧ (s.setPair x).tim = s.tim ∧ (s.setPair x).eth = s.eth ∧ (s.setPair x).pins = s.pins ∧
    (s.setPair x).img = s.img ∧ (s.setPair x).sys = s.sys ∧ (s.setPair x).hu = s.hu ∧ (s.setPair x).host = s.host ∧
    (s.setPair x).jtag = s.jtag ∧ (s.setPair x).fan = s.fan ∧ (s.setPair x).spareLog = s.spareLog ∧
    (s.setPair x).evq = s.evq :=
  ⟨rfl, rfl, rfl, rfl, rfl, rfl, rfl, rfl, rfl, rfl, rfl, rfl, rfl, rfl, rfl, rfl, rfl, rfl, rfl, rfl,
    rfl, rfl, rfl, rfl, rfl, rfl, rfl, rfl, rfl, rfl, rfl, rfl, rfl, rfl, rfl, rfl, rfl, rfl, rfl, rfl, rfl, rfl, rfl, rfl⟩

@[simp] theorem State.setTrs_fields (s : State) (x : Trs) :
    (s.setTrs x).pending = s.pending ∧ (s.setTrs x).free = s.free ∧ (s.setTrs x).regs = s.regs ∧
    (s.setTrs x).mem = s.mem ∧ (s.setTrs x).cfg = s.cfg ∧ (s.setTrs x).fuses = s.fuses ∧ (s.setTrs x).cab = s.cab ∧
    (s.setTrs x).cabRes = s.cabRes ∧ (s.setTrs x).tier = s.tier ∧ (s.setTrs x).inReset = s.inReset ∧
    (s.setTrs x).clk = s.clk ∧ (s.setTrs x).le = s.le ∧ (s.setTrs x).ce = s.ce ∧ (s.setTrs x).gs = s.gs ∧
    (s.setTrs x).spt = s.spt ∧ (s.setTrs x).pwm = s.pwm ∧ (s.setTrs x).trp = s.trp ∧ (s.setTrs x).chp = s.chp ∧
    (s.setTrs x).adc = s.adc ∧ (s.setTrs x).sdm = s.sdm ∧ (s.setTrs x).cmps = s.cmps ∧ (s.setTrs x).ang = s.ang ∧
    (s.setTrs x).evt = s.evt ∧ (s.setTrs x).grd = s.grd ∧ (s.setTrs x).isl = s.isl ∧ (s.setTrs x).lif = s.lif ∧
    (s.setTrs x).thm = s.thm ∧ (s.setTrs x).mtr = s.mtr ∧ (s.setTrs x).recd = s.recd ∧ (s.setTrs x).shf = s.shf ∧
    (s.setTrs x).trs = x ∧ (s.setTrs x).pair = s.pair ∧ (s.setTrs x).mon = s.mon ∧ (s.setTrs x).tim = s.tim ∧
    (s.setTrs x).eth = s.eth ∧ (s.setTrs x).pins = s.pins ∧ (s.setTrs x).img = s.img ∧ (s.setTrs x).sys = s.sys ∧
    (s.setTrs x).hu = s.hu ∧ (s.setTrs x).host = s.host ∧ (s.setTrs x).jtag = s.jtag ∧ (s.setTrs x).fan = s.fan ∧
    (s.setTrs x).spareLog = s.spareLog ∧ (s.setTrs x).evq = s.evq :=
  ⟨rfl, rfl, rfl, rfl, rfl, rfl, rfl, rfl, rfl, rfl, rfl, rfl, rfl, rfl, rfl, rfl, rfl, rfl, rfl, rfl,
    rfl, rfl, rfl, rfl, rfl, rfl, rfl, rfl, rfl, rfl, rfl, rfl, rfl, rfl, rfl, rfl, rfl, rfl, rfl, rfl, rfl, rfl, rfl, rfl⟩

@[simp] theorem State.setJtag_fields (s : State) (x : Jtag) :
    (s.setJtag x).pending = s.pending ∧ (s.setJtag x).free = s.free ∧ (s.setJtag x).regs = s.regs ∧
    (s.setJtag x).mem = s.mem ∧ (s.setJtag x).cfg = s.cfg ∧ (s.setJtag x).fuses = s.fuses ∧
    (s.setJtag x).cab = s.cab ∧ (s.setJtag x).cabRes = s.cabRes ∧ (s.setJtag x).tier = s.tier ∧
    (s.setJtag x).inReset = s.inReset ∧ (s.setJtag x).clk = s.clk ∧ (s.setJtag x).le = s.le ∧
    (s.setJtag x).ce = s.ce ∧ (s.setJtag x).gs = s.gs ∧ (s.setJtag x).spt = s.spt ∧ (s.setJtag x).pwm = s.pwm ∧
    (s.setJtag x).trp = s.trp ∧ (s.setJtag x).chp = s.chp ∧ (s.setJtag x).adc = s.adc ∧ (s.setJtag x).sdm = s.sdm ∧
    (s.setJtag x).cmps = s.cmps ∧ (s.setJtag x).ang = s.ang ∧ (s.setJtag x).evt = s.evt ∧ (s.setJtag x).grd = s.grd ∧
    (s.setJtag x).isl = s.isl ∧ (s.setJtag x).lif = s.lif ∧ (s.setJtag x).thm = s.thm ∧ (s.setJtag x).mtr = s.mtr ∧
    (s.setJtag x).recd = s.recd ∧ (s.setJtag x).shf = s.shf ∧ (s.setJtag x).trs = s.trs ∧
    (s.setJtag x).pair = s.pair ∧ (s.setJtag x).mon = s.mon ∧ (s.setJtag x).tim = s.tim ∧ (s.setJtag x).eth = s.eth ∧
    (s.setJtag x).pins = s.pins ∧ (s.setJtag x).img = s.img ∧ (s.setJtag x).sys = s.sys ∧ (s.setJtag x).hu = s.hu ∧
    (s.setJtag x).host = s.host ∧ (s.setJtag x).jtag = x ∧ (s.setJtag x).fan = s.fan ∧
    (s.setJtag x).spareLog = s.spareLog ∧ (s.setJtag x).evq = s.evq :=
  ⟨rfl, rfl, rfl, rfl, rfl, rfl, rfl, rfl, rfl, rfl, rfl, rfl, rfl, rfl, rfl, rfl, rfl, rfl, rfl, rfl,
    rfl, rfl, rfl, rfl, rfl, rfl, rfl, rfl, rfl, rfl, rfl, rfl, rfl, rfl, rfl, rfl, rfl, rfl, rfl, rfl, rfl, rfl, rfl, rfl⟩

@[simp] theorem State.setEth_fields (s : State) (x : Eth) :
    (s.setEth x).pending = s.pending ∧ (s.setEth x).free = s.free ∧ (s.setEth x).regs = s.regs ∧
    (s.setEth x).mem = s.mem ∧ (s.setEth x).cfg = s.cfg ∧ (s.setEth x).fuses = s.fuses ∧ (s.setEth x).cab = s.cab ∧
    (s.setEth x).cabRes = s.cabRes ∧ (s.setEth x).tier = s.tier ∧ (s.setEth x).inReset = s.inReset ∧
    (s.setEth x).clk = s.clk ∧ (s.setEth x).le = s.le ∧ (s.setEth x).ce = s.ce ∧ (s.setEth x).gs = s.gs ∧
    (s.setEth x).spt = s.spt ∧ (s.setEth x).pwm = s.pwm ∧ (s.setEth x).trp = s.trp ∧ (s.setEth x).chp = s.chp ∧
    (s.setEth x).adc = s.adc ∧ (s.setEth x).sdm = s.sdm ∧ (s.setEth x).cmps = s.cmps ∧ (s.setEth x).ang = s.ang ∧
    (s.setEth x).evt = s.evt ∧ (s.setEth x).grd = s.grd ∧ (s.setEth x).isl = s.isl ∧ (s.setEth x).lif = s.lif ∧
    (s.setEth x).thm = s.thm ∧ (s.setEth x).mtr = s.mtr ∧ (s.setEth x).recd = s.recd ∧ (s.setEth x).shf = s.shf ∧
    (s.setEth x).trs = s.trs ∧ (s.setEth x).pair = s.pair ∧ (s.setEth x).mon = s.mon ∧ (s.setEth x).tim = s.tim ∧
    (s.setEth x).eth = x ∧ (s.setEth x).pins = s.pins ∧ (s.setEth x).img = s.img ∧ (s.setEth x).sys = s.sys ∧
    (s.setEth x).hu = s.hu ∧ (s.setEth x).host = s.host ∧ (s.setEth x).jtag = s.jtag ∧ (s.setEth x).fan = s.fan ∧
    (s.setEth x).spareLog = s.spareLog ∧ (s.setEth x).evq = s.evq :=
  ⟨rfl, rfl, rfl, rfl, rfl, rfl, rfl, rfl, rfl, rfl, rfl, rfl, rfl, rfl, rfl, rfl, rfl, rfl, rfl, rfl,
    rfl, rfl, rfl, rfl, rfl, rfl, rfl, rfl, rfl, rfl, rfl, rfl, rfl, rfl, rfl, rfl, rfl, rfl, rfl, rfl, rfl, rfl, rfl, rfl⟩

end Sys2Proof.Machine
end

