-- ==== Sys2Proof/WellFormed.lean ====
section
/-!
DEFINITION. Which commands can come: the instance that a command names exists on the device, and what it brings has the
form of the tables. A meaning never needs this: a command that names no instance finds nothing to act on.
-/

namespace Sys2Proof

/-- A context number (R76), a schedule entry (Table 3.5), a leg group and a leg (R159, R160). -/
def isCtx (n : Nat) : Bool := decide (1 ≤ n) && decide (n < 64)
def isEntry (n : Nat) : Bool := decide (n < 256)
def isGroup (g : Nat) : Bool := decide (g < 8)
def isLeg (l : Nat) : Bool := decide (l < 24)

/-- A Trestle frame in the form of Table 15.1. -/
def isFrame (f : TrsFrame) : Bool :=
  decide (f.type < 256) && decide (f.src < 64) && decide (f.dst < 256) && decide (f.hops < 64) && decide (f.epoch < 65536) &&
    decide (f.accd < 2 ^ 24) && decide (f.flg < 256) && decide (f.payload.length = 18)

/-- A request in the form of Table 19.1: only WRITE and DOORBELL carry data. -/
def isRequest (q : HostReq) : Bool :=
  if q.cmd.toNat % 16 = 2 ∨ q.cmd.toNat % 16 = 3 then decide (q.data.length = q.len.toNat) else q.data.isEmpty

/-- A command that can come. -/
def Instr.wf : Instr → Bool
  | .release | .tier0Guard | .pllBootLock | .bootRomDone _ _ _ _ _ | .bootImageCommit => true
  | .mppSampleDone steps => decide (steps.length = 16)
  | .brownoutReset _ | .resetNAssert | .resetNRelease _ | .resetLong | .softwareReset _ | .resetEntry | .load
  | .loadComplete | .commitAt | .commitNow | .cancel | .discard | .commitInstant | .burn _ _ | .burnComplete _
  | .lock _ | .imgNoteRead | .angUpdate | .trackingValid | .angSrcWrite _ | .genStale | .masterMiss
  | .angSnapshotRead _ => true
  | .evtEntryFire due => due.all isEntry
  | .evtDeferredDispatch | .builtinStrobe => true
  | .armAbs n _ => isEntry n
  | .armRel n => isEntry n
  | .disarm n => isEntry n
  | .evtIrqSrcRead | .contextSwitch => true
  | .deadlineMiss n _ => isCtx n
  | .waitDataArrived n => isCtx n
  | .jtagHalt | .jtagRelease | .laneSelftestStart | .selftestChunk _ | .laneRemapApply | .ltestLate | .ctxEnable _
  | .ctxDisable _ | .ctxClearFault _ | .leCycRead | .leNop _ _ | .leEnd _ _ | .leYield _ _ | .leBr _ _
  | .leBeqz _ _ | .leBnez _ _ | .leBltz _ _ | .leBgez _ _ | .leDbnz _ _ | .leBpany _ _ | .leBpall _ _ | .leJal _ _
  | .leJr _ _ | .leAdd _ _ | .leSub _ _ | .leNeg _ _ | .leAbs _ _ | .leMin _ _ | .leMax _ _ | .leClamp _ _
  | .leMul _ _ | .leAddi _ _ | .leAnd _ _ | .leOr _ _ | .leXor _ _ | .leNot _ _ | .leShl _ _ | .leShr _ _
  | .leSra _ _ | .leMac _ _ | .leMsu _ _ | .leAccset _ _ | .leAccrd _ _ | .leCmpeq _ _ | .leCmplt _ _
  | .leCmple _ _ | .leCmpltu _ _ | .leFcmpeq _ _ | .leFcmplt _ _ | .leFcmple _ _ | .lePand _ _ | .lePor _ _
  | .lePxor _ _ | .lePnot _ _ | .lePset _ _ | .lePtos _ _ | .leStop _ _ | .leSel _ _ | .leFadd _ _ | .leFsub _ _
  | .leFmul _ _ | .leFma _ _ | .leFmin _ _ | .leFmax _ _ | .leFabs _ _ | .leFneg _ _ | .leFcvtf _ _ | .leFcvtx _ _
  | .leLd _ _ | .leSt _ _ | .leLi _ _ | .leMov _ _ | .leVext _ _ | .leVins _ _ | .leRsum _ _ | .leVidx _ _
  | .leGetf _ _ | .leClrf _ _ | .leClarke _ _ | .leSincos _ _ | .lePark _ _ | .leIpark _ _ | .leAtan2 _ _
  | .leSqrt _ _ | .leRecip _ _ | .lePistep _ _ | .lePibump _ _ | .leBqstep _ _ | .leRdres _ _ _ | .leStage _ _
  | .leIost _ _ | .leCommit _ _ | .leTrc _ _ | .leSig _ _ | .leCandset _ _ | .leCandeval _ _ _ | .leCandsel _ _ _
  | .ceServiceStart | .ceEvaluationEnd | .plbClear _ | .setpointUpdate _ | .setpPEdge _ _ | .setpointLos _
  | .setpointRecover _ => true
  | .groupStart g => isGroup g
  | .pwmStart _ => true
  | .groupStop g => isGroup g
  | .pwmStop _ => true
  | .groupStartPoint g => isGroup g
  | .reload g => isGroup g
  | .pwmCmtRequest g => isGroup g
  | .shootBlock o => decide (o < 48)
  | .ptcHop | .ptcHopResume _ => true
  | .eventChannelFire g ch => isGroup g && decide (ch < 2)
  | .markFrame f _ => isFrame f
  | .alignPhaseStep | .alignLoss => true
  | .pwmCntRead g => isGroup g
  | .sarSlotResult c _ => decide (c < 4)
  | .adcCalibrationDone | .calCoeffApply _ | .sdmCalibrationDone => true
  | .referenceCheck p _ _ _ _ => decide (p < 5)
  | .refchkLate p => decide (p < 5)
  | .swap c => decide (c < 4)
  | .restore c => decide (c < 4)
  | .swapApply | .restoreApply => true
  | .sdmOutput k _ => decide (k < 7)
  | .sdmCtlWrite k _ => decide (k < 7)
  | .mtrResample _ => true
  | .comparatorRawChange n _ _ => decide (n < 18)
  | .comparatorFilteredChange n => decide (n < 18)
  | .tripSourceReleaseProof n => decide (n < 18)
  | .shadowMove p => decide (p < 18)
  | .shadowDisagree p => decide (p < 18)
  | .shadowMeasurement p _ => decide (p < 18)
  | .tripSourceActive src => decide (src < 128)
  | .tripSourceRelease src => decide (src < 128)
  | .orderedDelayExpiry g => isGroup g
  | .trpClr _ | .dckRelease => true
  | .legClear l => isLeg l
  | .fltNChange l _ => isLeg l
  | .fltFilterPass l _ => isLeg l
  | .fltBlankClose l => isLeg l
  | .tripInChange n _ => decide (n < 8)
  | .autoClear l => isLeg l
  | .tryCountReset l => isLeg l
  | .diagTestLeg l => isLeg l
  | .diagTestAll => true
  | .diagPeriodic l => isLeg l
  | .diagSecondConversion _ | .diagNoSlot | .chpClear | .dcov2StopStep | .dcOv3Transition _ _ | .grdUpdate
  | .rideTimerStop _ | .rtTailExpiry | .rtMaxExpiry | .tholdExpiry | .limitingClear | .grdGf | .gfTransferTimeout
  | .grdGfl | .gflTransfer | .grdCease | .grdResume | .reconOk | .passiveWindowDecision _ | .chipApply
  | .aggregationWindowEnd => true
  | .pmuReport => true
  | .snap | .save | .clearAcc _ | .periodicSave | .saveWriteDone _ | .emergencySaveDone _ => true
  | .mtrAccRead r => decide (r < 30)
  | .recSample n => decide (n < 4)
  | .recTrigger n _ _ => decide (n < 4)
  | .recCmdTrigger _ | .recArm _ | .recDisarm _ => true
  | .drawerSeal n => decide (n < 4)
  | .recRearm n => decide (n < 4)
  | .xtrigFrame f => isFrame f
  | .drawerStored n => decide (n < 4)
  | .shfRecordBegin | .shfPageDone _ _ | .shfEraseDone _ | .wearLevelMove | .loc _ | .append => true
  | .ethFrameReceive f => decide (f.mac < 2)
  | .followUpTimeout slot => decide (slot < 2)
  | .ptpMasterLoss slot => decide (slot < 3)
  | .pdelayReqSend mac => decide (mac < 2)
  | .resync => true
  | .switch slot => decide (slot < 3)
  | .timHold => true
  | .ethLinkChange mac _ => decide (mac < 2)
  | .holdoverUpdate | .revertSwitch | .txqDoorbell _ => true
  | .timedLaunch q => decide (q < 8)
  | .immediateTransmit mac => decide (mac < 2)
  | .frameLaunched mac => decide (mac < 2)
  | .timeTriggerArm n _ => decide (n < 4)
  | .timeTriggerFire n => decide (n < 4)
  | .timNsRead | .monitorTick _ _ | .splitComplete | .lockstepSweep | .clockCheck _ => true
  | .adcmConversion k _ => decide (k < 8)
  | .offPulseTestStart j => decide (j < 4)
  | .offPulseDropCheck j _ => decide (j < 4)
  | .offPulseReturn j => decide (j < 4)
  | .offPulseReturnCheck j _ => decide (j < 4)
  | .contactMismatch j => decide (j < 2)
  | .safeChannelTimeout k => decide (k < 4)
  | .safConfirm _ | .safConfirmInv _ => true
  | .monNop core _ => decide (core < 2)
  | .monAdd core _ => decide (core < 2)
  | .monSub core _ => decide (core < 2)
  | .monAnd core _ => decide (core < 2)
  | .monOr core _ => decide (core < 2)
  | .monXor core _ => decide (core < 2)
  | .monAddi core _ => decide (core < 2)
  | .monShl core _ => decide (core < 2)
  | .monShr core _ => decide (core < 2)
  | .monSra core _ => decide (core < 2)
  | .monLi core _ => decide (core < 2)
  | .monAbsd core _ => decide (core < 2)
  | .monCmpeq core _ => decide (core < 2)
  | .monCmplt core _ => decide (core < 2)
  | .monCmpltu core _ => decide (core < 2)
  | .monLd core _ => decide (core < 2)
  | .monSt core _ => decide (core < 2)
  | .monBr core _ => decide (core < 2)
  | .monBeqz core _ => decide (core < 2)
  | .monBnez core _ => decide (core < 2)
  | .monJal core _ => decide (core < 2)
  | .monJr core _ => decide (core < 2)
  | .monIn core _ => decide (core < 2)
  | .monOutGen core _ => decide (core < 2)
  | .monOutRly core _ => decide (core < 2)
  | .monOutMonOff core _ => decide (core < 2)
  | .monOutUser core _ => decide (core < 2)
  | .monOutSplit core _ => decide (core < 2)
  | .monOutStlData core _ => decide (core < 2)
  | .monOutStlSend core _ => decide (core < 2)
  | .monPub core _ => decide (core < 2)
  | .monXchg core _ => decide (core < 2)
  | .monWait core _ => decide (core < 2)
  | .monSafe core _ => decide (core < 2)
  | .trestleLinkDown _ | .linkWrap _ | .linkUnwrap _ | .enumerate => true
  | .enumerationDone rank found _ => decide (rank < 64) && decide (found < 64)
  | .trestleFrameForward f _ => isFrame f
  | .angleFrame f => isFrame f
  | .angleSend => true
  | .timeFrame f => isFrame f
  | .timeSend => true
  | .roleFrame f => isFrame f
  | .hswFrame f _ => isFrame f
  | .mirrorFrame f => isFrame f
  | .hreqFrame f => isFrame f
  | .hrspFrame f => isFrame f
  | .hdataFrame f => isFrame f
  | .dlyFrame _ _ | .dlySend _ => true
  | .roleAssign role holder _ => decide (role < 8) && decide (holder < 64)
  | .pairArm | .armActiveTimeout | .peerAbsentTimeout | .pairActInChange _ _ | .heartbeatLoss => true
  | .takeoverDrive g => isGroup g
  | .pairHandover _ | .handoverSwitch | .pairTake | .pairRejoin | .mirrorApply _ | .peerHeld | .sysLockLoss
  | .ptcLockLoss | .ethLockLoss | .referenceLoss | .pllLockReturn _ | .pllSearch | .bandLearningDone
  | .powerFailWarning _ _ | .powerFailWithdraw _ _ | .huFastSample _ | .huBulkConversion _ | .grantRequest _
  | .grantDone | .grantExpiry | .dieidRead | .lifStep | .lifeRecord | .lifWrite => true
  | .lifClear p _ => decide (p < 8)
  | .eccCorrected bank _ => decide (bank < 36)
  | .rowRemapDone bank _ _ => decide (bank < 36)
  | .rowTrackExpiry bank _ => decide (bank < 36)
  | .lifSplogRead => true
  | .thmUpdate x => decide (x.sensors.length = 4)
  | .pauseToggle | .rcTrim | .refCompUpdate | .compGainApply => true
  | .fanStart c => decide (c < 2)
  | .fanStop c => decide (c < 2)
  | .fanSetWrite c _ => decide (c < 2)
  | .observeEnd c => decide (c < 2)
  | .brakePhaseEnd c => decide (c < 2)
  | .brakeMaxExpiry c => decide (c < 2)
  | .alignEnd c => decide (c < 2)
  | .rampTimeout c => decide (c < 2)
  | .bemfCrossing c phase _ _ => decide (c < 2) && decide (phase < 3)
  | .retryWaitExpiry c => decide (c < 2)
  | .retryCountReset c => decide (c < 2)
  | .fanPiStep c => decide (c < 2)
  | .stallCrossingTimeout c => decide (c < 2)
  | .stallSpeedTimeout c => decide (c < 2)
  | .read q => isRequest q
  | .write q => isRequest q
  | .doorbell q => isRequest q
  | .requestFrameError _ _ | .fetch _ | .unknownFrame | .remoteTimeout _ | .unreachTimeout _ | .shfResetPulseEnd
  | .jtagBypass | .jtagIdcode | .jtagSamplePreload _ | .jtagExtest | .trstNAssert | .readClear _
  | .registerWrite _ _ | .reservedOpcode _ _ => true
  | .pwmEdge l => isLeg l
  | .heartbeatReturn | .referenceReturn | .vddAonLoss | .trestleFrameSend _ | .diagFirstConversion _ => true
  | .openLoopCommutation c _ => decide (c < 2)

end Sys2Proof
end

