-- ==== Sys2Proof/Tests/Slice0.lean ====
section
/-!
SUPPORT. The model's own tests: ill-formed commands, small states that meet what the statements ask, and single steps.
-/

namespace Sys2Proof.Machine

set_option Elab.async false

/-! ### Tests for what is not decided as it stands -/

theorem issues_of {s : State} {f : Form} {w : LeWord} (h : issues s f w = true) : Issues s f w := by
  simpa [issues, Issues, and_assoc] using h
theorem mon_issues_of {s : State} {i : Nat} {w : MonWord} {legal : Bool} {reads : List Nat}
    (h : (s.monReady i && decide ((s.core i).pc < monNWords s.mon.prog) && !w.ecc && legal &&
      !s.monLatentHit i reads) = true) : MonIssues s i w legal reads := by
  simpa [MonIssues, and_assoc] using h
/-- A choice among one. -/
theorem pick_one {k a : Nat} {l : List Nat} (h : l = [a]) : pickFrom k l = some a := by
  simp [pickFrom, h, Nat.mod_one]

theorem mpp_split (k : Nat) :
    ((List.replicate 11 (9 : BitVec 4) ++ List.replicate 5 3).filter fun x : BitVec 4 => x.toNat == k).length < 12 := by
  rw [List.filter_append, List.filter_replicate, List.filter_replicate]
  by_cases h : k = 9
  · subst h; decide
  · by_cases h3 : k = 3
    · subst h3; decide
    · rw [if_neg (by simpa using Ne.symm h), if_neg (by simpa using Ne.symm h3)]; decide

/-! ### Small states -/

/-- A payload of `n` bytes, zero but for those listed. -/
def pay (n : Nat) (l : List (Nat × Byte)) : List Byte := (List.range n).map fun i => (l.lookup i).getD 0
/-- The sections in force. -/
def secs (l : List (Nat × List Byte)) : SMap (Option (List Byte)) := l.map fun x => (x.1, some x.2)

def seqState : State := { inReset := false, pwm := { group := [(0, { st := .tripped, seqRun := true })] } }
def guardState : State := { inReset := false, cab := 1#1024 <<< 961, cabRes := 0 }
def evtState : State :=
  { cfg := secs [(secSched, pay 0x48 [(0x20, 1), (0x28, 0x80)])], evt := { entry := [(0, { armed := true })] } }

/-- A LOOP_PROG payload that defines context 1 with the flags given. -/
def progPay (flags : Byte) : List Byte := pay 0x50 [(0, 1), (0x30, 1), (0x32, flags)]
def leQueued (b : Bool) : State := { le := { run := true, queue := [1], ctx := [(1, { st := .ready, begun := b })] } }
def leWaiting : State := { le := { ctx := [(1, { st := .waiting })] } }
def leMissing : State := { le := { ctx := [(1, { st := .running, desc := { budget := 5 } })] } }
def leSelected (x : CtxSt) : State :=
  { regs := [(rLE_CTX_SEL, 1)], cfg := secs [(secLoopProg, progPay 0)], le := { ctx := [(1, { st := x, epoch := 7 })] } }
/-- Context 1 holds the lanes in a run of eight words. -/
def leRunWith (f : Ctx → Ctx) : State :=
  { le := { run := true, running := 1, ctx := [(1, f { st := .running, begun := true, codeWords := 8 })] } }
def leRun : State := leRunWith id
def leRunWin : State := leRunWith fun c => { c with desc := { wLen := 4 } }
def leRunStage : State := leRunWith fun c => { c with desc := { stageGroups := 1, ceQuota := 1 } }
def leRunCand : State := leRunWith fun c => { c with candset := some (candCfg 1) }
def leResult : EvalResult :=
  { cfg := candCfg 1, index := 0, code := 0, cost := 0, index2 := 0, code2 := 0, delta := 0, valid := true }
def leRunRes : State := leRunWith fun c => { c with evalIssued := true, evalRes := some leResult }
def leYielding : State :=
  { le := { run := true, running := 1, queue := [2],
            ctx := [(1, { st := .running, begun := true, codeWords := 8 }), (2, { st := .ready })] } }
def evalReq : EvalReq :=
  { ctx := 1, prio := 3, cfg := candCfg 1, x := [], r := [], d := [], state0 := 0, bankBase := 0, issued := 0,
    discarded := false, cand := [] }
def plbSelected : State := { regs := [(rPLB_CTX_SEL, 1)], le := { ctx := [(1, { epoch := 7 })] } }

/-- Set-point channels A and P in mode 1, with a window that begins at 1. -/
def sptState : State :=
  { cfg := secs [(secRegions, pay 112 [(16, 1), (0x2E, 0x80), (0x2F, 0x3F), (0x32, 0x80), (0x33, 0x3F), (64, 2)])] }
/-- A group in a state. -/
def groupIn (x : GSt) : State := { pwm := { group := [(0, { st := x })] } }
/-- Leg 0 in group 0 with outputs 0 and 1 in its first two places. -/
def legsPay : List Byte := pay 0xF8 ((0, 1) :: (List.range 6).map fun k => (0xEE + k, 0xFF)) |>.set 0xED 1
def runningState : State := groupIn .running
/-- A valid Cabinet with a carrier limit for group 0, tier 2, and a mode for the group. -/
def startable : State :=
  { cab := 1#1024 <<< 584, cabRes := 0, tier := 2, cfg := secs [(secTopology, pay 9 [(8, 1)])] }
def anEdge : Edge := { pos := 0, out := 0, on := true }
def edgeState : State :=
  { cfg := secs [(secLegs, legsPay)], pwm := { group := [(0, { st := .running })], leg := [(0, { edges := [anEdge] })] } }
/-- Outputs 0 and 1 a fused pair, both on. -/
def shootState : State :=
  { cfg := secs [(secLegs, legsPay.set 0x0D 4)], cabRes := 0
    cab := (2#1024 <<< 8) ||| (1#1024 <<< 14) ||| (4#1024 <<< 648), pwm := { out := [(0, .on), (1, .on)] } }
def channelState : State :=
  { cfg := secs [(secTopology, pay 32 [(8 + 23, 0x0E)])], pwm := { group := [(0, { st := .running, per := 100 })] } }
def hopState : State :=
  { gs := { hop := some 3 }, clk := { ptcLock := true }, pwm := { group := [(0, { st := .running })] } }
/-- A Trestle frame of a type from rank 0. -/
def roleFrame (t : Nat) : TrsFrame :=
  { type := t, src := 0, dst := 0xFF, hops := 0, ringB := false, wrapped := false, epoch := 0, accd := 0, flg := 0
    payload := [] }
/-- This device, rank 0, holds every role of the first five at epoch 0. -/
def roleState : State := { trs := { enumDone := true, role := (List.range 5).map fun r => (r, { assigned := true }) } }
def swappedState : State := { adc := { map := [(3, 4)] } }

/-- An ANALOG section that assigns comparator 0 alone. -/
def cmpPay : List Byte := pay 0x218 ((List.range 17).map fun n => (0x190 + 8 * n, 0xFF))
def cmpState : State := { cfg := secs [(secAnalog, cmpPay)] }
def shadowState (m : Bool) : State :=
  { cfg := secs [(secAnalog, cmpPay)], cmps := { shadow := [(17, { target := some 0, measuring := m })] } }

/-- A TRIP section whose row makes source 0 act on group 0. -/
def tripPay : List Byte := pay 0x1C4 [(0, 1), (0x1C1, 1), (0x1C2, 1)]
def tripping : State := { cfg := secs [(secTrip, tripPay)], pwm := { group := [(0, { st := .running })] } }
def dckState : State := { pwm := { group := [(0, { latches := [(0x33, 3)] })] } }
def legLatched : State := { pwm := { leg := [(23, { latched := true })] } }
def legLatchedOn : State := { pwm := { leg := [(23, { latched := true, filtered := true })] }, trp := { active := 1#128 <<< 41 } }
def legBlanking (b : Bool) : State := { pwm := { leg := [(23, { blanking := true, filtered := b, ignored := b })] } }
def legDue : State := { pwm := { leg := [(23, { clearDue := true })] } }
def chpState : State := { cfg := secs [(secLegs, legsPay), (secTrip, tripPay)], chp := { kind := .openCircuit } }
def dcov2State : State :=
  { cfg := secs [(secTrip, pay 0x1B0 [(0x1AC, 0xF0)])], chp := { dcov2 := some 0 }, pwm := { group := [(0, { st := .running })] } }

/-- A LOOP_COEF payload with one bank: its bytes from the first word on. -/
def bankPay (id : Nat) (l : List (Nat × Byte)) : List Byte :=
  pay (if l.isEmpty then 16 else 1040) ([(0, 1), (8, BitVec.ofNat 8 id), (9, BitVec.ofNat 8 (id / 256))] ++ l.map fun x => (16 + x.1, x.2))
def gridCfg : SMap (Option (List Byte)) := secs [(secLoopCoef, bankPay 1023 [])]
def gridState : State := { cfg := gridCfg }
def gridFormState : State := { cfg := gridCfg, grd := { gf := true } }
def injState : State := { cfg := gridCfg, isl := { inj := true } }
def limitState : State := { cfg := secs [(secLoopCoef, bankPay 1023 [(896, 1)])], grd := { limiting := true } }
def reconState : State := { cfg := gridCfg, grd := { st := 3 }, ang := { valid := true } }
def islandState : State :=
  { cfg := secs [(secLoopCoef, bankPay 1023 [(4, 0x20)])], tim := { valid := true }, isl := { inj := true } }
def envTripped : State := { cfg := secs [(secLoopCoef, bankPay 1023 [(4, 1)])], grd := { vmin := 2 ^ 32, vmax := 2 ^ 32 } }

def scaledState : State := { mtr := { scale := some ([], 0) } }

/-- One recorder unit with two buffers and trigger 3 selected. -/
def recEntryBytes : List Byte := pay 24 [(6, 2), (0x14, 8)]
def recStateWith (u : RecUnit) : State := { cfg := secs [(secRecorder, pay 16 [(0, 1)])], recd := { unit := [(0, u)] } }
def recState : State := recStateWith { entry := recEntryBytes, evHeld := 8 }
def recWaiting : State := recStateWith { st := 1 }
def recReady : State := recStateWith { st := 2 }
def aCapture (n : Nat) : Capture := { kind := 0, index := 0, wall := 0, time := 0, want := n }
def aSample : RecSample := { time := 0, words := [], state := 0, accs := [], wall := 0, sch := 0, meas := 0, pidx := 0 }
def recCapturing (n : Nat) : State := recStateWith { st := 3, cap := some (aCapture n), post := [aSample] }
def aDrawer : Drawer := { unit := 0, buf := 0, addr := 0x00200000, len := 0, capIdx := 7 }
def drawerDone : State := { recd := { done := [aDrawer] } }

def shelfCfg : SMap (Option (List Byte)) := secs [(secRecorder, pay 16 [])]
def shelfWaiting : State := { cfg := shelfCfg, shf := { host := [(0x00200000, 1)] } }
def aJob : ShfJob := { stream := 0, seq := 0, left := [], start := 0, sectors := [], busy := true, drawer := none }
def appendState : State := {}
/-- A Shelf of 2 MB with two sectors in use, one of them erased often. -/
def wornShelf : State := { cfg := shelfCfg, shf := { mb := 2, erase := [(17, 2001)], retired := (List.range 13).map (· + 18) } }
def aRecord : ShfRecord := { stream := 4, seq := 0, start := 0x01100000, sectors := [17] }
def locState : State := { shf := { records := [aRecord] } }

/-- Both MACs run and both slots are on, slot 1 on MAC 1 and preferred, with a revert time. -/
def netPay : List Byte := pay 32 [(0, 0x17), (5, 2), (9, 3), (0x1E, 1)]
def aMaster : PtpMaster := { port := 1, lastAt := 0, interval := 0, qualified := true, rank := [], steps := 0, utc := 0 }
def ptpState : State := { cfg := secs [(secNetwork, netPay)], clk := { ethLock := true } }
def timSwitchable : State :=
  { cfg := secs [(secNetwork, netPay)], tim := { st := 2, src := 0, slot := [(1, { cands := [aMaster], best := some 0 })] } }
def ttState : State := { regs := [(rTIM_TTn_CTL 3, 3)], tim := { ttArmed := 8 } }
def ethFrame (g : Bool) : EthFrame := { mac := 0, bytes := [], good := g, age := 0 }
def safetyFrame : EthFrame := { mac := 0, bytes := pay 60 [(12, 0x88), (13, 0xB5)], good := true, age := 0 }
def macState (p : Bool) : State :=
  { cfg := secs [(secNetwork, netPay)], clk := { ethLock := true }
    eth := { mac := [(0, if p then { ptp := [[1]] } else { safety := [[1]] })] } }
def launchState : State := { clk := { ethLock := true }, eth := { mac := [(0, { tx := some (.safety [], 5) })] } }

/-- A split Monitor program of one word; cell 15 of core A holds 1. -/
def monRunning : State :=
  { mon := { mode := 2, a := { run := true, m := [(15, 1)] }, prog := [1, 0] } }
def monStarting : State := { mon := { mode := 1, startDue := true, prog := [1, 0] } }
def offPulse : State := { mon := { accepted := true, out := 8 }, cfg := secs [(secSafety, pay 0x16 [(0x14, 1)])] }
def offPulseIn (n : Nat) : State := { mon := { test := [(3, n)] } }
def stlState : State :=
  { mon := { accepted := true, a := { chan := [(0, { sync := false })] } }, cfg := secs [(secSafety, pay 0x40 [(0x20, 1)])] }

/-- A pair with groups 0 to 7; `p` makes this device its primary. -/
def pairCfg (p : Bool) : SMap (Option (List Byte)) :=
  secs [(secLoopCoef, bankPay 1022 [(4, if p then 3 else 1), (10, 0xFF)])]
def pairState (r : Nat) (p : Bool) : State := { tier := 2, cfg := pairCfg p, pair := { role := r } }
def pairDriving : State := { cfg := pairCfg true, pair := { role := 3, zGroups := 0x80 } }
def pairRole : State := { cfg := pairCfg true, trs := { role := [(4, { assigned := true })] } }
def bulkState : State := { cfg := secs [(secHoldup, pay 2 [(0, 2)])] }
def lifState : State := { cfg := secs [(secLifetime, pay 16 [])] }
def rowState : State := { lif := { track := [(35, [(9, 1)])] } }

/-- Fan channel 1 enabled in speed mode, in a state of Table 18.1. -/
def fanCfg (flags : Byte) : SMap (Option (List Byte)) := secs [(secFans, pay 64 [(32, flags), (48, 0xFF), (50, 1)])]
def fanWith (flags : Byte) (x : FanCh) : State := { tier := 2, cfg := fanCfg flags, fan := [(1, x)] }
def fanState (n : Nat) : State := fanWith 1 { st := n }
def fanBackward : State := fanWith 1 { st := 1, seen := [(2, 9), (1, 9), (0, 9)], lastDt := 9 }
def fanBraking : State := fanWith 1 { st := 2, braking := true }
def fanTired : State := fanWith 1 { st := 4, retries := 3 }
def fanDuty : State := fanWith 3 { st := 5, driven := true }
def fanRunning : State := { fanWith 1 { st := 5, driven := true } with regs := [(rFAN_Cn_SET 1, 9)] }

def hostState : State := { sys := { pllBoot := true }, inReset := false }
/-- A request with tag 5 of `n` words at the first register. -/
def hostReq (op n : Nat) : HostReq :=
  { cmd := BitVec.ofNat 8 op, tag := 5, len := BitVec.ofNat 10 n, rank := 0, addr := 0, role := 0, data := [0, 0] }
def hostTagged (q : HostReq) : State := hostState.setHost { hostState.host with tags := [q.tag.toNat] }
/-- Context 1 defined with DOORBELL. -/
def bellReq : HostReq := { hostReq 3 2 with addr := 1 }
def hostAnswered : State := { hostState with host := { queue := [{ status := 0, tag := 5, rank := 0, detail := 0 }] } }
def aRemote (there : Bool) : Remote := { req := hostReq 1 1, rank := 0, there := there }
def hostRemote (there : Bool) : State := { host := { remote := [aRemote there] } }
def headedRemote : Remote := { aRemote true with head := some (0, 0, 1) }
def hostHeaded : State := { host := { remote := [headedRemote] } }
def hreqFrame2 : TrsFrame := { roleFrame 8 with dst := 0, payload := (hostReq 2 1).payload }
def hrspFrame0 : TrsFrame := { roleFrame 9 with dst := 0, payload := [0, 5] }
def hdataFrame1 : TrsFrame := { roleFrame 10 with dst := 0, flg := 1, payload := [5] }
def lockedState : State := { fuses := 1#1024 <<< 975 }

/-- A partial image of one FANS section of eight zero bytes. -/
def fanImage : List Byte :=
  let payload : List Byte := List.replicate 8 0
  let entry := [0x10, 0, 0, 0] ++ leBytes 4 88 ++ leBytes 4 8 ++ leBytes 4 1 ++ leBytes 4 (crc32c payload) ++ [1, 0, 0, 0]
  let head := [0x5A, 0x52, 0x47, 0x4F, 1, 0, 64, 0] ++ leBytes 4 96 ++ leBytes 4 1 ++ [1, 0, 1, 0, 0x40, 0x96, 0xA1, 0] ++
    List.replicate 20 0 ++ leBytes 4 (crc32c entry) ++ List.replicate 12 0
  head ++ leBytes 4 (crc32c head) ++ entry ++ payload
def loadingState : State :=
  { img := { loading := some 0x00200000 }, mem := fanImage.zipIdx.map fun x => (0x00200000 + x.2, x.1) }
/-- The boot copy's slot holds a header with no section, or with a program that finds no room. -/
def bootDueState : State :=
  { sys := { romDone := true }, img := { bootDue := true }
    mem := [(0x01000008, 64), (0x01000009, 0), (0x0100000A, 0), (0x0100000B, 0), (0x01000010, 0), (0x01000011, 0)] }
def bootFullState : State :=
  { bootDueState with
    mem := [(0x01000004, 4), (0x01000005, 0), (0x01000006, 0), (0x01000007, 0), (0x01000008, 88), (0x01000009, 0),
            (0x0100000A, 0), (0x0100000B, 0), (0x01000010, 1), (0x01000011, 0), (0x01000040, 6), (0x01000044, 0),
            (0x01000045, 0), (0x01000046, 0), (0x01000047, 0), (0x01000048, 8), (0x01000049, 0), (0x0100004A, 0),
            (0x0100004B, 0)]
    le := { ctx := [(1, { st := .running, begun := true, codeWords := 16384 })] } }
def emptyImage : Staged := { gen := 1, part := true, safetyCheck := 0, secs := [] }
def badImage : Staged := { emptyImage with secs := [{ type := secTopology, mask := 0, gen := 1, payload := [] }] }
def stagedState : State := { img := { staged := some emptyImage }, regs := [(rIMG_CMT_ANG_FR, 1)] }
def burnable : State := { regs := [(rIMG_CAB_DATA 0, 1)] }
/-- A machine that meets the conditions of Tier 2. -/
def tierTwo : State :=
  { cabRes := 0, cfg := secs [(secTopology, [])], clk := { sysLock := true, ptcLock := true, ethLock := true }
    sys := { guard := true, pllBoot := true, romDone := true }, mon := { accepted := true } }

/-- What ResetsAndReleaseComplete asks can be met. -/
theorem witness_ResetsAndReleaseComplete :
    (∃ (s : State),
      s.inReset = true ∧ s.sys.resetN = false) ∧
    (∃ (s : State) (u : State),
      s.inReset = false ∧
        u = ((s.setSys { s.sys with resetN := true }).each (List.range 8) State.resetGroup).pairTrigger ∧
        u.sequencing = false ∧ u.saveHolds = false) ∧
    (∃ (s : State) (u : State),
      s.inReset = false ∧
        u = ((s.setSys { s.sys with resetN := true }).each (List.range 8) State.resetGroup).pairTrigger ∧
        (u.sequencing = true ∨ u.saveHolds = true)) ∧
    (∃ (s : State) (u : State),
      s.inReset = false ∧ u = (s.each (List.range 8) State.resetGroup).pairTrigger ∧ u.sequencing = false ∧
        u.saveHolds = false) ∧
    (∃ (s : State) (cause : Nat),
      s.sys.pendingReset = some cause ∧ s.sequencing = false ∧ s.saveHolds = false) ∧
    (∃ (s : State),
      (s.sequencing = true ∨ s.saveHolds = true)) ∧
    (∃ (s : State) (store : Bool),
      s.inReset = false) ∧
    (∃ (s : State) (ms : Nat),
      s.sys.resetN = true) ∧
    (∃ (s : State),
      s.sys.resetN = true) :=
  ⟨⟨{}, by decide +kernel, by decide +kernel⟩,
   ⟨{ inReset := false }, _, by decide +kernel, rfl, by decide +kernel, by decide +kernel⟩,
   ⟨seqState, _, by decide +kernel, rfl, by decide +kernel⟩,
   ⟨{ inReset := false }, _, by decide +kernel, rfl, by decide +kernel, by decide +kernel⟩,
   ⟨{ sys := { pendingReset := some 1 } }, 1, by decide +kernel, by decide +kernel, by decide +kernel⟩,
   ⟨seqState, by decide +kernel⟩,
   ⟨{ inReset := false }, true, by decide +kernel⟩,
   ⟨{ sys := { resetN := true } }, 7, by decide +kernel⟩,
   ⟨{ sys := { resetN := true } }, by decide +kernel⟩⟩

/-- What ResetKeepsNvmAndShelf asks can be met. -/
theorem witness_ResetKeepsNvmAndShelf :
    (∃ (s : State) (a : Nat), s.wf = true ∧ ((0x00400000 ≤ a ∧ a < 0x00440000) ∨ 0x01000000 ≤ a)) ∧
    (∃ (s : State) (a : Nat), s.wf = true ∧ (¬((0x00400000 ≤ a ∧ a < 0x00440000) ∨ 0x01000000 ≤ a))) :=
  ⟨⟨({} : State).setByte 0x00400000 1, 0x00400000, by decide +kernel, by decide +kernel⟩,
   ⟨({} : State).setByte 0x0043FFFF 1, 0x00440000, by decide +kernel, by decide +kernel⟩⟩

/-- What BootStepsComplete asks can be met. -/
theorem witness_BootStepsComplete :
    (∃ (s : State) (u : State),
      s.inReset = false ∧ s.sys.guard = false ∧
        u = (s.setSys { s.sys with guard := true }).each (List.range 18) State.cmpBegin ∧ u.cabValid = true ∧
        u.fuse 961 12 ≠ 0) ∧
    (∃ (s : State) (u : State),
      s.inReset = false ∧ s.sys.guard = false ∧
        u = (s.setSys { s.sys with guard := true }).each (List.range 18) State.cmpBegin ∧ (u.cabValid = false ∨
        u.fuse 961 12 = 0)) ∧
    (∃ (s : State),
      s.sys.guard = true ∧ s.sys.pllBoot = false) ∧
    (∃ (s : State) (lanes : BitVec 18) (retried : BitVec 18) (aErr : Bool) (bErr : Bool) (table : Option Nat),
      s.sys.pllBoot = true ∧ s.sys.romDone = false) ∧
    (∃ (s : State) (x : Staged),
      s.sys.romDone = true ∧ s.img.bootDue = true ∧
        (s.setImg { s.img with bootDue := false }).placeStaged (stagedOf (s.copyBytes (s.img.copy - 1))) = some x) ∧
    (∃ (s : State),
      s.sys.romDone = true ∧ s.img.bootDue = true ∧
        (s.setImg { s.img with bootDue := false }).placeStaged (stagedOf (s.copyBytes (s.img.copy - 1))) = none) :=
  ⟨⟨guardState, _, by decide +kernel, by decide +kernel, rfl, by decide +kernel, by decide +kernel⟩,
   ⟨{ inReset := false }, _, by decide +kernel, by decide +kernel, rfl, by decide +kernel⟩,
   ⟨{ sys := { guard := true } }, by decide +kernel, by decide +kernel⟩,
   ⟨{ sys := { pllBoot := true } }, 0, 0, false, false, none, by decide +kernel, by decide +kernel⟩,
   ⟨bootDueState, _, by decide +kernel, by decide +kernel, rfl⟩,
   ⟨bootFullState, by decide +kernel, by decide +kernel, by decide +kernel⟩⟩

/-- What MppStepIsTaken asks can be met. -/
theorem witness_MppStepIsTaken :
    (∃ (s : State) (steps : List (BitVec 4)) (k : Nat), s.sys.romDone = true ∧ s.sys.mppDone = false ∧ s.tier < 2 ∧
      steps.length = 16 ∧ (12 ≤ (steps.filter fun x => x.toNat == k).length)) ∧
    (∃ (s : State) (steps : List (BitVec 4)), s.sys.romDone = true ∧ s.sys.mppDone = false ∧ s.tier < 2 ∧
      steps.length = 16 ∧ (∀ k, (steps.filter fun x => x.toNat == k).length < 12)) :=
  ⟨⟨{ sys := { romDone := true } }, List.replicate 12 9 ++ List.replicate 4 3, 9, by decide +kernel,
     by decide +kernel, by decide +kernel, by decide +kernel, by decide +kernel⟩,
   ⟨{ sys := { romDone := true } }, List.replicate 11 9 ++ List.replicate 5 3, by decide +kernel, by decide +kernel,
     by decide +kernel, by decide +kernel, mpp_split⟩⟩

/-- What TierFollowsItsConditions asks can be met. -/
theorem witness_TierFollowsItsConditions :
    (∃ (s : State), (2 ≤ s.tier ∨ s.tierOf < 2)) ∧
    (∃ (s : State), s.tier < 2 ∧ 2 ≤ s.tierOf) :=
  ⟨⟨{}, by decide +kernel⟩,
   ⟨tierTwo, by decide +kernel, by decide +kernel⟩⟩

/-- What ImageCommandsComplete asks can be met. -/
theorem witness_ImageCommandsComplete :
    (∃ (s : State),
      s.img.staged = none ∧ s.img.loading = none ∧ s.img.pend = none ∧ shelfBase ≤ (s.reg rIMG_SRC).toNat ∧
        (s.reg rIMG_SRC).toNat < shelfBase + s.shf.mb * 2 ^ 20) ∧
    (∃ (s : State) (u : State) (x : Staged) (y : Staged) (a : Nat),
      s.img.loading = some a ∧ u = s.setImg { s.img with loading := none } ∧ imageResult (u.loadBytes a) = 0 ∧
        x = stagedOf (u.loadBytes a) ∧ (x.part = false ∨ genAhead x.gen s.img.gen = true) ∧
        partitionsFit (u.withImage x).partitions (field ((u.withImage x).sec secRecorder) 8 4) = true ∧
        u.placeStaged x = some y) ∧
    (∃ (s : State) (x : Staged),
      s.img.pend = none ∧ s.img.staged = some x ∧ aheadMod (2 ^ 80) (angWord s.ang.sch) s.commitAngle = true) ∧
    (∃ (s : State) (x : Staged),
      s.img.pend = none ∧ s.img.staged = some x) ∧
    (∃ (s : State) (x : Staged) (a : Nat),
      s.img.pend = some a ∧ s.img.staged = some x ∧ aheadMod (2 ^ 80) (angWord s.ang.sch) a = false) :=
  ⟨⟨(({} : State).setReg rIMG_SRC 0x01000000), by decide +kernel, by decide +kernel, by decide +kernel,
    by decide +kernel, by decide +kernel⟩,
   ⟨loadingState, _, _, _, 0x00200000, by decide +kernel, rfl, by decide +kernel, rfl, (Or.inr (by decide +kernel)),
     by decide +kernel, rfl⟩,
   ⟨stagedState, emptyImage, by decide +kernel, by decide +kernel, by decide +kernel⟩,
   ⟨stagedState, emptyImage, by decide +kernel, by decide +kernel⟩,
   ⟨{ stagedState with img := { stagedState.img with pend := some (2 ^ 80 - 1) } }, emptyImage, (2 ^ 80 - 1),
     by decide +kernel, by decide +kernel, by decide +kernel⟩⟩

/-- What CommitIsAllOrNothing asks can be met. -/
theorem witness_CommitIsAllOrNothing :
    (∃ (s : State) (x : Staged) (r : Nat) (t : Nat) (d : Nat), (s.setImg { s.img with
        pend := none, structPend := 0 }).commitRefusal x = some (r, t, d)) ∧
    (∃ (s : State) (x : Staged), (s.setImg { s.img with pend := none, structPend := 0 }).commitRefusal x = none) :=
  ⟨⟨{}, badImage, 6, 1, _, rfl⟩,
   ⟨{}, emptyImage, by decide +kernel⟩⟩

/-- What CabinetCommandsComplete asks can be met. -/
theorem witness_CabinetCommandsComplete :
    (∃ (s : State),
      s.img.burning = false ∧ s.burnRefuse 0xC4B1 true = 0) ∧
    (∃ (s : State) (key : BitVec 16) (vdd : Bool),
      s.img.burning = false ∧ s.burnRefuse key vdd ≠ 0) ∧
    (∃ (s : State) (back : BitVec 1024),
      s.img.burning = true) ∧
    (∃ (s : State),
      s.img.burning = false ∧ s.img.burned = true ∧ s.cabLocked = false) :=
  ⟨⟨burnable, by decide +kernel, by decide +kernel⟩,
   ⟨{}, 0, true, by decide +kernel, by decide +kernel⟩,
   ⟨{ img := { burning := true } }, 5, by decide +kernel⟩,
   ⟨{ img := { burned := true } }, by decide +kernel, by decide +kernel, by decide +kernel⟩⟩

/-- What AngleCommandsComplete asks can be met. -/
theorem witness_AngleCommandsComplete :
    (∃ (s : State) (u : State),
      s.inReset = false ∧ u = s.edges s.edgesToUpdate) ∧
    (∃ (s : State),
      s.ang.valid = false ∧ 100 ≤ s.ang.pass ∧ (s.ang.seen = true ∨ s.hasSec secSched = true)) ∧
    (∃ (s : State),
      s.ang.valid = false ∧ 100 ≤ s.ang.pass ∧ s.ang.seen = false ∧ s.hasSec secSched = false) ∧
    (∃ (s : State),
      s.ang.src = 1) ∧
    (∃ (s : State),
      s.ang.masOk = true ∧ s.ang.masAt + 400 * s.masterMiss ≤ s.clk.t) :=
  ⟨⟨{ inReset := false, clk := { t := 4000 } }, _, by decide +kernel, rfl⟩,
   ⟨{ ang := { pass := 100, seen := true } }, by decide +kernel, by decide +kernel, by decide +kernel⟩,
   ⟨{ ang := { pass := 100 } }, by decide +kernel, by decide +kernel, by decide +kernel, by decide +kernel⟩,
   ⟨{ ang := { src := 1 } }, by decide +kernel⟩,
   ⟨{ ang := { masOk := true }, clk := { t := 1200 } }, by decide +kernel, by decide +kernel⟩⟩

/-- What SchedulingAngleSlews asks can be met. -/
theorem witness_SchedulingAngleSlews :
    (∃ (s : State), s.ang.live = true ∧ s.ang.e < -(s.jthr : Int)) ∧
    (∃ (s : State) (hz : Nat), s.ang.live = true ∧ s.ang.e = 0 ∧ 0 < s.jthr ∧ 0 < hz) :=
  ⟨⟨{ ang := { live := true, src := 1, sch := 0x400000000000 } }, by decide +kernel, by decide +kernel⟩,
   ⟨{ ang := { live := true } }, 400000000, by decide +kernel, by decide +kernel, by decide +kernel,
     by decide +kernel⟩⟩

/-- The entry has come due on the scheduling angle. -/
def evtDueState : State := { evtState with ang := { live := true }, evt := { entry := [(0, { armed := true, due := 0, left := 1 })] } }

/-- What EventCommandsComplete asks can be met. -/
theorem witness_EventCommandsComplete :
    (∃ (s : State) (i : Nat),
      s.evt.deferred = [] ∧ i < s.nEntries ∧ s.entryDue i = true) ∧
    (∃ (s : State) (i : Nat),
      s.evt.deferred = [] ∧ s.entryDue i = false) ∧
    (∃ (s : State) (i : Nat) (due : Nat) (rest : List (Nat × Nat)),
      s.evt.deferred = (i, due) :: rest) ∧
    (∃ (s : State),
      s.hasSec secSched = false) ∧
    (∃ (s : State) (i : Nat) (t : BitVec 96),
      s.hostEntry i = true ∧ (s.entryTb i ≠ 1 ∨ (s.grp (s.entryGroup i)).st = .running) ∧
        aheadMod (s.entryNow i).2 (s.entryNow i).1 (timeOf (s.entryTb i) t.toNat) = true) ∧
    (∃ (s : State) (i : Nat),
      s.hostEntry i = true) ∧
    (∃ (s : State) (i : Nat),
      s.entryDue i = false) ∧
    (∃ (s : State) (i : Nat),
      s.hostEntry i = true) ∧
    (∃ (s : State) (i : Nat) (t : BitVec 96),
      s.hostEntry i = false) :=
  ⟨⟨evtDueState, 0, by decide +kernel, by decide +kernel, by decide +kernel⟩,
   ⟨{}, 0, by decide +kernel, by decide +kernel⟩,
   ⟨{ evt := { deferred := [(5, 9)] } }, 5, 9, [], by decide +kernel⟩,
   ⟨{}, by decide +kernel⟩,
   ⟨evtState, 0, 4096, by decide +kernel, by decide +kernel, by decide +kernel⟩,
   ⟨evtState, 0, by decide +kernel⟩,
   ⟨{}, 0, by decide +kernel⟩,
   ⟨evtState, 0, by decide +kernel⟩,
   ⟨{}, 0, 0, by decide +kernel⟩⟩

/-- What ContextCommandsComplete asks can be met. -/
theorem witness_ContextCommandsComplete :
    (∃ (s : State) (n : Nat), s.leOpen = true ∧ s.le.running = 0 ∧ s.best = some n ∧ (s.ctx n).begun = true) ∧
    (∃ (s : State) (n : Nat), s.leOpen = true ∧ s.le.running = 0 ∧ s.best = some n ∧ (s.ctx n).begun = false) ∧
    (∃ (s : State) (n : Nat), (s.ctx n).st = .waiting) ∧
    (∃ (s : State) (n : Nat), (s.ctx n).desc.budget ≠ 0 ∧ s.le.halted = false ∧ (s.ctx n).st.inRun = true ∧ (s.ctx
      n).req.missed = false ∧ (s.ctx n).desc.missAct = 0) ∧
    (∃ (s : State), s.le.halted = false) ∧
    (∃ (s : State), s.le.halted = true) ∧
    (∃ (s : State), s.le.testLane = none) ∧
    (∃ (s : State), s.le.running = 0 ∧ s.le.mapped ≠ s.le.failed) ∧
    (∃ (s : State), s.le.testLane.isSome = true) ∧
    (∃ (s : State) (n : Nat) (e : BitVec 16), n = bits (s.reg rLE_CTX_SEL).toNat 0 6 ∧ n ≠ 0 ∧ (s.ctx n).epoch =
      e.toNat ∧ (s.ctx n).st = .disabled ∧ (s.desc n).isSome = true) ∧
    (∃ (s : State) (n : Nat) (e : BitVec 16), n = bits (s.reg rLE_CTX_SEL).toNat 0 6 ∧ n ≠ 0 ∧ (s.ctx n).epoch =
      e.toNat ∧ (s.ctx n).st = .idle) ∧
    (∃ (s : State) (n : Nat) (e : BitVec 16), n = bits (s.reg rLE_CTX_SEL).toNat 0 6 ∧ n ≠ 0 ∧ (s.ctx n).epoch =
      e.toNat ∧ ((s.ctx n).st = .running ∨ (s.ctx n).st = .preempted ∨ (s.ctx n).st = .waiting)) ∧
    (∃ (s : State) (n : Nat) (e : BitVec 16), n = bits (s.reg rLE_CTX_SEL).toNat 0 6 ∧ n ≠ 0 ∧ (s.ctx n).epoch =
      e.toNat ∧ (s.ctx n).st = .fault) ∧
    (∃ (s : State) (u : State) (n : Nat) (e : BitVec 16), n = bits (s.reg rLE_CTX_SEL).toNat 0 6 ∧ n ≠ 0 ∧ (s.ctx
      n).epoch ≠ e.toNat ∧ u = (s.setCtx n { s.ctx n with cntStale := satInc (s.ctx n).cntStale }).setBit rLE_STAT 6) :=
  ⟨⟨leQueued true, 1, by decide +kernel, by decide +kernel, by decide +kernel, by decide +kernel⟩,
   ⟨leQueued false, 1, by decide +kernel, by decide +kernel, by decide +kernel, by decide +kernel⟩,
   ⟨leWaiting, 1, by decide +kernel⟩,
   ⟨leMissing, 1, by decide +kernel, by decide +kernel, by decide +kernel, by decide +kernel, by decide +kernel⟩,
   ⟨{}, by decide +kernel⟩,
   ⟨{ le := { halted := true } }, by decide +kernel⟩,
   ⟨{}, by decide +kernel⟩,
   ⟨{ le := { failed := 1 } }, by decide +kernel, by decide +kernel⟩,
   ⟨{ le := { testLane := some (0, 0) } }, by decide +kernel⟩,
   ⟨leSelected .disabled, _, 7, rfl, by decide +kernel, by decide +kernel, by decide +kernel, by decide +kernel⟩,
   ⟨leSelected .idle, _, 7, rfl, by decide +kernel, by decide +kernel, by decide +kernel⟩,
   ⟨leSelected .running, _, 7, rfl, by decide +kernel, by decide +kernel, by decide +kernel⟩,
   ⟨leSelected .fault, _, 7, rfl, by decide +kernel, by decide +kernel, by decide +kernel⟩,
   ⟨leSelected .fault, _, _, 8, rfl, by decide +kernel, by decide +kernel, rfl⟩⟩

/-- What FixedPointInstructions asks can be met. -/
theorem witness_FixedPointInstructions :
    (∃ (s : State) (w : LeWord), Issues s { s := .opt, p := true, d := .dst, a := .src, b := .src } w) ∧
    (∃ (s : State) (w : LeWord), Issues s { s := .opt, p := true, d := .dst, a := .src } w) ∧
    (∃ (s : State) (w : LeWord), Issues s { p := true, d := .dst, a := .src, b := .src } w) ∧
    (∃ (s : State) (w : LeWord), Issues s { p := true, d := .dst, a := .src, b := .src, c := .src } w) ∧
    (∃ (s : State) (w : LeWord), Issues s { s := .opt, n := .opt, p := true, d := .dst, a := .src, b := .src } w) ∧
    (∃ (s : State) (w : LeWord), Issues s { n := .opt, p := true, d := .dst, a := .src } w) :=
  ⟨⟨leRun, { d := 0, a := 0, b := 0, c := 0, s := false, n := false, v := false, p := false, imm := 0 }, issues_of
     (by decide +kernel)⟩,
   ⟨leRun, { d := 0, a := 0, b := 0, c := 0, s := false, n := false, v := false, p := false, imm := 0 }, issues_of
     (by decide +kernel)⟩,
   ⟨leRun, { d := 0, a := 0, b := 0, c := 0, s := false, n := false, v := false, p := false, imm := 0 }, issues_of
     (by decide +kernel)⟩,
   ⟨leRun, { d := 0, a := 0, b := 0, c := 0, s := false, n := false, v := false, p := false, imm := 0 }, issues_of
     (by decide +kernel)⟩,
   ⟨leRun, { d := 0, a := 0, b := 0, c := 0, s := false, n := false, v := false, p := false, imm := 0 }, issues_of
     (by decide +kernel)⟩,
   ⟨leRun, { d := 0, a := 0, b := 0, c := 0, s := false, n := false, v := false, p := false, imm := 0 }, issues_of
     (by decide +kernel)⟩⟩

/-- What BitwiseAndMoveInstructions asks can be met. -/
theorem witness_BitwiseAndMoveInstructions :
    (∃ (s : State) (w : LeWord), Issues s { p := true, d := .dst, a := .src, b := .src } w) ∧
    (∃ (s : State) (w : LeWord), Issues s { p := true, d := .dst, a := .src } w) ∧
    (∃ (s : State) (w : LeWord), Issues s { d := .dst } w) ∧
    (∃ (s : State) (w : LeWord), Issues s { v := .one, d := .vdst } w) ∧
    (∃ (s : State) (w : LeWord), Issues s { d := .dst, a := .src, b := .src, c := .selC } w) :=
  ⟨⟨leRun, { d := 0, a := 0, b := 0, c := 0, s := false, n := false, v := false, p := false, imm := 0 }, issues_of
     (by decide +kernel)⟩,
   ⟨leRun, { d := 0, a := 0, b := 0, c := 0, s := false, n := false, v := false, p := false, imm := 0 }, issues_of
     (by decide +kernel)⟩,
   ⟨leRun, { d := 0, a := 0, b := 0, c := 0, s := false, n := false, v := false, p := false, imm := 0 }, issues_of
     (by decide +kernel)⟩,
   ⟨leRun, { d := 0, a := 0, b := 0, c := 0, s := false, n := false, v := true, p := false, imm := 0 }, issues_of
     (by decide +kernel)⟩,
   ⟨leRun, { d := 0, a := 0, b := 0, c := 0, s := false, n := false, v := false, p := false, imm := 0 }, issues_of
     (by decide +kernel)⟩⟩

/-- What FloatInstructions asks can be met. -/
theorem witness_FloatInstructions :
    (∃ (s : State) (w : LeWord), Issues s { p := true, d := .dst, a := .src, b := .src } w) ∧
    (∃ (s : State) (w : LeWord), Issues s { p := true, d := .dst, a := .src, b := .src, c := .src } w) ∧
    (∃ (s : State) (w : LeWord), Issues s { p := true, d := .dst, a := .src } w) ∧
    (∃ (s : State) (w : LeWord), Issues s { s := .one, n := .opt, p := true, d := .dst, a := .src } w) ∧
    (∃ (s : State) (w : LeWord), Issues s { d := .dst, a := .src } w) ∧
    (∃ (s : State) (w : LeWord), Issues s { d := .dst, a := .src, b := .src } w) :=
  ⟨⟨leRun, { d := 0, a := 0, b := 0, c := 0, s := false, n := false, v := false, p := false, imm := 0 }, issues_of
     (by decide +kernel)⟩,
   ⟨leRun, { d := 0, a := 0, b := 0, c := 0, s := false, n := false, v := false, p := false, imm := 0 }, issues_of
     (by decide +kernel)⟩,
   ⟨leRun, { d := 0, a := 0, b := 0, c := 0, s := false, n := false, v := false, p := false, imm := 0 }, issues_of
     (by decide +kernel)⟩,
   ⟨leRun, { d := 0, a := 0, b := 0, c := 0, s := true, n := false, v := false, p := false, imm := 0 }, issues_of
     (by decide +kernel)⟩,
   ⟨leRun, { d := 0, a := 0, b := 0, c := 0, s := false, n := false, v := false, p := false, imm := 0 }, issues_of
     (by decide +kernel)⟩,
   ⟨leRun, { d := 0, a := 0, b := 0, c := 0, s := false, n := false, v := false, p := false, imm := 0 }, issues_of
     (by decide +kernel)⟩⟩

/-- What FusedInstructions asks can be met. -/
theorem witness_FusedInstructions :
    (∃ (s : State) (w : LeWord), Issues s { s := .opt, n := .opt, d := .pairDst, a := .src, b := .src, c := .src } w) ∧
    (∃ (s : State) (w : LeWord), Issues s { d := .pairDst, a := .src } w) ∧
    (∃ (s : State) (w : LeWord), Issues s { s := .one, n := .opt, d := .dst, a := .src, b := .src } w) ∧
    (∃ (s : State) (w : LeWord) (r : Nat → (Word × Word) × Word), Issues s {
        s := .one, n := .opt, d := .dst, a := .src, b := .dst } w ∧ (∀ i, r i = piStep w.n (s.leCoefWord s.cur w 0 i)
      (s.leCoefWord s.cur w 1 i) (s.leCoefWord s.cur w 2 i) (s.leCoefWord s.cur w 3 i) (s.opA w i).toInt (s.opB w
      i).toInt)) ∧
    (∃ (s : State) (w : LeWord) (z : Nat → Word) (r : Nat → Word × Word × Word × Word), Issues s {
        s := .one, n := .opt, d := .dst, a := .src, b := .pairDst } w ∧ (∀ i, z i = if w.v then s.cur.vReg (w.b.toNat
      + 1) i else s.cur.sReg (w.b.toNat + 1)) ∧ (∀ i, r i = bqStep w.n (s.leCoefWord s.cur w 0 i) (s.leCoefWord s.cur
      w 1 i) (s.leCoefWord s.cur w 2 i) (s.leCoefWord s.cur w 3 i) (s.leCoefWord s.cur w 4 i) (s.opA w i).toInt
      (s.opB w i).toInt (z i).toInt)) :=
  ⟨⟨leRun, { d := 0, a := 0, b := 0, c := 0, s := false, n := false, v := false, p := false, imm := 0 }, issues_of
     (by decide +kernel)⟩,
   ⟨leRun, { d := 0, a := 0, b := 0, c := 0, s := false, n := false, v := false, p := false, imm := 0 }, issues_of
     (by decide +kernel)⟩,
   ⟨leRun, { d := 0, a := 0, b := 0, c := 0, s := true, n := false, v := false, p := false, imm := 0 }, issues_of
     (by decide +kernel)⟩,
   ⟨leRun, { d := 0, a := 0, b := 0, c := 0, s := true, n := false, v := false, p := false, imm := 0 }, _, issues_of
     (by decide +kernel), fun _ => rfl⟩,
   ⟨leRun, { d := 0, a := 0, b := 0, c := 0, s := true, n := false, v := false, p := false, imm := 0 }, _, _,
     issues_of (by decide +kernel), fun _ => rfl, fun _ => rfl⟩⟩

/-- What BranchInstructions asks can be met. -/
theorem witness_BranchInstructions :
    (∃ (s : State) (w : LeWord), Issues s { v := .zero } w) ∧
    (∃ (s : State) (w : LeWord), Issues s { v := .zero } w ∧ 0 ≤ (s.cur.pc : Int) + w.imm.toInt ∧ (s.cur.pc : Int) +
      w.imm.toInt < s.cur.codeWords) ∧
    (∃ (s : State) (w : LeWord), Issues s { v := .zero, a := .scalar } w ∧ (s.cur.sReg w.a.toNat = 0 → 0 ≤ ((s.cur.pc
      : Int) + w.imm.toInt) ∧ ((s.cur.pc : Int) + w.imm.toInt) < s.cur.codeWords)) ∧
    (∃ (s : State) (w : LeWord), Issues s { v := .zero, a := .scalar } w ∧ (s.cur.sReg w.a.toNat ≠ 0 → 0 ≤ ((s.cur.pc
      : Int) + w.imm.toInt) ∧ ((s.cur.pc : Int) + w.imm.toInt) < s.cur.codeWords)) ∧
    (∃ (s : State) (w : LeWord), Issues s { v := .zero, a := .scalar } w ∧ ((s.cur.sReg w.a.toNat).toInt < 0 → 0 ≤
      ((s.cur.pc : Int) + w.imm.toInt) ∧ ((s.cur.pc : Int) + w.imm.toInt) < s.cur.codeWords)) ∧
    (∃ (s : State) (w : LeWord), Issues s { v := .zero, a := .scalar } w ∧ (0 ≤ (s.cur.sReg w.a.toNat).toInt → 0 ≤
      ((s.cur.pc : Int) + w.imm.toInt) ∧ ((s.cur.pc : Int) + w.imm.toInt) < s.cur.codeWords)) ∧
    (∃ (s : State) (w : LeWord), Issues s { v := .zero, a := .pred } w ∧ (s.cur.pReg w.a.toNat ≠ 0 → 0 ≤ ((s.cur.pc :
      Int) + w.imm.toInt) ∧ ((s.cur.pc : Int) + w.imm.toInt) < s.cur.codeWords)) ∧
    (∃ (s : State) (w : LeWord), Issues s { v := .zero, a := .pred } w ∧ (s.cur.pReg w.a.toNat = 0xFFFF → 0 ≤
      ((s.cur.pc : Int) + w.imm.toInt) ∧ ((s.cur.pc : Int) + w.imm.toInt) < s.cur.codeWords)) ∧
    (∃ (s : State) (w : LeWord), Issues s { v := .zero } w ∧ ((s.cur.codeWords : Int) ≤ (s.cur.pc : Int) +
      w.imm.toInt ∨ (s.cur.pc : Int) + w.imm.toInt < 0)) ∧
    (∃ (s : State) (w : LeWord), Issues s { v := .zero, a := .scalar } w ∧ (s.cur.sReg w.a.toNat ≠ 1 → 0 ≤ (s.cur.pc
      : Int) + w.imm.toInt ∧ (s.cur.pc : Int) + w.imm.toInt < s.cur.codeWords)) ∧
    (∃ (s : State) (w : LeWord), Issues s { v := .zero, d := .scalar } w ∧ 0 ≤ (s.cur.pc : Int) + w.imm.toInt ∧
      (s.cur.pc : Int) + w.imm.toInt < s.cur.codeWords) ∧
    (∃ (s : State) (w : LeWord), Issues s { v := .zero, a := .scalar } w ∧ 0 ≤ (s.cur.sReg w.a.toNat).toInt ∧
      (s.cur.sReg w.a.toNat).toInt < s.cur.codeWords) :=
  ⟨⟨leRun, { d := 0, a := 0, b := 0, c := 0, s := false, n := false, v := false, p := false, imm := 0 }, issues_of
     (by decide +kernel)⟩,
   ⟨leRun, { d := 0, a := 0, b := 0, c := 0, s := false, n := false, v := false, p := false, imm := 0 }, issues_of
     (by decide +kernel), by decide +kernel, by decide +kernel⟩,
   ⟨leRun, { d := 0, a := 0, b := 0, c := 0, s := false, n := false, v := false, p := false, imm := 0 }, issues_of
     (by decide +kernel), by decide +kernel⟩,
   ⟨leRun, { d := 0, a := 0, b := 0, c := 0, s := false, n := false, v := false, p := false, imm := 0 }, issues_of
     (by decide +kernel), by decide +kernel⟩,
   ⟨leRun, { d := 0, a := 0, b := 0, c := 0, s := false, n := false, v := false, p := false, imm := 0 }, issues_of
     (by decide +kernel), by decide +kernel⟩,
   ⟨leRun, { d := 0, a := 0, b := 0, c := 0, s := false, n := false, v := false, p := false, imm := 0 }, issues_of
     (by decide +kernel), by decide +kernel⟩,
   ⟨leRun, { d := 0, a := 0, b := 0, c := 0, s := false, n := false, v := false, p := false, imm := 0 }, issues_of
     (by decide +kernel), by decide +kernel⟩,
   ⟨leRun, { d := 0, a := 0, b := 0, c := 0, s := false, n := false, v := false, p := false, imm := 0 }, issues_of
     (by decide +kernel), by decide +kernel⟩,
   ⟨leRun, { d := 0, a := 0, b := 0, c := 0, s := false, n := false, v := false, p := false, imm := 8 }, issues_of
     (by decide +kernel), by decide +kernel⟩,
   ⟨leRun, { d := 0, a := 0, b := 0, c := 0, s := false, n := false, v := false, p := false, imm := 0 }, issues_of
     (by decide +kernel), by decide +kernel⟩,
   ⟨leRun, { d := 0, a := 0, b := 0, c := 0, s := false, n := false, v := false, p := false, imm := 0 }, issues_of
     (by decide +kernel), by decide +kernel, by decide +kernel⟩,
   ⟨leRun, { d := 0, a := 0, b := 0, c := 0, s := false, n := false, v := false, p := false, imm := 0 }, issues_of
     (by decide +kernel), by decide +kernel, by decide +kernel⟩⟩

/-- What PredicateAndAccumulatorInstructions asks can be met. -/
theorem witness_PredicateAndAccumulatorInstructions :
    (∃ (s : State) (w : LeWord), Issues s { p := true, d := .acc, a := .src, b := .src } w) ∧
    (∃ (s : State) (w : LeWord), Issues s { p := true, d := .acc, a := .src } w) ∧
    (∃ (s : State) (w : LeWord), Issues s { s := .opt, n := .opt, p := true, d := .dst, a := .acc } w) ∧
    (∃ (s : State) (w : LeWord), Issues s { p := true, d := .cmpDst, a := .src, b := .src } w) ∧
    (∃ (s : State) (w : LeWord), Issues s { v := .zero, d := .pred, a := .pred, b := .pred } w) ∧
    (∃ (s : State) (w : LeWord), Issues s { v := .zero, d := .pred, a := .pred } w) ∧
    (∃ (s : State) (w : LeWord), Issues s { v := .zero, d := .pred } w) ∧
    (∃ (s : State) (w : LeWord), Issues s { v := .zero, d := .scalar, a := .pred } w) ∧
    (∃ (s : State) (w : LeWord), Issues s { v := .zero, d := .pred, a := .scalar } w) ∧
    (∃ (s : State) (w : LeWord), Issues s { v := .one, d := .scalar, a := .src } w) ∧
    (∃ (s : State) (w : LeWord), Issues s { v := .one, d := .vdst, a := .scalar } w) ∧
    (∃ (s : State) (w : LeWord), Issues s { v := .one, s := .opt, p := true, d := .scalar, a := .src } w) ∧
    (∃ (s : State) (w : LeWord), Issues s { v := .zero, d := .scalar } w) ∧
    (∃ (s : State) (w : LeWord), Issues s { v := .zero } w) :=
  ⟨⟨leRun, { d := 0, a := 0, b := 0, c := 0, s := false, n := false, v := false, p := false, imm := 0 }, issues_of
     (by decide +kernel)⟩,
   ⟨leRun, { d := 0, a := 0, b := 0, c := 0, s := false, n := false, v := false, p := false, imm := 0 }, issues_of
     (by decide +kernel)⟩,
   ⟨leRun, { d := 0, a := 0, b := 0, c := 0, s := false, n := false, v := false, p := false, imm := 0 }, issues_of
     (by decide +kernel)⟩,
   ⟨leRun, { d := 0, a := 0, b := 0, c := 0, s := false, n := false, v := false, p := false, imm := 0 }, issues_of
     (by decide +kernel)⟩,
   ⟨leRun, { d := 0, a := 0, b := 0, c := 0, s := false, n := false, v := false, p := false, imm := 0 }, issues_of
     (by decide +kernel)⟩,
   ⟨leRun, { d := 0, a := 0, b := 0, c := 0, s := false, n := false, v := false, p := false, imm := 0 }, issues_of
     (by decide +kernel)⟩,
   ⟨leRun, { d := 0, a := 0, b := 0, c := 0, s := false, n := false, v := false, p := false, imm := 0 }, issues_of
     (by decide +kernel)⟩,
   ⟨leRun, { d := 0, a := 0, b := 0, c := 0, s := false, n := false, v := false, p := false, imm := 0 }, issues_of
     (by decide +kernel)⟩,
   ⟨leRun, { d := 0, a := 0, b := 0, c := 0, s := false, n := false, v := false, p := false, imm := 0 }, issues_of
     (by decide +kernel)⟩,
   ⟨leRun, { d := 0, a := 0, b := 0, c := 0, s := false, n := false, v := true, p := false, imm := 0 }, issues_of
     (by decide +kernel)⟩,
   ⟨leRun, { d := 0, a := 0, b := 0, c := 0, s := false, n := false, v := true, p := false, imm := 0 }, issues_of
     (by decide +kernel)⟩,
   ⟨leRun, { d := 0, a := 0, b := 0, c := 0, s := false, n := false, v := true, p := false, imm := 0 }, issues_of
     (by decide +kernel)⟩,
   ⟨leRun, { d := 0, a := 0, b := 0, c := 0, s := false, n := false, v := false, p := false, imm := 0 }, issues_of
     (by decide +kernel)⟩,
   ⟨leRun, { d := 0, a := 0, b := 0, c := 0, s := false, n := false, v := false, p := false, imm := 0 }, issues_of
     (by decide +kernel)⟩⟩

/-- What CompareAndAccumulatorLanes asks can be met. -/
theorem witness_CompareAndAccumulatorLanes :
    (∃ (w : LeWord) (i : Nat), w.v = true ∧ i < 16) ∧
    (∃ (w : LeWord), w.v = false) ∧
    (∃ (w : LeWord) (i : Nat), i < 16 ∧ i ∈ leLanes w) :=
  ⟨⟨{ d := 0, a := 0, b := 0, c := 0, s := false, n := false, v := true, p := false, imm := 0 }, 15,
     by decide +kernel, by decide +kernel⟩,
   ⟨{ d := 0, a := 0, b := 0, c := 0, s := false, n := false, v := false, p := false, imm := 0 }, by decide +kernel⟩,
   ⟨{ d := 0, a := 0, b := 0, c := 0, s := false, n := false, v := true, p := false, imm := 0 }, 15,
     by decide +kernel, by decide +kernel⟩⟩

/-- What MemoryAndStagingInstructions asks can be met. -/
theorem witness_MemoryAndStagingInstructions :
    (∃ (s : State) (w : LeWord), Issues s { p := true, d := .dst, a := .scalar, bad := decide (2 ≤ leSpace w) } w ∧
      s.cur.leMisaligned w = false) ∧
    (∃ (s : State) (w : LeWord), Issues s { p := true, d := .src, a := .scalar, bad := leSpace w == 3 } w ∧
      s.cur.leMisaligned w = false ∧ leSpace w = 0 ∧ (s.cur.taking w).all (fun i => s.cur.inWindow (s.cur.ldmAddr w
      i)) = true) ∧
    (∃ (s : State) (u : State) (w : LeWord) (l : List (Nat × Nat)), Issues s { p := true, d := .dst, a := .scalar } w
      ∧ l = ioLanes s.cur w (ioAddr s.cur w w.a) ∧ (w.v = true → ioAddr s.cur w w.a % 16 = 0) ∧ (firstIoExc (l.map
      fun x => ioReadExc x.2) = none) ∧ l.any (fun x => s.ioBusy s.le.running x.2) = false ∧ u = l.foldl (fun t x =>
      t.ioSnap s.le.running x.2) s) ∧
    (∃ (s : State) (w : LeWord) (l : List (Nat × Nat)), Issues s { p := true, a := .src, b := .scalar } w ∧ l =
      ioLanes s.cur w (ioAddr s.cur w w.b) ∧ (w.v = true → ioAddr s.cur w w.b % 16 = 0) ∧ (firstIoExc (l.map fun x =>
      ioStageExc s.cur.desc x.2) = none)) ∧
    (∃ (s : State) (w : LeWord) (l : List (Nat × Nat)), Issues s { p := true, a := .src, b := .scalar } w ∧ l =
      ioLanes s.cur w (ioAddr s.cur w w.b) ∧ (w.v = true → ioAddr s.cur w w.b % 16 = 0) ∧ (firstIoExc (l.map fun x =>
      ioWriteExc s.cur.desc x.2) = none)) ∧
    (∃ (s : State) (w : LeWord) (gs : List Nat), Issues s { v := .zero } w ∧ (gs = (List.range 8).filter fun g =>
      w.imm.getLsbD g) ∧ gs.all (fun g => bit s.cur.desc.stageGroups g) = true) ∧
    (∃ (s : State) (w : LeWord), Issues s { v := .zero, a := .scalar, b := .scalar } w) ∧
    (∃ (s : State) (w : LeWord), Issues s { v := .zero, bad := bits w.imm.toNat 0 6 == 0 } w) ∧
    (∃ (s : State) (w : LeWord), Issues s { v := .zero, bad := bits w.imm.toNat 0 8 == 0 } w ∧ bits w.imm.toNat 0 8 ≤
      s.cur.desc.ceQuota ∧ ((candCfg w.imm).wrt = true → bit s.cur.desc.stageGroups (candCfg w.imm).group = true)) ∧
    (∃ (s : State) (u : State) (w : LeWord) (k : CandCfg), Issues s { v := .one, a := .src, b := .src, c := .src } w
      ∧ s.cur.candset = some k ∧ s.cePending s.le.running = false ∧ (u = s.plbCheck s.le.running ((List.range 8).map
      fun i => s.cur.src w w.a i))) ∧
    (∃ (s : State) (u : State) (w : LeWord) (r : EvalResult), Issues s { v := .zero, d := .sPair } w ∧
      s.cur.evalIssued = true ∧ s.cur.evalRes = some r ∧ u = s.stageResult s.le.running r) ∧
    (∃ (s : State) (w : LeWord), Issues s { v := .zero } w) ∧
    (∃ (s : State) (w : LeWord), Issues s { v := .zero } w ∧ s.le.queue.any (fun m => (s.ctx m).st == .ready &&
      (s.ctx m).desc.prio == s.cur.desc.prio) = false) ∧
    (∃ (s : State) (w : LeWord), Issues s { v := .zero } w ∧ s.le.queue.any (fun m => (s.ctx m).st == .ready &&
      (s.ctx m).desc.prio == s.cur.desc.prio) = true) ∧
    (∃ (s : State), s.le.running ≠ 0 ∧ s.leOpen = true) :=
  ⟨⟨leRun, { d := 0, a := 0, b := 0, c := 0, s := false, n := false, v := false, p := false, imm := 0 }, issues_of
     (by decide +kernel), by decide +kernel⟩,
   ⟨leRunWin, { d := 0, a := 0, b := 0, c := 0, s := false, n := false, v := false, p := false, imm := 0 }, issues_of
     (by decide +kernel), by decide +kernel, by decide +kernel, by decide +kernel⟩,
   ⟨leRun, _, { d := 0, a := 0, b := 0, c := 0, s := false, n := false, v := false, p := false, imm := 0x140 }, _,
     issues_of (by decide +kernel), rfl, by decide +kernel, by decide +kernel, by decide +kernel, rfl⟩,
   ⟨leRunStage, { d := 0, a := 0, b := 0, c := 0, s := false, n := false, v := false, p := false, imm := 0x200 }, _,
     issues_of (by decide +kernel), rfl, by decide +kernel, by decide +kernel⟩,
   ⟨leRun, { d := 0, a := 0, b := 0, c := 0, s := false, n := false, v := false, p := false, imm := 0x3C5 }, _,
     issues_of (by decide +kernel), rfl, by decide +kernel, by decide +kernel⟩,
   ⟨leRunStage, { d := 0, a := 0, b := 0, c := 0, s := false, n := false, v := false, p := false, imm := 1 }, _,
     issues_of (by decide +kernel), rfl, by decide +kernel⟩,
   ⟨leRun, { d := 0, a := 0, b := 0, c := 0, s := false, n := false, v := false, p := false, imm := 0 }, issues_of
     (by decide +kernel)⟩,
   ⟨leRun, { d := 0, a := 0, b := 0, c := 0, s := false, n := false, v := false, p := false, imm := 2 }, issues_of
     (by decide +kernel)⟩,
   ⟨leRunStage, { d := 0, a := 0, b := 0, c := 0, s := false, n := false, v := false, p := false, imm := 1 },
     issues_of (by decide +kernel), by decide +kernel, by decide +kernel⟩,
   ⟨leRunCand, _, { d := 0, a := 0, b := 0, c := 0, s := false, n := false, v := true, p := false, imm := 0 },
     candCfg 1, issues_of (by decide +kernel), by decide +kernel, by decide +kernel, rfl⟩,
   ⟨leRunRes, _, { d := 0, a := 0, b := 0, c := 0, s := false, n := false, v := false, p := false, imm := 0 },
     leResult, issues_of (by decide +kernel), by decide +kernel, by decide +kernel, rfl⟩,
   ⟨leRun, { d := 0, a := 0, b := 0, c := 0, s := false, n := false, v := false, p := false, imm := 0 }, issues_of
     (by decide +kernel)⟩,
   ⟨leRun, { d := 0, a := 0, b := 0, c := 0, s := false, n := false, v := false, p := false, imm := 0 }, issues_of
     (by decide +kernel), by decide +kernel⟩,
   ⟨leYielding, { d := 0, a := 0, b := 0, c := 0, s := false, n := false, v := false, p := false, imm := 0 },
     issues_of (by decide +kernel), by decide +kernel⟩,
   ⟨leRun, by decide +kernel, by decide +kernel⟩⟩

/-- What StoreWritesItsWordsOnly asks can be met. -/
theorem witness_StoreWritesItsWordsOnly :
    (∃ (s : State) (w : LeWord) (a : Nat), Issues s { p := true, d := .src, a := .scalar, bad := leSpace w == 3 } w ∧
      s.cur.leMisaligned w = false ∧ leSpace w = 0 ∧ (s.cur.taking w).all (fun i => s.cur.inWindow (s.cur.ldmAddr w
      i)) = true ∧ (∀ i ∈ s.cur.taking w, a < ldmBase + s.cur.ldmAddr w i ∨ ldmBase + s.cur.ldmAddr w i + 4 ≤ a)) ∧
    (∃ (s : State) (w : LeWord) (i : Nat), Issues s { p := true, d := .src, a := .scalar, bad := leSpace w == 3 } w ∧
      s.cur.leMisaligned w = false ∧ leSpace w = 0 ∧ (s.cur.taking w).all (fun i => s.cur.inWindow (s.cur.ldmAddr w
      i)) = true ∧ i ∈ s.cur.taking w ∧ (∀ j ∈ s.cur.taking w, i < j → s.cur.ldmAddr w j ≠ s.cur.ldmAddr w i)) :=
  ⟨⟨leRunWin, { d := 0, a := 0, b := 0, c := 0, s := false, n := false, v := false, p := false, imm := 0 }, ldmBase +
     4, issues_of (by decide +kernel), by decide +kernel, by decide +kernel, by decide +kernel, by decide +kernel⟩,
   ⟨leRunWin, { d := 0, a := 0, b := 0, c := 0, s := false, n := false, v := false, p := false, imm := 0 }, 0,
     issues_of (by decide +kernel), by decide +kernel, by decide +kernel, by decide +kernel, by decide +kernel,
     by decide +kernel⟩⟩

/-- What ExceptionsLeaveNoEffect asks can be met. -/
theorem witness_ExceptionsLeaveNoEffect :
    (∃ (s : State), s.le.running ≠ 0 ∧ s.leOpen = true) ∧
    (∃ (s : State) (w : LeWord) (f : Form) (e : Ecc), s.le.running ≠ 0 ∧ s.leOpen = true ∧ e ≠ .fetch ∧ f.legal w =
      false) ∧
    (∃ (s : State) (t : State) (w : LeWord) (f : Form) (body : State → Nat → LeRes), Issues s f w ∧ body s
      s.le.running = .ok t) ∧
    (∃ (s : State) (n : Nat), n = s.le.running ∧ n ≠ 0) :=
  ⟨⟨leRun, by decide +kernel, by decide +kernel⟩,
   ⟨leRun, { d := 0, a := 0, b := 0, c := 0, s := false, n := false, v := false, p := false, imm := 0 }, {
       bad := true }, .data, by decide +kernel, by decide +kernel, by decide +kernel, by decide +kernel⟩,
   ⟨leRun, leRun, { d := 0, a := 0, b := 0, c := 0, s := false, n := false, v := false, p := false, imm := 0 }, {},
     fun s _ => .ok s, issues_of (by decide +kernel), rfl⟩,
   ⟨leRun, _, rfl, by decide +kernel⟩⟩

/-- What EvaluatorAndSetPointCommandsComplete asks can be met. -/
theorem witness_EvaluatorAndSetPointCommandsComplete :
    (∃ (s : State) (l : List EvalReq) (m : List EvalReq) (e : EvalReq), s.ce.service = none ∧ s.ce.queue = l ++ e ::
      m ∧ (∀ x ∈ l, x.prio < e.prio) ∧ (∀ x ∈ m, x.prio ≤ e.prio)) ∧
    (∃ (s : State) (u : State) (e : EvalReq) (o : EvalOut), s.ce.service = some e ∧ o = (s.modelOf e).evaluate
      (s.takeFrees 19).1 ∧ u = (({ (s.takeFrees 19).2 with ce := { s.ce with service := none } } : State).ceCount
      e.ctx o)) ∧
    (∃ (s : State), s.sptMode 0 = 0 ∧ s.sptMode 1 = 0) ∧
    (∃ (s : State) (u : State) (v : Word), s.sptMode 0 ≠ 0 ∧ u = ({ s with
        spt := { s.spt with quiet := s.spt.quiet + 1 } } : State).sptUpdate 0 v ∧ u.sptMode 1 ≠ 0) ∧
    (∃ (s : State), s.spt.rose = true) ∧
    (∃ (s : State) (b : Bool), s.sptMode (b2n b) ≠ 0 ∧ (s.spt.ch (b2n b)).los = false ∧ s.sptInWindow (b2n b) =
      false) ∧
    (∃ (s : State) (b : Bool), s.sptInWindow (b2n b) = true) :=
  ⟨⟨{ ce := { queue := [evalReq] } }, [], [], evalReq, by decide +kernel, by decide +kernel, by decide +kernel,
     by decide +kernel⟩,
   ⟨{ ce := { service := some evalReq } }, _, evalReq, _, by decide +kernel, rfl, rfl⟩,
   ⟨{}, by decide +kernel, by decide +kernel⟩,
   ⟨sptState, _, 0, by decide +kernel, rfl, by decide +kernel⟩,
   ⟨{ spt := { rose := true } }, by decide +kernel⟩,
   ⟨sptState, false, by decide +kernel, by decide +kernel, by decide +kernel⟩,
   ⟨{}, true, by decide +kernel⟩⟩

/-- What PlausibilityClearDoesThreeThings asks can be met. -/
theorem witness_PlausibilityClearDoesThreeThings :
    (∃ (s : State) (n : Nat) (g : Nat) (e : BitVec 16), n = bits (s.reg rPLB_CTX_SEL).toNat 0 6 ∧ n ≠ 0 ∧ (s.ctx
      n).epoch = e.toNat ∧ g < 8) ∧
    (∃ (s : State) (n : Nat) (e : BitVec 16), n = bits (s.reg rPLB_CTX_SEL).toNat 0 6 ∧ n ≠ 0 ∧ (s.ctx n).epoch ≠
      e.toNat) :=
  ⟨⟨plbSelected, _, 7, 7, rfl, by decide +kernel, by decide +kernel, by decide +kernel⟩,
   ⟨plbSelected, _, 8, rfl, by decide +kernel, by decide +kernel⟩⟩

/-- A group with leg 0 and outputs 0 and 1, on, in a state, and its output 0 an outer one. -/
def legsState (x : GSt) (npc : Bool) : State :=
  { cfg := secs [(secLegs, legsPay)], cab := if npc then (1#1024 <<< 884) ||| (1#1024 <<< 392) else 0, cabRes := 0
    pwm := { group := [(0, { st := x })], leg := [(0, { edges := [anEdge] })], out := [(0, .on), (1, .on)] } }
def dueState : State :=
  { cfg := secs [(secLegs, legsPay)], clk := { t := 100000000, ndiv := 1, rdiv := 1 }
    pwm := { group := [(0, { st := .armed, newSeal := some [] })], out := [(0, .on)] } }
def sealedState : State :=
  { cfg := secs [(secLegs, legsPay)], pwm := { group := [(0, { st := .running, pidx := 2 ^ 32 - 1, newSeal := some [5] })] } }
/-- Outputs 0 and 1 a fused pair, both on, of a RUNNING group. -/
def shootTrips : State :=
  { shootState with pwm := { shootState.pwm with group := [(0, { st := .running, shoot := 4 })] } }

/-- What GroupCommandsComplete asks can be met. -/
theorem witness_GroupCommandsComplete :
    (∃ (s : State) (g : Nat),
      g < 8 ∧ s.startRefuse g = 0 ∧ s.le.halted = false ∧ (s.grd.st = 3 → bit s.ceaseGroups g = false)) ∧
    (∃ (s : State) (g : Nat),
      g < 8 ∧ s.cabValid = true ∧ 0 < s.carMax g ∧ 2 ≤ s.tier ∧ s.clk.learning = false ∧
        bit s.img.structPend g = false ∧ s.tripBlocks g = false ∧ s.grpMode g ≠ 0 ∧ (s.grp g).st = .stopped ∧
        (s.grp g).stopAt = none) ∧
    (∃ (s : State) (g : Nat),
      g < 8 ∧ s.startRefuse g ≠ 0) ∧
    (∃ (s : State) (g : Nat),
      g < 8 ∧ (s.grp g).st.live = true ∧ (s.grp g).tripHop = false ∧ s.npcSeq g = false) ∧
    (∃ (s : State) (g : Nat),
      g < 8 ∧ (s.grp g).st.live = true ∧ (s.grp g).tripHop = false ∧ s.npcSeq g = true) ∧
    (∃ (s : State) (g : Nat),
      g < 8 ∧ ((s.grp g).st.live = false ∨ (s.grp g).tripHop = true)) ∧
    (∃ (s : State) (g : Nat),
      g < 8 ∧ (s.grp g).st = .armed ∧ s.startDue g = true) ∧
    (∃ (s : State) (g : Nat),
      g < 8 ∧ (s.grp g).st = .running) ∧
    (∃ (s : State) (l : Nat) (g : Nat) (e : Edge) (es : List Edge),
      s.legGroup l = some g ∧ (s.leg l).edges = e :: es ∧ (s.grp g).st = .running) ∧
    (∃ (s : State) (o : Nat) (g : Nat),
      s.overlap o = true ∧ s.outGroup o = some g ∧ (s.grp g).shoot ≠ s.shootMax g) ∧
    (∃ (s : State) (o : Nat) (g : Nat),
      s.overlap o = true ∧ s.outGroup o = some g ∧ (s.grp g).shoot = s.shootMax g ∧ g < 8 ∧ (s.grp g).st = .running ∧
        s.npcSeq g = false) ∧
    (∃ (s : State) (g : Nat) (ch : Nat) (cnt : Nat),
      (s.grp g).st = .running ∧ ch < 2 ∧ bit (s.grpEvcfg g ch) 9 = true ∧ bits (s.grpEvcfg g ch) 4 5 < 16 ∧
        (s.grp g).pidx % (bits (s.grpEvcfg g ch) 0 4 + 1) = 0 ∧ bit (s.grp g).evPin ch = false ∧
        cnt = (match (s.grp g).block with | some b => bits (blockWord b (11 + ch)).toNat 0 24 | none => s.grpEvdef g ch % 2 ^ 24) ∧ cnt < (s.grp g).per) :=
  ⟨⟨startable, 0, by decide +kernel, by decide +kernel, by decide +kernel, by decide +kernel⟩,
   ⟨startable, 0, by decide +kernel, by decide +kernel, by decide +kernel, by decide +kernel, by decide +kernel,
     by decide +kernel, by decide +kernel, by decide +kernel, by decide +kernel, by decide +kernel⟩,
   ⟨{}, 7, by decide +kernel, by decide +kernel⟩,
   ⟨legsState .running false, 0, by decide +kernel, by decide +kernel, by decide +kernel, by decide +kernel⟩,
   ⟨legsState .running true, 0, by decide +kernel, by decide +kernel, by decide +kernel, by decide +kernel⟩,
   ⟨legsState .tripped false, 0, by decide +kernel, by decide +kernel⟩,
   ⟨dueState, 0, by decide +kernel, by decide +kernel, by decide +kernel⟩,
   ⟨sealedState, 0, by decide +kernel, by decide +kernel⟩,
   ⟨edgeState, 0, 0, anEdge, [], by decide +kernel, by decide +kernel, by decide +kernel⟩,
   ⟨shootState, 0, 0, by decide +kernel, by decide +kernel, by decide +kernel⟩,
   ⟨shootTrips, 0, 0, by decide +kernel, by decide +kernel, by decide +kernel, by decide +kernel, by decide +kernel,
     by decide +kernel⟩,
   ⟨channelState, 0, 1, _, by decide +kernel, by decide +kernel, by decide +kernel, by decide +kernel,
     by decide +kernel, by decide +kernel, rfl, by decide +kernel⟩⟩

def hopTripped : State :=
  { clk := { hopTo := some 3, learned := [(3, 0)] }
    pwm := { group := [(0, { st := .frozen, per := 100, cntU := 4000000 }), (1, { st := .frozen, tripHop := true })] } }

/-- What CarrierClockCommandsComplete asks can be met. -/
theorem witness_CarrierClockCommandsComplete :
    (∃ (s : State) (op : Nat),
      s.gs.hop = some op ∧ s.clk.ptcLock = true ∧ s.clk.learning = false ∧ s.clk.hopTo = none ∧
        (s.grp (field (s.sec secRegions) 2 1 % 8)).st = .running) ∧
    (∃ (s : State) (op : Nat) (ns : Nat),
      s.clk.hopTo = some op ∧ s.codeUsable op = true) ∧
    (∃ (s : State),
      s.pwm.alignAct = true ∧ 500000 < s.pwm.alignErr.natAbs) ∧
    (∃ (s : State),
      (s.pwm.alignAct = false ∨ s.pwm.alignErr.natAbs ≤ 500000)) ∧
    (∃ (s : State) (f : TrsFrame) (e : Int),
      f.type = 2 ∧ s.roleAccepts 2 f = true) :=
  ⟨⟨hopState, 3, by decide +kernel, by decide +kernel, by decide +kernel, by decide +kernel, by decide +kernel⟩,
   ⟨hopTripped, 3, 7, by decide +kernel, by decide +kernel⟩,
   ⟨{ pwm := { alignAct := true, alignErr := 500001 } }, by decide +kernel, by decide +kernel⟩,
   ⟨{}, by decide +kernel⟩,
   ⟨{ roleState with pwm := { group := [(0, { st := .armed })] } }, { roleFrame 2 with accd := 8 }, 5,
     by decide +kernel, by decide +kernel⟩⟩

/-- Converter 0 in sequence 0 of one slot, index 3 and channel 5 of range 1. -/
def seqRunning : State :=
  { cfg := secs [(secAnalog, pay 0x21A [(0x12, 1), (0x218, 0x45), (0x219, 3)])]
    adc := { conv := [(0, { run := some { seq := 0, slot := 0, inj := false, tag := 1 } })] } }
def sdmState (x : SdmCh) : State := { sdm := { ch := [(4, x)] } }

/-- What ConverterCommandsComplete asks can be met. -/
theorem witness_ConverterCommandsComplete :
    (∃ (s : State) (c : Nat) (w : Nat) (x : Nat) (p : Nat) (r : SeqRun) (nV : Int) (exact : Int) (res : Word),
      c < 4 ∧ (s.conv c).run = some r ∧ x = s.slotAt c r.seq r.slot ∧ w = 64 * c + slotIndex x ∧
        p = (s.conv c).oldPhys.getD (s.adcMap c) ∧
        exact = divNearest (32768 * 2 ^ slotRange x * (nV - 1500000000)) 1500000000 ∧
        res = resultWord (BitVec.ofInt 16 (clampInt (-32768) 32767 exact)) (s.convReason c p r (slotRange x)) (decide (exact < -32768) || decide (32767 < exact)) (p == 4) (s.phys p).calibrated (bits (s.result w).toNat 24 2 + 1) (slotChannel x)) ∧
    (∃ (s : State) (c : Nat) (nV : Int),
      c < 4 ∧ (s.conv c).run = none) ∧
    (∃ (s : State),
      s.adc.calRun = true) ∧
    (∃ (s : State),
      s.adc.calRun = false) ∧
    (∃ (s : State) (m : BitVec 5),
      (s.adc.calRun = true ∨ s.regBit rADC_STAT 8 = true)) ∧
    (∃ (s : State) (m : BitVec 5),
      s.adc.calRun = false ∧ s.regBit rADC_STAT 8 = false) ∧
    (∃ (s : State) (p : Nat) (vref : BitVec 16) (vdda : BitVec 16) (agnd : BitVec 16),
      p < 5 ∧ s.servedBy p = none ∧ (328 < (vref.toInt + 6554).natAbs ∨ 328 < (agnd.toInt + 32768).natAbs)) ∧
    (∃ (s : State) (p : Nat) (c : Nat) (vref : BitVec 16) (vdda : BitVec 16) (agnd : BitVec 16),
      p < 4 ∧ s.servedBy p = some c ∧ (s.conv c).run = none ∧ (s.phys p).failed = false ∧ (s.phys 4).failed = false ∧
        s.servedBy 4 = none ∧ s.adc.armed = none) ∧
    (∃ (s : State) (p : Nat) (c : Nat) (vref : BitVec 16) (vdda : BitVec 16) (agnd : BitVec 16),
      p < 5 ∧ s.servedBy p = some c ∧ (s.conv c).run = none ∧ (s.phys p).failed = false ∧ ((s.phys 4).failed = true ∨
        p = 4)) ∧
    (∃ (s : State) (p : Nat) (c : Nat) (vref : BitVec 16) (vdda : BitVec 16) (agnd : BitVec 16) (d : Bool),
      s.servedBy p = some c ∧ (s.conv c).run.isSome = true) ∧
    (∃ (s : State) (p : Nat),
      p < 5) ∧
    (∃ (s : State) (k : Nat),
      k < 4 ∧ s.eBusy = false) ∧
    (∃ (s : State) (k : Nat),
      (4 ≤ k ∨ s.eBusy = true)) ∧
    (∃ (s : State) (k : Nat),
      s.adc.armed = some (k, false)) ∧
    (∃ (s : State) (k : Nat),
      s.adc.armed ≠ some (k, false) ∧ s.servedBy 4 = some k) ∧
    (∃ (s : State) (k : Nat),
      s.adc.armed ≠ some (k, false) ∧ s.servedBy 4 ≠ some k) ∧
    (∃ (s : State) (k : Nat),
      s.adc.armed = some (k, false)) ∧
    (∃ (s : State) (k : Nat),
      s.adc.armed = some (k, true)) ∧
    (∃ (s : State) (k : Nat) (hv : Nat) (lo : BitVec 28) (hi : BitVec 28) (c : SdmCh),
      k < 7 ∧ c = s.sdmCh k ∧ c.ctlNew = none ∧ ctlEn c.ctl = true ∧ s.sdm.clkLost = false ∧ c.hold = 0 ∧
        c.ovlLo = 0 ∧ sdmAuto k c.ctl = false) ∧
    (∃ (s : State) (k : Nat) (lo : BitVec 28) (hi : BitVec 28) (c : SdmCh),
      k < 7 ∧ c = s.sdmCh k ∧ c.ctlNew = none ∧ ctlEn c.ctl = true ∧ s.sdm.clkLost = false ∧ c.hold = 0 ∧
        c.ovlLo = 0 ∧ c.ovlHi = 0 ∧ sdmAuto k c.ctl = true) ∧
    (∃ (s : State) (k : Nat) (n : Nat) (lo : BitVec 28) (hi : BitVec 28) (c : SdmCh),
      k < 7 ∧ c = s.sdmCh k ∧ c.ctlNew = none ∧ ctlEn c.ctl = true ∧ s.sdm.clkLost = false ∧
        sdmAuto k c.ctl = false ∧ 0 < n) ∧
    (∃ (s : State) (k : Nat) (lo : BitVec 28) (hi : BitVec 28) (c : SdmCh) (v : Word),
      k < 7 ∧ c = s.sdmCh k ∧ c.ctlNew = some v ∧ v ≠ c.ctl ∧ ctlEn v = true ∧ s.sdm.clkLost = false ∧
        sdmAuto k v = false) ∧
    (∃ (s : State) (k : Nat) (n : Nat) (v : BitVec 28),
      k < 4 ∧ ctlEn (s.sdmCh k).ctl = true ∧ s.sdm.clkLost = false) ∧
    (∃ (s : State) (k : Nat) (w : Word),
      k < 7 ∧ sdmCtlOk k w = true) ∧
    (∃ (s : State) (k : Nat) (w : Word),
      k < 7 ∧ sdmCtlOk k w = false) :=
  ⟨⟨seqRunning, 0, _, _, _, { seq := 0, slot := 0, inj := false, tag := 1 }, 1000000000, _, _, by decide +kernel,
    by decide +kernel, rfl, rfl, rfl, rfl, rfl⟩,
   ⟨{}, 3, 7, by decide +kernel, by decide +kernel⟩,
   ⟨{ adc := { calRun := true } }, by decide +kernel⟩,
   ⟨{}, by decide +kernel⟩,
   ⟨{ adc := { calRun := true } }, 0x11, by decide +kernel⟩,
   ⟨{}, 0x11, by decide +kernel, by decide +kernel⟩,
   ⟨{}, 4, 0, 0, 0, by decide +kernel, by decide +kernel, by decide +kernel⟩,
   ⟨{}, 3, 3, 0, 0, 0, by decide +kernel, by decide +kernel, by decide +kernel, by decide +kernel, by decide +kernel,
     by decide +kernel, by decide +kernel⟩,
   ⟨{ adc := { phys := [(4, { failed := true })] } }, 0, 0, 0, 0, 0, by decide +kernel, by decide +kernel,
     by decide +kernel, by decide +kernel, by decide +kernel⟩,
   ⟨seqRunning, 0, 0, 0, 0, 0, true, by decide +kernel, by decide +kernel⟩,
   ⟨{}, 4, by decide +kernel⟩,
   ⟨{}, 3, by decide +kernel, by decide +kernel⟩,
   ⟨{}, 4, by decide +kernel⟩,
   ⟨{ adc := { armed := some (3, false) } }, 3, by decide +kernel⟩,
   ⟨swappedState, 3, by decide +kernel, by decide +kernel⟩,
   ⟨{}, 3, by decide +kernel, by decide +kernel⟩,
   ⟨{ adc := { armed := some (3, false), conv := [(3, { run := some { seq := 0, slot := 0, inj := false, tag := 1, since := 5 } })] } }, 3, by decide +kernel⟩,
   ⟨{ adc := { armed := some (3, true), map := [(3, 4)] } }, 3, by decide +kernel⟩,
   ⟨sdmState { ctl := 3 }, 4, 9, 0xFFFFFFF, 5, _, by decide +kernel, rfl, by decide +kernel, by decide +kernel,
     by decide +kernel, by decide +kernel, by decide +kernel, by decide +kernel⟩,
   ⟨sdmState { ctl := 1 }, 4, 7340033, 7340032, _, by decide +kernel, rfl, by decide +kernel, by decide +kernel,
     by decide +kernel, by decide +kernel, by decide +kernel, by decide +kernel, by decide +kernel⟩,
   ⟨sdmState { ctl := 3, hold := 2 }, 4, 7, 5, 7, _, by decide +kernel, rfl, by decide +kernel, by decide +kernel,
     by decide +kernel, by decide +kernel, by decide +kernel⟩,
   ⟨sdmState { ctl := 3, ctlNew := some 0x13 }, 4, 5, 7, _, 0x13, by decide +kernel, rfl, by decide +kernel,
     by decide +kernel, by decide +kernel, by decide +kernel, by decide +kernel⟩,
   ⟨{ sdm := { ch := [(3, { ctl := 1 })] } }, 3, 0, 0xFFFFFFF, by decide +kernel, by decide +kernel,
     by decide +kernel⟩,
   ⟨{}, 0, 0, by decide +kernel, by decide +kernel⟩,
   ⟨{}, 0, 12, by decide +kernel, by decide +kernel⟩⟩

/-- Comparator 0, of threshold 2,048 and hysteresis 10 mV,
  in a state; its destinations are the interrupt and the ADC. -/
def cmpIn (x : Cmp) : State :=
  { cfg := secs [(secAnalog, cmpPay.set 0x18B 8 |>.set 0x189 2 |>.set 0x18C 0xFF |>.set 0x18E 7 |>.set 0x18F 1)]
    clk := { t := 1000 }, cmps := { cmp := [(0, x)], shadow := [(17, { target := some 0, measuring := true })] } }
def cmpBlanking : State :=
  { cfg := secs [(secAnalog, cmpPay.set 0x18C 0 |>.set 0x18D 8), (secLegs, legsPay)], clk := { t := 1000 }
    cmps := { cmp := [(0, { raw := true })] }, pwm := { edgeAt := [(0, 990)] } }

/-- What ComparatorCommandsComplete asks can be met. -/
theorem witness_ComparatorCommandsComplete :
    (∃ (s : State) (n : Nat) (nV : Int) (vdda : Int) (d : Int),
      n < 18 ∧ s.cmpLive n = true ∧
        d = (if s.cmpLow n then (s.cmpThr n : Int) * vdda - nV * 4096 else nV * 4096 - (s.cmpThr n : Int) * vdda)) ∧
    (∃ (s : State) (n : Nat),
      n < 18 ∧ s.cmpLive n = true ∧ (s.cmp n).dead = false ∧ (s.cmp n).startHeld = false ∧ (s.cmp n).raw = true ∧
        (s.cmp n).out = false ∧ s.cmpSettled n = true ∧ s.cmpBlanked n = false) ∧
    (∃ (s : State) (n : Nat),
      n < 18 ∧ s.cmpLive n = true ∧ (s.cmp n).dead = false ∧ (s.cmp n).startHeld = false ∧ (s.cmp n).raw = true ∧
        (s.cmp n).out = false ∧ s.cmpSettled n = true ∧ s.cmpBlanked n = true) ∧
    (∃ (s : State) (n : Nat),
      n < 18 ∧ s.cmpLive n = true ∧ (s.cmp n).dead = false ∧ (s.cmp n).startHeld = false ∧ (s.cmp n).raw = false ∧
        (s.cmp n).out = true ∧ s.cmpSettled n = true) ∧
    (∃ (s : State) (n : Nat),
      n < 18 ∧ (s.cmp n).startHeld = true ∧ s.cmpLive n = true ∧ (s.cmp n).dead = false ∧ (s.cmp n).raw = false) ∧
    (∃ (s : State) (n : Nat),
      (s.cmpLive n = false ∨ (s.cmp n).raw = true ∨ (s.cmp n).startHeld = false)) ∧
    (∃ (s : State) (p : Nat),
      s.cmpSpare p = true) ∧
    (∃ (s : State) (p : Nat),
      s.cmpSpare p = true ∧ (s.shadow p).target.isSome = true ∧ (s.shadow p).measuring = false) ∧
    (∃ (s : State) (p : Nat) (n : Nat),
      (s.shadow p).target = some n ∧ (s.shadow p).measuring = true ∧ (s.cmp n).raw = false ∧ s.cmpSpare p = true ∧
        n < 18 ∧ s.cmpAssigned n = true ∧ (s.cmp n).startHeld = false ∧ (s.cmp n).out = false) ∧
    (∃ (s : State) (p : Nat) (n : Nat),
      (s.shadow p).target = some n ∧ (s.shadow p).measuring = true ∧ (s.cmp n).raw = true ∧ s.cmpSpare p = false ∧
        n < 18) ∧
    (∃ (s : State) (p : Nat) (n : Nat) (b : Bool),
      (s.shadow p).target = some n ∧ (s.shadow p).measuring = true ∧ (s.cmp n).raw = b) ∧
    (∃ (s : State) (p : Nat) (n : Nat),
      (s.shadow p).target = some n ∧ (s.shadow p).measuring = true ∧ (s.shadow p).tries < 8) ∧
    (∃ (s : State) (p : Nat) (n : Nat),
      (s.shadow p).target = some n ∧ (s.shadow p).measuring = true ∧ 8 ≤ (s.shadow p).tries) :=
  ⟨⟨cmpIn {}, 0, 1650001000, 3300000000, _, by decide +kernel, by decide +kernel, rfl⟩,
   ⟨cmpIn { raw := true }, 0, by decide +kernel, by decide +kernel, by decide +kernel, by decide +kernel,
     by decide +kernel, by decide +kernel, by decide +kernel, by decide +kernel⟩,
   ⟨cmpBlanking, 0, by decide +kernel, by decide +kernel, by decide +kernel, by decide +kernel, by decide +kernel,
     by decide +kernel, by decide +kernel, by decide +kernel⟩,
   ⟨{ cmpIn { out := true } with trp := { active := 1 } }, 0, by decide +kernel, by decide +kernel,
     by decide +kernel, by decide +kernel, by decide +kernel, by decide +kernel, by decide +kernel⟩,
   ⟨{ cmpIn { out := true, startHeld := true } with trp := { active := 1 } }, 0, by decide +kernel,
     by decide +kernel, by decide +kernel, by decide +kernel, by decide +kernel⟩,
   ⟨cmpIn { raw := true, startHeld := true }, 0, by decide +kernel⟩,
   ⟨cmpState, 17, by decide +kernel⟩,
   ⟨shadowState false, 17, by decide +kernel, by decide +kernel, by decide +kernel⟩,
   ⟨cmpIn {}, 17, 0, by decide +kernel, by decide +kernel, by decide +kernel, by decide +kernel, by decide +kernel,
     by decide +kernel, by decide +kernel, by decide +kernel⟩,
   ⟨{ cmpIn { raw := true } with cmps := { cmp := [(0, { raw := true })], failed := 2 ^ 17, shadow := [(17, { target := some 0, measuring := true })] } }, 17, 0, by decide +kernel, by decide +kernel, by decide +kernel, by decide +kernel, by decide +kernel⟩,
   ⟨cmpIn { raw := true }, 17, 0, true, by decide +kernel, by decide +kernel, by decide +kernel⟩,
   ⟨cmpIn {}, 17, 0, by decide +kernel, by decide +kernel, by decide +kernel⟩,
   ⟨{ cmps := { shadow := [(17, { target := some 0, measuring := true, tries := 8 })] } }, 17, 0, by decide +kernel,
     by decide +kernel, by decide +kernel⟩⟩

/-- Leg 0 of group 0, RUNNING, its FLT_N asserted for long, with a leg-local response. -/
def fltState (x : Leg) : State :=
  { cfg := secs [(secLegs, legsPay), (secTrip, pay 0x1C0 [(4, 1), (0x12, 2)])], clk := { t := 1000 }
    pwm := { group := [(0, { st := .running })], leg := [(0, { x with pin := true })], out := [(0, .on), (1, .on)] } }
def fltTwo : State :=
  { cfg := secs [(secLegs, legsPay.set 0 2 ++ [1] ++ List.replicate 15 0xFF |>.set 0xF9 0), (secTrip, pay 0x1C0 [(4, 1)])]
    clk := { t := 1000 }
    pwm := { group := [(0, { st := .running })], leg := [(0, { pin := true }), (1, { freed := true })] } }
def pulsedState : State := { pwm := { group := [(0, { st := .tripped, pulses := [(1, 1)] })] }, trp := { active := 2 } }

/-- What TripCommandsComplete asks can be met. -/
theorem witness_TripCommandsComplete :
    (∃ (s : State) (k : Nat) (g : Nat),
      sourceDefined k = true ∧ g < 8 ∧ ((s.grp g).st = .running ∨ (s.grp g).st = .armed) ∧
        (s.sourceAction k g).1 ≠ 0 ∧ (∀ h, h < 8 → (s.grp h).isTripped = false)) ∧
    (∃ (s : State) (k : Nat),
      sourceDefined k = true ∧ (∀ g, g < 8 → (s.sourceAction k g).1 = 0)) ∧
    (∃ (s : State) (k : Nat),
      sourceDefined k = true) ∧
    (∃ (s : State) (g : Nat),
      (s.grp g).seqRun = true ∧ (s.grp g).st ≠ .running ∧ (s.grp g).st ≠ .frozen) ∧
    (∃ (s : State) (g : Nat),
      (s.grp g).seqRun = true ∧ ((s.grp g).st = .running ∨ (s.grp g).st = .frozen)) ∧
    (∃ (s : State),
      s.dckHeld = false) ∧
    (∃ (s : State),
      s.dckHeld = true) ∧
    (∃ (s : State) (l : Nat),
      (s.leg l).latched = true ∧ s.srcActive (0x12 + l) = false) ∧
    (∃ (s : State) (l : Nat),
      (s.leg l).latched = true ∧ s.srcActive (0x12 + l) = true) ∧
    (∃ (s : State) (l : Nat),
      (s.leg l).latched = false) ∧
    (∃ (s : State) (l : Nat) (h : Bool),
      l < 24) ∧
    (∃ (s : State) (l : Nat) (g : Nat),
      l < 24 ∧ (s.leg l).filtered = false ∧ (s.leg l).pin = true ∧ s.fltHeld l = true ∧ (s.leg l).blanking = false ∧
        s.legLocalOn l = true ∧ s.rowed (0x12 + l) = false ∧ s.legGroup l = some g ∧ g < 8 ∧
        (s.grp g).st = .running ∧ s.npcSeq g = false ∧ (∀ k ∈ s.groupLegs g, (s.leg k).freed = false ∧
        (s.leg k).respAt = none)) ∧
    (∃ (s : State) (l : Nat) (g : Nat) (k : Nat),
      l < 24 ∧ (s.leg l).filtered = false ∧ (s.leg l).pin = true ∧ s.fltHeld l = true ∧ (s.leg l).blanking = false ∧
        s.legLocalOn l = true ∧ s.rowed (0x12 + l) = false ∧ s.legGroup l = some g ∧ g < 8 ∧
        (s.grp g).st = .running ∧ (s.leg l).freed = false ∧ k ∈ s.groupLegs g ∧ (s.leg k).freed = true) ∧
    (∃ (s : State) (l : Nat),
      l < 24 ∧ (s.leg l).filtered = false ∧ (s.leg l).pin = true ∧ s.fltHeld l = true ∧ (s.leg l).blanking = false ∧
        (s.legLocalOn l = false ∨ s.rowed (0x12 + l) = true)) ∧
    (∃ (s : State) (l : Nat),
      l < 24 ∧ (s.leg l).filtered = false ∧ (s.leg l).pin = true ∧ s.fltHeld l = true ∧ (s.leg l).blanking = true) ∧
    (∃ (s : State) (l : Nat),
      l < 24 ∧ (s.leg l).filtered = true ∧ (s.leg l).pin = false ∧ s.fltHeld l = true ∧
        s.srcActive (0x12 + l) = true) ∧
    (∃ (s : State) (l : Nat),
      l < 24 ∧ (s.leg l).blanking = true ∧ (s.leg l).filtered = true ∧ (s.leg l).ignored = true) ∧
    (∃ (s : State) (l : Nat),
      (s.leg l).blanking = true ∧ ((s.leg l).filtered = false ∨ (s.leg l).ignored = false)) ∧
    (∃ (s : State) (n : Nat) (h : Bool),
      n < 8) ∧
    (∃ (s : State) (l : Nat),
      (s.leg l).clearDue = true ∧ s.srcActive (0x12 + l) = false) :=
  ⟨⟨tripping, 0, 0, by decide +kernel, by decide +kernel, by decide +kernel, by decide +kernel, by decide +kernel⟩,
   ⟨{}, 0, by decide +kernel, by decide +kernel⟩,
   ⟨pulsedState, 1, by decide +kernel⟩,
   ⟨{ seqState with cfg := secs [(secLegs, legsPay)] }, 0, by decide +kernel, by decide +kernel, by decide +kernel⟩,
   ⟨{ cfg := secs [(secLegs, legsPay)], pwm := { group := [(0, { st := .running, seqRun := true })], leg := [(0, { freed := true })] } }, 0, by decide +kernel, by decide +kernel⟩,
   ⟨{}, by decide +kernel⟩,
   ⟨dckState, by decide +kernel⟩,
   ⟨legLatched, 23, by decide +kernel, by decide +kernel⟩,
   ⟨legLatchedOn, 23, by decide +kernel, by decide +kernel⟩,
   ⟨{}, 23, by decide +kernel⟩,
   ⟨{}, 23, false, by decide +kernel⟩,
   ⟨fltState {}, 0, 0, by decide +kernel, by decide +kernel, by decide +kernel, by decide +kernel, by decide +kernel,
     by decide +kernel, by decide +kernel, by decide +kernel, by decide +kernel, by decide +kernel,
     by decide +kernel, by decide +kernel⟩,
   ⟨fltTwo, 0, 0, 1, by decide +kernel, by decide +kernel, by decide +kernel, by decide +kernel, by decide +kernel,
     by decide +kernel, by decide +kernel, by decide +kernel, by decide +kernel, by decide +kernel,
     by decide +kernel, by decide +kernel, by decide +kernel⟩,
   ⟨{ fltState {} with cfg := secs [(secLegs, legsPay)] }, 0, by decide +kernel, by decide +kernel,
     by decide +kernel, by decide +kernel, by decide +kernel, by decide +kernel⟩,
   ⟨fltState { blanking := true }, 0, by decide +kernel, by decide +kernel, by decide +kernel, by decide +kernel,
     by decide +kernel⟩,
   ⟨{ cfg := secs [(secLegs, legsPay)], clk := { t := 1000 }, trp := { active := 1#128 <<< 18 }, pwm := { leg := [(0, { filtered := true, freed := true })] } }, 0, by decide +kernel, by decide +kernel, by decide +kernel, by decide +kernel, by decide +kernel⟩,
   ⟨legBlanking true, 23, by decide +kernel, by decide +kernel, by decide +kernel, by decide +kernel⟩,
   ⟨legBlanking false, 23, by decide +kernel, by decide +kernel⟩,
   ⟨{}, 7, true, by decide +kernel⟩,
   ⟨legDue, 23, by decide +kernel, by decide +kernel⟩⟩

/-- What ActiveSourceLatchesItsGroups asks can be met. -/
theorem witness_ActiveSourceLatchesItsGroups :
    (∃ (k : Nat) (g : Nat), k < 128 ∧ g < 8) ∧
    (∃ (k : Nat), k < 128) ∧
    (∃ (g : Nat), g < 8) :=
  ⟨⟨0, 0, by decide +kernel, by decide +kernel⟩,
   ⟨127, by decide +kernel⟩,
   ⟨7, by decide +kernel⟩⟩

/-- The legs 0 and 1 of group 0 may be tested. -/
def diagState : State :=
  { cfg := secs [(secLegs, legsPay.set 0 2 ++ [1] ++ List.replicate 15 0xFF |>.set 0xF9 0),
      (secTrip, pay 0x1C0 [(0x16, 0x20), (0x26, 0x20), (0x0A, 1)])] }
def diagTesting (x : DiagTest) : State := { diagState with trp := { test := some x, diagFail := 1 } }
/-- A fused DC_OV3 threshold of 1 step. -/
def ov3On : State := { guardState with pwm := { group := [(0, { st := .running })] } }

/-- What DiagnosticsAndChopperCommandsComplete asks can be met. -/
theorem witness_DiagnosticsAndChopperCommandsComplete :
    (∃ (s : State) (l : Nat),
      s.trp.test = none ∧ s.trp.testQueue = [] ∧ s.diagMay l = true) ∧
    (∃ (s : State) (l : Nat) (x : DiagTest),
      s.trp.test = some x) ∧
    (∃ (s : State) (l : Nat),
      s.trp.test = none ∧ s.trp.testQueue = [] ∧ s.diagMay l = false) ∧
    (∃ (s : State) (l : Nat) (r : List Nat),
      s.trp.test = none ∧ s.trp.testQueue = [] ∧ (List.range 24).filter s.diagMay = l :: r) ∧
    (∃ (s : State) (t : DiagTest) (v : BitVec 16),
      s.trp.test = some t) ∧
    (∃ (s : State) (x : DiagTest) (v0 : Int) (v : BitVec 16) (code : Nat),
      s.trp.test = some x ∧ x.v0 = some v0 ∧ x.leg < 24 ∧
        code = (if v0 < s.diagLimit x.leg 0 then 1 else if s.diagLimit x.leg 1 < v0 then 2 else if v.toInt - v0 < s.diagLimit x.leg 2 then 3 else if s.diagLimit x.leg 3 < v.toInt - v0 then 4 else 0)) ∧
    (∃ (s : State) (x : DiagTest),
      s.trp.test = some x) ∧
    (∃ (s : State),
      s.trp.test = none) ∧
    (∃ (s : State) (g : Nat),
      s.chpGroup = some g ∧ (s.grp g).st = .stopped ∧ s.chp.kind ≠ .none) ∧
    (∃ (s : State) (g : Nat),
      s.chpGroup = some g ∧ (s.grp g).st ≠ .stopped) ∧
    (∃ (s : State) (k : Nat) (g : Nat),
      s.chp.dcov2 = some k ∧ s.dcov2List[k]? = some g ∧ (s.grp g).st.live = true ∧ (s.grp g).tripHop = false ∧
        s.npcSeq g = false) ∧
    (∃ (s : State) (k : Nat),
      s.chp.dcov2 = some k ∧ s.dcov2List[k]? = none) ∧
    (∃ (s : State) (nV : Int) (vdda : Int) (d : Int),
      s.cabValid = true ∧ s.fuse 961 12 ≠ 0 ∧ d = nV * 4096 - (s.dcov3Level : Int) * vdda) ∧
    (∃ (s : State) (nV : Int) (vdda : Int) (g : Nat),
      s.cabValid = true ∧ s.fuse 961 12 ≠ 0 ∧ 0 < nV * 4096 - (s.dcov3Level : Int) * vdda ∧
        s.srcActive 0x33 = false ∧ g < 8 ∧ (s.grp g).st = .running) ∧
    (∃ (s : State) (nV : Int) (vdda : Int),
      (s.cabValid = false ∨ s.fuse 961 12 = 0)) :=
  ⟨⟨diagState, 1, by decide +kernel, by decide +kernel, by decide +kernel⟩,
   ⟨diagTesting { leg := 0 }, 1, { leg := 0 }, by decide +kernel⟩,
   ⟨diagState, 2, by decide +kernel, by decide +kernel, by decide +kernel⟩,
   ⟨diagState, 0, [1], by decide +kernel, by decide +kernel, by decide +kernel⟩,
   ⟨diagTesting { leg := 0 }, { leg := 0 }, 7, by decide +kernel⟩,
   ⟨diagTesting { leg := 0, v0 := some 0 }, { leg := 0, v0 := some 0 }, 0, 0, _, by decide +kernel,
     by decide +kernel, by decide +kernel, rfl⟩,
   ⟨diagTesting { leg := 0 }, { leg := 0 }, by decide +kernel⟩,
   ⟨{}, by decide +kernel⟩,
   ⟨chpState, 0, by decide +kernel, by decide +kernel, by decide +kernel⟩,
   ⟨{ chpState with pwm := { group := [(0, { st := .running })] } }, 0, by decide +kernel, by decide +kernel⟩,
   ⟨dcov2State, 0, 0, by decide +kernel, by decide +kernel, by decide +kernel, by decide +kernel, by decide +kernel⟩,
   ⟨{ chp := { dcov2 := some 9 } }, 9, by decide +kernel, by decide +kernel⟩,
   ⟨ov3On, 3300001, 3300000000, _, by decide +kernel, by decide +kernel, rfl⟩,
   ⟨ov3On, 3300000000, 3300000000, 0, by decide +kernel, by decide +kernel, by decide +kernel, by decide +kernel,
     by decide +kernel, by decide +kernel⟩,
   ⟨{}, 3300000000, 3300000000, by decide +kernel⟩⟩

def sampled : State :=
  { clk := { t := 9 }, ang := { freq := 2 ^ 24 * 50 }
    sdm := { ch := (List.range 3).map fun k => (k, { hist := [{ time := 5, value := 7, reason := 0, ovr := false, hg := false }] }) } }
def envState (st : Nat) : State := { envTripped with grd := { envTripped.grd with st := st } }
/-- Group 0 RUNNING and of CEASE_GROUPS. -/
def ceasing : State :=
  { cfg := secs [(secLoopCoef, bankPay 1023 [(4, 1), (8, 1)])], grd := { vmin := 2 ^ 32, vmax := 2 ^ 32, rt := true }
    pwm := { group := [(0, { st := .running })] } }

/-- What GridUpdateCompletes asks can be met. -/
theorem witness_GridUpdateCompletes :
    (∃ (s : State),
      (∀ k, k < 3 → s.halfPeriod k ≠ [] ∧ ∀ e ∈ s.halfPeriod k, e.reason = 0)) ∧
    (∃ (s : State) (k : Nat),
      k < 3 ∧ (s.halfPeriod k = [] ∨ (s.halfPeriod k).any (fun e => e.reason != 0) = true)) ∧
    (∃ (s : State) (r : State),
      r = s.grdMetric ∧ s.gridOn = true) ∧
    (∃ (s : State) (r : State) (u : State) (k : Nat),
      r = s.grdMetric ∧ s.gridOn = true ∧ s.grd.st ≠ 3 ∧
        u = ({ r with grd := { r.grd with tv := tickTimer r.grd.tv r.vInBand, tf := tickTimer r.grd.tf r.fInBand } } : State) ∧ u.envTrip = some k) ∧
    (∃ (s : State) (r : State) (u : State),
      r = s.grdMetric ∧ s.gridOn = true ∧ s.grd.st ≠ 3 ∧
        u = ({ r with grd := { r.grd with tv := tickTimer r.grd.tv r.vInBand, tf := tickTimer r.grd.tf r.fInBand } } : State) ∧ u.envTrip = none) ∧
    (∃ (s : State),
      s.gridOn = true ∧ s.grd.st = 3) ∧
    (∃ (s : State),
      s.gridOn = false) :=
  ⟨⟨sampled, by decide +kernel⟩,
   ⟨{}, 2, by decide +kernel, by decide +kernel⟩,
   ⟨envTripped, _, rfl, by decide +kernel⟩,
   ⟨ceasing, _, _, 2, rfl, by decide +kernel, by decide +kernel, rfl, by decide +kernel⟩,
   ⟨gridState, _, _, rfl, by decide +kernel, by decide +kernel, rfl, by decide +kernel⟩,
   ⟨envState 3, by decide +kernel, by decide +kernel⟩,
   ⟨{}, by decide +kernel⟩⟩

/-- The transfer to grid forming is enabled and the tracking valid. -/
def transferable : State := { cfg := secs [(secLoopCoef, bankPay 1023 [(4, 0x18)])], ang := { valid := true } }
/-- The passive window of UV is due. -/
def uvDue : State :=
  { cfg := secs [(secLoopCoef, bankPay 1023 [(924, 1)])], isl := { passive := 1, since := [(0, 5)] } }

/-- What GridCommandsComplete asks can be met. -/
theorem witness_GridCommandsComplete :
    (∃ (s : State),
      s.fInBand = true ∧ s.grd.tf.isSome = true) ∧
    (∃ (s : State),
      s.vInBand = true ∧ s.grd.tv.isSome = true) ∧
    (∃ (s : State),
      s.grd.st = 0 ∧ s.grd.rt = true) ∧
    (∃ (s : State),
      (s.grd.st ≠ 0 ∨ s.grd.rt = false)) ∧
    (∃ (s : State),
      s.grd.rt = true) ∧
    (∃ (s : State),
      s.grd.rt = false) ∧
    (∃ (s : State),
      s.isl.tail = true ∧ s.grd.rt = false ∧ (∀ k, k < 6 → s.islDue k = false)) ∧
    (∃ (s : State),
      s.isl.tail = true ∧ s.grd.rt = false ∧ s.grd.gf = false) ∧
    (∃ (s : State),
      s.grd.limiting = true ∧ 20 * s.grd.peak < 19 * s.gridPu 224) ∧
    (∃ (s : State),
      19 * s.gridPu 224 ≤ 20 * s.grd.peak) ∧
    (∃ (s : State),
      s.gridOn = true ∧ s.gridFlag 3 = true ∧ s.ang.valid = true) ∧
    (∃ (s : State),
      (s.gridOn = false ∨ s.gridFlag 3 = false ∨ s.ang.valid = false)) ∧
    (∃ (s : State),
      s.grd.xfer = true ∧ s.grd.fromIsland = false) ∧
    (∃ (s : State),
      s.grd.xfer = true ∧ s.grd.fromIsland = true ∧ s.grd.st ≠ 3) ∧
    (∃ (s : State),
      s.grd.waitGfl = true ∧ s.ang.valid = true ∧ 20 * turnUnits ≤ (s.ang.sch + 2 ^ 96 - s.ang.validAt) % 2 ^ 96) ∧
    (∃ (s : State),
      (s.grd.waitGfl = false ∨ s.ang.valid = false)) ∧
    (∃ (s : State),
      s.gridOn = true ∧ s.grd.st ≠ 3) ∧
    (∃ (s : State),
      (s.gridOn = false ∨ s.grd.st = 3)) ∧
    (∃ (s : State),
      s.grd.st = 3 ∧ s.grd.reconOk = true) ∧
    (∃ (s : State),
      (s.grd.st ≠ 3 ∨ s.grd.reconOk = false)) ∧
    (∃ (s : State),
      s.grd.st = 3 ∧ s.reconCond = true) :=
  ⟨⟨{ gridState with grd := { tf := some 3 } }, by decide +kernel, by decide +kernel⟩,
   ⟨{ gridState with grd := { tv := some 3 } }, by decide +kernel, by decide +kernel⟩,
   ⟨{ grd := { rt := true } }, by decide +kernel, by decide +kernel⟩,
   ⟨{}, by decide +kernel⟩,
   ⟨{ grd := { rt := true, st := 1 } }, by decide +kernel⟩,
   ⟨{}, by decide +kernel⟩,
   ⟨{ isl := { tail := true } }, by decide +kernel, by decide +kernel, by decide +kernel⟩,
   ⟨{ uvDue with isl := { tail := true, passive := 1, since := [(0, 5)] } }, by decide +kernel, by decide +kernel,
     by decide +kernel⟩,
   ⟨limitState, by decide +kernel, by decide +kernel⟩,
   ⟨{}, by decide +kernel⟩,
   ⟨transferable, by decide +kernel, by decide +kernel, by decide +kernel⟩,
   ⟨{}, by decide +kernel⟩,
   ⟨{ grd := { xfer := true } }, by decide +kernel, by decide +kernel⟩,
   ⟨{ gridState with grd := { xfer := true, fromIsland := true, cause := 6 } }, by decide +kernel, by decide +kernel,
     by decide +kernel⟩,
   ⟨{ grd := { waitGfl := true }, ang := { valid := true, sch := 20 * turnUnits } }, by decide +kernel,
     by decide +kernel, by decide +kernel⟩,
   ⟨{}, by decide +kernel⟩,
   ⟨ceasing, by decide +kernel, by decide +kernel⟩,
   ⟨{}, by decide +kernel⟩,
   ⟨{ grd := { st := 3, reconOk := true } }, by decide +kernel, by decide +kernel⟩,
   ⟨{}, by decide +kernel⟩,
   ⟨reconState, by decide +kernel, by decide +kernel⟩⟩

def uvDueGf : State :=
  { cfg := secs [(secLoopCoef, bankPay 1023 [(4, 0x18), (924, 1)])], isl := { passive := 1, since := [(0, 5)] }
    ang := { valid := true } }

/-- What IslandCommandsComplete asks can be met. -/
theorem witness_IslandCommandsComplete :
    (∃ (s : State) (w : Nat),
      w < 6 ∧ s.islDue w = true ∧ s.islHeld = false ∧ s.grd.gf = false ∧ bit s.isl.decided w = false ∧
        s.gridOn = true ∧ s.gridFlag 4 = false ∧ s.grd.st ≠ 3) ∧
    (∃ (s : State) (w : Nat),
      w < 6 ∧ s.islDue w = true ∧ s.islHeld = false ∧ s.grd.gf = false ∧ bit s.isl.decided w = false ∧
        s.gridOn = true ∧ s.gridFlag 4 = true ∧ s.gridFlag 3 = true ∧ s.ang.valid = true ∧ s.grd.st ≠ 3) ∧
    (∃ (s : State) (w : Nat),
      w < 6 ∧ s.islDue w = true ∧ s.islHeld = false ∧ s.grd.gf = false ∧ bit s.isl.decided w = false ∧
        s.gridOn = false) ∧
    (∃ (s : State) (w : Nat),
      (s.islDue w = false ∨ s.islHeld = true ∨ s.grd.gf = true ∨ bit s.isl.decided w = true)) ∧
    (∃ (s : State),
      s.gridOn = true ∧ s.grd.gf = true) ∧
    (∃ (s : State),
      s.gridOn = true ∧ s.grd.gf = false ∧ s.isl.inj = false ∧ s.tim.valid = true) ∧
    (∃ (s : State),
      s.gridOn = true ∧ s.grd.gf = false ∧ s.isl.inj = false ∧ s.tim.valid = false) ∧
    (∃ (s : State),
      s.gridOn = true ∧ s.grd.gf = false ∧ s.isl.inj = true ∧ s.isl.nSum ≠ 0 ∧ s.tim.valid = true) ∧
    (∃ (s : State),
      s.gridOn = false) :=
  ⟨⟨uvDue, 0, by decide +kernel, by decide +kernel, by decide +kernel, by decide +kernel, by decide +kernel,
    by decide +kernel, by decide +kernel, by decide +kernel⟩,
   ⟨uvDueGf, 0, by decide +kernel, by decide +kernel, by decide +kernel, by decide +kernel, by decide +kernel,
     by decide +kernel, by decide +kernel, by decide +kernel, by decide +kernel, by decide +kernel⟩,
   ⟨{ isl := { passive := 1, since := [(0, 2000)] } }, 0, by decide +kernel, by decide +kernel, by decide +kernel,
     by decide +kernel, by decide +kernel, by decide +kernel⟩,
   ⟨{}, 0, by decide +kernel⟩,
   ⟨gridFormState, by decide +kernel, by decide +kernel⟩,
   ⟨{ islandState with isl := {} }, by decide +kernel, by decide +kernel, by decide +kernel, by decide +kernel⟩,
   ⟨{ gridState with isl := {} }, by decide +kernel, by decide +kernel, by decide +kernel, by decide +kernel⟩,
   ⟨{ islandState with isl := { inj := true, nSum := 1, chipPos := true } }, by decide +kernel, by decide +kernel,
     by decide +kernel, by decide +kernel, by decide +kernel⟩,
   ⟨{}, by decide +kernel⟩⟩

/-- What ChipSequencesAreTheStatedOnes asks can be met. -/
theorem witness_ChipSequencesAreTheStatedOnes :
    (∃ (n : Nat), n < 31) ∧
    (∃ (s : State), s.gridOn = true ∧ s.isl.inj = true ∧ s.grd.gf = false) :=
  ⟨⟨30, by decide +kernel⟩,
   ⟨injState, by decide +kernel, by decide +kernel, by decide +kernel⟩⟩

/-- A record in slot 0 is the newest. -/
def savable : State := { mtr := { scale := some ([], 0), newest := some 0 } }
def saving (e f : Bool) : State := { mtr := { save := some { slot := 0, record := [], emergency := e, failed := f } } }
def aMark : PmuMark := { sec := 0, m := 0, timeValid := false, angValid := false, rt := false, freq := 2 ^ 40, rocof := 0 }
def pmuDue : State := { cfg := secs [(secMeter, pay 48 [(0, 5)])], mtr := { pmuMarks := [aMark] }, tim := { wall := 5 * 10 ^ 18 } }
def aStrobe : StrobeMark :=
  { t := 5, wall := 0, sch := 0, meas := 0, kch := [], rated := 0, runs := true, halted := false, fresh := true }
def strobed : State :=
  { mtr := { marks := [aStrobe], last := some 0, hist := List.replicate 64 [some 0, some 0, some 0] }
    sdm := { ch := (List.range 7).map fun k => (k, { ctl := 1, hist := List.replicate 9 { time := 5000, value := 0, reason := 0, ovr := false, hg := false } }) } }

/-- What MeteringCommandsComplete asks can be met. -/
theorem witness_MeteringCommandsComplete :
    (∃ (s : State) (i : Nat) (j : Nat) (r : List Byte),
      s.mtr.save = none ∧ s.mtrNoScale = false ∧ s.mtr.newest = some j ∧ s.mtr.slotAfter j = some i ∧
        r = s.saveRecord (((s.memWord (slotAddr j)).toNat + 1) % 2 ^ 32) 1) ∧
    (∃ (s : State),
      (s.mtr.save.isSome = true ∨ s.mtrNoScale = true)) ∧
    (∃ (s : State) (i : Nat) (j : Nat) (r : List Byte),
      s.mtr.save = none ∧ s.mtrNoScale = false ∧ s.mtr.newest = some j ∧ s.mtr.slotAfter j = some i ∧
        r = s.saveRecord (((s.memWord (slotAddr j)).toNat + 1) % 2 ^ 32) 3) ∧
    (∃ (s : State),
      (s.mtr.save.isSome = true ∨ s.mtrNoScale = true)) ∧
    (∃ (s : State) (j : SaveJob),
      s.mtr.save = some j ∧ j.emergency = false) ∧
    (∃ (s : State) (j : SaveJob),
      s.mtr.save = some j ∧ j.emergency = false ∧ j.failed = false) ∧
    (∃ (s : State) (j : SaveJob) (i : Nat),
      s.mtr.save = some j ∧ j.emergency = false ∧ j.failed = true ∧ j.slot < 16 ∧
        ({ s.mtr with bad := s.mtr.bad ||| 2 ^ j.slot } : Mtr).slotAfter j.slot = some i) ∧
    (∃ (s : State) (j : SaveJob),
      s.mtr.save = some j ∧ j.emergency = true) ∧
    (∃ (s : State) (b : Bool),
      s.mtr.save.any (fun x => x.emergency) = false) ∧
    (∃ (s : State),
      s.mtr.save = none ∧ s.mtr.frozen = false) ∧
    (∃ (s : State) (k : BitVec 16),
      (k ≠ 0x3E7A ∨ s.mtr.save.isSome = true ∨ s.mtr.frozen = true)) ∧
    (∃ (s : State),
      s.mtrNoScale = false ∧ s.nagg ≤ s.mtr.winAll) ∧
    (∃ (s : State),
      (s.mtrNoScale = true ∨ s.mtr.winAll < s.nagg)) ∧
    (∃ (s : State) (k : PmuMark) (ks : List PmuMark),
      s.pmuMode ≠ 0 ∧ s.mtr.pmuMarks = k :: ks ∧ s.pmuAt k + s.pmuHalf k ≤ s.wallNs) ∧
    (∃ (s : State) (k : PmuMark) (ks : List PmuMark),
      s.mtr.pmuMarks = k :: ks ∧ s.wallNs < s.pmuAt k + s.pmuHalf k) ∧
    (∃ (s : State) (k : StrobeMark) (ks : List StrobeMark),
      s.recd.marks = k :: ks) ∧
    (∃ (s : State) (k : StrobeMark) (ks : List StrobeMark) (x : List Resample),
      s.mtr.marks = k :: ks ∧ x = ((s.setMtr { s.mtr with marks := ks }).resamples k.t 7).1) ∧
    (∃ (s : State) (k : StrobeMark) (ks : List StrobeMark) (x : List Resample) (l : Nat) (v : Nat → Int) (d : Nat →
      Int),
      s.mtr.marks = k :: ks ∧ x = ((s.setMtr { s.mtr with marks := ks }).resamples k.t 7).1 ∧ s.mtr.frozen = false ∧
        k.halted = false ∧ k.runs = true ∧ s.mtr.forceGap = false ∧ s.mtr.last = some l ∧ k.t - l ≤ 400000 ∧ (∀ c,
        c < 7 → c ≠ 3 → (x.getD c {}).reason = 0) ∧ (∀ p, p < 3 → (s.mtr.hist.getD 63 []).getD p none = some (d p)) ∧
        (∀ c, c < 7 → v c = (x.getD c {}).value * ratOf (k.kch.getD c 0))) ∧
    (∃ (s : State),
      s.recd.marks = []) ∧
    (∃ (s : State),
      s.mtr.marks = []) :=
  ⟨⟨savable, 1, 0, _, by decide +kernel, by decide +kernel, by decide +kernel, by decide +kernel, rfl⟩,
   ⟨{}, by decide +kernel⟩,
   ⟨savable, 1, 0, _, by decide +kernel, by decide +kernel, by decide +kernel, by decide +kernel, rfl⟩,
   ⟨{}, by decide +kernel⟩,
   ⟨saving false false, { slot := 0, record := [], emergency := false, failed := false }, by decide +kernel,
     by decide +kernel⟩,
   ⟨saving false false, { slot := 0, record := [], emergency := false, failed := false }, by decide +kernel,
     by decide +kernel, by decide +kernel⟩,
   ⟨saving false true, { slot := 0, record := [], emergency := false, failed := true }, 1, by decide +kernel,
     by decide +kernel, by decide +kernel, by decide +kernel, by decide +kernel⟩,
   ⟨saving true false, { slot := 0, record := [], emergency := true, failed := false }, by decide +kernel,
     by decide +kernel⟩,
   ⟨{}, true, by decide +kernel⟩,
   ⟨{}, by decide +kernel, by decide +kernel⟩,
   ⟨{}, 0, by decide +kernel⟩,
   ⟨{ scaledState with mtr := { scale := some ([], 0), winAll := 1 } }, by decide +kernel, by decide +kernel⟩,
   ⟨{}, by decide +kernel⟩,
   ⟨pmuDue, aMark, [], by decide +kernel, by decide +kernel, by decide +kernel⟩,
   ⟨{ pmuDue with tim := {} }, aMark, [], by decide +kernel, by decide +kernel⟩,
   ⟨{ recd := { marks := [aStrobe], unit := [(0, { st := 2, cap := some (aCapture 1) })] } }, aStrobe, [],
     by decide +kernel⟩,
   ⟨{ mtr := { marks := [aStrobe] } }, aStrobe, [], _, by decide +kernel, rfl⟩,
   ⟨strobed, aStrobe, [], _, 0, fun _ => 0, fun _ => 0, by decide +kernel, rfl, by decide +kernel, by decide +kernel,
     by decide +kernel, by decide +kernel, by decide +kernel, by decide +kernel, by decide +kernel,
     by decide +kernel, by decide +kernel⟩,
   ⟨{}, by decide +kernel⟩,
   ⟨{}, by decide +kernel⟩⟩

def recFired (b st : Nat) : State := recStateWith { entry := recEntryBytes.set 0x16 0xFF |>.set 0x17 0xFF, hits := 2 ^ b, st := st }

/-- What RecorderCommandsComplete asks can be met. -/
theorem witness_RecorderCommandsComplete :
    (∃ (s : State) (n : Nat) (x : RecSample) (v : State),
      s.recLive n = true ∧ s.recd.stopped = false ∧ (s.recUnit n).st ≠ 0 ∧ (s.recUnit n).st ≠ 4 ∧
        (s.recUnit n).f 2 2 ≤ (s.recUnit n).raws ∧ (s.recUnit n).cap = none ∧ x = (s.recSampleNow n).1 ∧
        v = (s.recSampleNow n).2) ∧
    (∃ (s : State) (n : Nat) (x : RecSample) (v : State) (k : Capture),
      s.recLive n = true ∧ s.recd.stopped = false ∧ (s.recUnit n).st ≠ 0 ∧ (s.recUnit n).st ≠ 4 ∧
        (s.recUnit n).f 2 2 ≤ (s.recUnit n).raws ∧ (s.recUnit n).cap = some k ∧ (s.recUnit n).post ≠ [] ∧
        (s.recUnit n).post.length < k.want ∧ x = (s.recSampleNow n).1 ∧ v = (s.recSampleNow n).2) ∧
    (∃ (s : State) (n : Nat) (x : RecSample) (v : State) (k : Capture),
      s.recLive n = true ∧ s.recd.stopped = false ∧ (s.recUnit n).st ≠ 0 ∧ (s.recUnit n).st ≠ 4 ∧
        (s.recUnit n).f 2 2 ≤ (s.recUnit n).raws ∧ (s.recUnit n).cap = some k ∧ (s.recUnit n).post = [] ∧
        0 < k.want ∧ x = (s.recSampleNow n).1 ∧ v = (s.recSampleNow n).2 ∧ k.takes x = true) ∧
    (∃ (s : State) (n : Nat),
      (s.recUnit n).raws < (s.recUnit n).f 2 2) ∧
    (∃ (s : State) (n : Nat) (k : Nat) (i : Nat) (b : Nat),
      s.recLive n = true ∧ (k = 0 ∧ i < 16 ∧ b = i ∨ k = 2 ∧ i < 4 ∧ b = 20 + i) ∧ bit (s.recUnit n).hits b = true ∧
        (s.recUnit n).st = 2 ∧ s.recd.stopped = false) ∧
    (∃ (s : State) (n : Nat) (i : Nat),
      s.recLive n = true ∧ i < 4 ∧ (s.recUnit n).trigSel (16 + i) = true ∧ s.patternHolds (s.recUnit n) i = true ∧
        bit (s.recUnit n).patWas i = false ∧ (s.recUnit n).st = 2 ∧ s.recd.stopped = false) ∧
    (∃ (s : State) (n : Nat) (i : Nat),
      s.recLive n = true ∧ i < 18 ∧ (s.recUnit n).trigSel 24 = true ∧ bit (s.cmpField i 6 1) 0 = true ∧
        s.srcActive i = true ∧ (s.recUnit n).st = 2 ∧ s.recd.stopped = false) ∧
    (∃ (s : State) (n : Nat) (i : Nat) (c : Capture),
      s.recLive n = true ∧ i < 16 ∧ bit (s.recUnit n).hits i = true ∧ (s.recUnit n).st = 3 ∧
        (s.recUnit n).cap = some c ∧ c.time ≠ s.clk.t ∧ s.recd.stopped = false) ∧
    (∃ (s : State) (n : Nat) (i : Nat),
      s.recLive n = true ∧ n < 4 ∧ i < 16 ∧ bit (s.recUnit n).hits i = true ∧ ((s.recUnit n).st = 4 ∨
        (s.recUnit n).st = 1 ∧ (s.recUnit n).pre.length < (s.recUnit n).preLen) ∧ s.recd.stopped = false) ∧
    (∃ (s : State) (n : Nat),
      (s.recUnit n).st = 1 ∧ (s.recUnit n).preLen ≤ (s.recUnit n).pre.length ∧ s.recd.stopped = false) ∧
    (∃ (s : State) (n : Nat),
      ((s.recUnit n).st ≠ 1 ∨ (s.recUnit n).pre.length < (s.recUnit n).preLen)) ∧
    (∃ (s : State) (f : TrsFrame) (n : Nat),
      f.type = 3 ∧ f.src ≠ s.trs.rank ∧ s.recd.stopped = false ∧ n < s.nUnit ∧ (s.recUnit n).ringIn = true ∧
        (s.recUnit n).trigSel 26 = true ∧ (s.recUnit n).clk ≤ 1 ∧ (s.recUnit n).st = 2) ∧
    (∃ (s : State) (f : TrsFrame),
      (f.type ≠ 3 ∨ f.src = s.trs.rank ∨ s.recd.stopped = true)) ∧
    (∃ (s : State) (n : Nat) (i : Nat) (k : Capture),
      n < 4 ∧ (s.recUnit n).cap = some k ∧ k.want ≤ (s.recUnit n).post.length ∧
        i = ((s.recUnit n).capIdx + 1) % 2 ^ 32) ∧
    (∃ (s : State) (n : Nat),
      (s.recUnit n).cap.any (fun k => decide (k.want ≤ (s.recUnit n).post.length)) = false) ∧
    (∃ (s : State) (n : Nat) (d : Drawer),
      (s.recd.done.find? fun d => d.unit == n) = some d ∧ (s.recUnit n).st ≠ 4) ∧
    (∃ (s : State) (n : Nat) (d : Drawer),
      (s.recd.done.find? fun d => d.unit == n) = some d ∧ (s.recUnit n).st = 4 ∧ s.recd.stopped = false ∧
        d.buf < (s.recUnit n).nbuf ∧ d.buf < 64) ∧
    (∃ (s : State) (n : Nat),
      (s.recd.done.find? fun d => d.unit == n) = none) :=
  ⟨⟨recReady, 0, _, _, by decide +kernel, by decide +kernel, by decide +kernel, by decide +kernel, by decide +kernel,
    by decide +kernel, rfl, rfl⟩,
   ⟨recCapturing 2, 0, _, _, aCapture 2, by decide +kernel, by decide +kernel, by decide +kernel, by decide +kernel,
     by decide +kernel, by decide +kernel, by decide +kernel, by decide +kernel, rfl, rfl⟩,
   ⟨{ recCapturing 2 with recd := { unit := [(0, { st := 3, cap := some (aCapture 2) })] } }, 0, _, _, aCapture 2,
     by decide +kernel, by decide +kernel, by decide +kernel, by decide +kernel, by decide +kernel,
     by decide +kernel, by decide +kernel, by decide +kernel, rfl, rfl, by decide +kernel⟩,
   ⟨recStateWith { entry := pay 24 [(2, 1)] }, 0, by decide +kernel⟩,
   ⟨recFired 3 2, 0, 0, 3, 3, by decide +kernel, by decide +kernel, by decide +kernel, by decide +kernel,
     by decide +kernel⟩,
   ⟨recFired 0 2, 0, 0, by decide +kernel, by decide +kernel, by decide +kernel, by decide +kernel,
     by decide +kernel, by decide +kernel, by decide +kernel⟩,
   ⟨{ recFired 0 2 with cfg := secs [(secRecorder, pay 16 [(0, 1)]), (secAnalog, cmpPay.set 0x18E 1)], trp := { active := 1 } }, 0, 0, by decide +kernel, by decide +kernel, by decide +kernel, by decide +kernel, by decide +kernel, by decide +kernel, by decide +kernel⟩,
   ⟨recStateWith { entry := recEntryBytes, hits := 8, st := 3, cap := some { aCapture 1 with time := 9 } }, 0, 3,
     { aCapture 1 with time := 9 }, by decide +kernel, by decide +kernel, by decide +kernel, by decide +kernel,
     by decide +kernel, by decide +kernel, by decide +kernel⟩,
   ⟨recFired 3 4, 0, 3, by decide +kernel, by decide +kernel, by decide +kernel, by decide +kernel,
     by decide +kernel, by decide +kernel⟩,
   ⟨recWaiting, 0, by decide +kernel, by decide +kernel, by decide +kernel⟩,
   ⟨recState, 0, by decide +kernel⟩,
   ⟨recStateWith { entry := pay 24 [(5, 8), (0x17, 4)], st := 2 }, { roleFrame 3 with src := 7 }, 0,
     by decide +kernel, by decide +kernel, by decide +kernel, by decide +kernel, by decide +kernel,
     by decide +kernel, by decide +kernel, by decide +kernel⟩,
   ⟨{}, roleFrame 3, by decide +kernel⟩,
   ⟨recCapturing 1, 0, 1, aCapture 1, by decide +kernel, by decide +kernel, by decide +kernel, by decide +kernel⟩,
   ⟨{}, 0, by decide +kernel⟩,
   ⟨drawerDone, 0, aDrawer, by decide +kernel, by decide +kernel⟩,
   ⟨{ drawerDone with recd := { done := [aDrawer], unit := [(0, { entry := recEntryBytes, st := 4, full := 3 })] } },
     0, aDrawer, by decide +kernel, by decide +kernel, by decide +kernel, by decide +kernel, by decide +kernel⟩,
   ⟨{}, 0, by decide +kernel⟩⟩

/-- Sector 17 is the one of the HOST stream, a job in it. -/
def shelfWriting (mb : Nat) : State :=
  { cfg := shelfCfg
    shf := { job := some { aJob with stream := 4, left := [1, 2] }, mb := mb, stream := [(4, { chain := [17], next := 300 })] } }

/-- What ShelfCommandsComplete asks can be met. -/
theorem witness_ShelfCommandsComplete :
    (∃ (s : State) (i : Nat) (q : Nat) (w : List Byte × Option Drawer),
      s.shfReady = true ∧ s.shf.job = none ∧ s.shf.erasing = none ∧ s.nextStream = some i ∧ s.waiting i = some w ∧
        q = ((s.shfStream i).seq + 1) % 2 ^ 32) ∧
    (∃ (s : State),
      (s.shfReady = false ∨ s.shf.job.isSome = true ∨ s.shf.erasing.isSome = true ∨ s.nextStream = none)) ∧
    (∃ (s : State) (j : ShfJob) (k : Nat) (n : Nat),
      s.shf.job = some j ∧ j.busy = true ∧ (s.shfStream j.stream).chain.getLast? = some k ∧
        64 ≤ (s.shfStream j.stream).next ∧ n = min (256 - (s.shfStream j.stream).next % 256) j.left.length) ∧
    (∃ (s : State) (j : ShfJob) (k : Nat),
      s.shf.job = some j ∧ j.busy = true ∧ (s.shfStream j.stream).chain.getLast? = some k ∧ 0 < s.shf.sparesLeft) ∧
    (∃ (s : State) (j : ShfJob) (k : Nat),
      s.shf.job = some j ∧ j.busy = true ∧ (s.shfStream j.stream).chain.getLast? = some k ∧ s.shf.sparesLeft = 0) ∧
    (∃ (s : State) (b : Bool),
      s.shf.job.any (fun j => j.busy) = false) ∧
    (∃ (s : State) (k : Nat),
      s.shf.erasing = some k ∧ s.shf.job = none) ∧
    (∃ (s : State) (k : Nat) (j : ShfJob),
      s.shf.erasing = some k ∧ s.shf.job = some j ∧ (s.shfStream j.stream).chain = []) ∧
    (∃ (s : State) (b : Bool),
      s.shf.erasing = none ∧ s.shf.job = none) ∧
    (∃ (s : State) (ks : List Nat) (a : Nat) (b : Nat),
      s.shfReady = true ∧ s.shf.job = none ∧ s.nextStream = none ∧
        ks = s.shf.pool.filter (fun k => !s.shf.retired.contains k) ∧
        2000 < (ks.map s.shf.eraseCount).max?.getD 0 - (ks.map s.shf.eraseCount).min?.getD 0 ∧
        (pickFrom 2 (ks.filter fun k => s.shf.eraseCount k == (ks.map s.shf.eraseCount).min?.getD 0) = some a) ∧
        (pickFrom 3 (s.freeSectors.filter fun k => some k != some a) = some b)) ∧
    (∃ (s : State),
      (s.shfReady = false ∨ s.shf.job.isSome = true ∨ s.nextStream.isSome = true)) ∧
    (∃ (s : State) (i : Nat) (r : ShfRecord),
      ((s.shf.records.find? fun r => r.stream == i && r.seq == (s.reg rSHF_LOC_REQ).toNat) = some r)) ∧
    (∃ (s : State) (i : Nat),
      ((s.shf.records.find? fun r => r.stream == i && r.seq == (s.reg rSHF_LOC_REQ).toNat) = none)) ∧
    (∃ (s : State),
      32 + (s.reg rSHF_APP_LEN).toNat ≤ s.depth 4 ∧
        hostVisible s.partitions (sramBase + bits (s.reg rSHF_APP_SRC).toNat 0 20) (s.reg rSHF_APP_LEN).toNat = true) ∧
    (∃ (s : State),
      (s.depth 4 < 32 + (s.reg rSHF_APP_LEN).toNat ∨
        hostVisible s.partitions (sramBase + bits (s.reg rSHF_APP_SRC).toNat 0 20) (s.reg rSHF_APP_LEN).toNat = false)) :=
  ⟨⟨shelfWaiting, 4, _, ([0], none), by decide +kernel, by decide +kernel, by decide +kernel, by decide +kernel,
    by decide +kernel, rfl⟩,
   ⟨{}, by decide +kernel⟩,
   ⟨shelfWriting 2, { aJob with stream := 4, left := [1, 2] }, 17, _, by decide +kernel, by decide +kernel,
     by decide +kernel, by decide +kernel, rfl⟩,
   ⟨shelfWriting 2, { aJob with stream := 4, left := [1, 2] }, 17, by decide +kernel, by decide +kernel,
     by decide +kernel, by decide +kernel⟩,
   ⟨shelfWriting 0, { aJob with stream := 4, left := [1, 2] }, 17, by decide +kernel, by decide +kernel,
     by decide +kernel, by decide +kernel⟩,
   ⟨{}, true, by decide +kernel⟩,
   ⟨{ shf := { erasing := some 16 } }, 16, by decide +kernel, by decide +kernel⟩,
   ⟨{ cfg := shelfCfg, shf := { erasing := some 16, job := some aJob } }, 16, aJob, by decide +kernel,
     by decide +kernel, by decide +kernel⟩,
   ⟨{}, true, by decide +kernel, by decide +kernel⟩,
   ⟨wornShelf, _, 16, 17, by decide +kernel, by decide +kernel, by decide +kernel, rfl, by decide +kernel,
     pick_one (by decide +kernel), pick_one (by decide +kernel)⟩,
   ⟨{}, by decide +kernel⟩,
   ⟨locState, 4, aRecord, by decide +kernel⟩,
   ⟨{}, 0, by decide +kernel⟩,
   ⟨appendState, by decide +kernel, by decide +kernel⟩,
   ⟨{ regs := [(rSHF_APP_LEN, 2 ^ 20)] }, by decide +kernel⟩⟩

/-- The time unit is LOCKED to slot 1, which follows a master. -/
def timLocked : State :=
  { cfg := secs [(secNetwork, netPay)], tim := { st := 2, src := 1, slot := [(1, { cands := [aMaster], best := some 1 })] } }
def ttDue (n : Nat) : State := { regs := [(rTIM_TTn_CTL 3, BitVec.ofNat 32 n)], tim := { ttArmed := 8 } }
def ttAhead : State := { regs := [(rTIM_TTn_NS 3, 9)], tim := { ttArmed := 8 } }

/-- What TimeCommandsComplete asks can be met. -/
theorem witness_TimeCommandsComplete :
    (∃ (s : State) (k : Nat),
      k < 2) ∧
    (∃ (s : State) (k : Nat) (p : Nat) (cs : List PtpMaster),
      k < 2 ∧ (s.ptpSlot k).best = some p ∧ cs = (s.ptpSlot k).cands.filter (fun c => c.port != p)) ∧
    (∃ (s : State) (k : Nat),
      k < 2 ∧ (s.ptpSlot k).best = none) ∧
    (∃ (s : State) (m : Nat) (q : Nat),
      m < 2 ∧ s.macRuns m = true ∧ (s.slotOn 0 = true ∧ s.slotMac 0 = m ∨ s.slotOn 1 = true ∧ s.slotMac 1 = m) ∧
        q = ((s.peer m).seq + 1) % 65536) ∧
    (∃ (s : State) (m : Nat),
      s.macRuns m = false) ∧
    (∃ (s : State) (k : Nat),
      s.tim.st ≠ 0 ∧ s.tim.src ≠ k ∧ k < 2 ∧ s.srcQualified k = true) ∧
    (∃ (s : State) (k : Nat),
      s.tim.st = 2 ∧ s.tim.src ≠ k ∧ k < 2 ∧ (∀ j, j < 3 → j ≠ s.tim.src → s.srcQualified j = false)) ∧
    (∃ (s : State) (k : Nat),
      (s.tim.st = 0 ∨ s.tim.src = k)) ∧
    (∃ (s : State),
      s.tim.st ≠ 0 ∧ s.tim.st ≠ 4) ∧
    (∃ (s : State),
      (s.tim.st = 0 ∨ s.tim.st = 4)) ∧
    (∃ (s : State),
      s.tim.st = 4) ∧
    (∃ (s : State),
      s.tim.st ≠ 4) ∧
    (∃ (s : State) (a : Nat),
      s.revert ≠ 0 ∧ (s.tim.st = 2 ∨ s.tim.st = 3) ∧ s.tim.src ≠ s.srcPref ∧ s.srcQualified s.srcPref = true ∧
        s.qualFrom s.srcPref = some a ∧ a + 400000000 * s.revert ≤ s.clk.t) ∧
    (∃ (s : State),
      (s.revert = 0 ∨ s.tim.src = s.srcPref ∨ s.srcQualified s.srcPref = false)) ∧
    (∃ (s : State) (m : Nat) (l : BitVec 4),
      m < 2 ∧ l.getLsbD 0 = true) ∧
    (∃ (s : State) (m : Nat) (l : BitVec 4),
      m < 2 ∧ l.getLsbD 0 = false) ∧
    (∃ (s : State) (n : Nat) (w : Word),
      n < 4 ∧ w.getLsbD 2 = true ∧ aheadMod wallMod s.wallNs (s.ttTime n) = true) ∧
    (∃ (s : State) (n : Nat) (w : Word),
      n < 4 ∧ w.getLsbD 2 = true ∧ aheadMod wallMod s.wallNs (s.ttTime n) = false) ∧
    (∃ (s : State) (n : Nat) (w : Word),
      n < 4 ∧ w.getLsbD 2 = false) ∧
    (∃ (s : State) (n : Nat),
      n < 4 ∧ bit s.tim.ttArmed n = true ∧ aheadMod wallMod s.wallNs (s.ttTime n) = false ∧
        bits (s.reg (rTIM_TTn_CTL n)).toNat 0 2 = 3) ∧
    (∃ (s : State) (u : State) (n : Nat),
      n < 4 ∧ bit s.tim.ttArmed n = true ∧ aheadMod wallMod s.wallNs (s.ttTime n) = false ∧
        bit s.tim.ttCrossed n = false ∧
        u = (s.setTim { s.tim with ttArmed := s.tim.ttArmed &&& (2 ^ 4 - 1 - 2 ^ n), ttCrossed := s.tim.ttCrossed &&& (2 ^ 4 - 1 - 2 ^ n) }).setBit (rTIM_TTn_CTL n) 3) ∧
    (∃ (s : State) (n : Nat),
      (bit s.tim.ttArmed n = false ∨ aheadMod wallMod s.wallNs (s.ttTime n) = true)) :=
  ⟨⟨{}, 1, by decide +kernel⟩,
   ⟨timLocked, 1, 1, _, by decide +kernel, by decide +kernel, rfl⟩,
   ⟨{}, 1, by decide +kernel, by decide +kernel⟩,
   ⟨ptpState, 0, _, by decide +kernel, by decide +kernel, by decide +kernel, rfl⟩,
   ⟨{}, 0, by decide +kernel⟩,
   ⟨timSwitchable, 1, by decide +kernel, by decide +kernel, by decide +kernel, by decide +kernel⟩,
   ⟨{ timLocked with tim := { st := 2, src := 2, trsOk := true } }, 1, by decide +kernel, by decide +kernel,
     by decide +kernel, by decide +kernel⟩,
   ⟨{}, 1, by decide +kernel⟩,
   ⟨timLocked, by decide +kernel, by decide +kernel⟩,
   ⟨{}, by decide +kernel⟩,
   ⟨{ tim := { st := 4 } }, by decide +kernel⟩,
   ⟨{}, by decide +kernel⟩,
   ⟨{ timSwitchable with clk := { t := 400000000 * 20000 }, tim := { timSwitchable.tim with slot := [(1, { cands := [aMaster], best := some 0, qualFrom := some 0 })] } }, 0, by decide +kernel, by decide +kernel, by decide +kernel, by decide +kernel, by decide +kernel, by decide +kernel⟩,
   ⟨{}, by decide +kernel⟩,
   ⟨{}, 1, 1, by decide +kernel, by decide +kernel⟩,
   ⟨{ timLocked with tim := { st := 0, slot := [(1, { cands := [aMaster], best := some 1 })] } }, 1, 2,
     by decide +kernel, by decide +kernel⟩,
   ⟨ttAhead, 3, 0xFFFFFFFF, by decide +kernel, by decide +kernel, by decide +kernel⟩,
   ⟨{}, 3, 4, by decide +kernel, by decide +kernel, by decide +kernel⟩,
   ⟨{}, 3, 0xFFFFFFFB, by decide +kernel, by decide +kernel⟩,
   ⟨ttState, 3, by decide +kernel, by decide +kernel, by decide +kernel, by decide +kernel⟩,
   ⟨ttDue 1, _, 3, by decide +kernel, by decide +kernel, by decide +kernel, by decide +kernel, rfl⟩,
   ⟨{}, 3, by decide +kernel⟩⟩

/-- What TimeReadSnapshotsItsSeconds asks can be met. -/
theorem witness_TimeReadSnapshotsItsSeconds :
    (∃ (i : Nat), i < 3) :=
  ⟨2, by decide +kernel⟩

/-- NETWORK of netPay with more bytes set. -/
def netWith (l : List (Nat × Byte)) : SMap (Option (List Byte)) := secs [(secNetwork,
  l.foldl (fun b x => b.set x.1 x.2) (netPay ++ pay 384 []))]
def netRun : State := { cfg := netWith [], clk := { ethLock := true } }
def netRing (i : Nat) : State := { netRun with cfg := netWith [(0x54, 4)], eth := { rxWp := i } }
/-- Channel 0 of the safe transfer layer is on. -/
def netSafe : State :=
  { netRun with cfg := netRun.cfg ++ secs [(secSafety, pay 0x40 [(0x20, 1)])], mon := { accepted := true } }
/-- A frame of the safe transfer layer, its sequence number 0 and its key 0. -/
def stlFrame : EthFrame :=
  let b : List Byte := pay 28 [(0, 1), (1, 1)]
  { mac := 0, bytes := pay 14 [(12, 0x88), (13, 0xB5)] ++ b ++ leBytes 4 (crc32cKey 0 b) ++ pay 14 [], good := true, age := 0 }
def plainFrame : EthFrame := { mac := 0, bytes := pay 60 [(12, 8)], good := true, age := 0 }
def syncFrame : EthFrame :=
  { mac := 0, bytes := pay 60 [(0, 1), (1, 0x1B), (2, 0x19), (12, 0x88), (13, 0xF7), (15, 2), (14 + 6, 2), (14 + 29, 1)], good := true, age := 0 }
def pdelayReq : EthFrame :=
  { mac := 0, bytes := pay 68 [(0, 1), (1, 0x80), (2, 0xC2), (5, 0x0E), (12, 0x88), (13, 0xF7), (14, 2), (15, 2)], good := true, age := 0 }
/-- Queue 0 of MAC 0 in a mode, its first descriptor READY with flags and a length. -/
def queueState (mode : Nat) (flags len : Byte) : State :=
  { netRun with
    mem := [(0x00200000, flags), (0x00200002, len)]
    eth := { queue := [(0, { n := 1, rung := true, cfg := 2 * mode })] } }
/-- The queue's frame is being sent, from the first of two descriptors. -/
def sendingState : State :=
  { netRun with
    mem := [(0x00200000, 1)]
    eth := { queue := [(0, { n := 2, rung := true })], mac := [(0, { tx := some (.queue 0 false 0x00200000, 5) })] } }
def ptpSending (b : List Byte) : State := { netRun with eth := { mac := [(0, { tx := some (.ptp b, 5) })] } }

/-- What NetworkCommandsComplete asks can be met. -/
theorem witness_NetworkCommandsComplete :
    (∃ (s : State) (f : EthFrame),
      f.mac < 2 ∧ s.macRuns f.mac = true ∧ f.good = false) ∧
    (∃ (s : State) (f : EthFrame),
      (s.macRuns f.mac = false ∨ 2 ≤ f.mac ∨ (f.good = true ∧ (f.bytes.length < 60 ∨ 1518 < f.bytes.length)))) ∧
    (∃ (s : State) (f : EthFrame),
      f.mac < 2 ∧ s.macRuns f.mac = true ∧ f.good = true ∧ 60 ≤ f.bytes.length ∧ f.bytes.length ≤ 1518 ∧
        ethType f.bytes = s.safEtype ∧ s.mon.accepted = false) ∧
    (∃ (s : State) (f : EthFrame) (k : Nat) (b : List Byte) (a : Nat),
      f.mac < 2 ∧ s.macRuns f.mac = true ∧ f.good = true ∧ 60 ≤ f.bytes.length ∧ f.bytes.length ≤ 1518 ∧
        ethType f.bytes = s.safEtype ∧ s.mon.accepted = true ∧ (List.range 4).filter s.stlOn = [k] ∧
        s.stlOld 0 k = false ∧ b = ethPayload f.bytes ∧ a = s.wallNs - f.age - s.rxLat f.mac ∧
        s.stlJudge 0 k b a s.tim.valid = none ∧ s.stlJudge 1 k b a s.tim.valid = none) ∧
    (∃ (s : State) (f : EthFrame) (k : Nat) (r : Nat) (b : List Byte) (a : Nat),
      f.mac < 2 ∧ s.macRuns f.mac = true ∧ f.good = true ∧ 60 ≤ f.bytes.length ∧ f.bytes.length ≤ 1518 ∧
        ethType f.bytes = s.safEtype ∧ s.mon.accepted = true ∧ (List.range 4).filter s.stlOn = [k] ∧
        s.stlOld 0 k = false ∧ b = ethPayload f.bytes ∧ a = s.wallNs - f.age - s.rxLat f.mac ∧
        s.stlJudge 0 k b a s.tim.valid = some r ∧ s.stlJudge 1 k b a s.tim.valid = some r) ∧
    (∃ (s : State) (f : EthFrame) (k : Nat) (b : List Byte),
      f.mac < 2 ∧ s.macRuns f.mac = true ∧ f.good = true ∧ 60 ≤ f.bytes.length ∧ f.bytes.length ≤ 1518 ∧
        ethType f.bytes ≠ s.safEtype ∧ s.ptpKind f.mac f.bytes = 1 ∧ s.netFlag 5 = false ∧ b = ethPayload f.bytes ∧
        s.ptpSlotsOf f.mac b = [k] ∧ ptpType b = 0 ∧ ptpIntervalOk b = true ∧ (s.ptpSlot k).best = some (ptpPort b) ∧
        bit (ptpFlags b) 9 = true) ∧
    (∃ (s : State) (f : EthFrame) (b : List Byte) (a : Nat),
      f.mac < 2 ∧ s.macRuns f.mac = true ∧ f.good = true ∧ 60 ≤ f.bytes.length ∧ f.bytes.length ≤ 1518 ∧
        ethType f.bytes ≠ s.safEtype ∧ s.ptpKind f.mac f.bytes = 2 ∧ s.netFlag 5 = false ∧ b = ethPayload f.bytes ∧
        ptpType b = 2 ∧ a = s.wallNs - f.age - s.rxLat f.mac) ∧
    (∃ (s : State) (f : EthFrame) (i : Nat),
      f.mac < 2 ∧ s.macRuns f.mac = true ∧ f.good = true ∧ 60 ≤ f.bytes.length ∧ f.bytes.length ≤ 1518 ∧
        ethType f.bytes ≠ s.safEtype ∧ s.ptpKind f.mac f.bytes = 0 ∧
        (List.range 16).find? (s.filterHit f.mac f.bytes) = some i ∧ bit (s.filterCtl i) 4 = true) ∧
    (∃ (s : State) (f : EthFrame),
      f.mac < 2 ∧ s.macRuns f.mac = true ∧ f.good = true ∧ 60 ≤ f.bytes.length ∧ f.bytes.length ≤ 1518 ∧
        ethType f.bytes ≠ s.safEtype ∧ s.ptpKind f.mac f.bytes = 0 ∧
        (List.range 16).find? (s.filterHit f.mac f.bytes) = none) ∧
    (∃ (s : State) (m : BitVec 8),
      (∀ q, q < 8 → m.getLsbD q = true → (s.txq q).n ≠ 0 → s.descReady ((s.txq q).desc 0) = true ∧
        s.descOk ((s.txq q).desc 0) = true)) ∧
    (∃ (s : State) (k : Nat),
      k < 8 ∧ (s.txq k).n ≠ 0 ∧ s.descReady ((s.txq k).desc 0) = false) ∧
    (∃ (s : State) (k : Nat) (a : Nat),
      k < 8 ∧ (s.txq k).n = 1 ∧ a = (s.txq k).desc 0 ∧ s.descReady a = true ∧ s.descOk a = false) ∧
    (∃ (s : State) (q : Nat) (d : Nat) (m : Nat),
      q < 8 ∧ m = (s.txq q).mac ∧ s.nextDue m = some (d, q) ∧ s.macRuns m = true ∧ (s.macSt m).tx = none ∧
        aheadMod wallMod (s.wallNs + 8) d = false ∧ aheadMod wallMod (d + 8) s.wallNs = false) ∧
    (∃ (s : State) (q : Nat) (d : Nat) (m : Nat) (a : Nat),
      q < 8 ∧ m = (s.txq q).mac ∧ s.nextDue m = some (d, q) ∧ s.macRuns m = true ∧ (s.macSt m).tx = none ∧
        aheadMod wallMod (d + 8) s.wallNs = true ∧ aheadMod wallMod (s.wallNs + 8) d = false ∧ a = (s.txq q).desc 0) ∧
    (∃ (s : State) (q : Nat),
      (8 ≤ q ∨ s.macRuns (s.txq q).mac = false ∨ (s.macSt (s.txq q).mac).tx.isSome = true ∨
        (s.nextDue (s.txq q).mac).all (fun d => d.2 != q || aheadMod wallMod (s.wallNs + 8) d.1) = true)) ∧
    (∃ (s : State) (m : Nat) (b : List Byte) (r : List (List Byte)),
      m < 2 ∧ s.macRuns m = true ∧ (s.macSt m).tx = none ∧ (s.macSt m).ptp = b :: r ∧
        s.launchFits m b.length = true) ∧
    (∃ (s : State) (m : Nat) (b : List Byte) (r : List (List Byte)),
      m < 2 ∧ s.macRuns m = true ∧ (s.macSt m).tx = none ∧ (s.macSt m).ptp = [] ∧ (s.macSt m).safety = b :: r ∧
        s.launchFits m b.length = true) ∧
    (∃ (s : State) (m : Nat) (q : Nat),
      m < 2 ∧ s.macRuns m = true ∧ (s.macSt m).tx = none ∧ (s.macSt m).ptp = [] ∧ (s.macSt m).safety = [] ∧ q < 8 ∧
        (s.txq q).mac = m ∧ (s.txq q).mode = 0 ∧ s.txReady q = true ∧ (∀ p, p < 8 → q < p → ((s.txq p).mac = m ∧
        (s.txq p).mode = 0) → s.txReady p = false) ∧
        s.launchFits m (leNat (s.bytes ((s.txq q).desc 0 + 2) 2)) = true) ∧
    (∃ (s : State) (m : Nat),
      (2 ≤ m ∨ s.macRuns m = false ∨ (s.macSt m).tx.isSome = true ∨ (∀ n, n ≤ 1518 → s.launchFits m n = false) ∧
        (s.macSt m).ptp.all (fun b => decide (b.length ≤ 1518)) = true ∧
        (s.macSt m).safety.all (fun b => decide (b.length ≤ 1518)) = true ∧ (∀ q, q < 8 →
        leNat (s.bytes ((s.txq q).desc 0 + 2) 2) ≤ 1518))) ∧
    (∃ (s : State) (m : Nat) (q : Nat) (a : Nat) (d : Nat) (l : Bool),
      s.clk.ethLock = true ∧ (s.macSt m).tx = some (.queue q l a, d) ∧ 1 < (s.txq q).n ∧ (s.txq q).desc 0 = a ∧
        s.descReady ((s.txq q).desc 1) = false) ∧
    (∃ (s : State) (m : Nat) (d : Nat) (b : List Byte),
      s.clk.ethLock = true ∧ (s.macSt m).tx = some (.safety b, d)) ∧
    (∃ (s : State) (m : Nat) (d : Nat) (b : List Byte),
      s.clk.ethLock = true ∧ (s.macSt m).tx = some (.ptp b, d)) ∧
    (∃ (s : State) (m : Nat),
      (s.clk.ethLock = false ∨ (s.macSt m).tx = none)) :=
  ⟨⟨netRun, ethFrame false, by decide +kernel, by decide +kernel, by decide +kernel⟩,
   ⟨netRun, ethFrame true, by decide +kernel⟩,
   ⟨netRun, safetyFrame, by decide +kernel, by decide +kernel, by decide +kernel, by decide +kernel,
     by decide +kernel, by decide +kernel, by decide +kernel⟩,
   ⟨netSafe, stlFrame, 0, _, _, by decide +kernel, by decide +kernel, by decide +kernel, by decide +kernel,
     by decide +kernel, by decide +kernel, by decide +kernel, by decide +kernel, by decide +kernel, rfl, rfl,
     by decide +kernel, by decide +kernel⟩,
   ⟨netSafe, safetyFrame, 0, 1, _, _, by decide +kernel, by decide +kernel, by decide +kernel, by decide +kernel,
     by decide +kernel, by decide +kernel, by decide +kernel, by decide +kernel, by decide +kernel, rfl, rfl,
     by decide +kernel, by decide +kernel⟩,
   ⟨{ netRun with tim := { slot := [(0, { best := some 1 })] } }, syncFrame, 0, _, by decide +kernel,
     by decide +kernel, by decide +kernel, by decide +kernel, by decide +kernel, by decide +kernel,
     by decide +kernel, by decide +kernel, rfl, by decide +kernel, by decide +kernel, by decide +kernel,
     by decide +kernel, by decide +kernel⟩,
   ⟨netRun, pdelayReq, _, _, by decide +kernel, by decide +kernel, by decide +kernel, by decide +kernel,
     by decide +kernel, by decide +kernel, by decide +kernel, by decide +kernel, rfl, by decide +kernel, rfl⟩,
   ⟨{ netRun with cfg := netWith [(0xA0, 0x31)] }, plainFrame, 0, by decide +kernel, by decide +kernel,
     by decide +kernel, by decide +kernel, by decide +kernel, by decide +kernel, by decide +kernel,
     by decide +kernel, by decide +kernel⟩,
   ⟨netRing 3, plainFrame, by decide +kernel, by decide +kernel, by decide +kernel, by decide +kernel,
     by decide +kernel, by decide +kernel, by decide +kernel, by decide +kernel⟩,
   ⟨queueState 0 1 60, 1, by decide +kernel⟩,
   ⟨queueState 0 0 60, 0, by decide +kernel, by decide +kernel, by decide +kernel⟩,
   ⟨queueState 0 1 0, 0, _, by decide +kernel, by decide +kernel, rfl, by decide +kernel, by decide +kernel⟩,
   ⟨queueState 1 1 60, 0, 0, _, by decide +kernel, rfl, by decide +kernel, by decide +kernel, by decide +kernel,
     by decide +kernel, by decide +kernel⟩,
   ⟨{ queueState 1 3 60 with tim := { wall := 2 ^ 40 } }, 0, 0, _, _, by decide +kernel, rfl, by decide +kernel,
     by decide +kernel, by decide +kernel, by decide +kernel, by decide +kernel, rfl⟩,
   ⟨netRun, 0, by decide +kernel⟩,
   ⟨macState true, 0, [1], [], by decide +kernel, by decide +kernel, by decide +kernel, by decide +kernel,
     by decide +kernel⟩,
   ⟨macState false, 0, [1], [], by decide +kernel, by decide +kernel, by decide +kernel, by decide +kernel,
     by decide +kernel, by decide +kernel⟩,
   ⟨queueState 0 1 60, 0, 0, by decide +kernel, by decide +kernel, by decide +kernel, by decide +kernel,
     by decide +kernel, by decide +kernel, by decide +kernel, by decide +kernel, by decide +kernel,
     by decide +kernel, by decide +kernel⟩,
   ⟨{}, 0, by decide +kernel⟩,
   ⟨sendingState, 0, 0, 0x00200000, 5, false, by decide +kernel, by decide +kernel, by decide +kernel,
     by decide +kernel, by decide +kernel⟩,
   ⟨launchState, 0, 5, [], by decide +kernel, by decide +kernel⟩,
   ⟨ptpSending [3], 0, 5, [3], by decide +kernel, by decide +kernel⟩,
   ⟨{}, 0, by decide +kernel⟩⟩

/-- What MonitorArithmeticCompletes asks can be met. -/
theorem witness_MonitorArithmeticCompletes :
    (∃ (s : State) (i : Nat) (w : MonWord), MonIssues s i w w.none []) ∧
    (∃ (s : State) (i : Nat) (w : MonWord), MonIssues s i w w.noImm [w.a.toNat, w.b.toNat]) ∧
    (∃ (s : State) (i : Nat) (w : MonWord), MonIssues s i w w.noB [w.a.toNat]) ∧
    (∃ (s : State) (i : Nat) (w : MonWord), MonIssues s i w w.noAB []) :=
  ⟨⟨monRunning, 0, { d := 0, a := 0, b := 0, imm := 0, ecc := false }, mon_issues_of (by decide +kernel)⟩,
   ⟨monRunning, 0, { d := 1, a := 2, b := 3, imm := 0, ecc := false }, mon_issues_of (by decide +kernel)⟩,
   ⟨monRunning, 0, { d := 1, a := 2, b := 0, imm := 31, ecc := false }, mon_issues_of (by decide +kernel)⟩,
   ⟨monRunning, 0, { d := 1, a := 0, b := 0, imm := 16384, ecc := false }, mon_issues_of (by decide +kernel)⟩⟩

/-- A Monitor word, and a pair in lockstep with core B behind by one output, or in split mode. -/
def mw (d a imm : Nat) : MonWord := { d := BitVec.ofNat 4 d, a := BitVec.ofNat 4 a, b := 0, imm := BitVec.ofNat 15 imm, ecc := false }
def monLocked (o : List (Nat × MonOut)) : State :=
  { mon := { mode := 1, a := { run := true, pc := o.length, m := [(15, 1)] }, b := { run := true, m := [(15, 1)] },
             prog := [4, 0, 0, 0, 0, 0, 0, 0, 2], lag := o } }
def monSplitRun : State := { monRunning with mon := { monRunning.mon with mode := 3 } }

/-- What MonitorControlAndMemoryCompletes asks can be met. -/
theorem witness_MonitorControlAndMemoryCompletes :
    (∃ (s : State) (i : Nat) (a : Nat) (w : MonWord),
      a = w.addr (s.core i) ∧ a < 2048 ∧ MonIssues s i w w.noB [w.a.toNat, 16 + a]) ∧
    (∃ (s : State) (i : Nat) (a : Nat) (w : MonWord),
      a = w.addr (s.core i) ∧ a < 2048 ∧ MonIssues s i w w.noB [w.a.toNat, w.d.toNat]) ∧
    (∃ (s : State) (i : Nat) (w : MonWord),
      2048 ≤ w.addr (s.core i) ∧ MonIssues s i w w.noB [w.a.toNat] ∧ s.monLatentHit i [w.a.toNat,
        w.d.toNat] = false) ∧
    (∃ (s : State) (i : Nat) (w : MonWord),
      MonIssues s i w w.onlyImm [] ∧ 0 ≤ ((s.core i).pc : Int) + w.imm.toInt ∧
        ((s.core i).pc : Int) + w.imm.toInt < monNWords s.mon.prog) ∧
    (∃ (s : State) (i : Nat) (w : MonWord),
      (((s.core i).pc : Int) + w.imm.toInt < 0 ∨ monNWords s.mon.prog ≤ ((s.core i).pc : Int) + w.imm.toInt)) ∧
    (∃ (s : State) (i : Nat) (w : MonWord),
      MonIssues s i w w.noDB [w.a.toNat] ∧ (s.core i).cell w.a.toNat = 0 ∧
        0 ≤ (((s.core i).pc : Int) + w.imm.toInt) ∧ (((s.core i).pc : Int) + w.imm.toInt) < monNWords s.mon.prog) ∧
    (∃ (s : State) (i : Nat) (w : MonWord),
      MonIssues s i w w.noDB [w.a.toNat] ∧ (s.core i).cell w.a.toNat ≠ 0) ∧
    (∃ (s : State) (i : Nat) (w : MonWord),
      MonIssues s i w w.noDB [w.a.toNat] ∧ (s.core i).cell w.a.toNat ≠ 0 ∧
        0 ≤ (((s.core i).pc : Int) + w.imm.toInt) ∧ (((s.core i).pc : Int) + w.imm.toInt) < monNWords s.mon.prog) ∧
    (∃ (s : State) (i : Nat) (w : MonWord),
      MonIssues s i w w.noDB [w.a.toNat] ∧ (s.core i).cell w.a.toNat = 0) ∧
    (∃ (s : State) (i : Nat) (w : MonWord),
      MonIssues s i w w.noAB [] ∧ 0 ≤ ((s.core i).pc : Int) + w.imm.toInt ∧
        ((s.core i).pc : Int) + w.imm.toInt < monNWords s.mon.prog) ∧
    (∃ (s : State) (i : Nat) (w : MonWord),
      MonIssues s i w (w.noDB && w.noImm) [w.a.toNat] ∧ ((s.core i).cell w.a.toNat).toNat < monNWords s.mon.prog) ∧
    (∃ (s : State) (i : Nat) (w : MonWord),
      MonIssues s i w (w.noDB && w.noImm) [w.a.toNat] ∧ monNWords s.mon.prog ≤ ((s.core i).cell w.a.toNat).toNat) ∧
    (∃ (s : State) (i : Nat) (w : MonWord),
      MonIssues s i w w.noAB []) ∧
    (∃ (s : State) (i : Nat) (w : MonWord),
      MonIssues s i w w.noDB [w.a.toNat]) ∧
    (∃ (s : State) (i : Nat) (w : MonWord),
      MonIssues s i w w.noAB []) ∧
    (∃ (s : State) (u : State) (i : Nat) (w : MonWord),
      MonIssues s i w w.none [] ∧ (s.monLock = false ∨ i = 0) ∧ u = s.setCore i ((s.core i).after { wait := true })) ∧
    (∃ (s : State) (w : MonWord) (r : List (Nat × MonOut)),
      MonIssues s 1 w w.none [] ∧ s.monLock = true ∧ s.mon.lag = ((s.core 1).pc, .none) :: r ∧
        s.mon.sweepDue = false) ∧
    (∃ (s : State) (i : Nat) (w : MonWord),
      MonIssues s i w w.onlyImm []) ∧
    (∃ (s : State) (i : Nat) (x : Nat) (y : Nat),
      i < 2) :=
  ⟨⟨monRunning, 0, _, mw 1 2 2047, rfl, by decide +kernel, mon_issues_of (by decide +kernel)⟩,
   ⟨monRunning, 0, _, mw 1 2 2047, rfl, by decide +kernel, mon_issues_of (by decide +kernel)⟩,
   ⟨monRunning, 0, mw 1 2 2048, by decide +kernel, mon_issues_of (by decide +kernel), by decide +kernel⟩,
   ⟨monRunning, 0, mw 0 0 0, mon_issues_of (by decide +kernel), by decide +kernel, by decide +kernel⟩,
   ⟨monRunning, 0, mw 0 0 1, by decide +kernel⟩,
   ⟨monRunning, 0, mw 0 2 0, mon_issues_of (by decide +kernel), by decide +kernel, by decide +kernel,
     by decide +kernel⟩,
   ⟨monRunning, 0, mw 0 15 0, mon_issues_of (by decide +kernel), by decide +kernel⟩,
   ⟨monRunning, 0, mw 0 15 0, mon_issues_of (by decide +kernel), by decide +kernel, by decide +kernel,
     by decide +kernel⟩,
   ⟨monRunning, 0, mw 0 2 0, mon_issues_of (by decide +kernel), by decide +kernel⟩,
   ⟨monRunning, 0, mw 1 0 0, mon_issues_of (by decide +kernel), by decide +kernel, by decide +kernel⟩,
   ⟨monRunning, 0, mw 0 2 0, mon_issues_of (by decide +kernel), by decide +kernel⟩,
   ⟨monRunning, 0, mw 0 15 0, mon_issues_of (by decide +kernel), by decide +kernel⟩,
   ⟨monRunning, 0, mw 1 0 0, mon_issues_of (by decide +kernel)⟩,
   ⟨monRunning, 0, mw 0 2 15, mon_issues_of (by decide +kernel)⟩,
   ⟨monRunning, 0, mw 1 0 15, mon_issues_of (by decide +kernel)⟩,
   ⟨monRunning, _, 0, mw 0 0 0, mon_issues_of (by decide +kernel), by decide +kernel, rfl⟩,
   ⟨monLocked [(0, .none)], mw 0 0 0, [], mon_issues_of (by decide +kernel), by decide +kernel, by decide +kernel,
     by decide +kernel⟩,
   ⟨monRunning, 0, mw 0 0 255, mon_issues_of (by decide +kernel)⟩,
   ⟨monRunning, 1, 8, 255, by decide +kernel⟩⟩

/-- Channel 0 of the safe transfer layer sends, in split mode. -/
def monSending : State := { monSplitRun with cfg := secs [(secSafety, pay 0x40 [(0x20, 5)])] }

/-- What MonitorOutputsComplete asks can be met. -/
theorem witness_MonitorOutputsComplete :
    (∃ (s : State) (i : Nat) (w : MonWord),
      MonIssues s i w w.noDB [w.a.toNat]) ∧
    (∃ (s : State) (i : Nat) (w : MonWord),
      MonIssues s i w w.noDB [w.a.toNat]) ∧
    (∃ (s : State) (i : Nat) (w : MonWord),
      MonIssues s i w w.noDB [w.a.toNat]) ∧
    (∃ (s : State) (i : Nat) (w : MonWord),
      MonIssues s i w w.noDB [w.a.toNat]) ∧
    (∃ (s : State) (i : Nat) (w : MonWord),
      MonIssues s i w w.noDB [w.a.toNat]) ∧
    (∃ (s : State) (i : Nat) (w : MonWord),
      MonIssues s i w w.noDB [w.a.toNat]) ∧
    (∃ (s : State) (i : Nat) (w : MonWord),
      MonIssues s i w w.noDB [w.a.toNat]) ∧
    (∃ (s : State) (i : Nat) (j : Nat) (w : MonWord) (c : Instr),
      MonIssues s i w w.noDB [w.a.toNat] ∧ s.mon.mode = 3 ∧ j = w.imm.toNat ∧ j < 4 ∧ j % 2 = i ∧
        c ∈ [Instr.monOutGen i w, .monOutRly i w]) ∧
    (∃ (s : State) (i : Nat) (j : Nat) (w : MonWord) (c : Instr),
      MonIssues s i w w.noDB [w.a.toNat] ∧ s.mon.mode = 3 ∧ j = w.imm.toNat ∧ j < 4 ∧ j % 2 ≠ i ∧
        c ∈ [Instr.monOutGen i w, .monOutRly i w]) ∧
    (∃ (s : State) (i : Nat) (w : MonWord),
      MonIssues s i w w.noDB [w.a.toNat] ∧ s.mon.mode = 3 ∧ w.imm = 4) ∧
    (∃ (s : State) (i : Nat) (w : MonWord),
      MonIssues s i w w.noDB [w.a.toNat] ∧ s.mon.mode = 3 ∧ w.imm = 5) ∧
    (∃ (s : State) (i : Nat) (w : MonWord),
      MonIssues s i w w.noDB [w.a.toNat] ∧ s.mon.mode = 3 ∧ w.imm = 6) ∧
    (∃ (s : State) (i : Nat) (k : Nat) (w : MonWord),
      MonIssues s i w w.noDB [w.a.toNat] ∧ s.mon.mode = 3 ∧ k < 4 ∧ w.imm.toNat = 16 + 2 * k) ∧
    (∃ (s : State) (i : Nat) (k : Nat) (m : Nat) (n : Nat) (b : List Byte) (w : MonWord),
      MonIssues s i w w.noDB [w.a.toNat] ∧ s.mon.mode = 3 ∧ k < 4 ∧ w.imm.toNat = 17 + 2 * k ∧ s.stlOn k = true ∧
        s.stlFlag k 2 = true ∧ m = b2n (s.stlFlag k 3) ∧ n = SMap.get (fun _ => 0) (s.core i).txCount k + 1 ∧
        b = stlPdu 2 (n % 65536) (s.safety (0x28 + 32 * k) 4) (s.safety (0x24 + 32 * k) 4) (s.wallNs / 1000000000 % 2 ^ 32) (s.wallNs % 1000000000) (SMap.get (fun _ => 0) (s.core i).stage k) ((s.core i).cell w.a.toNat)) ∧
    (∃ (s : State) (w : MonWord) (c : Instr),
      MonIssues s 0 w w.noDB [w.a.toNat] ∧ s.mon.mode = 1 ∧ c ∈ [Instr.monOutGen 0 w, .monOutRly 0 w,
        .monOutMonOff 0 w, .monOutUser 0 w, .monOutSplit 0 w, .monOutStlData 0 w, .monOutStlSend 0 w]) ∧
    (∃ (s : State) (v : Word) (w : MonWord) (r : List (Nat × MonOut)) (c : Instr),
      MonIssues s 1 w w.noDB [w.a.toNat] ∧ s.mon.mode = 1 ∧ v = (s.core 1).cell w.a.toNat ∧
        s.mon.lag = ((s.core 1).pc, .port w.imm.toNat v) :: r ∧ s.mon.sweepDue = false ∧ c ∈ [Instr.monOutGen 1 w,
        .monOutRly 1 w, .monOutMonOff 1 w, .monOutUser 1 w, .monOutSplit 1 w, .monOutStlData 1 w,
        .monOutStlSend 1 w]) ∧
    (∃ (s : State) (w : MonWord) (x : Nat × MonOut) (r : List (Nat × MonOut)) (c : Instr),
      MonIssues s 1 w w.noDB [w.a.toNat] ∧ s.mon.mode = 1 ∧ s.mon.lag = x :: r ∧ x ≠ ((s.core 1).pc,
        .port w.imm.toNat ((s.core 1).cell w.a.toNat)) ∧ s.mon.a.fault = none ∧ c ∈ [Instr.monOutGen 1 w,
        .monOutRly 1 w, .monOutMonOff 1 w, .monOutUser 1 w, .monOutSplit 1 w, .monOutStlData 1 w,
        .monOutStlSend 1 w]) :=
  ⟨⟨monRunning, 0, mw 0 2 0, mon_issues_of (by decide +kernel)⟩,
   ⟨monRunning, 0, mw 0 2 2, mon_issues_of (by decide +kernel)⟩,
   ⟨monRunning, 0, mw 0 2 4, mon_issues_of (by decide +kernel)⟩,
   ⟨monRunning, 0, mw 0 2 5, mon_issues_of (by decide +kernel)⟩,
   ⟨monRunning, 0, mw 0 2 6, mon_issues_of (by decide +kernel)⟩,
   ⟨monRunning, 0, mw 0 2 16, mon_issues_of (by decide +kernel)⟩,
   ⟨monRunning, 0, mw 0 2 17, mon_issues_of (by decide +kernel)⟩,
   ⟨monSplitRun, 0, 2, mw 0 15 2, .monOutRly 0 (mw 0 15 2), mon_issues_of (by decide +kernel), by decide +kernel,
     by decide +kernel, by decide +kernel, by decide +kernel, by decide +kernel⟩,
   ⟨monSplitRun, 0, 1, mw 0 15 1, .monOutGen 0 (mw 0 15 1), mon_issues_of (by decide +kernel), by decide +kernel,
     by decide +kernel, by decide +kernel, by decide +kernel, by decide +kernel⟩,
   ⟨monSplitRun, 0, mw 0 15 4, mon_issues_of (by decide +kernel), by decide +kernel, by decide +kernel⟩,
   ⟨monSplitRun, 0, mw 0 15 5, mon_issues_of (by decide +kernel), by decide +kernel, by decide +kernel⟩,
   ⟨monSplitRun, 0, mw 0 15 6, mon_issues_of (by decide +kernel), by decide +kernel, by decide +kernel⟩,
   ⟨monSplitRun, 0, 3, mw 0 15 22, mon_issues_of (by decide +kernel), by decide +kernel, by decide +kernel,
     by decide +kernel⟩,
   ⟨monSending, 0, 0, _, _, _, mw 0 15 17, mon_issues_of (by decide +kernel), by decide +kernel, by decide +kernel,
     by decide +kernel, by decide +kernel, by decide +kernel, rfl, rfl, rfl⟩,
   ⟨monLocked [], mw 0 15 3, .monOutRly 0 (mw 0 15 3), mon_issues_of (by decide +kernel), by decide +kernel,
     by decide +kernel⟩,
   ⟨monLocked [(0, .port 6 1)], 1, mw 0 15 6, [], .monOutSplit 1 (mw 0 15 6), mon_issues_of (by decide +kernel),
     by decide +kernel, by decide +kernel, by decide +kernel, by decide +kernel, by decide +kernel⟩,
   ⟨monLocked [(0, .port 6 0)], mw 0 15 6, (0, .port 6 0), [], .monOutSplit 1 (mw 0 15 6),
     mon_issues_of (by decide +kernel), by decide +kernel, by decide +kernel, by decide +kernel, by decide +kernel,
     by decide +kernel⟩⟩

/-- Both cores wait at a tick edge. -/
def monWaiting (m : Nat) (q : Bool) : State :=
  { mon := { mode := m, a := { run := true, waiting := true }, b := { run := true, waiting := true }, splitReq := q } }
/-- The aligned pair differs in a cell that neither core has read, or in its program counters. -/
def monDiffer (p : Nat) : State :=
  { mon := { mode := 1, a := { run := true, m := [(3, 1)] }, b := { run := true, pc := p } } }

/-- What MonitorCommandsComplete asks can be met. -/
theorem witness_MonitorCommandsComplete :
    (∃ (s : State) (rb : BitVec 6) (p : Bool),
      s.mon.mode = 0) ∧
    (∃ (s : State) (rb : BitVec 6),
      s.mon.mode ≠ 0 ∧ s.mon.startDue = true ∧ s.mon.a.fault = none ∧ s.mon.b.fault = none) ∧
    (∃ (s : State) (rb : BitVec 6),
      s.mon.mode ≠ 0 ∧ s.mon.startDue = false ∧ s.mon.splitReq = false ∧ (∀ i, i < 2 → (s.core i).run = true ∧
        (s.core i).fault = none ∧ (s.core i).waiting = true)) ∧
    (∃ (s : State) (rb : BitVec 6) (p : Bool) (i : Nat),
      s.mon.mode ≠ 0 ∧ s.mon.startDue = false ∧ i < 2 ∧ (s.core i).ready = true ∧ (i = 0 ∨ s.monSplit = true)) ∧
    (∃ (s : State) (rb : BitVec 6),
      s.mon.mode = 1 ∧ s.mon.startDue = false ∧ s.mon.splitReq = true ∧ (∀ i, i < 2 → (s.core i).run = true ∧
        (s.core i).fault = none ∧ (s.core i).waiting = true)) ∧
    (∃ (s : State) (rb : BitVec 6),
      s.mon.mode = 1 ∧ s.mon.startDue = false ∧ s.mon.splitReq = false ∧ (∀ i, i < 2 → (s.core i).run = true ∧
        (s.core i).fault = none ∧ (s.core i).waiting = true)) ∧
    (∃ (s : State),
      s.mon.mode = 2 ∧ s.mon.hover = 0) ∧
    (∃ (s : State),
      (s.mon.mode ≠ 2 ∨ s.mon.hover ≠ 0)) ∧
    (∃ (s : State),
      s.mon.mode = 1 ∧ s.mon.a.run = true ∧ s.mon.a.fault = none ∧ s.mon.lag = [] ∧ s.mon.a.pc = s.mon.b.pc ∧
        s.monDiffs = []) ∧
    (∃ (s : State),
      s.mon.mode = 1 ∧ s.mon.a.run = true ∧ s.mon.a.fault = none ∧ s.mon.lag = [] ∧ s.mon.a.pc = s.mon.b.pc ∧
        s.monDiffs ≠ [] ∧ s.monDiffs.all (fun n => !s.mon.a.isUsed n && !s.mon.b.isUsed n) = true) ∧
    (∃ (s : State),
      s.mon.mode = 1 ∧ s.mon.a.run = true ∧ s.mon.a.fault = none ∧ s.mon.b.fault = none ∧ s.mon.lag = [] ∧
        (s.mon.a.pc ≠ s.mon.b.pc ∨ s.monDiffs.any (fun n => s.mon.a.isUsed n || s.mon.b.isUsed n) = true)) ∧
    (∃ (s : State) (p : Int),
      s.clk.refOk = true ∧ 40000 < p.natAbs ∧ s.mon.a.fault = none ∧ s.mon.b.fault = none) ∧
    (∃ (s : State) (p : Int),
      (s.clk.refOk = false ∨ p.natAbs ≤ 40000)) ∧
    (∃ (s : State) (k : Nat) (v : Int),
      s.mon.accepted = true ∧ (k = 8 ∨ (k < 8 ∧ k < s.adcmN))) ∧
    (∃ (s : State) (k : Nat) (v : Int),
      (s.mon.accepted = false ∨ 8 < k ∨ (k < 8 ∧ s.adcmN ≤ k))) ∧
    (∃ (s : State) (j : Nat),
      j < 4 ∧ s.mon.accepted = true ∧ s.safety 0x14 2 ≠ 0 ∧ bit s.mon.out j = true ∧ (∀ i, i < 4 → s.optTest i = 0 ∨
        (s.monSplit = true ∧ i % 2 ≠ j % 2))) ∧
    (∃ (s : State) (j : Nat),
      (4 ≤ j ∨ s.mon.accepted = false ∨ s.safety 0x14 2 = 0 ∨ bit s.mon.out j = false ∨ s.optTest j ≠ 0)) ∧
    (∃ (s : State) (j : Nat),
      s.optTest j = 1) ∧
    (∃ (s : State) (j : Nat) (b : Bool),
      (s.optTest j ≠ 1 ∨ b = false)) ∧
    (∃ (s : State) (j : Nat),
      s.optTest j = 1) ∧
    (∃ (s : State) (j : Nat),
      s.optTest j ≠ 1) ∧
    (∃ (s : State) (j : Nat) (a : Bool),
      j < 4 ∧ s.optTest j = 2) ∧
    (∃ (s : State) (j : Nat) (a : Bool),
      s.optTest j ≠ 2) ∧
    (∃ (s : State) (j : Nat),
      j < 2 ∧ bit s.mon.rb (4 + j) ≠ bit s.mon.out (2 + j) ∧
        SMap.get (fun _ => 0) s.mon.relayAt j + 400000 * s.safety 0x1A 2 < s.clk.t) ∧
    (∃ (s : State) (j : Nat),
      (2 ≤ j ∨ bit s.mon.rb (4 + j) = bit s.mon.out (2 + j) ∨
        s.clk.t ≤ SMap.get (fun _ => 0) s.mon.relayAt j + 400000 * s.safety 0x1A 2)) ∧
    (∃ (s : State) (k : Nat),
      k < 4 ∧ s.mon.accepted = true ∧ s.stlOn k = true ∧ s.stlOld 0 k = true) ∧
    (∃ (s : State) (k : Nat),
      (4 ≤ k ∨ s.mon.accepted = false ∨ s.stlOn k = false ∨ (s.stl 0 k).sync = true ∨
        s.clk.t ≤ (s.stl 0 k).since + 400000 * s.safety (0x22 + 32 * k) 2)) ∧
    (∃ (s : State) (w : Word),
      s.mon.accepted = true ∧ w = s.mon.check ∧ s.allStopped = true ∧ s.acceptPending = false ∧
        s.mon.confirmAt = none) ∧
    (∃ (s : State) (w : Word),
      (s.mon.accepted = false ∨ w ≠ s.mon.check ∨ s.allStopped = false ∨ s.acceptPending = true ∨
        s.mon.confirmAt.isSome = true)) ∧
    (∃ (s : State) (w : Word),
      s.mon.confirmAt.all (fun a => w != ~~~s.mon.check || !s.allStopped || s.acceptPending || decide (a + 4000000000 < s.clk.t)) = true) ∧
    (∃ (s : State) (a : Nat) (i : Nat) (q : Nat) (w : Word),
      s.mon.confirmAt = some a ∧ w = ~~~s.mon.check ∧ s.allStopped = true ∧ s.acceptPending = false ∧
        s.clk.t ≤ a + 4000000000 ∧ (s.commNewest = none → i = 0 ∧ q = 1) ∧ (∀ k, k < 2 → s.commNewest = some k →
        i = 1 - k ∧ q = (s.commSeq k + 1) % 2 ^ 32)) :=
  ⟨⟨{}, 0, false, by decide +kernel⟩,
   ⟨monStarting, 0, by decide +kernel, by decide +kernel, by decide +kernel, by decide +kernel⟩,
   ⟨(monWaiting 3 false), 0x3F, by decide +kernel, by decide +kernel, by decide +kernel, by decide +kernel⟩,
   ⟨{ mon := { mode := 1, a := { run := true }, b := { run := true } } }, 0, true, 0, by decide +kernel,
     by decide +kernel, by decide +kernel, by decide +kernel, by decide +kernel⟩,
   ⟨(monWaiting 1 true), 0, by decide +kernel, by decide +kernel, by decide +kernel, by decide +kernel⟩,
   ⟨(monWaiting 1 false), 0, by decide +kernel, by decide +kernel, by decide +kernel, by decide +kernel⟩,
   ⟨{ mon := { mode := 2, waitOut := [(3, true)] } }, by decide +kernel, by decide +kernel⟩,
   ⟨{}, by decide +kernel⟩,
   ⟨{ mon := { mode := 1, a := { run := true } } }, by decide +kernel, by decide +kernel, by decide +kernel,
     by decide +kernel, by decide +kernel, by decide +kernel⟩,
   ⟨monDiffer 0, by decide +kernel, by decide +kernel, by decide +kernel, by decide +kernel, by decide +kernel,
     by decide +kernel, by decide +kernel⟩,
   ⟨monDiffer 1, by decide +kernel, by decide +kernel, by decide +kernel, by decide +kernel, by decide +kernel,
     by decide +kernel⟩,
   ⟨{ clk := { refOk := true } }, -40001, by decide +kernel, by decide +kernel, by decide +kernel, by decide +kernel⟩,
   ⟨{ clk := { refOk := true } }, 40000, by decide +kernel⟩,
   ⟨{ mon := { accepted := true } }, 8, 0, by decide +kernel, by decide +kernel⟩,
   ⟨{ mon := { accepted := true } }, 7, 0, by decide +kernel⟩,
   ⟨offPulse, 3, by decide +kernel, by decide +kernel, by decide +kernel, by decide +kernel, by decide +kernel⟩,
   ⟨{}, 3, by decide +kernel⟩,
   ⟨offPulseIn 1, 3, by decide +kernel⟩,
   ⟨offPulseIn 1, 3, false, by decide +kernel⟩,
   ⟨offPulseIn 1, 3, by decide +kernel⟩,
   ⟨{}, 3, by decide +kernel⟩,
   ⟨offPulseIn 2, 3, false, by decide +kernel, by decide +kernel⟩,
   ⟨{}, 3, false, by decide +kernel⟩,
   ⟨{ mon := { out := 8 }, clk := { t := 1 } }, 1, by decide +kernel, by decide +kernel, by decide +kernel⟩,
   ⟨{ mon := { out := 8 } }, 1, by decide +kernel⟩,
   ⟨{ stlState with clk := { t := 1 } }, 0, by decide +kernel, by decide +kernel, by decide +kernel,
     by decide +kernel⟩,
   ⟨stlState, 0, by decide +kernel⟩,
   ⟨{ mon := { accepted := true } }, _, by decide +kernel, rfl, by decide +kernel, by decide +kernel,
     by decide +kernel⟩,
   ⟨{}, 1, by decide +kernel⟩,
   ⟨{ mon := { confirmAt := some 0 } }, 0, by decide +kernel⟩,
   ⟨{ mon := { confirmAt := some 0 } }, 0, 0, 1, _, by decide +kernel, rfl, by decide +kernel, by decide +kernel,
     by decide +kernel, by decide +kernel, by decide +kernel⟩⟩

def rankFrame (t r : Nat) : TrsFrame := { roleFrame t with src := r }
/-- A ROLE frame of rank 1 for role `r` at epoch 9. -/
def newsFrame (r : Byte) : TrsFrame := { rankFrame 4 1 with payload := [r, 1, 9, 0] }
/-- TRESTLE is the preferred source, in FREE. -/
def trsPreferred : State := { roleState with cfg := secs [(secNetwork, netPay.set 0 0x1B)] }

/-- What TrestleCommandsComplete asks can be met. -/
theorem witness_TrestleCommandsComplete :
    (∃ (s : State) (b : Bool) (f : TrsFrame),
      s.clk.ethLock = true ∧
        nextFrame (s.trs.out.filter fun f => f.ringB = b || (f.hops = 0 && f.dst != 0xFF && f.type != 0x0B)) = some f) ∧
    (∃ (s : State) (b : Bool),
      (s.clk.ethLock = false ∨ s.trs.out = [])) ∧
    (∃ (s : State) (b : Bool),
      (if b then s.trs.wrapB else s.trs.wrapA) = false) ∧
    (∃ (s : State) (b : Bool),
      (if b then s.trs.wrapB else s.trs.wrapA) = true) ∧
    (∃ (s : State) (f : TrsFrame) (x : Bool),
      f.type ≠ 0 ∧ f.type ≤ 0x0B ∧ f.src ≠ s.trs.rank ∧ f.dst ≠ s.trs.rank ∧ f.dst ≠ 0xFE ∧ f.hops < 63 ∧
        x = (if f.ringB then s.trs.wrapA else s.trs.wrapB)) ∧
    (∃ (s : State) (f : TrsFrame),
      (f.type = 0 ∨ 0x0B < f.type ∨ (f.src ≠ s.trs.rank ∧ f.dst ≠ s.trs.rank ∧ f.dst ≠ 0xFE ∧ 63 ≤ f.hops))) ∧
    (∃ (s : State) (f : TrsFrame),
      f.type ≠ 0 ∧ f.type ≤ 0x0B ∧ (f.src = s.trs.rank ∨ f.dst = s.trs.rank ∨ f.dst = 0xFE)) ∧
    (∃ (s : State) (r : Nat) (n : Nat),
      s.trs.enumEver = false) ∧
    (∃ (s : State) (r : Nat) (n : Nat),
      s.trs.enumEver = true) ∧
    (∃ (s : State) (r : Nat) (e : BitVec 16),
      r < 8 ∧ (s.role r).epoch = e.toNat) ∧
    (∃ (s : State) (r : Nat) (n : Nat) (e : BitVec 16),
      r < 8 ∧ (s.role r).epoch ≠ e.toNat) ∧
    (∃ (s : State) (r : Nat) (n : Nat) (e : BitVec 16),
      (8 ≤ r ∨ (s.role r).epoch = e.toNat ∧ n ≠ s.trs.rank)) ∧
    (∃ (s : State) (f : TrsFrame) (r : Nat),
      f.type = 4 ∧ r = field f.payload 0 1 ∧ r < 8 ∧
        (aheadMod (2 ^ 16) (s.role r).epoch (field f.payload 2 2) = true ∨ (s.role r).assigned = false ∧
        (s.role r).epoch = 0) ∧ (s.holds r = false ∨ field f.payload 1 1 = s.trs.rank)) ∧
    (∃ (s : State) (f : TrsFrame) (r : Nat),
      f.type = 4 ∧ r = field f.payload 0 1 ∧ r < 8 ∧
        aheadMod (2 ^ 16) (s.role r).epoch (field f.payload 2 2) = true ∧ s.holds r = true ∧
        field f.payload 1 1 ≠ s.trs.rank) ∧
    (∃ (s : State) (f : TrsFrame) (r : Nat),
      r = field f.payload 0 1 ∧ (f.type ≠ 4 ∨ 8 ≤ r ∨
        aheadMod (2 ^ 16) (s.role r).epoch (field f.payload 2 2) = false ∧ (s.role r).epoch ≠ 0)) ∧
    (∃ (s : State) (f : TrsFrame),
      f.type = 1 ∧ s.roleAccepts 0 f = true) ∧
    (∃ (s : State) (n : Nat),
      s.holds 0 = true ∧ n = (s.reg rANG_STAT).toNat ||| s.angStat) ∧
    (∃ (s : State) (f : TrsFrame) (o : Int),
      f.type = 6 ∧ s.roleAccepts 1 f = true ∧
        o = (s.tim.wall / 65536 : Nat) - ((f.accd + s.linkDelay f.ringB) * 1024 : Nat) - ((field f.payload 0 8 * 1000000000 + field f.payload 8 4 : Nat) : Int) * 65536) ∧
    (∃ (s : State) (w : Word),
      s.holds 1 = true ∧ (∀ e, s.timErr = some e → w = word (min 0xFFFFFFFF (divOpen 115 e (2 ^ 150)).toNat)) ∧
        (s.timErr = none → w = s.takeFree.1)) :=
  ⟨⟨{ clk := { ethLock := true }, trs := { out := [roleFrame 3] } }, false, roleFrame 3, by decide +kernel,
    by decide +kernel⟩,
   ⟨{}, true, by decide +kernel⟩,
   ⟨{}, true, by decide +kernel⟩,
   ⟨{ trs := { wrapB := true } }, true, by decide +kernel⟩,
   ⟨{ trs := { wrapB := true } }, { rankFrame 3 1 with hops := 62 }, _, by decide +kernel, by decide +kernel,
     by decide +kernel, by decide +kernel, by decide +kernel, by decide +kernel, rfl⟩,
   ⟨{}, { rankFrame 3 1 with hops := 63 }, by decide +kernel⟩,
   ⟨{}, roleFrame 3, by decide +kernel, by decide +kernel, by decide +kernel⟩,
   ⟨{}, 65, 1, by decide +kernel⟩,
   ⟨{ roleState with trs := { roleState.trs with enumEver := true, root := true, role := (List.range 8).map fun r => (r, { assigned := true, epoch := 65535 }) } }, 3, 1, by decide +kernel⟩,
   ⟨{}, 7, 0, by decide +kernel, by decide +kernel⟩,
   ⟨{}, 7, 1, 1, by decide +kernel, by decide +kernel⟩,
   ⟨{}, 7, 1, 0, by decide +kernel⟩,
   ⟨{}, newsFrame 4, _, by decide +kernel, rfl, by decide +kernel, by decide +kernel, by decide +kernel⟩,
   ⟨{ roleState with trs := { roleState.trs with role := [(4, { assigned := true })] }, cfg := pairCfg true },
     newsFrame 4, _, by decide +kernel, rfl, by decide +kernel, by decide +kernel, by decide +kernel,
     by decide +kernel⟩,
   ⟨{}, roleFrame 1, _, rfl, by decide +kernel⟩,
   ⟨roleState, roleFrame 1, by decide +kernel, by decide +kernel⟩,
   ⟨roleState, _, by decide +kernel, rfl⟩,
   ⟨{ trsPreferred with tim := { wall := 2 ^ 62 } }, roleFrame 6, _, by decide +kernel, by decide +kernel, rfl⟩,
   ⟨roleState, roleState.takeFree.1, by decide +kernel,
     (fun e h => by rw [show roleState.timErr = none by decide +kernel] at h; cases h), fun _ => rfl⟩⟩

def pairLost (l : Bool) : State := { tier := 2, cfg := pairCfg false, pair := { role := 2, lost := l } }
/-- A fit standby with AUTO_TAKE whose groups run locked to the angle. -/
def pairReady (r : Nat) : State :=
  { cfg := secs [(secLoopCoef, bankPay 1022 [(4, 5), (10, 1), (16, 3)]), (secTopology, pay 32 [(11, 1), (8, 1)])]
    pwm := { group := [(0, { st := .running })], alignOk := true }
    pair := { role := r, lost := true, genRx := some 0 } }
/-- This device holds the PAIR role, and parts of a mirror record have come. -/
def mirrorState (l : List (Nat × List Byte)) : State := { pairRole with pair := { rx := l } }
def mirrorFrame (b : List Byte) : TrsFrame := { roleFrame 7 with payload := b }
/-- A whole record is there, with one item of a kind. -/
def mirrorWhole (k : Byte) (g : Option Nat) : State :=
  { cfg := secs [(secLoopCoef, bankPay 1022 [(4, 1), (20, 1), (32, k), (36, 1), (40, 1)])]
    pair := { role := 2, whole := some (pay 40 [(0x20, 7)]), genRx := g } }

/-- What PairCommandsComplete asks can be met. -/
theorem witness_PairCommandsComplete :
    (∃ (s : State),
      s.pairOn = true ∧ 2 ≤ s.tier ∧ s.pair.role = 0 ∧ s.pair.deposed = false ∧ (s.pairPrimary = true ∨
        s.pair.actIn = false)) ∧
    (∃ (s : State),
      s.pairOn = true ∧ 2 ≤ s.tier ∧ s.pair.role = 0 ∧ s.pair.deposed = false ∧ s.pairPrimary = false ∧
        s.pair.actIn = true) ∧
    (∃ (s : State),
      (s.pairOn = false ∨ s.tier < 2 ∨ s.pair.role ≠ 0 ∨ s.pair.deposed = true)) ∧
    (∃ (s : State),
      s.pair.role = 1 ∧ s.pairPrimary = true ∧ s.pair.actIn = true) ∧
    (∃ (s : State),
      s.pair.role = 1 ∧ s.pairPrimary = true ∧ s.pair.actIn = false) ∧
    (∃ (s : State),
      (s.pair.role ≠ 1 ∨ s.pairPrimary = false)) ∧
    (∃ (s : State),
      s.pair.role = 1 ∧ s.pairPrimary = false ∧ s.pair.hbSeen = false ∧ s.pair.actIn = false) ∧
    (∃ (s : State),
      s.pair.role = 1 ∧ s.pairPrimary = false ∧ s.pair.hbSeen = false ∧ s.pair.actIn = true) ∧
    (∃ (s : State),
      (s.pair.role ≠ 1 ∨ s.pairPrimary = true ∨ s.pair.hbSeen = true)) ∧
    (∃ (s : State) (p : Bool),
      s.pair.role = 1 ∧ s.pairPrimary = false) ∧
    (∃ (s : State) (p : Bool),
      s.pair.role = 3) ∧
    (∃ (s : State) (l : Bool) (p : Bool),
      (if l then s.pair.role ≠ 3 ∧ (s.pair.role ≠ 1 ∨ s.pairPrimary = true) else s.pair.role ≠ 2 ∨
        s.pair.lost = false)) ∧
    (∃ (s : State) (p : Bool) (c : Instr),
      s.pair.role = 2 ∧ s.pairFitAt = true ∧ s.pairAutoTake = true ∧ (c = .pairActInChange false p ∧
        s.pair.lost = true ∨ c = .heartbeatLoss ∧ s.pair.actIn = false)) ∧
    (∃ (s : State) (p : Bool) (c : Instr),
      s.pair.role = 2 ∧ (s.pairFitAt = false ∨ s.pairAutoTake = false) ∧ (c = .pairActInChange false p ∧
        s.pair.lost = true ∨ c = .heartbeatLoss ∧ s.pair.actIn = false)) ∧
    (∃ (s : State),
      s.pair.actIn = true) ∧
    (∃ (s : State),
      s.pair.role ≠ 2 ∧ s.pair.actIn = false) ∧
    (∃ (s : State) (g : Nat),
      s.pair.role = 3 ∧ bit s.pairGroups g = true ∧ bit s.pair.zGroups g = true ∧ g < 8 ∧ s.pair.trigAt = none) ∧
    (∃ (s : State) (g : Nat) (a : Nat),
      s.pair.role = 3 ∧ bit s.pairGroups g = true ∧ bit s.pair.zGroups g = true ∧ g < 8 ∧ s.pair.trigAt = some a) ∧
    (∃ (s : State) (g : Nat),
      (s.pair.role ≠ 3 ∨ bit s.pairGroups g = false ∨ bit s.pair.zGroups g = false ∨ 8 ≤ g)) ∧
    (∃ (s : State) (e : BitVec 16) (p : Nat),
      s.pair.role = 3 ∧ (s.role s.pairRole).epoch = e.toNat ∧ s.pair.partnerFit = true ∧
        p = ((s.grp s.pairGroup).pidx + 2 * s.mirDiv) % 2 ^ 32) ∧
    (∃ (s : State) (e : BitVec 16),
      s.pair.role = 3 ∧ (s.role s.pairRole).epoch = e.toNat ∧ s.pair.partnerFit = false) ∧
    (∃ (s : State) (f : TrsFrame) (b : Bool),
      f.type = 5 ∧ f.src = s.partnerRank ∧ s.pairOn = true) ∧
    (∃ (s : State) (f : TrsFrame) (p : Nat),
      f.type = 5 ∧ f.src = s.partnerRank ∧ s.pairOn = true ∧ s.pair.role = 2) ∧
    (∃ (s : State) (f : TrsFrame) (m : HswMsg),
      (f.type ≠ 5 ∨ f.src ≠ s.partnerRank ∨ s.pairOn = false)) ∧
    (∃ (s : State),
      s.pair.handover = some (s.grp s.pairGroup).pidx ∧ s.pair.role = 3) ∧
    (∃ (s : State),
      s.pair.handover = some (s.grp s.pairGroup).pidx ∧ s.pair.role = 2) ∧
    (∃ (s : State),
      (s.pair.handover ≠ some (s.grp s.pairGroup).pidx ∨ s.pair.role < 2)) ∧
    (∃ (s : State),
      s.pair.role = 2 ∧ (∀ g, g < 8 → bit s.pairGroups g = true → (s.grp g).st = .running) ∧ s.pair.actIn = false) ∧
    (∃ (s : State),
      s.pair.role = 2 ∧ (∀ g, g < 8 → bit s.pairGroups g = true → (s.grp g).st = .running) ∧ s.pair.actIn = true) ∧
    (∃ (s : State),
      (s.pair.role ≠ 2 ∨ (∃ g, g < 8 ∧ bit s.pairGroups g = true ∧ (s.grp g).st ≠ .running))) ∧
    (∃ (s : State),
      s.pairOn = true ∧ s.pair.deposed = true) ∧
    (∃ (s : State),
      (s.pairOn = false ∨ s.pair.deposed = false)) ∧
    (∃ (s : State),
      s.pair.role = 3 ∧ s.pair.tookOver = true ∧ s.pair.hbOk = false) ∧
    (∃ (s : State),
      (s.pair.role ≠ 3 ∨ s.pair.tookOver = false ∨ s.pair.hbOk = true)) ∧
    (∃ (s : State) (f : TrsFrame),
      f.type = 7 ∧ s.pairOn = true ∧ s.roleAccepts s.pairRole f = true ∧ s.pair.rx = [] ∧ field f.payload 0 2 = 0) ∧
    (∃ (s : State) (f : TrsFrame) (o : Nat) (n : Nat) (b : List Byte),
      f.type = 7 ∧ s.pairOn = true ∧ s.roleAccepts s.pairRole f = true ∧ o = field f.payload 0 2 ∧ o ≠ 0 ∧
        n = field (SMap.get (fun _ => []) s.pair.rx 0) 6 2 ∧ 36 ≤ n ∧
        b = ((List.range ((n + 15) / 16)).flatMap fun k => if 16 * k = o then slice f.payload 2 16 else SMap.get (fun _ => []) s.pair.rx (16 * k)).take n ∧ b.length = n) ∧
    (∃ (s : State) (f : TrsFrame),
      f.type = 7 ∧ s.pairOn = true ∧ s.roleAccepts s.pairRole f = true ∧ s.pair.rx ≠ [] ∧ field f.payload 0 2 = 0) ∧
    (∃ (s : State) (b : List Byte) (l : List Nat),
      s.pair.whole = some b ∧ s.pair.genRx.all (fun g => aheadMod (2 ^ 32) g (field b 0 4)) = true ∧
        s.pair.role = 2 ∧ s.mirBusy = false ∧ s.mirWindow = false) ∧
    (∃ (s : State) (b : List Byte) (l : List Nat) (g : Nat),
      s.pair.whole = some b ∧ s.pair.genRx = some g ∧ aheadMod (2 ^ 32) g (field b 0 4) = false ∧ s.pair.role = 2 ∧
        s.mirBusy = false ∧ s.mirWindow = false) ∧
    (∃ (s : State) (l : List Nat),
      (s.pair.whole = none ∨ s.mirBusy = true ∨ s.mirWindow = true ∨ s.pair.role ≠ 2 ∧ s.pair.trigAt = none)) :=
  ⟨⟨pairState 0 true, by decide +kernel, by decide +kernel, by decide +kernel, by decide +kernel, by decide +kernel⟩,
   ⟨{ pairState 0 false with pair := { actIn := true } }, by decide +kernel, by decide +kernel, by decide +kernel,
     by decide +kernel, by decide +kernel, by decide +kernel⟩,
   ⟨{}, by decide +kernel⟩,
   ⟨{ pairState 1 true with pair := { role := 1, actIn := true } }, by decide +kernel, by decide +kernel,
     by decide +kernel⟩,
   ⟨pairState 1 true, by decide +kernel, by decide +kernel, by decide +kernel⟩,
   ⟨{}, by decide +kernel⟩,
   ⟨pairState 1 false, by decide +kernel, by decide +kernel, by decide +kernel, by decide +kernel⟩,
   ⟨{ pairState 1 false with pair := { role := 1, actIn := true } }, by decide +kernel, by decide +kernel,
     by decide +kernel, by decide +kernel⟩,
   ⟨{}, by decide +kernel⟩,
   ⟨pairState 1 false, true, by decide +kernel, by decide +kernel⟩,
   ⟨pairState 3 true, true, by decide +kernel⟩,
   ⟨{}, true, true, by decide +kernel⟩,
   ⟨pairReady 2, true, .heartbeatLoss, by decide +kernel, by decide +kernel, by decide +kernel, by decide +kernel⟩,
   ⟨pairLost true, true, .pairActInChange false true, by decide +kernel, by decide +kernel, by decide +kernel⟩,
   ⟨{ pair := { actIn := true } }, by decide +kernel⟩,
   ⟨{}, by decide +kernel, by decide +kernel⟩,
   ⟨pairDriving, 7, by decide +kernel, by decide +kernel, by decide +kernel, by decide +kernel, by decide +kernel⟩,
   ⟨{ pairDriving with pair := { role := 3, zGroups := 0x80, trigAt := some 0 } }, 7, 0, by decide +kernel,
     by decide +kernel, by decide +kernel, by decide +kernel, by decide +kernel⟩,
   ⟨{}, 0, by decide +kernel⟩,
   ⟨{ pairDriving with pair := { role := 3, partnerFit := true } }, 0, _, by decide +kernel, by decide +kernel,
     by decide +kernel, rfl⟩,
   ⟨pairDriving, 0, by decide +kernel, by decide +kernel, by decide +kernel⟩,
   ⟨pairDriving, roleFrame 5, true, by decide +kernel, by decide +kernel, by decide +kernel⟩,
   ⟨pairState 2 true, roleFrame 5, 9, by decide +kernel, by decide +kernel, by decide +kernel, by decide +kernel⟩,
   ⟨{}, roleFrame 5, .fit true, by decide +kernel⟩,
   ⟨{ pairState 3 true with pair := { role := 3, handover := some 0 } }, by decide +kernel, by decide +kernel⟩,
   ⟨{ pairState 3 true with pair := { role := 2, handover := some 0 } }, by decide +kernel, by decide +kernel⟩,
   ⟨{}, by decide +kernel⟩,
   ⟨pairReady 2, by decide +kernel, by decide +kernel, by decide +kernel⟩,
   ⟨{ pairReady 2 with pair := { role := 2, actIn := true } }, by decide +kernel, by decide +kernel,
     by decide +kernel⟩,
   ⟨pairState 2 true, by decide +kernel⟩,
   ⟨{ cfg := pairCfg true, pair := { deposed := true } }, by decide +kernel, by decide +kernel⟩,
   ⟨{}, by decide +kernel⟩,
   ⟨{ pair := { role := 3, tookOver := true } }, by decide +kernel, by decide +kernel, by decide +kernel⟩,
   ⟨{}, by decide +kernel⟩,
   ⟨pairRole, mirrorFrame (pay 18 [(8, 40)]), by decide +kernel, by decide +kernel, by decide +kernel,
     by decide +kernel, by decide +kernel⟩,
   ⟨mirrorState [(0, pay 16 [(6, 40)]), (16, pay 16 [])], mirrorFrame (pay 18 [(0, 32)]), _, _, _, by decide +kernel,
     by decide +kernel, by decide +kernel, rfl, by decide +kernel, rfl, by decide +kernel, rfl, by decide +kernel⟩,
   ⟨mirrorState [(16, [1])], mirrorFrame [], by decide +kernel, by decide +kernel, by decide +kernel,
     by decide +kernel, by decide +kernel⟩,
   ⟨mirrorWhole 2 none, pay 40 [(0x20, 7)], [], by decide +kernel, by decide +kernel, by decide +kernel,
     by decide +kernel, by decide +kernel⟩,
   ⟨mirrorWhole 2 (some 0), pay 40 [(0x20, 7)], [], 0, by decide +kernel, by decide +kernel, by decide +kernel,
     by decide +kernel, by decide +kernel, by decide +kernel⟩,
   ⟨{}, [], by decide +kernel⟩⟩

/-- All three PLLs are locked, one group runs, one is tripped and one SAFE by a cause,
  and this device is the pair's active one. -/
def clockState (c : Nat) : State :=
  { tier := 1, cfg := pairCfg true, pair := { role := 3 }, tim := { st := 1 }
    clk := { sysLock := true, ptcLock := true, ethLock := true, refOk := true, hopTo := some 3, search := 7 }
    pwm := { group := [(0, { st := .running }), (1, { st := .tripped }), (2, { st := .safe, cause := c })], alignOk := true } }
def clockLost (c p : Nat) : State :=
  { clockState c with clk := { (clockState c).clk with sysLock := p != 0, ptcLock := p != 1, ethLock := p != 2 } }
/-- A warning with work to stop: an erase, a load, a pending commit and a fan in its ramp that stops for it. -/
def warnState : State :=
  { inReset := false, cfg := secs [(secFans, pay 64 [(32, 5)])], fan := [(1, { st := 4, duty := 9 })]
    img := { loading := some 0, pend := some 0 }, pair := { role := 3 } }
def warnedState : State :=
  { warnState with hu := { pf := true }, fan := [(1, { st := 4, pfOff := true })], recd := { unit := [(0, { st := 3 })] } }
def testing (l k : Nat) (b : Bool) : State := { le := { testLane := some (l, k), testAgain := b, failed := 5 } }

/-- What ClockAndHoldupCommandsComplete asks can be met. -/
theorem witness_ClockAndHoldupCommandsComplete :
    (∃ (s : State),
      s.clk.sysLock = true) ∧
    (∃ (s : State),
      s.clk.ptcLock = true) ∧
    (∃ (s : State),
      s.clk.ethLock = true) ∧
    (∃ (s : State),
      s.sys.pllBoot = true) ∧
    (∃ (s : State),
      s.sys.pllBoot = true ∧ s.clk.refOk = true) ∧
    (∃ (s : State),
      bit s.clk.search 2 = true ∧ s.clk.ethLock = false) ∧
    (∃ (s : State),
      bit s.clk.search 0 = true ∧ s.clk.sysLock = false) ∧
    (∃ (s : State),
      bit s.clk.search 1 = true ∧ s.clk.ptcLock = false) ∧
    (∃ (s : State),
      s.clk.learning = true) ∧
    (∃ (s : State),
      s.clk.learning = false) ∧
    (∃ (s : State) (v : Nat) (f : Nat),
      s.inReset = false ∧ s.hu.pf = false ∧ (s.vinLow v || s.fastLow f) = true) ∧
    (∃ (s : State) (v : Nat) (f : Nat),
      (s.inReset = true ∨ s.hu.pf = true ∨ s.vinLow v = false ∧ s.fastLow f = false)) ∧
    (∃ (s : State) (v : Nat) (f : Nat),
      s.hu.pf = true ∧ (s.vinEn = false ∨ 1050 * s.pfLvl < v) ∧ 4500000 ≤ f) ∧
    (∃ (s : State) (v : Nat) (f : Nat),
      (s.hu.pf = false ∨ (s.vinEn = true ∧ v ≤ 1050 * s.pfLvl) ∨ f < 4500000)) ∧
    (∃ (s : State) (x : BitVec 10),
      s.bulkEn = false) ∧
    (∃ (s : State) (x : BitVec 10),
      s.bulkEn = true) ∧
    (∃ (s : State) (m : BitVec 24),
      s.bulkEn = true ∧ s.hu.held = false ∧ s.energyCovers m.toNat = true) ∧
    (∃ (s : State) (m : BitVec 24),
      (s.bulkEn = false ∨ s.hu.held = true ∨ s.energyCovers m.toNat = false)) ∧
    (∃ (s : State),
      s.hu.held = true) ∧
    (∃ (s : State),
      s.hu.held = true) ∧
    (∃ (s : State),
      s.hu.held = false) ∧
    (∃ (s : State) (b : Bool) (l : Nat) (k : Nat),
      s.le.testLane = some (l, k) ∧ s.le.running = 0 ∧ s.thm.paused = false ∧ k < 63) ∧
    (∃ (s : State) (l : Nat) (k : Nat),
      s.le.testLane = some (l, k) ∧ 63 ≤ k ∧ s.le.running = 0 ∧ s.thm.paused = false ∧ s.le.testAgain = false) ∧
    (∃ (s : State) (l : Nat) (k : Nat),
      s.le.testLane = some (l, k) ∧ 63 ≤ k ∧ s.le.running = 0 ∧ s.thm.paused = false) ∧
    (∃ (s : State) (l : Nat) (k : Nat),
      s.le.testLane = some (l, k) ∧ 63 ≤ k ∧ s.le.running = 0 ∧ s.thm.paused = false ∧ s.le.testAgain = true) ∧
    (∃ (s : State) (b : Bool),
      (s.le.testLane = none ∨ s.le.running ≠ 0 ∨ s.thm.paused = true)) :=
  ⟨⟨clockState 4, by decide +kernel⟩,
   ⟨clockState 5, by decide +kernel⟩,
   ⟨clockState 4, by decide +kernel⟩,
   ⟨hostState, by decide +kernel⟩,
   ⟨{ clockLost 4 1 with sys := { pllBoot := true } }, by decide +kernel, by decide +kernel⟩,
   ⟨clockLost 4 2, by decide +kernel, by decide +kernel⟩,
   ⟨clockLost 5 0, by decide +kernel, by decide +kernel⟩,
   ⟨clockLost 4 1, by decide +kernel, by decide +kernel⟩,
   ⟨{ clk := { learning := true } }, by decide +kernel⟩,
   ⟨{}, by decide +kernel⟩,
   ⟨warnState, 0, 0, by decide +kernel, by decide +kernel, by decide +kernel⟩,
   ⟨{}, 0, 0, by decide +kernel⟩,
   ⟨warnedState, 1050001, 4500000, by decide +kernel, by decide +kernel, by decide +kernel⟩,
   ⟨warnedState, 1050000, 4500000, by decide +kernel⟩,
   ⟨{}, 5, by decide +kernel⟩,
   ⟨bulkState, 5, by decide +kernel⟩,
   ⟨bulkState, 0, by decide +kernel, by decide +kernel, by decide +kernel⟩,
   ⟨{}, 5, by decide +kernel⟩,
   ⟨{ hu := { held := true } }, by decide +kernel⟩,
   ⟨{ hu := { held := true } }, by decide +kernel⟩,
   ⟨{}, by decide +kernel⟩,
   ⟨testing 17 62 false, true, 17, 62, by decide +kernel, by decide +kernel, by decide +kernel, by decide +kernel⟩,
   ⟨testing 17 63 false, 17, 63, by decide +kernel, by decide +kernel, by decide +kernel, by decide +kernel,
     by decide +kernel⟩,
   ⟨testing 17 63 true, 17, 63, by decide +kernel, by decide +kernel, by decide +kernel, by decide +kernel⟩,
   ⟨testing 17 63 true, 17, 63, by decide +kernel, by decide +kernel, by decide +kernel, by decide +kernel,
     by decide +kernel⟩,
   ⟨{}, true, by decide +kernel⟩⟩

/-- Position 0 is enabled alone, with a gap limit of 2 steps. -/
def lifOne (x : LifPos) : State := { cfg := secs [(secLifetime, pay 40 [(1, 1), (32, 1), (33, 2)])], lif := { pos := [(0, x)] } }

/-- What LifetimeAndThermalCommandsComplete asks can be met. -/
theorem witness_LifetimeAndThermalCommandsComplete :
    (∃ (s : State),
      s.lifOn = false) ∧
    (∃ (s : State) (p : Nat),
      p < 8 ∧ (List.range 8).filter s.lifPosOn = [p] ∧ (s.lifPos p).fresh = false ∧ ((s.lifPos p).gap = true ∨
        s.lifField (lifEntry p + 1) 1 ≤ (s.lifPos p).held)) ∧
    (∃ (s : State) (p : Nat) (h : Word) (a : Word) (l : Int × Nat),
      p < 8 ∧ (List.range 8).filter s.lifPosOn = [p] ∧ (s.lifPos p).fresh = true ∧
        h = s.ldm (s.lifField (lifEntry p + 2) 2) ∧ (fToRat h).isSome = true ∧ a = (s.lifPos p).tj.getD h ∧
        s.lifInputsOk p a = true ∧ (s.lifPos p).z.all (fun w => (fToRat w).isSome) = true ∧ l = s.lifLoss p a) ∧
    (∃ (s : State),
      s.lifOn = false) ∧
    (∃ (s : State) (u : State) (c : Instr),
      s.lifOn = true ∧ c ∈ [Instr.lifeRecord, .lifWrite] ∧
        u = s.setLif { s.lif with rseq := (s.lif.rseq + 1) % 2 ^ 32 }) ∧
    (∃ (s : State) (p : Nat),
      p < 8 ∧ s.lifOn = false) ∧
    (∃ (s : State) (p : Nat),
      p < 8 ∧ s.lifOn = true ∧ (s.lifPosOn p = false ∨ (s.lifPos p).gap = true)) ∧
    (∃ (s : State) (p : Nat) (k : BitVec 16),
      (k ≠ 0x1F3C ∨ 8 ≤ p ∨ s.lifPosOn p = true ∧ (s.lifPos p).gap = false)) ∧
    (∃ (s : State) (b : Nat) (r : Nat),
      b < 36 ∧ (s.rowTrack b).any (fun x => x.1 == r) = false ∧ (s.rowTrack b).length < 8) ∧
    (∃ (s : State) (b : Nat) (r : Nat),
      b < 36 ∧ (s.rowTrack b).any (fun x => x.1 == r) = true) ∧
    (∃ (s : State) (b : Nat) (r : Nat),
      b < 36 ∧ (s.rowTrack b).any (fun x => x.1 == r) = false ∧ 8 ≤ (s.rowTrack b).length ∧
        (s.rowTrack b).all (fun x => decide (x.2 ≤ 4)) = true) ∧
    (∃ (s : State) (b : Nat) (r : Nat),
      36 ≤ b) ∧
    (∃ (s : State) (b : Nat) (r : Nat),
      b < 36 ∧ (s.rowRemap b).length < 32 ∧ (s.rowRemap b).contains r = false ∧
        (s.rowTrack b).any (fun x => x.1 == r && decide (4 ≤ x.2)) = true) ∧
    (∃ (s : State) (b : Nat) (r : Nat) (a : Nat),
      b ≤ 30 ∧ (s.rowRemap b).length < 32 ∧ (s.rowRemap b).contains r = false ∧ 0x00100000 ≤ a ∧ a < 0x00190000) ∧
    (∃ (s : State) (b : Nat) (r : Nat),
      (36 ≤ b ∨ 32 ≤ (s.rowRemap b).length ∨ (s.rowRemap b).contains r = true ∨
        (s.rowTrack b).any (fun x => x.1 == r && decide (4 ≤ x.2)) = false)) ∧
    (∃ (s : State) (x : ThmSample) (l : List Nat),
      l = (List.range 4).filter (sensorOk x.sensors) ∧ l ≠ []) ∧
    (∃ (s : State) (x : ThmSample),
      (List.range 4).filter (sensorOk x.sensors) = []) ∧
    (∃ (s : State),
      s.thm.level = 1 ∧ s.thm.paused = false) ∧
    (∃ (s : State),
      s.thm.level = 1 ∧ s.thm.paused = true) ∧
    (∃ (s : State),
      s.thm.level ≠ 1) ∧
    (∃ (s : State) (w : Word),
      s.thm.gainNew = some w) ∧
    (∃ (s : State),
      s.thm.gainNew = none) :=
  ⟨⟨{}, by decide +kernel⟩,
   ⟨lifOne { held := 2, gap := true }, 0, by decide +kernel, by decide +kernel, by decide +kernel, by decide +kernel⟩,
   ⟨lifOne { fresh := true }, 0, _, _, _, by decide +kernel, by decide +kernel, by decide +kernel, rfl,
     by decide +kernel, rfl, by decide +kernel, by decide +kernel, rfl⟩,
   ⟨{}, by decide +kernel⟩,
   ⟨lifState, _, .lifWrite, by decide +kernel, by decide +kernel, rfl⟩,
   ⟨{}, 7, by decide +kernel, by decide +kernel⟩,
   ⟨lifState, 7, by decide +kernel, by decide +kernel, by decide +kernel⟩,
   ⟨{}, 7, 0, by decide +kernel⟩,
   ⟨{}, 35, 0, by decide +kernel, by decide +kernel, by decide +kernel⟩,
   ⟨rowState, 35, 9, by decide +kernel, by decide +kernel⟩,
   ⟨{ lif := { track := [(35, (List.range 8).map fun k => (k, 4))] } }, 35, 9, by decide +kernel, by decide +kernel,
     by decide +kernel, by decide +kernel⟩,
   ⟨{}, 36, 0, by decide +kernel⟩,
   ⟨{ lif := { track := [(35, [(9, 4)])] } }, 35, 9, by decide +kernel, by decide +kernel, by decide +kernel,
     by decide +kernel⟩,
   ⟨{}, 30, 9, 0x0018FFFF, by decide +kernel, by decide +kernel, by decide +kernel, by decide +kernel,
     by decide +kernel⟩,
   ⟨{}, 35, 9, by decide +kernel⟩,
   ⟨{}, { sensors := [100, 100, 2660, 100], pwr := 0 }, _, rfl, by decide +kernel⟩,
   ⟨{}, { sensors := [0, 0, 100000, 100000], pwr := 0 }, by decide +kernel⟩,
   ⟨{ thm := { level := 1 } }, by decide +kernel, by decide +kernel⟩,
   ⟨{ thm := { level := 1, paused := true } }, by decide +kernel, by decide +kernel⟩,
   ⟨{}, by decide +kernel⟩,
   ⟨{ thm := { gainNew := some 5 } }, 5, by decide +kernel⟩,
   ⟨{}, by decide +kernel⟩⟩

/-- A rotor seen to turn forward fast enough, and a ramp after five crossings in order. -/
def fanForward : State := fanWith 1 { st := 1, seen := [(0, 9), (1, 9), (2, 9)], lastDt := 9 }
def fanRamp (n : Nat) : State := fanWith 1 { st := 4, last := some 5, comDt := 8, inOrder := n }

/-- What FanCommandsComplete asks can be met. -/
theorem witness_FanCommandsComplete :
    (∃ (s : State) (c : Nat),
      s.fanEn c = true ∧ 2 ≤ s.tier ∧ ((s.fanCh c).st = 0 ∨ (s.fanCh c).st = 7)) ∧
    (∃ (s : State) (c : Nat),
      (s.fanEn c = false ∨ s.tier < 2 ∨ (s.fanCh c).st ≠ 0 ∧ (s.fanCh c).st ≠ 7)) ∧
    (∃ (s : State) (c : Nat) (v : Word),
      (s.fanCh c).st ≠ 5) ∧
    (∃ (s : State) (u : State) (c : Nat) (v : Word),
      s.fanLive c = true ∧ (s.fanCh c).st = 5 ∧ u = s.setReg (rFAN_Cn_SET (c % 2)) v ∧ s.fanTarget c = 0 ∧
        u.fanTarget c ≠ 0) ∧
    (∃ (s : State) (u : State) (c : Nat) (v : Word),
      s.fanLive c = true ∧ (s.fanCh c).st = 5 ∧ u = s.setReg (rFAN_Cn_SET (c % 2)) v ∧ u.fanTarget c = 0) ∧
    (∃ (s : State) (c : Nat),
      s.fanLive c = true ∧ (s.fanCh c).st = 1 ∧ fanDirection (s.fanCh c).seen = none) ∧
    (∃ (s : State) (c : Nat),
      s.fanLive c = true ∧ (s.fanCh c).st = 1 ∧ fanDirection (s.fanCh c).seen = some true ∧
        (s.fanCh c).atLeast (s.fanCh c).lastDt ((s.fanCh c).f 0x0A 2) = true) ∧
    (∃ (s : State) (c : Nat),
      s.fanLive c = true ∧ ((s.fanCh c).st = 1 ∨ (s.fanCh c).st = 2 ∧ (s.fanCh c).braking = false) ∧
        fanDirection (s.fanCh c).seen = some false) ∧
    (∃ (s : State) (c : Nat),
      (s.fanLive c = false ∨ (s.fanCh c).st ≠ 1 ∧ ((s.fanCh c).st ≠ 2 ∨ (s.fanCh c).braking = true))) ∧
    (∃ (s : State) (c : Nat),
      s.fanLive c = true ∧ (s.fanCh c).st = 2 ∧ (s.fanCh c).braking = true) ∧
    (∃ (s : State) (c : Nat) (i : Instr),
      s.fanLive c = true ∧ (i = .brakeMaxExpiry c ∧ (s.fanCh c).st = 2 ∨ i = .rampTimeout c ∧ (s.fanCh c).st = 4)) ∧
    (∃ (s : State) (c : Nat),
      s.fanLive c = true ∧ (s.fanCh c).st = 3) ∧
    (∃ (s : State) (c : Nat) (d : Nat),
      s.fanLive c = true ∧ (s.fanCh c).st = 4) ∧
    (∃ (s : State) (c : Nat) (p : Nat) (r : Bool) (d : Nat),
      s.fanEn c = false) ∧
    (∃ (s : State) (c : Nat) (p : Nat) (r : Bool) (d : Nat),
      s.fanLive c = true ∧ (s.fanCh c).st = 1) ∧
    (∃ (s : State) (c : Nat) (p : Nat) (r : Bool) (d : Nat) (n : Nat),
      s.fanLive c = true ∧ (s.fanCh c).st = 4 ∧ n = (if (s.fanCh c).last = some ((crossingAt p r + 5) % 6) ∧
        4 * (((s.fanCh c).comDt : Int) - d).natAbs ≤ d then (s.fanCh c).inOrder + 1 else 0) ∧ n < 6) ∧
    (∃ (s : State) (c : Nat) (p : Nat) (r : Bool) (d : Nat),
      s.fanLive c = true ∧ (s.fanCh c).st = 4 ∧ (s.fanCh c).last = some ((crossingAt p r + 5) % 6) ∧
        4 * (((s.fanCh c).comDt : Int) - d).natAbs ≤ d ∧ 5 ≤ (s.fanCh c).inOrder) ∧
    (∃ (s : State) (c : Nat) (p : Nat) (r : Bool) (d : Nat),
      s.fanLive c = true ∧ (s.fanCh c).st = 5 ∧ (s.fanCh c).driven = true) ∧
    (∃ (s : State) (c : Nat),
      s.fanLive c = true ∧ (s.fanCh c).st = 6) ∧
    (∃ (s : State) (c : Nat),
      s.fanLive c = true ∧ (s.fanCh c).st = 5) ∧
    (∃ (s : State) (c : Nat),
      s.fanLive c = true ∧ (s.fanCh c).st = 5 ∧ (s.fanCh c).driven = true ∧ s.fanDutyMode c = true) ∧
    (∃ (s : State) (c : Nat) (e : Int) (r : Int),
      s.fanLive c = true ∧ (s.fanCh c).st = 5 ∧ (s.fanCh c).driven = true ∧ s.fanDutyMode c = false ∧
        e = (s.fanTarget c : Int) - (s.fanCh c).speed ∧
        r = divOpen 97 (1000 * (s.fanField c 0x18 2 : Nat) * e + (s.fanField c 0x1A 2 : Nat) * ((s.fanCh c).integ + e)) 1000) ∧
    (∃ (s : State) (c : Nat) (i : Instr),
      s.fanLive c = true ∧ (s.fanCh c).st = 5 ∧ (i = .stallCrossingTimeout c ∧ (s.fanCh c).driven = true ∨
        i = .stallSpeedTimeout c ∧ s.fanTarget c ≠ 0 ∧ (s.fanCh c).speed < s.fanField c 0x12 2)) ∧
    (∃ (s : State) (c : Nat) (d : Nat) (n : Nat) (i : Instr),
      (s.fanLive c = false ∨ (s.fanCh c).st ≠ n) ∧ (n, i) ∈ [(2, Instr.brakePhaseEnd c), (2, .brakeMaxExpiry c), (3,
        .alignEnd c), (4, .openLoopCommutation c d), (4, .rampTimeout c), (6, .retryWaitExpiry c), (5,
        .retryCountReset c), (5, .fanPiStep c), (5, .stallCrossingTimeout c), (5, .stallSpeedTimeout c)]) :=
  ⟨⟨(fanState 7), 1, by decide +kernel, by decide +kernel, by decide +kernel⟩,
   ⟨{}, 1, by decide +kernel⟩,
   ⟨{}, 1, 5, by decide +kernel⟩,
   ⟨(fanState 5), _, 1, 9, by decide +kernel, by decide +kernel, rfl, by decide +kernel, by decide +kernel⟩,
   ⟨fanRunning, _, 1, 0, by decide +kernel, by decide +kernel, rfl, by decide +kernel⟩,
   ⟨(fanState 1), 1, by decide +kernel, by decide +kernel, by decide +kernel⟩,
   ⟨fanForward, 1, by decide +kernel, by decide +kernel, by decide +kernel, by decide +kernel⟩,
   ⟨fanBackward, 1, by decide +kernel, by decide +kernel, by decide +kernel⟩,
   ⟨{}, 1, by decide +kernel⟩,
   ⟨fanBraking, 1, by decide +kernel, by decide +kernel, by decide +kernel⟩,
   ⟨fanTired, 1, .rampTimeout 1, by decide +kernel, by decide +kernel⟩,
   ⟨(fanState 3), 1, by decide +kernel, by decide +kernel⟩,
   ⟨(fanState 4), 1, 9, by decide +kernel, by decide +kernel⟩,
   ⟨{}, 0, 0, true, 0, by decide +kernel⟩,
   ⟨(fanState 1), 1, 0, true, 10000000000, by decide +kernel, by decide +kernel⟩,
   ⟨(fanRamp 4), 1, 0, true, 10, 5, by decide +kernel, by decide +kernel, by decide +kernel, by decide +kernel⟩,
   ⟨(fanRamp 5), 1, 0, true, 10, by decide +kernel, by decide +kernel, by decide +kernel, by decide +kernel,
     by decide +kernel⟩,
   ⟨fanDuty, 1, 0, true, 10000000000, by decide +kernel, by decide +kernel, by decide +kernel⟩,
   ⟨(fanState 6), 1, by decide +kernel, by decide +kernel⟩,
   ⟨(fanState 5), 1, by decide +kernel, by decide +kernel⟩,
   ⟨fanDuty, 1, by decide +kernel, by decide +kernel, by decide +kernel, by decide +kernel⟩,
   ⟨fanRunning, 1, _, _, by decide +kernel, by decide +kernel, by decide +kernel, by decide +kernel, rfl, rfl⟩,
   ⟨fanRunning, 1, .stallSpeedTimeout 1, by decide +kernel, by decide +kernel, by decide +kernel⟩,
   ⟨{}, 1, 9, 4, .rampTimeout 1, by decide +kernel, by decide +kernel⟩⟩

/-- A request of `n` words at an address, and a device that holds the root role. -/
def reqAt (op n a : Nat) (d : List Word) : HostReq := { hostReq op n with addr := BitVec.ofNat 32 a, data := d }
def hostRoot (r : RoleEntry) : State :=
  { hostState with trs := { enumDone := true, found := 2, role := [(3, { holder := 0, assigned := true }), (2, r)] } }
/-- A request to role 2 at epoch 1. -/
def roleReq (op : Nat) : HostReq := { hostReq op 1 with cmd := BitVec.ofNat 8 (16 + op), role := 0x00010002 }
/-- Context 1 with DOORBELL, at a port that answers. -/
def bellUp (x : Ctx) : State :=
  { cfg := secs [(secLoopProg, progPay 4)], sys := { pllBoot := true }, inReset := false, le := { run := true, ctx := [(1, x)] } }

/-- What HostRequestsComplete asks can be met. -/
theorem witness_HostRequestsComplete :
    (∃ (s : State) (u : State) (q : HostReq),
      q.op = 1 ∧ s.fresh q = true ∧ s.ours q = true ∧ u = s.tagged q ∧ u.inReach q false ∧ (∀ k < q.len.toNat,
        u.readsStill (q.addr.toNat + 4 * k))) ∧
    (∃ (s : State) (u : State) (q : HostReq),
      q.op = 1 ∧ s.fresh q = true ∧ s.ours q = true ∧ u = s.tagged q ∧ q.len = 1 ∧ u.inReach q false ∧
        q.addr.toNat < 0x00100000 ∧ (regRow q.addr.toNat).rc = true) ∧
    (∃ (s : State) (u : State) (q : HostReq),
      q.op = 1 ∧ s.fresh q = true ∧ s.ours q = true ∧ u = s.tagged q ∧ u.inReach q false) ∧
    (∃ (s : State) (u : State) (q : HostReq),
      q.op = 2 ∧ s.fresh q = true ∧ s.ours q = true ∧ u = s.tagged q ∧ u.inReach q true ∧ 0x00100000 ≤ q.addr.toNat ∧
        q.data.length = q.len.toNat) ∧
    (∃ (s : State) (u : State) (q : HostReq) (v : Word),
      q.op = 2 ∧ s.fresh q = true ∧ s.ours q = true ∧ u = s.tagged q ∧ q.len = 1 ∧ q.data = [v] ∧ u.inReach q true ∧
        q.addr.toNat < 0x00100000 ∧ u.regCommand q.addr.toNat v = none) ∧
    (∃ (s : State) (u : State) (w : State) (q : HostReq) (v : Word),
      q.op = 2 ∧ s.fresh q = true ∧ s.ours q = true ∧ u = s.tagged q ∧ q.len = 1 ∧ q.data = [v] ∧ u.inReach q true ∧
        q.addr.toNat < 0x00100000 ∧ u.regCommand q.addr.toNat v = some w ∧ u.staleEpoch q.addr.toNat v = none) ∧
    (∃ (s : State) (u : State) (w : State) (q : HostReq) (v : Word) (n : Nat),
      q.op = 2 ∧ s.fresh q = true ∧ s.ours q = true ∧ u = s.tagged q ∧ q.len = 1 ∧ q.data = [v] ∧ u.inReach q true ∧
        q.addr.toNat = rLE_CTX_CMD ∧ 1 ≤ bits v.toNat 0 2 ∧ n = bits (s.reg rLE_CTX_SEL).toNat 0 6 ∧ n ≠ 0 ∧
        (s.ctx n).epoch ≠ bits v.toNat 16 16 ∧
        w = (u.setCtx n { s.ctx n with cntStale := satInc (s.ctx n).cntStale }).setBit rLE_STAT 6) ∧
    (∃ (s : State) (u : State) (q : HostReq) (i : Instr),
      (q.op, i) ∈ [(1, Instr.read q), (2, .write q)] ∧ s.fresh q = true ∧ s.ours q = true ∧ u = s.tagged q ∧
        (q.len.toNat = 0 ∨ 256 < q.len.toNat)) ∧
    (∃ (s : State) (u : State) (q : HostReq) (i : Instr),
      (q.op, i) ∈ [(1, Instr.read q), (2, .write q)] ∧ s.fresh q = true ∧ s.ours q = true ∧ u = s.tagged q ∧
        0 < q.len.toNat ∧ q.len.toNat ≤ 256 ∧ q.addr.toNat % 4 ≠ 0) ∧
    (∃ (s : State) (u : State) (q : HostReq) (i : Instr) (n : Nat),
      (q.op, i) ∈ [(1, Instr.read q), (2, .write q)] ∧ s.fresh q = true ∧ s.ours q = true ∧ u = s.tagged q ∧
        n < q.len.toNat ∧ q.len.toNat ≤ 256 ∧ q.addr.toNat % 4 = 0 ∧
        u.hostMay (q.op == 2) (q.addr.toNat + 4 * n) = false ∧ (∀ k < n,
        u.hostMay (q.op == 2) (q.addr.toNat + 4 * k) = true)) ∧
    (∃ (s : State) (q : HostReq),
      (q.op = 0 ∨ 3 < q.op) ∧ s.fresh q = true ∧ s.ours q = true) ∧
    (∃ (s : State) (u : State) (q : HostReq) (n : Nat),
      q.op = 3 ∧ s.fresh q = true ∧ s.ours q = true ∧ u = s.tagged q ∧ q.len = 2 ∧ n = bits q.addr.toNat 0 6 ∧
        s.ctxDefined n = true ∧ ((s.desc n).getD {}).doorbell = true ∧
        bits (q.data.getD 0 0).toNat 0 16 = (s.ctx n).epoch % 65536 ∧ s.le.run = true ∧ (s.ctx n).st = .idle) ∧
    (∃ (s : State) (u : State) (q : HostReq) (n : Nat),
      q.op = 3 ∧ s.fresh q = true ∧ s.ours q = true ∧ u = s.tagged q ∧ q.len = 2 ∧ n = bits q.addr.toNat 0 6 ∧
        s.ctxDefined n = true ∧ ((s.desc n).getD {}).doorbell = true ∧
        bits (q.data.getD 0 0).toNat 0 16 = (s.ctx n).epoch % 65536 ∧ s.le.run = true ∧ ((s.ctx n).st = .running ∨
        (s.ctx n).st = .preempted ∨ (s.ctx n).st = .waiting) ∧ (s.ctx n).disPend = false ∧ (s.ctx n).pend = none) ∧
    (∃ (s : State) (q : HostReq),
      q.op = 3 ∧ s.fresh q = true ∧ s.ours q = true ∧ q.len ≠ 2) ∧
    (∃ (s : State) (q : HostReq) (n : Nat),
      q.op = 3 ∧ s.fresh q = true ∧ s.ours q = true ∧ q.len = 2 ∧ n = bits q.addr.toNat 0 6 ∧
        (s.ctxDefined n = false ∨ ((s.desc n).getD {}).doorbell = false)) ∧
    (∃ (s : State) (q : HostReq) (n : Nat),
      q.op = 3 ∧ s.fresh q = true ∧ s.ours q = true ∧ q.len = 2 ∧ n = bits q.addr.toNat 0 6 ∧ s.ctxDefined n = true ∧
        ((s.desc n).getD {}).doorbell = true ∧ bits (q.data.getD 0 0).toNat 0 16 ≠ (s.ctx n).epoch % 65536) ∧
    (∃ (s : State) (q : HostReq) (i : Instr),
      (q.op, i) ∈ [(1, Instr.read q), (2, .write q), (3, .doorbell q)] ∧ s.fresh q = true ∧ q.byRole = true ∧
        s.holds q.roleNo = true ∧ (s.role q.roleNo).epoch ≠ q.roleEpoch) ∧
    (∃ (s : State) (u : State) (q : HostReq) (i : Instr) (r : Nat),
      (q.op, i) ∈ [(1, Instr.read q), (2, .write q), (3, .doorbell q)] ∧ s.fresh q = true ∧ (q.byRole = false ∧
        r = q.rank.toNat ∨ q.byRole = true ∧ s.holds q.roleNo = false ∧ (s.role q.roleNo).assigned = true ∧
        r = (s.role q.roleNo).holder) ∧ s.trs.enumDone = true ∧ s.holds 3 = true ∧ r ≠ s.trs.rank ∧
        u = (s.tagged q).setHost { (s.tagged q).host with remote := s.host.remote ++ [{ req := q, rank := r, there := decide (r ≤ s.trs.found) }] }) ∧
    (∃ (s : State) (q : HostReq) (i : Instr),
      (q.op, i) ∈ [(1, Instr.read q), (2, .write q), (3, .doorbell q)] ∧ s.fresh q = true ∧ (q.byRole = false →
        s.trs.enumDone = false → q.rank ≠ 0) ∧ (q.byRole = false → s.trs.enumDone = true → s.holds 3 = false ∧
        q.rank.toNat ≠ s.trs.rank) ∧ (q.byRole = true → s.holds q.roleNo = false ∧ (s.holds 3 = false ∨
        (s.role q.roleNo).assigned = false))) ∧
    (∃ (s : State) (q : HostReq) (i : Instr),
      (q.op, i) ∈ [(1, Instr.read q), (2, .write q), (3, .doorbell q)] ∧ s.hostUp = true ∧
        s.host.tags.contains q.tag.toNat = true) ∧
    (∃ (s : State) (q : HostReq) (i : Instr) (b : Bool) (g : Byte) (n : Nat),
      s.hostUp = false ∧ i ∈ [Instr.read q, .write q, .doorbell q, .requestFrameError b g, .unknownFrame, .fetch n]) ∧
    (∃ (s : State) (g : Byte),
      s.hostUp = true) ∧
    (∃ (s : State) (g : Byte),
      s.hostUp = true) ∧
    (∃ (s : State),
      s.hostUp = true) ∧
    (∃ (s : State) (n : Nat),
      s.hostUp = true ∧ s.host.queue = []) ∧
    (∃ (s : State) (n : Nat) (r : HostResp) (l : List HostResp),
      s.hostUp = true ∧ s.host.queue = r :: l ∧ r.bytes.length ≤ n) ∧
    (∃ (s : State) (n : Nat) (r : HostResp) (l : List HostResp),
      s.hostUp = true ∧ s.host.queue = r :: l ∧ n < r.bytes.length) :=
  ⟨⟨hostState, _, (reqAt 1 2 0x00200000 []), by decide +kernel, by decide +kernel, by decide +kernel, rfl,
    by decide +kernel, by decide +kernel⟩,
   ⟨hostState, _, (reqAt 1 1 rPLB_CNT_CMP []), by decide +kernel, by decide +kernel, by decide +kernel, rfl,
     by decide +kernel, by decide +kernel, by decide +kernel, by decide +kernel⟩,
   ⟨hostState, _, (hostReq 1 1), by decide +kernel, by decide +kernel, by decide +kernel, rfl, by decide +kernel⟩,
   ⟨hostState, _, (reqAt 2 2 0x00403000 [1, 2]), by decide +kernel, by decide +kernel, by decide +kernel, rfl,
     by decide +kernel, by decide +kernel, by decide +kernel⟩,
   ⟨hostState, _, (reqAt 2 1 rLE_CTX_SEL [5]), 5, by decide +kernel, by decide +kernel, by decide +kernel, rfl,
     by decide +kernel, by decide +kernel, by decide +kernel, by decide +kernel, by decide +kernel⟩,
   ⟨hostState, _, (hostState.tagged (reqAt 2 1 rPWM_STOP [0])), (reqAt 2 1 rPWM_STOP [0]), 0, by decide +kernel,
     by decide +kernel, by decide +kernel, rfl, by decide +kernel, by decide +kernel, by decide +kernel,
     by decide +kernel, by decide +kernel, by decide +kernel⟩,
   ⟨{ hostState with regs := [(rLE_CTX_SEL, 1)] }, _, _, (reqAt 2 1 rLE_CTX_CMD [0x00050001]), 0x00050001, 1,
     by decide +kernel, by decide +kernel, by decide +kernel, rfl, by decide +kernel, by decide +kernel,
     by decide +kernel, by decide +kernel, by decide +kernel, by decide +kernel, by decide +kernel,
     by decide +kernel, rfl⟩,
   ⟨hostState, _, (hostReq 1 0), (.read (hostReq 1 0)), by decide +kernel, by decide +kernel, by decide +kernel, rfl,
     by decide +kernel⟩,
   ⟨hostState, _, (reqAt 2 1 2 []), (.write (reqAt 2 1 2 [])), by decide +kernel, by decide +kernel,
     by decide +kernel, rfl, by decide +kernel, by decide +kernel, by decide +kernel⟩,
   ⟨hostState, _, (reqAt 1 2 0x0002EFFC []), (.read (reqAt 1 2 0x0002EFFC [])), 1, by decide +kernel,
     by decide +kernel, by decide +kernel, rfl, by decide +kernel, by decide +kernel, by decide +kernel,
     by decide +kernel, by decide +kernel⟩,
   ⟨hostState, (hostReq 4 0), by decide +kernel, by decide +kernel, by decide +kernel⟩,
   ⟨(bellUp { st := .idle }), _, bellReq, _, by decide +kernel, by decide +kernel, by decide +kernel, rfl,
     by decide +kernel, rfl, by decide +kernel, by decide +kernel, by decide +kernel, by decide +kernel,
     by decide +kernel⟩,
   ⟨(bellUp { st := .running }), _, bellReq, _, by decide +kernel, by decide +kernel, by decide +kernel, rfl,
     by decide +kernel, rfl, by decide +kernel, by decide +kernel, by decide +kernel, by decide +kernel,
     by decide +kernel, by decide +kernel, by decide +kernel⟩,
   ⟨hostState, (hostReq 3 1), by decide +kernel, by decide +kernel, by decide +kernel, by decide +kernel⟩,
   ⟨hostState, (hostReq 3 2), 0, by decide +kernel, by decide +kernel, by decide +kernel, by decide +kernel,
     by decide +kernel, by decide +kernel⟩,
   ⟨(bellUp { epoch := 7 }), bellReq, _, by decide +kernel, by decide +kernel, by decide +kernel, by decide +kernel,
     rfl, by decide +kernel, by decide +kernel, by decide +kernel⟩,
   ⟨(hostRoot { holder := 0, assigned := true }), (roleReq 1), (.read (roleReq 1)), by decide +kernel,
     by decide +kernel, by decide +kernel, by decide +kernel, by decide +kernel⟩,
   ⟨(hostRoot { holder := 1, assigned := true }), _, (roleReq 2), (.write (roleReq 2)), 1, by decide +kernel,
     by decide +kernel, by decide +kernel, by decide +kernel, by decide +kernel, by decide +kernel, rfl⟩,
   ⟨hostState, { hostReq 3 1 with rank := 1 }, (.doorbell { hostReq 3 1 with rank := 1 }), by decide +kernel,
     by decide +kernel, by decide +kernel, by decide +kernel, by decide +kernel⟩,
   ⟨(hostTagged (hostReq 1 1)), (hostReq 1 1), (.read (hostReq 1 1)), by decide +kernel, by decide +kernel,
     by decide +kernel⟩,
   ⟨{}, (hostReq 1 1), (.read (hostReq 1 1)), true, 0, 0, by decide +kernel, by decide +kernel⟩,
   ⟨hostState, 5, by decide +kernel⟩,
   ⟨hostState, 5, by decide +kernel⟩,
   ⟨hostState, by decide +kernel⟩,
   ⟨hostState, 8, by decide +kernel, by decide +kernel⟩,
   ⟨hostAnswered, 10, { status := 0, tag := 5, rank := 0, detail := 0 }, [], by decide +kernel, by decide +kernel,
     by decide +kernel⟩,
   ⟨hostAnswered, 9, { status := 0, tag := 5, rank := 0, detail := 0 }, [], by decide +kernel, by decide +kernel,
     by decide +kernel⟩⟩

/-- The frame that carries a request here, and a WRITE of two words of NVM that waits for its data. -/
def carried (q : HostReq) : TrsFrame := { roleFrame 8 with dst := 0, src := 1, payload := q.payload }
def nvmWrite : HostReq := { hostReq 2 2 with addr := 0x00403000, data := [] }
def hostWaiting : State := { host := { inbound := [{ src := 1, req := nvmWrite }] } }
def writeData (p : List Byte) : TrsFrame := { roleFrame 10 with dst := 0, src := 1, payload := p }
def hrspFrame1 : TrsFrame := { roleFrame 9 with dst := 0, payload := [0, 5, 1] }

/-- What CarriedRequestsComplete asks can be met. -/
theorem witness_CarriedRequestsComplete :
    (∃ (s : State) (f : TrsFrame) (q : HostReq),
      f.type = 8 ∧ q = reqOf f.payload ∧ f.dst = s.trs.rank ∧ q.op = 1 ∧ (q.byRole = true → s.holds q.roleNo = true ∧
        (s.role q.roleNo).epoch = q.roleEpoch) ∧ s.inReach q false ∧ (∀ k < q.len.toNat,
        s.readsStill (q.addr.toNat + 4 * k))) ∧
    (∃ (s : State) (f : TrsFrame) (q : HostReq),
      f.type = 8 ∧ q = reqOf f.payload ∧ f.dst = s.trs.rank ∧ q.op ≠ 2 ∧ q.op ≠ 3 ∧ q.byRole = true ∧
        ¬(s.holds q.roleNo = true ∧ (s.role q.roleNo).epoch = q.roleEpoch)) ∧
    (∃ (s : State) (f : TrsFrame) (q : HostReq),
      f.type = 8 ∧ q = reqOf f.payload ∧ f.dst = s.trs.rank ∧ (q.op = 2 ∨ q.op = 3) ∧ q.len.toNat ≠ 0) ∧
    (∃ (s : State) (f : TrsFrame) (x : Inbound) (l : List (Nat × Word)),
      f.type = 10 ∧ f.dst = s.trs.rank ∧ bit f.flg 0 = false ∧
        s.host.inbound.find? (fun x => x.src == f.src && x.req.tag.toNat == field f.payload 0 1) = some x ∧
        l = x.words ++ frameWords f.payload x.req.len.toNat ∧ (∃ i < x.req.len.toNat, l.all fun y => y.1 != i)) ∧
    (∃ (s : State) (u : State) (f : TrsFrame) (x : Inbound) (q : HostReq) (l : List Word),
      f.type = 10 ∧ f.dst = s.trs.rank ∧ bit f.flg 0 = false ∧
        s.host.inbound.find? (fun x => x.src == f.src && x.req.tag.toNat == field f.payload 0 1) = some x ∧
        gathered (x.words ++ frameWords f.payload x.req.len.toNat) x.req.len.toNat = some l ∧
        u = s.setHost { s.host with inbound := s.host.inbound.filter (· != x) } ∧ q = { x.req with data := l } ∧
        q.op = 2 ∧ q.byRole = false ∧ u.inReach q true ∧ 0x00100000 ≤ q.addr.toNat) ∧
    (∃ (s : State) (f : TrsFrame),
      f.type = 10 ∧ f.dst = s.trs.rank ∧ bit f.flg 0 = false ∧
        s.host.inbound.all (fun x => x.src != f.src || x.req.tag.toNat != field f.payload 0 1) = true) ∧
    (∃ (s : State) (f : TrsFrame) (x : Remote),
      f.type = 9 ∧ f.dst = s.trs.rank ∧ s.remoteOf (field f.payload 1 1) = some x ∧ x.head = none ∧ x.rank = f.src ∧
        bits (field f.payload 2 2) 0 10 = 0) ∧
    (∃ (s : State) (f : TrsFrame) (x : Remote),
      f.type = 9 ∧ f.dst = s.trs.rank ∧ s.remoteOf (field f.payload 1 1) = some x ∧ x.head = none ∧ x.rank = f.src ∧
        bits (field f.payload 2 2) 0 10 ≠ 0) ∧
    (∃ (s : State) (f : TrsFrame),
      f.type = 9 ∧ f.dst = s.trs.rank ∧ (∀ x, s.remoteOf (field f.payload 1 1) = some x → x.head.isSome = true ∨
        x.rank ≠ f.src)) ∧
    (∃ (s : State) (f : TrsFrame) (x : Remote) (a : Nat) (d : Nat) (n : Nat) (l : List Word),
      f.type = 10 ∧ f.dst = s.trs.rank ∧ bit f.flg 0 = true ∧ s.remoteOf (field f.payload 0 1) = some x ∧
        x.head = some (a, d, n) ∧ gathered (x.words ++ frameWords f.payload n) n = some l) ∧
    (∃ (s : State) (f : TrsFrame) (x : Remote) (a : Nat) (d : Nat) (n : Nat),
      f.type = 10 ∧ f.dst = s.trs.rank ∧ bit f.flg 0 = true ∧ s.remoteOf (field f.payload 0 1) = some x ∧
        x.head = some (a, d, n) ∧ (∃ i < n, (x.words ++ frameWords f.payload n).all fun y => y.1 != i)) ∧
    (∃ (s : State) (f : TrsFrame) (n : Nat) (i : Instr),
      (n, i) ∈ [(8, Instr.hreqFrame f), (9, .hrspFrame f), (10, .hdataFrame f)] ∧ (f.type ≠ n ∨ f.dst ≠ s.trs.rank)) ∧
    (∃ (s : State) (g : BitVec 6) (x : Remote),
      s.remoteOf g.toNat = some x ∧ x.there = true) ∧
    (∃ (s : State) (g : BitVec 6) (x : Remote),
      s.remoteOf g.toNat = some x ∧ x.there = false) ∧
    (∃ (s : State) (g : BitVec 6) (b : Bool) (i : Instr),
      (b, i) ∈ [(true, Instr.remoteTimeout g), (false, .unreachTimeout g)] ∧ (∀ x, s.remoteOf g.toNat = some x →
        x.there ≠ b)) :=
  ⟨⟨{}, (carried (hostReq 1 1)), _, by decide +kernel, rfl, by decide +kernel, by decide +kernel, by decide +kernel,
    by decide +kernel, by decide +kernel⟩,
   ⟨{}, (carried (roleReq 1)), _, by decide +kernel, rfl, by decide +kernel, by decide +kernel, by decide +kernel,
     by decide +kernel, by decide +kernel⟩,
   ⟨{}, hreqFrame2, _, by decide +kernel, rfl, by decide +kernel, by decide +kernel, by decide +kernel⟩,
   ⟨hostWaiting, (writeData [5, 1]), { src := 1, req := nvmWrite }, _, by decide +kernel, by decide +kernel,
     by decide +kernel, by decide +kernel, rfl, by decide +kernel⟩,
   ⟨hostWaiting, _, (writeData [5]), { src := 1, req := nvmWrite }, _, [0, 0], by decide +kernel, by decide +kernel,
     by decide +kernel, by decide +kernel, by decide +kernel, rfl, rfl, by decide +kernel, by decide +kernel,
     by decide +kernel, by decide +kernel⟩,
   ⟨{}, (writeData [5]), by decide +kernel, by decide +kernel, by decide +kernel, by decide +kernel⟩,
   ⟨(hostRemote true), hrspFrame0, (aRemote true), by decide +kernel, by decide +kernel, by decide +kernel,
     by decide +kernel, by decide +kernel, by decide +kernel⟩,
   ⟨(hostRemote true), hrspFrame1, (aRemote true), by decide +kernel, by decide +kernel, by decide +kernel,
     by decide +kernel, by decide +kernel, by decide +kernel⟩,
   ⟨{}, hrspFrame0, by decide +kernel, by decide +kernel, (by intro x h; cases h)⟩,
   ⟨hostHeaded, hdataFrame1, headedRemote, 0, 0, 1, [0], by decide +kernel, by decide +kernel, by decide +kernel,
     by decide +kernel, by decide +kernel, by decide +kernel⟩,
   ⟨hostHeaded, { hdataFrame1 with payload := [5, 1] }, headedRemote, 0, 0, 1, by decide +kernel, by decide +kernel,
     by decide +kernel, by decide +kernel, by decide +kernel, by decide +kernel⟩,
   ⟨{}, hdataFrame1, 8, (.hreqFrame hdataFrame1), by decide +kernel, by decide +kernel⟩,
   ⟨(hostRemote true), 5, (aRemote true), by decide +kernel, by decide +kernel⟩,
   ⟨(hostRemote false), 5, (aRemote false), by decide +kernel, by decide +kernel⟩,
   ⟨{}, 5, false, (.unreachTimeout 5), by decide +kernel, (by intro x h; cases h)⟩⟩

/-- What RegistersAndTestPortComplete asks can be met. -/
theorem witness_RegistersAndTestPortComplete :
    (∃ (s : State) (a : Word) (v : Word),
      s.regCommand a.toNat v = none) ∧
    (∃ (s : State) (a : Word) (v : Word) (i : Instr),
      (a.toNat, i) ∈ [(rPWM_START, Instr.pwmStart (v.extractLsb' 0 8)), (rPWM_STOP, .pwmStop (v.extractLsb' 0 8)),
        (rTRP_CLR, .trpClr (v.extractLsb' 0 8)), (rETH_TXQ_DB, .txqDoorbell (v.extractLsb' 0 8)), (rANG_SRC,
        .angSrcWrite v), (rSAF_CONFIRM, .safConfirm v)]) ∧
    (∃ (s : State) (a : Word),
      (regRow a.toNat).rc = true) ∧
    (∃ (s : State) (a : Word),
      (regRow a.toNat).rc = true ∧ a.toNat ∉ [rIMG_NOTE, rEVT_IRQ_SRC, rLIF_SPLOG, rTHM_TMAX] ∧
        ¬(rLE_CTX_CNT_START ≤ a.toNat ∧ a.toNat ≤ rLE_CTX_MAXEXE) ∧ ¬(rPLB_CNT_CMP ≤ a.toNat ∧
        a.toNat ≤ rPLB_CNT_HOLD) ∧ ¬(0x2B040 ≤ a.toNat ∧ a.toNat < 0x2B140)) ∧
    (∃ (s : State) (a : Word),
      a.toNat < 0x00100000 ∧ s.readsStill a.toNat) ∧
    (∃ (s : State) (a : Word),
      (regRow a.toNat).rc = false) ∧
    (∃ (s : State),
      s.cabLocked = false ∧ (∀ g < 8, (s.grp g).st = .stopped)) ∧
    (∃ (s : State),
      (s.cabLocked = true ∨ (∃ g < 8, (s.grp g).st ≠ .stopped))) :=
  ⟨⟨{}, rLE_CTX_SEL, 5, by decide +kernel⟩,
   ⟨{}, rTRP_CLR, 5, (.trpClr 5), by decide +kernel⟩,
   ⟨{}, rPLB_CNT_CMP, by decide +kernel⟩,
   ⟨{}, rTRS_CNT_STALE, by decide +kernel, by decide +kernel, by decide +kernel, by decide +kernel,
     by decide +kernel⟩,
   ⟨{}, rSYS_ID, by decide +kernel, by decide +kernel⟩,
   ⟨{}, rSYS_ID, by decide +kernel⟩,
   ⟨{}, by decide +kernel, by decide +kernel⟩,
   ⟨lockedState, by decide +kernel⟩⟩

/-- What TimebasesCompareInTheirWindows asks can be met. -/
theorem witness_TimebasesCompareInTheirWindows :
    (∃ (w : Nat) (d : Nat), 0 < w ∧ d < 2 * w) ∧
    (∃ (s : State) (i : Nat), s.hostEntry i = true ∧ (s.entryTb i ≠ 1 ∨ (s.grp (s.entryGroup i)).st = .running)) :=
  ⟨⟨2 ^ 79, 1, by decide +kernel, by decide +kernel⟩,
   ⟨evtState, 0, by decide +kernel, by decide +kernel⟩⟩

/-! ### Whole-machine statements -/

/-- What a step needs: the queue of the state after it, the canonical form, a command that is no BURN_COMPLETE. -/
theorem witness_StepRunsTheFrontCommand :
    ∃ (c : Instr) (q : List Instr) (s t : State), step { s with pending := c :: q } = .next t := by
  refine ⟨.genStale, [], {}, ?_⟩
  exact ⟨_, rfl⟩
theorem witness_EveryStepKeepsTheStateCanonical : ∃ s : State, s.wf = true := ⟨State.reset, by decide +kernel⟩
theorem witness_ResetIsCanonicalAndHighImpedance : ∃ s : State, s.inReset = true := ⟨State.reset, by decide +kernel⟩
theorem witness_OnlyABurnChangesTheCabinetFuses :
    ∃ (c : Instr) (s t : State), exec c s = .next t ∧ (∀ b, c ≠ .burnComplete b) ∧ s.fuses.getLsbD 975 = true :=
  ⟨.genStale, lockedState, _, rfl, (fun b h => nomatch h), by decide +kernel⟩
theorem witness_ProgramWordsSpellTheirInstructions :
    (∃ (i : Instr) (op : Byte) (w : LeWord), leParts i = some (op, w)) ∧
    (∃ (i : Instr) (op : BitVec 5) (w : MonWord), monParts i = some (op, w)) ∧
    (∃ x : Word, (x.extractLsb' 27 5).toNat < 28 ∧ (x.extractLsb' 27 5).toNat = 0x17 ∧ (x.extractLsb' 0 15).toNat = 0x17) :=
  ⟨⟨.leNop { d := 0, a := 0, b := 0, c := 0, s := false, n := false, v := false, p := false, imm := 0 } .clean, _, _, rfl⟩,
   ⟨.monWait 0 { d := 0, a := 0, b := 0, imm := 0, ecc := false }, _, _, rfl⟩,
   ⟨0xB8000017, by decide +kernel, by decide +kernel, by decide +kernel⟩⟩

/-! ### Ill-formed commands are refused -/

/-- A frame without its payload, a request whose data and length differ, a Monitor word. -/
abbrev aFrame : TrsFrame := roleFrame 0
abbrev aRequest : HostReq := { hostReq 2 1 with data := [] }
abbrev aMonWord : MonWord := { d := 0, a := 0, b := 0, imm := 0, ecc := false }
theorem test_ill_formed_1 :
    ([ .mppSampleDone [], .evtEntryFire [256], .armAbs 256 0, .armRel 256, .disarm 256, .deadlineMiss 64 false,
       .waitDataArrived 64, .groupStart 8, .groupStop 8, .groupStartPoint 8, .reload 8, .pwmCmtRequest 8,
       .shootBlock 48, .eventChannelFire 8 0, .eventChannelFire 0 2, .markFrame aFrame 0, .pwmCntRead 8,
       .sarSlotResult 4 0, .referenceCheck 5 0 0 0 false, .refchkLate 5, .swap 4, .restore 4,
       .sdmOutput 7 (.metering 0 0 0 0), .sdmCtlWrite 7 0,
       .comparatorRawChange 18 0 0, .comparatorFilteredChange 18, .tripSourceReleaseProof 18, .shadowMove 18 ] : List Instr).all (fun i => !i.wf) = true := by
  decide +kernel
theorem test_ill_formed_2 :
    ([ .shadowDisagree 18, .shadowMeasurement 18 .band,
       .tripSourceActive 128, .tripSourceRelease 128, .orderedDelayExpiry 8, .legClear 24, .fltNChange 24 false,
       .fltFilterPass 24 false, .fltBlankClose 24, .tripInChange 8 false, .autoClear 24, .tryCountReset 24,
       .diagTestLeg 24, .diagPeriodic 24, .mtrAccRead 30, .recSample 4, .recTrigger 4 0 0,
       .drawerSeal 4, .recRearm 4, .xtrigFrame aFrame, .drawerStored 4, .ethFrameReceive ⟨2, [], true, 0⟩,
       .followUpTimeout 2, .ptpMasterLoss 3, .pdelayReqSend 2, .switch 3, .ethLinkChange 2 0 ] : List Instr).all (fun i => !i.wf) = true := by
  decide +kernel
theorem test_ill_formed_3 :
    ([ .timedLaunch 8, .immediateTransmit 2, .frameLaunched 2, .timeTriggerArm 4 0, .timeTriggerFire 4,
       .adcmConversion 8 0, .offPulseTestStart 4, .offPulseDropCheck 4 false, .offPulseReturn 4,
       .offPulseReturnCheck 4 false, .contactMismatch 2, .safeChannelTimeout 4, .monNop 2 aMonWord,
       .monAdd 2 aMonWord, .monSub 2 aMonWord, .monAnd 2 aMonWord, .monOr 2 aMonWord, .monXor 2 aMonWord,
       .monAddi 2 aMonWord, .monShl 2 aMonWord, .monShr 2 aMonWord, .monSra 2 aMonWord, .monLi 2 aMonWord,
       .monAbsd 2 aMonWord, .monCmpeq 2 aMonWord, .monCmplt 2 aMonWord, .monCmpltu 2 aMonWord, .monLd 2 aMonWord,
       .monSt 2 aMonWord, .monBr 2 aMonWord ] : List Instr).all (fun i => !i.wf) = true := by
  decide +kernel
theorem test_ill_formed_4 :
    ([ .monBeqz 2 aMonWord, .monBnez 2 aMonWord, .monJal 2 aMonWord, .monJr 2 aMonWord, .monIn 2 aMonWord,
       .monOutGen 2 aMonWord, .monOutRly 2 aMonWord, .monOutMonOff 2 aMonWord, .monOutUser 2 aMonWord,
       .monOutSplit 2 aMonWord, .monOutStlData 2 aMonWord, .monOutStlSend 2 aMonWord, .monPub 2 aMonWord,
       .monXchg 2 aMonWord, .monWait 2 aMonWord, .monSafe 2 aMonWord, .enumerationDone 64 0 false,
       .enumerationDone 0 64 false, .trestleFrameForward aFrame false, .angleFrame aFrame, .timeFrame aFrame,
       .roleFrame aFrame, .hswFrame aFrame ((.fit true)), .mirrorFrame aFrame, .hreqFrame aFrame,
       .hrspFrame aFrame, .hdataFrame aFrame, .roleAssign 8 0 0, .roleAssign 0 64 0, .takeoverDrive 8 ] : List Instr).all (fun i => !i.wf) = true := by
  decide +kernel
theorem test_ill_formed_5 :
    ([ .lifClear 8 0, .eccCorrected 36 0, .rowRemapDone 36 0 none, .rowTrackExpiry 36 0, .thmUpdate ⟨[], 0⟩,
       .fanStart 2, .fanStop 2, .fanSetWrite 2 0, .observeEnd 2, .brakePhaseEnd 2, .brakeMaxExpiry 2, .alignEnd 2,
       .rampTimeout 2, .bemfCrossing 2 0 false 0, .bemfCrossing 0 3 false 0, .retryWaitExpiry 2,
       .retryCountReset 2, .fanPiStep 2, .stallCrossingTimeout 2, .stallSpeedTimeout 2, .read aRequest,
       .write aRequest, .doorbell aRequest, .pwmEdge 24, .openLoopCommutation 2 0 ] : List Instr).all (fun i => !i.wf) = true := by
  decide +kernel
/-- A frame with its payload, a request with its data and a step in range are well formed. -/
theorem test_well_formed :
    ([ .roleFrame { roleFrame 0 with payload := List.replicate 18 0 }, .write { hostReq 2 2 with tag := 1 }, .read { hostReq 1 2 with data := [] },
       .groupStart 7, .ctxEnable 0, .waitDataArrived 63, .pwmEdge 23, .monNop 1 aMonWord ] : List Instr).all Instr.wf = true := by
  decide +kernel

/-! ### Words and steps from the manual -/

/-- R32: the check value over the bytes "123456789". -/
theorem test_crc32c : crc32c [0x31, 0x32, 0x33, 0x34, 0x35, 0x36, 0x37, 0x38, 0x39] = 0xE3069283 := by decide +kernel

/-- Table 5.4: ADD.s s3, s1, s2 and PISTEP.v.s.n v2, v0, v4, 0x040. -/
theorem test_add_word (ecc : Ecc) :
    leSpells 0x1018440800000000
      (.leAdd { d := 3, a := 1, b := 2, c := 0, s := true, n := false, v := false, p := false, imm := 0 } ecc) = true := by
  cases ecc <;> decide +kernel
theorem test_pistep_word (ecc : Ecc) :
    leSpells 0x6810080E00000040
      (.lePistep { d := 2, a := 0, b := 4, c := 0, s := true, n := true, v := true, p := false, imm := 0x40 } ecc) = true := by
  cases ecc <;> decide +kernel
theorem test_zero_word (ecc : Ecc) :
    leSpells 0 (.leNop { d := 0, a := 0, b := 0, c := 0, s := false, n := false, v := false, p := false, imm := 0 } ecc) = true := by
  cases ecc <;> decide +kernel

/-- No row of the table gives bits, so no word spells a command and a fetch word leaves the queue as it is. -/
theorem test_no_table_word (n w : Nat) : decodeTableWord n w = none := rfl
theorem test_fetch_word (s : State) (n w : Nat) : s.withFetchWord n w = s := rfl

/-- The clamped PI step of the manual's worked example: s2 = u, s0 = e, s4 = the integrator, the block at LCM word 0. -/
def piState : State :=
  { leRunWith (fun c => { c with s := [(0, 0x03333333), (4, 0x0F333333)] }) with
    mem := ([0x08000000, 0x0028F5C3, 0xF0000000, 0x10000000].flatMap (leBytes 4)).zipIdx.filterMap fun x =>
      if x.1 = 0 then none else some (lcmBase + x.2, x.1) }
theorem test_pistep :
    (match exec (.lePistep { d := 2, a := 0, b := 4, c := 0, s := true, n := true, v := false, p := false, imm := 0 } .clean)
        piState with
      | .next t => (t.ctx 1).sReg 2 == 0x10000000 && (t.ctx 1).sReg 4 == 0x0E666666 && (t.ctx 1).pc == 1
      | _ => false) = true := by decide +kernel

/-- Leg a of G0 in design S at m = 0.6: level P from count 3,200 to count 12,800, in sixteenths. -/
def designS : PlanCtx :=
  { p16 := 256000, saw := false, quiet := true, qpost := 5120, qpre := 1024, dt := 3072, minp := 6144, stretch := false, rot := 0 }
theorem test_centred : centred designS 0x9999999A 0 = (51200, 204800) := by decide +kernel
/-- At m = 0.99 the quiet window clips [80, 15,920] to [320, 15,936] and 224 counts carry. -/
theorem test_quiet_window : quietMove designS (1280, 254720) 0 = ((5120, 254976), 3584, true) := by decide +kernel

/-- A group start in a group that is not STOPPED is refused, and a store outside the window leaves memory alone. -/
theorem test_start_refused :
    (match exec (.groupStart 0) runningState with
      | .next t => (t.grp 0).st == .running
      | _ => false) = true := by decide +kernel
theorem test_store_outside :
    (match exec (.leSt { d := 0, a := 0, b := 0, c := 0, s := false, n := false, v := false, p := false, imm := 0 } .clean)
        leRun with
      | .next t => t.mem == leRun.mem && (t.ctx 1).st == .fault
      | _ => false) = true := by decide +kernel

end Sys2Proof.Machine
end

section
/-!
Register access (R7, R8) and the JTAG port (R441, R376): what a write and a read of one register answer, and what each
instruction of the port leaves, as one rule for each; then the statement about them.
-/

namespace Sys2Proof.Machine

/-! ### A write of one register (R7, R8) -/

theorem exec_registerWrite (s : State) (a v : Word) :
    exec (.registerWrite a v) s = .next (s.regWrite a.toNat v) := rfl

theorem State.regWrite_of_regCommand_none {s : State} {a : Nat} {v : Word} (h : s.regCommand a v = none) :
    s.regWrite a v = s.regStore a v := by
  simp [State.regWrite, h]

theorem State.regWrite_of_regCommand_some {s t : State} {a : Nat} {v : Word} (h : s.regCommand a v = some t) :
    s.regWrite a v = t := by
  simp [State.regWrite, h]

/-- A write of `v` to the register at `a` is the command `i` of the device, for the registers whose write is one whole
command. -/
def GivesCommand (v : Word) (a : Nat) (i : Instr) : Prop :=
  (a, i) ∈ [(rPWM_START, Instr.pwmStart (v.extractLsb' 0 8)), (rPWM_STOP, .pwmStop (v.extractLsb' 0 8)),
    (rTRP_CLR, .trpClr (v.extractLsb' 0 8)), (rETH_TXQ_DB, .txqDoorbell (v.extractLsb' 0 8)),
    (rANG_SRC, .angSrcWrite v), (rSAF_CONFIRM, .safConfirm v)]

theorem toNat_lowByte (v : Word) : (v.extractLsb' 0 8).toNat = v.toNat % 256 := by
  simp [BitVec.extractLsb'_toNat]

theorem exec_pwmStart_lowByte (s : State) (v : Word) :
    exec (.pwmStart (v.extractLsb' 0 8)) s = .next (s.pwmStart (v.toNat % 256)) := by
  rw [← toNat_lowByte]; rfl

theorem exec_pwmStop_lowByte (s : State) (v : Word) :
    exec (.pwmStop (v.extractLsb' 0 8)) s = .next (s.pwmStop (v.toNat % 256)) := by
  rw [← toNat_lowByte]; rfl

/-- The command that such a register gives answers the state that the write leaves. -/
theorem State.regCommand_of_givesCommand (s : State) {a : Nat} {v : Word} {i : Instr}
    (h : GivesCommand v a i) : ∃ t, s.regCommand a v = some t ∧ exec i s = .next t := by
  simp only [GivesCommand, List.mem_cons, Prod.mk.injEq, List.not_mem_nil, or_false] at h
  rcases h with ⟨rfl, rfl⟩ | ⟨rfl, rfl⟩ | ⟨rfl, rfl⟩ | ⟨rfl, rfl⟩ | ⟨rfl, rfl⟩ | ⟨rfl, rfl⟩
  · exact ⟨_, rfl, exec_pwmStart_lowByte s v⟩
  · exact ⟨_, rfl, exec_pwmStop_lowByte s v⟩
  all_goals exact ⟨_, rfl, rfl⟩

theorem exec_registerWrite_of_command (s : State) {a v : Word} {i : Instr}
    (h : GivesCommand v a.toNat i) : exec (.registerWrite a v) s = exec i s := by
  obtain ⟨t, hw, hi⟩ := s.regCommand_of_givesCommand h
  rw [exec_registerWrite, State.regWrite_of_regCommand_some hw, hi]

/-! ### A read of one register (R7) -/

theorem exec_readClear (s : State) (a : Word) : exec (.readClear a) s = execReadClear a s := rfl

theorem exec_readClear_of_rc (s : State) {a : Word} (h : (regRow a.toNat).rc = true) :
    exec (.readClear a) s =
      .next { s.rcClear a.toNat with host := { (s.rcClear a.toNat).host with data := s.regVal a.toNat } } := by
  simp [exec_readClear, execReadClear, State.readReg, h]

theorem exec_readClear_of_not_rc (s : State) {a : Word} (h : (regRow a.toNat).rc = false) :
    exec (.readClear a) s =
      .next { s.readSnap a.toNat with host := { (s.readSnap a.toNat).host with data := s.regVal a.toNat } } := by
  simp [exec_readClear, execReadClear, State.readReg, h]

/-- An RC register that is no queue's head and no figure of a context or a position clears in the register store. -/
theorem State.rcClear_eq_setReg_zero (s : State) {a : Nat}
    (hq : a ∉ [rIMG_NOTE, rEVT_IRQ_SRC, rLIF_SPLOG, rTHM_TMAX])
    (hle : ¬(rLE_CTX_CNT_START ≤ a ∧ a ≤ rLE_CTX_MAXEXE)) (hplb : ¬(rPLB_CNT_CMP ≤ a ∧ a ≤ rPLB_CNT_HOLD))
    (hlif : ¬(0x2B040 ≤ a ∧ a < 0x2B140)) : s.rcClear a = s.setReg a 0 := by
  simp only [List.mem_cons, List.not_mem_nil, or_false, not_or] at hq
  obtain ⟨hnote, hirq, hlog, htmax⟩ := hq
  have hpos : ¬(0x2B040 ≤ a ∧ a < 0x2B140 ∧ a % 0x20 = 0x10) := fun ⟨hlo, hhi, _⟩ => hlif ⟨hlo, hhi⟩
  simp only [State.rcClear, if_neg hnote, if_neg hirq, if_neg hlog, if_neg hle, if_neg hplb, if_neg htmax, if_neg hpos]

/-! ### The JTAG port (R441, R376) -/

theorem exec_jtagBypass (s : State) :
    exec .jtagBypass s = .next (s.setJtag { s.jtag with ir := .bypass, dr := 0 }) := rfl

theorem exec_jtagIdcode (s : State) :
    exec .jtagIdcode s = .next (s.setJtag { s.jtag with ir := .idcode, dr := 0xA9640A6B }) := rfl

theorem exec_trstNAssert (s : State) : exec .trstNAssert s = .next (s.setJtag {}) := rfl

theorem exec_jtagExtest (s : State) :
    exec .jtagExtest s = .next (if s.extestBlocked then s.setJtag { s.jtag with ir := .extest, dr := 0 }
      else s.setJtag { s.jtag with ir := .extest }) := rfl

/-- What blocks EXTEST: a locked Cabinet, or a leg group that is not STOPPED. -/
theorem State.extestBlocked_iff (s : State) :
    s.extestBlocked = true ↔ s.cabLocked = true ∨ ∃ g < 8, (s.grp g).st ≠ .stopped := by
  simp [State.extestBlocked]

theorem State.extestBlocked_eq_false {s : State} (hlock : s.cabLocked = false)
    (hstop : ∀ g < 8, (s.grp g).st = .stopped) : s.extestBlocked = false := by
  refine Bool.eq_false_iff.mpr fun h => ?_
  rcases s.extestBlocked_iff.mp h with hl | ⟨g, hg, hne⟩
  · simp [hlock] at hl
  · exact hne (hstop g hg)

/-- What the boundary cells named by `l` observe, and the levels that all cells hold after it. -/
def State.sampledJtag (s : State) (l : List (Ball × Bool)) : Jtag :=
  { s.jtag with
    ir := .samplePreload
    sample := l.zipIdx.map fun p => (p.1.1, s.cellLevel p.1.1 p.2)
    preload := l ++ s.jtag.preload.filter fun p => !l.any fun q => q.1 == p.1 }

theorem exec_jtagSamplePreload (s : State) (l : List (Ball × Bool)) :
    exec (.jtagSamplePreload l) s = .next (s.setJtag (s.sampledJtag l)) := rfl

theorem State.cellLevel_of_ballSeen {s : State} {b : Ball} {x : Lvl} (h : s.ballSeen b = some x) (i : Nat) :
    s.cellLevel b i = x := by
  simp [State.cellLevel, h]

theorem State.mem_sampledJtag_preload (s : State) {l : List (Ball × Bool)} {p : Ball × Bool} (hp : p ∈ l) :
    p ∈ (s.sampledJtag l).preload :=
  List.mem_append_left _ hp

/-- A cell that the load does not name holds its level. -/
theorem State.mem_sampledJtag_preload_of_kept (s : State) {l : List (Ball × Bool)} {p : Ball × Bool}
    (hp : p ∈ s.jtag.preload) (hl : (l.any fun q => q.1 == p.1) = false) : p ∈ (s.sampledJtag l).preload :=
  List.mem_append_right _ (List.mem_filter.mpr ⟨hp, by rw [hl]; rfl⟩)

theorem State.mem_sampledJtag_sample {s : State} {l : List (Ball × Bool)} {p : Ball × Bool} {x : Lvl}
    (hp : p ∈ l) (hx : s.ballSeen p.1 = some x) : (p.1, x) ∈ (s.sampledJtag l).sample := by
  obtain ⟨i, hi⟩ := List.mem_iff_getElem?.mp hp
  have hz : (p, i) ∈ l.zipIdx := List.mem_zipIdx_iff_getElem?.mpr hi
  exact List.mem_map.mpr ⟨(p, i), hz, by rw [State.cellLevel_of_ballSeen hx]⟩

/-- Settles O53: each clause is the rule of its command; a plain RC register's clear is `rcClear_eq_setReg_zero`, a command
register's write `exec_registerWrite_of_command`, EXTEST's two cases `extestBlocked_iff`. -/
theorem registersAndTestPortComplete : Obligations.RegistersAndTestPortComplete := by
  unfold Obligations.RegistersAndTestPortComplete
  refine ⟨?write, ?command, fun s a => exec_readClear_of_rc s, ?plainClear, ?stillRead,
    fun s a => exec_readClear_of_not_rc s, exec_jtagBypass, exec_jtagIdcode, ?sample, ?extest, ?extestBlocked,
    exec_trstNAssert⟩
  case write =>
    intro s a v h
    rw [exec_registerWrite, State.regWrite_of_regCommand_none h, State.regStore]
  case command => exact fun s a v i h => exec_registerWrite_of_command s h
  case plainClear =>
    intro s a hrc hq hle hplb hlif
    rw [exec_readClear_of_rc s hrc, s.rcClear_eq_setReg_zero hq hle hplb hlif]
    rfl
  case stillRead =>
    intro s a ha hstill
    obtain ⟨hrc, hsnap⟩ := hstill ha
    rw [exec_readClear_of_not_rc s hrc, hsnap]
    rfl
  case sample =>
    exact fun s l => ⟨_, exec_jtagSamplePreload s l, rfl, rfl, rfl, fun p hp => s.mem_sampledJtag_preload hp,
      fun p hp hl => s.mem_sampledJtag_preload_of_kept hp hl, fun p hp x hx => State.mem_sampledJtag_sample hp hx⟩
  case extest =>
    intro s hlock hstop
    rw [exec_jtagExtest, State.extestBlocked_eq_false hlock hstop]
    rfl
  case extestBlocked =>
    intro s h
    rw [exec_jtagExtest, if_pos (s.extestBlocked_iff.mpr h)]

end Sys2Proof.Machine
end

section
/-!
The state after reset (R1, R374, R384): what its stores read as, and the level of every ball in reset.
-/

namespace Sys2Proof.Machine

/-! ### What the empty stores of the reset state read as -/

@[simp] theorem State.reset_reg (a : Nat) : State.reset.reg a = regReset a := rfl

@[simp] theorem State.reset_grp (g : Nat) : State.reset.grp g = {} := rfl

/-- Both sparse stores are empty at reset, so both are canonical. -/
theorem State.reset_wf : State.reset.wf = true := rfl

/-! ### The identification register and the balls -/

/-- SYS_ID has no word and no bits that follow from the state: it reads as stored. -/
theorem State.regVal_sysId (s : State) : s.regVal rSYS_ID = s.reg rSYS_ID := by
  have hword : s.derivedWord rSYS_ID = none := rfl
  have hbits : s.derivedBits rSYS_ID = 0 := rfl
  simp [State.regVal, hword, hbits, word]

/-- R435, Table 20.2: in reset every ball is high-impedance, whatever its unit would drive. -/
theorem State.ballOut_of_inReset {s : State} (h : s.inReset = true) (b : Ball) : s.ballOut b = some .z :=
  if_pos h

/-- Revision A1 stands in the low byte of SYS_ID. -/
theorem sysId_revision : bits (regReset rSYS_ID).toNat 0 8 = 0xA1 := by decide +kernel

/-- Settles O56: the reset state's stores are empty, it is in reset, and reset makes every ball high-impedance. -/
theorem resetIsCanonicalAndHighImpedance : Obligations.ResetIsCanonicalAndHighImpedance := by
  unfold Obligations.ResetIsCanonicalAndHighImpedance
  refine ⟨State.reset_wf, rfl, rfl, rfl, fun g => ?stopped, rfl, ?revision, fun b => State.ballOut_of_inReset rfl b,
    fun s b h => State.ballOut_of_inReset h b⟩
  case stopped => rw [State.reset_grp]
  case revision => rw [State.regVal_sysId, State.reset_reg, sysId_revision]

end Sys2Proof.Machine
end

section
/-!
The windows of R14: what the modular comparison says of an offset, the modulus of each timebase, and an ARM_ABS whose
due time is past (R69).
-/

namespace Sys2Proof.Machine

/-! ### The modular comparison -/

/-- The comparison takes the offset from the reference by turning back through one modulus. -/
theorem add_mod_add_sub_mod {m d : Nat} (ref : Nat) (hd : d < m) : ((ref + d) % m + m - ref % m) % m = d := by
  have hr : ref % m < m := Nat.mod_lt ref (Nat.zero_lt_of_lt hd)
  have hsplit : ref % m + m * (ref / m) = ref := Nat.mod_add_div ref m
  calc ((ref + d) % m + m - ref % m) % m = (ref + d + (m - ref % m)) % m := by
        rw [Nat.add_sub_assoc (Nat.le_of_lt hr), Nat.mod_add_mod]
    _ = (d + m + m * (ref / m)) % m := by congr 1; omega
    _ = d := by rw [Nat.add_mul_mod_self_left, Nat.add_mod_right, Nat.mod_eq_of_lt hd]

/-- R14: of the offsets round the modulus, those above 0 and below the window are in the future. -/
theorem aheadMod_add_mod {w d : Nat} (ref : Nat) (hd : d < 2 * w) :
    aheadMod (2 * w) ref ((ref + d) % (2 * w)) = decide (0 < d ∧ d < w) := by
  have hw : 2 * w / 2 = w := Nat.mul_div_cancel_left w Nat.two_pos
  simp only [aheadMod, add_mod_add_sub_mod ref hd, hw]

/-! ### The timebase of an event entry -/

theorem State.entryNow_modulus_of_angle {s : State} {i : Nat} (h : s.entryTb i = 0) : (s.entryNow i).2 = 2 ^ 80 := by
  simp only [State.entryNow, if_pos h]

theorem State.entryNow_modulus_of_carrier {s : State} {i : Nat} (h : s.entryTb i = 1) :
    (s.entryNow i).2 = 2 ^ 56 := by
  have h0 : s.entryTb i ≠ 0 := by omega
  simp only [State.entryNow, if_neg h0, if_pos h]

theorem State.entryNow_modulus_of_wall {s : State} {i : Nat} (h0 : s.entryTb i ≠ 0) (h1 : s.entryTb i ≠ 1) :
    (s.entryNow i).2 = wallMod := by
  simp only [State.entryNow, if_neg h0, if_neg h1]

/-! ### An ARM_ABS in the past (R69) -/

theorem State.regBit_setBit_same (s : State) (a : Nat) {n : Nat} (hn : n < 32) : (s.setBit a n).regBit a n = true := by
  have hreg : (s.setBit a n).reg a = s.reg a ||| word (2 ^ n) := SMap.get_set_same _ _ _ _
  have hbit : (word (2 ^ n)).getLsbD n = true := by
    rw [word, BitVec.getLsbD_ofNat, Nat.testBit_two_pow_self, decide_eq_true hn, Bool.and_self]
  rw [State.regBit, hreg, BitVec.getLsbD_or, hbit, Bool.or_true]

/-- A due time that is not in the future is refused with bit 5 of EVT_STAT, and nothing else changes. -/
theorem State.armAbs_of_past {s : State} {i t : Nat} (hhost : s.hostEntry i = true)
    (hrun : s.entryTb i ≠ 1 ∨ (s.grp (s.entryGroup i)).st = .running)
    (hpast : aheadMod (s.entryNow i).2 (s.entryNow i).1 (timeOf (s.entryTb i) t) = false) :
    s.armAbs i t = s.setBit rEVT_STAT 5 := by
  have hstands : (s.entryTb i = 1 && (s.grp (s.entryGroup i)).st != .running) = false := by
    obtain htb | hst := hrun
    · simp [htb]
    · simp [hst]
  simp [State.armAbs, hhost, hstands, hpast]

/-- Settles O59: an offset is compared within half the modulus, each timebase's modulus is twice its window, and an
ARM_ABS at an instant that is not in the future sets the refusal bit. -/
theorem timebasesCompareInTheirWindows : Obligations.TimebasesCompareInTheirWindows := by
  unfold Obligations.TimebasesCompareInTheirWindows
  refine ⟨fun w ref d _ hd => aheadMod_add_mod ref hd, fun s i => ?modulus, fun s i t hhost hrun => ?armAbs⟩
  case modulus =>
    by_cases h0 : s.entryTb i = 0
    · rw [if_pos h0]
      exact State.entryNow_modulus_of_angle h0
    · by_cases h1 : s.entryTb i = 1
      · rw [if_neg h0, if_pos h1]
        exact State.entryNow_modulus_of_carrier h1
      · rw [if_neg h0, if_neg h1]
        exact State.entryNow_modulus_of_wall h0 h1
  case armAbs =>
    cases hahead : aheadMod (s.entryNow i).2 (s.entryNow i).1 (timeOf (s.entryTb i) t) with
    | true => exact Or.inr rfl
    | false =>
      rw [State.armAbs_of_past hhost hrun hahead]
      exact Or.inl (s.regBit_setBit_same rEVT_STAT (by decide))

end Sys2Proof.Machine
end

section
/-!
The frame of every command: what `exec` leaves unchanged, from the table `touched` of Machine/Frames.lean.
-/

namespace Sys2Proof.Machine

/-- Every command, in every state, answers a next state that differs at most in the components which the table of frames
names for the command, and that is canonical when the state was: the law of its meaning, one arm each. -/
theorem exec_answers (c : Instr) (s : State) : Answers (Comp.mask (touched c)) s (exec c s) := by
  cases c with dsimp only [exec, touched]
  | release => exact execRelease_keeps .rfl rfl
  | tier0Guard => exact execTier0Guard_keeps .rfl rfl
  | pllBootLock => exact execPllBootLock_keeps .rfl rfl
  | bootRomDone => exact execBootRomDone_keeps .rfl rfl
  | bootImageCommit => exact execBootImageCommit_keeps .rfl rfl
  | mppSampleDone => exact execMppSampleDone_keeps .rfl rfl
  | brownoutReset => exact execBrownoutReset_keeps .rfl rfl
  | resetNAssert => exact execResetNAssert_keeps .rfl rfl
  | resetNRelease => exact execResetNRelease_keeps .rfl rfl
  | resetLong => exact execResetLong_keeps .rfl rfl
  | softwareReset => exact execSoftwareReset_keeps .rfl rfl
  | resetEntry => exact execResetEntry_keeps .rfl rfl
  | load => exact execLoad_keeps .rfl rfl
  | loadComplete => exact execLoadComplete_keeps .rfl rfl
  | commitAt => exact execCommitAt_keeps .rfl rfl
  | commitNow => exact execCommitNow_keeps .rfl rfl
  | cancel => exact execCancel_keeps .rfl rfl
  | discard => exact execDiscard_keeps .rfl rfl
  | commitInstant => exact execCommitInstant_keeps .rfl rfl
  | burn => exact execBurn_keeps .rfl rfl
  | burnComplete => exact execBurnComplete_keeps .rfl rfl
  | lock => exact execLock_keeps .rfl rfl
  | imgNoteRead => exact execImgNoteRead_keeps .rfl rfl
  | angUpdate => exact execAngUpdate_keeps .rfl rfl
  | trackingValid => exact execTrackingValid_keeps .rfl rfl
  | angSrcWrite => exact execAngSrcWrite_keeps .rfl rfl
  | genStale => exact execGenStale_keeps .rfl rfl
  | masterMiss => exact execMasterMiss_keeps .rfl rfl
  | angSnapshotRead => exact execAngSnapshotRead_keeps .rfl rfl
  | evtEntryFire => exact execEvtEntryFire_keeps .rfl rfl
  | evtDeferredDispatch => exact execEvtDeferredDispatch_keeps .rfl rfl
  | builtinStrobe => exact execBuiltinStrobe_keeps .rfl rfl
  | armAbs => exact execArmAbs_keeps .rfl rfl
  | armRel => exact execArmRel_keeps .rfl rfl
  | disarm => exact execDisarm_keeps .rfl rfl
  | evtIrqSrcRead => exact execEvtIrqSrcRead_keeps .rfl rfl
  | contextSwitch => exact execContextSwitch_keeps .rfl rfl
  | deadlineMiss => exact execDeadlineMiss_keeps .rfl rfl
  | waitDataArrived => exact execWaitDataArrived_keeps .rfl rfl
  | jtagHalt => exact execJtagHalt_keeps .rfl rfl
  | jtagRelease => exact execJtagRelease_keeps .rfl rfl
  | laneSelftestStart => exact execLaneSelftestStart_keeps .rfl rfl
  | selftestChunk => exact execSelftestChunk_keeps .rfl rfl
  | laneRemapApply => exact execLaneRemapApply_keeps .rfl rfl
  | ltestLate => exact execLtestLate_keeps .rfl rfl
  | ctxEnable => exact execCtxEnable_keeps .rfl rfl
  | ctxDisable => exact execCtxDisable_keeps .rfl rfl
  | ctxClearFault => exact execCtxClearFault_keeps .rfl rfl
  | leCycRead => exact execLeCycRead_keeps .rfl rfl
  | leNop => exact execLeNop_keeps .rfl rfl
  | leEnd => exact execLeEnd_keeps .rfl rfl
  | leYield => exact execLeYield_keeps .rfl rfl
  | leBr => exact execLeBr_keeps .rfl rfl
  | leBeqz => exact execLeBeqz_keeps .rfl rfl
  | leBnez => exact execLeBnez_keeps .rfl rfl
  | leBltz => exact execLeBltz_keeps .rfl rfl
  | leBgez => exact execLeBgez_keeps .rfl rfl
  | leDbnz => exact execLeDbnz_keeps .rfl rfl
  | leBpany => exact execLeBpany_keeps .rfl rfl
  | leBpall => exact execLeBpall_keeps .rfl rfl
  | leJal => exact execLeJal_keeps .rfl rfl
  | leJr => exact execLeJr_keeps .rfl rfl
  | leAdd => exact execLeAdd_keeps .rfl rfl
  | leSub => exact execLeSub_keeps .rfl rfl
  | leNeg => exact execLeNeg_keeps .rfl rfl
  | leAbs => exact execLeAbs_keeps .rfl rfl
  | leMin => exact execLeMin_keeps .rfl rfl
  | leMax => exact execLeMax_keeps .rfl rfl
  | leClamp => exact execLeClamp_keeps .rfl rfl
  | leMul => exact execLeMul_keeps .rfl rfl
  | leAddi => exact execLeAddi_keeps .rfl rfl
  | leAnd => exact execLeAnd_keeps .rfl rfl
  | leOr => exact execLeOr_keeps .rfl rfl
  | leXor => exact execLeXor_keeps .rfl rfl
  | leNot => exact execLeNot_keeps .rfl rfl
  | leShl => exact execLeShl_keeps .rfl rfl
  | leShr => exact execLeShr_keeps .rfl rfl
  | leSra => exact execLeSra_keeps .rfl rfl
  | leMac => exact execLeMac_keeps .rfl rfl
  | leMsu => exact execLeMsu_keeps .rfl rfl
  | leAccset => exact execLeAccset_keeps .rfl rfl
  | leAccrd => exact execLeAccrd_keeps .rfl rfl
  | leCmpeq => exact execLeCmpeq_keeps .rfl rfl
  | leCmplt => exact execLeCmplt_keeps .rfl rfl
  | leCmple => exact execLeCmple_keeps .rfl rfl
  | leCmpltu => exact execLeCmpltu_keeps .rfl rfl
  | leFcmpeq => exact execLeFcmpeq_keeps .rfl rfl
  | leFcmplt => exact execLeFcmplt_keeps .rfl rfl
  | leFcmple => exact execLeFcmple_keeps .rfl rfl
  | lePand => exact execLePand_keeps .rfl rfl
  | lePor => exact execLePor_keeps .rfl rfl
  | lePxor => exact execLePxor_keeps .rfl rfl
  | lePnot => exact execLePnot_keeps .rfl rfl
  | lePset => exact execLePset_keeps .rfl rfl
  | lePtos => exact execLePtos_keeps .rfl rfl
  | leStop => exact execLeStop_keeps .rfl rfl
  | leSel => exact execLeSel_keeps .rfl rfl
  | leFadd => exact execLeFadd_keeps .rfl rfl
  | leFsub => exact execLeFsub_keeps .rfl rfl
  | leFmul => exact execLeFmul_keeps .rfl rfl
  | leFma => exact execLeFma_keeps .rfl rfl
  | leFmin => exact execLeFmin_keeps .rfl rfl
  | leFmax => exact execLeFmax_keeps .rfl rfl
  | leFabs => exact execLeFabs_keeps .rfl rfl
  | leFneg => exact execLeFneg_keeps .rfl rfl
  | leFcvtf => exact execLeFcvtf_keeps .rfl rfl
  | leFcvtx => exact execLeFcvtx_keeps .rfl rfl
  | leLd => exact execLeLd_keeps .rfl rfl
  | leSt => exact execLeSt_keeps .rfl rfl
  | leLi => exact execLeLi_keeps .rfl rfl
  | leMov => exact execLeMov_keeps .rfl rfl
  | leVext => exact execLeVext_keeps .rfl rfl
  | leVins => exact execLeVins_keeps .rfl rfl
  | leRsum => exact execLeRsum_keeps .rfl rfl
  | leVidx => exact execLeVidx_keeps .rfl rfl
  | leGetf => exact execLeGetf_keeps .rfl rfl
  | leClrf => exact execLeClrf_keeps .rfl rfl
  | leClarke => exact execLeClarke_keeps .rfl rfl
  | leSincos => exact execLeSincos_keeps .rfl rfl
  | lePark => exact execLePark_keeps .rfl rfl
  | leIpark => exact execLeIpark_keeps .rfl rfl
  | leAtan2 => exact execLeAtan2_keeps .rfl rfl
  | leSqrt => exact execLeSqrt_keeps .rfl rfl
  | leRecip => exact execLeRecip_keeps .rfl rfl
  | lePistep => exact execLePistep_keeps .rfl rfl
  | lePibump => exact execLePibump_keeps .rfl rfl
  | leBqstep => exact execLeBqstep_keeps .rfl rfl
  | leRdres => exact execLeRdres_keeps .rfl rfl
  | leStage => exact execLeStage_keeps .rfl rfl
  | leIost => exact execLeIost_keeps .rfl rfl
  | leCommit => exact execLeCommit_keeps .rfl rfl
  | leTrc => exact execLeTrc_keeps .rfl rfl
  | leSig => exact execLeSig_keeps .rfl rfl
  | leCandset => exact execLeCandset_keeps .rfl rfl
  | leCandeval => exact execLeCandeval_keeps .rfl rfl
  | leCandsel => exact execLeCandsel_keeps .rfl rfl
  | ceServiceStart => exact execCeServiceStart_keeps .rfl rfl
  | ceEvaluationEnd => exact execCeEvaluationEnd_keeps .rfl rfl
  | plbClear => exact execPlbClear_keeps .rfl rfl
  | setpointUpdate => exact execSetpointUpdate_keeps .rfl rfl
  | setpPEdge => exact execSetpPEdge_keeps .rfl rfl
  | setpointLos => exact execSetpointLos_keeps .rfl rfl
  | setpointRecover => exact execSetpointRecover_keeps .rfl rfl
  | groupStart => exact execGroupStart_keeps .rfl rfl
  | pwmStart => exact execPwmStart_keeps .rfl rfl
  | groupStop => exact execGroupStop_keeps .rfl rfl
  | pwmStop => exact execPwmStop_keeps .rfl rfl
  | groupStartPoint => exact execGroupStartPoint_keeps .rfl rfl
  | reload => exact execReload_keeps .rfl rfl
  | pwmCmtRequest => exact execPwmCmtRequest_keeps .rfl rfl
  | shootBlock => exact execShootBlock_keeps .rfl rfl
  | ptcHop => exact execPtcHop_keeps .rfl rfl
  | ptcHopResume => exact execPtcHopResume_keeps .rfl rfl
  | eventChannelFire => exact execEventChannelFire_keeps .rfl rfl
  | markFrame => exact execMarkFrame_keeps .rfl rfl
  | alignPhaseStep => exact execAlignPhaseStep_keeps .rfl rfl
  | alignLoss => exact execAlignLoss_keeps .rfl rfl
  | pwmCntRead => exact execPwmCntRead_keeps .rfl rfl
  | sarSlotResult => exact execSarSlotResult_keeps .rfl rfl
  | adcCalibrationDone => exact execAdcCalibrationDone_keeps .rfl rfl
  | calCoeffApply => exact execCalCoeffApply_keeps .rfl rfl
  | sdmCalibrationDone => exact execSdmCalibrationDone_keeps .rfl rfl
  | referenceCheck => exact execReferenceCheck_keeps .rfl rfl
  | refchkLate => exact execRefchkLate_keeps .rfl rfl
  | swap => exact execSwap_keeps .rfl rfl
  | restore => exact execRestore_keeps .rfl rfl
  | swapApply => exact execSwapApply_keeps .rfl rfl
  | restoreApply => exact execRestoreApply_keeps .rfl rfl
  | sdmOutput => exact execSdmOutput_keeps .rfl rfl
  | sdmCtlWrite => exact execSdmCtlWrite_keeps .rfl rfl
  | mtrResample => exact execMtrResample_keeps .rfl rfl
  | comparatorRawChange => exact execComparatorRawChange_keeps .rfl rfl
  | comparatorFilteredChange => exact execComparatorFilteredChange_keeps .rfl rfl
  | tripSourceReleaseProof => exact execTripSourceReleaseProof_keeps .rfl rfl
  | shadowMove => exact execShadowMove_keeps .rfl rfl
  | shadowDisagree => exact execShadowDisagree_keeps .rfl rfl
  | shadowMeasurement => exact execShadowMeasurement_keeps .rfl rfl
  | tripSourceActive => exact execTripSourceActive_keeps .rfl rfl
  | tripSourceRelease => exact execTripSourceRelease_keeps .rfl rfl
  | orderedDelayExpiry => exact execOrderedDelayExpiry_keeps .rfl rfl
  | trpClr => exact execTrpClr_keeps .rfl rfl
  | dckRelease => exact execDckRelease_keeps .rfl rfl
  | legClear => exact execLegClear_keeps .rfl rfl
  | fltNChange => exact execFltNChange_keeps .rfl rfl
  | fltFilterPass => exact execFltFilterPass_keeps .rfl rfl
  | fltBlankClose => exact execFltBlankClose_keeps .rfl rfl
  | tripInChange => exact execTripInChange_keeps .rfl rfl
  | autoClear => exact execAutoClear_keeps .rfl rfl
  | tryCountReset => exact execTryCountReset_keeps .rfl rfl
  | diagTestLeg => exact execDiagTestLeg_keeps .rfl rfl
  | diagTestAll => exact execDiagTestAll_keeps .rfl rfl
  | diagPeriodic => exact execDiagPeriodic_keeps .rfl rfl
  | diagSecondConversion => exact execDiagSecondConversion_keeps .rfl rfl
  | diagNoSlot => exact execDiagNoSlot_keeps .rfl rfl
  | chpClear => exact execChpClear_keeps .rfl rfl
  | dcov2StopStep => exact execDcov2StopStep_keeps .rfl rfl
  | dcOv3Transition => exact execDcOv3Transition_keeps .rfl rfl
  | grdUpdate => exact execGrdUpdate_keeps .rfl rfl
  | rideTimerStop => exact execRideTimerStop_keeps .rfl rfl
  | rtTailExpiry => exact execRtTailExpiry_keeps .rfl rfl
  | rtMaxExpiry => exact execRtMaxExpiry_keeps .rfl rfl
  | tholdExpiry => exact execTholdExpiry_keeps .rfl rfl
  | limitingClear => exact execLimitingClear_keeps .rfl rfl
  | grdGf => exact execGrdGf_keeps .rfl rfl
  | gfTransferTimeout => exact execGfTransferTimeout_keeps .rfl rfl
  | grdGfl => exact execGrdGfl_keeps .rfl rfl
  | gflTransfer => exact execGflTransfer_keeps .rfl rfl
  | grdCease => exact execGrdCease_keeps .rfl rfl
  | grdResume => exact execGrdResume_keeps .rfl rfl
  | reconOk => exact execReconOk_keeps .rfl rfl
  | passiveWindowDecision => exact execPassiveWindowDecision_keeps .rfl rfl
  | chipApply => exact execChipApply_keeps .rfl rfl
  | aggregationWindowEnd => exact execAggregationWindowEnd_keeps .rfl rfl
  | pmuReport => exact execPmuReport_keeps .rfl rfl
  | snap => exact execSnap_keeps .rfl rfl
  | save => exact execSave_keeps .rfl rfl
  | clearAcc => exact execClearAcc_keeps .rfl rfl
  | periodicSave => exact execPeriodicSave_keeps .rfl rfl
  | saveWriteDone => exact execSaveWriteDone_keeps .rfl rfl
  | emergencySaveDone => exact execEmergencySaveDone_keeps .rfl rfl
  | mtrAccRead => exact execMtrAccRead_keeps .rfl rfl
  | recSample => exact execRecSample_keeps .rfl rfl
  | recTrigger => exact execRecTrigger_keeps .rfl rfl
  | recCmdTrigger => exact execRecCmdTrigger_keeps .rfl rfl
  | recArm => exact execRecArm_keeps .rfl rfl
  | recDisarm => exact execRecDisarm_keeps .rfl rfl
  | drawerSeal => exact execDrawerSeal_keeps .rfl rfl
  | recRearm => exact execRecRearm_keeps .rfl rfl
  | xtrigFrame => exact execXtrigFrame_keeps .rfl rfl
  | drawerStored => exact execDrawerStored_keeps .rfl rfl
  | shfRecordBegin => exact execShfRecordBegin_keeps .rfl rfl
  | shfPageDone => exact execShfPageDone_keeps .rfl rfl
  | shfEraseDone => exact execShfEraseDone_keeps .rfl rfl
  | wearLevelMove => exact execWearLevelMove_keeps .rfl rfl
  | loc => exact execLoc_keeps .rfl rfl
  | append => exact execAppend_keeps .rfl rfl
  | ethFrameReceive => exact execEthFrameReceive_keeps .rfl rfl
  | followUpTimeout => exact execFollowUpTimeout_keeps .rfl rfl
  | ptpMasterLoss => exact execPtpMasterLoss_keeps .rfl rfl
  | pdelayReqSend => exact execPdelayReqSend_keeps .rfl rfl
  | resync => exact execResync_keeps .rfl rfl
  | switch => exact execSwitch_keeps .rfl rfl
  | timHold => exact execTimHold_keeps .rfl rfl
  | ethLinkChange => exact execEthLinkChange_keeps .rfl rfl
  | holdoverUpdate => exact execHoldoverUpdate_keeps .rfl rfl
  | revertSwitch => exact execRevertSwitch_keeps .rfl rfl
  | txqDoorbell => exact execTxqDoorbell_keeps .rfl rfl
  | timedLaunch => exact execTimedLaunch_keeps .rfl rfl
  | immediateTransmit => exact execImmediateTransmit_keeps .rfl rfl
  | frameLaunched => exact execFrameLaunched_keeps .rfl rfl
  | timeTriggerArm => exact execTimeTriggerArm_keeps .rfl rfl
  | timeTriggerFire => exact execTimeTriggerFire_keeps .rfl rfl
  | timNsRead => exact execTimNsRead_keeps .rfl rfl
  | monitorTick => exact execMonitorTick_keeps .rfl rfl
  | splitComplete => exact execSplitComplete_keeps .rfl rfl
  | lockstepSweep => exact execLockstepSweep_keeps .rfl rfl
  | clockCheck => exact execClockCheck_keeps .rfl rfl
  | adcmConversion => exact execAdcmConversion_keeps .rfl rfl
  | offPulseTestStart => exact execOffPulseTestStart_keeps .rfl rfl
  | offPulseDropCheck => exact execOffPulseDropCheck_keeps .rfl rfl
  | offPulseReturn => exact execOffPulseReturn_keeps .rfl rfl
  | offPulseReturnCheck => exact execOffPulseReturnCheck_keeps .rfl rfl
  | contactMismatch => exact execContactMismatch_keeps .rfl rfl
  | safeChannelTimeout => exact execSafeChannelTimeout_keeps .rfl rfl
  | safConfirm => exact execSafConfirm_keeps .rfl rfl
  | safConfirmInv => exact execSafConfirmInv_keeps .rfl rfl
  | monNop => exact execMonNop_keeps .rfl rfl
  | monAdd => exact execMonAdd_keeps .rfl rfl
  | monSub => exact execMonSub_keeps .rfl rfl
  | monAnd => exact execMonAnd_keeps .rfl rfl
  | monOr => exact execMonOr_keeps .rfl rfl
  | monXor => exact execMonXor_keeps .rfl rfl
  | monAddi => exact execMonAddi_keeps .rfl rfl
  | monShl => exact execMonShl_keeps .rfl rfl
  | monShr => exact execMonShr_keeps .rfl rfl
  | monSra => exact execMonSra_keeps .rfl rfl
  | monLi => exact execMonLi_keeps .rfl rfl
  | monAbsd => exact execMonAbsd_keeps .rfl rfl
  | monCmpeq => exact execMonCmpeq_keeps .rfl rfl
  | monCmplt => exact execMonCmplt_keeps .rfl rfl
  | monCmpltu => exact execMonCmpltu_keeps .rfl rfl
  | monLd => exact execMonLd_keeps .rfl rfl
  | monSt => exact execMonSt_keeps .rfl rfl
  | monBr => exact execMonBr_keeps .rfl rfl
  | monBeqz => exact execMonBeqz_keeps .rfl rfl
  | monBnez => exact execMonBnez_keeps .rfl rfl
  | monJal => exact execMonJal_keeps .rfl rfl
  | monJr => exact execMonJr_keeps .rfl rfl
  | monIn => exact execMonIn_keeps .rfl rfl
  | monOutGen => exact execMonOutGen_keeps .rfl rfl
  | monOutRly => exact execMonOutRly_keeps .rfl rfl
  | monOutMonOff => exact execMonOutMonOff_keeps .rfl rfl
  | monOutUser => exact execMonOutUser_keeps .rfl rfl
  | monOutSplit => exact execMonOutSplit_keeps .rfl rfl
  | monOutStlData => exact execMonOutStlData_keeps .rfl rfl
  | monOutStlSend => exact execMonOutStlSend_keeps .rfl rfl
  | monPub => exact execMonPub_keeps .rfl rfl
  | monXchg => exact execMonXchg_keeps .rfl rfl
  | monWait => exact execMonWait_keeps .rfl rfl
  | monSafe => exact execMonSafe_keeps .rfl rfl
  | trestleLinkDown => exact execTrestleLinkDown_keeps .rfl rfl
  | linkWrap => exact execLinkWrap_keeps .rfl rfl
  | linkUnwrap => exact execLinkUnwrap_keeps .rfl rfl
  | enumerate => exact execEnumerate_keeps .rfl rfl
  | enumerationDone => exact execEnumerationDone_keeps .rfl rfl
  | trestleFrameForward => exact execTrestleFrameForward_keeps .rfl rfl
  | angleFrame => exact execAngleFrame_keeps .rfl rfl
  | angleSend => exact execAngleSend_keeps .rfl rfl
  | timeFrame => exact execTimeFrame_keeps .rfl rfl
  | timeSend => exact execTimeSend_keeps .rfl rfl
  | roleFrame => exact execRoleFrame_keeps .rfl rfl
  | hswFrame => exact execHswFrame_keeps .rfl rfl
  | mirrorFrame => exact execMirrorFrame_keeps .rfl rfl
  | hreqFrame => exact execHreqFrame_keeps .rfl rfl
  | hrspFrame => exact execHrspFrame_keeps .rfl rfl
  | hdataFrame => exact execHdataFrame_keeps .rfl rfl
  | dlyFrame => exact execDlyFrame_keeps .rfl rfl
  | dlySend => exact execDlySend_keeps .rfl rfl
  | roleAssign => exact execRoleAssign_keeps .rfl rfl
  | pairArm => exact execPairArm_keeps .rfl rfl
  | armActiveTimeout => exact execArmActiveTimeout_keeps .rfl rfl
  | peerAbsentTimeout => exact execPeerAbsentTimeout_keeps .rfl rfl
  | pairActInChange => exact execPairActInChange_keeps .rfl rfl
  | heartbeatLoss => exact execHeartbeatLoss_keeps .rfl rfl
  | takeoverDrive => exact execTakeoverDrive_keeps .rfl rfl
  | pairHandover => exact execPairHandover_keeps .rfl rfl
  | handoverSwitch => exact execHandoverSwitch_keeps .rfl rfl
  | pairTake => exact execPairTake_keeps .rfl rfl
  | pairRejoin => exact execPairRejoin_keeps .rfl rfl
  | mirrorApply => exact execMirrorApply_keeps .rfl rfl
  | peerHeld => exact execPeerHeld_keeps .rfl rfl
  | sysLockLoss => exact execSysLockLoss_keeps .rfl rfl
  | ptcLockLoss => exact execPtcLockLoss_keeps .rfl rfl
  | ethLockLoss => exact execEthLockLoss_keeps .rfl rfl
  | referenceLoss => exact execReferenceLoss_keeps .rfl rfl
  | pllLockReturn => exact execPllLockReturn_keeps .rfl rfl
  | pllSearch => exact execPllSearch_keeps .rfl rfl
  | bandLearningDone => exact execBandLearningDone_keeps .rfl rfl
  | powerFailWarning => exact execPowerFailWarning_keeps .rfl rfl
  | powerFailWithdraw => exact execPowerFailWithdraw_keeps .rfl rfl
  | huFastSample => exact execHuFastSample_keeps .rfl rfl
  | huBulkConversion => exact execHuBulkConversion_keeps .rfl rfl
  | grantRequest => exact execGrantRequest_keeps .rfl rfl
  | grantDone => exact execGrantDone_keeps .rfl rfl
  | grantExpiry => exact execGrantExpiry_keeps .rfl rfl
  | dieidRead => exact execDieidRead_keeps .rfl rfl
  | lifStep => exact execLifStep_keeps .rfl rfl
  | lifeRecord => exact execLifeRecord_keeps .rfl rfl
  | lifWrite => exact execLifWrite_keeps .rfl rfl
  | lifClear => exact execLifClear_keeps .rfl rfl
  | eccCorrected => exact execEccCorrected_keeps .rfl rfl
  | rowRemapDone => exact execRowRemapDone_keeps .rfl rfl
  | rowTrackExpiry => exact execRowTrackExpiry_keeps .rfl rfl
  | lifSplogRead => exact execLifSplogRead_keeps .rfl rfl
  | thmUpdate => exact execThmUpdate_keeps .rfl rfl
  | pauseToggle => exact execPauseToggle_keeps .rfl rfl
  | rcTrim => exact execRcTrim_keeps .rfl rfl
  | refCompUpdate => exact execRefCompUpdate_keeps .rfl rfl
  | compGainApply => exact execCompGainApply_keeps .rfl rfl
  | fanStart => exact execFanStart_keeps .rfl rfl
  | fanStop => exact execFanStop_keeps .rfl rfl
  | fanSetWrite => exact execFanSetWrite_keeps .rfl rfl
  | observeEnd => exact execObserveEnd_keeps .rfl rfl
  | brakePhaseEnd => exact execBrakePhaseEnd_keeps .rfl rfl
  | brakeMaxExpiry => exact execBrakeMaxExpiry_keeps .rfl rfl
  | alignEnd => exact execAlignEnd_keeps .rfl rfl
  | rampTimeout => exact execRampTimeout_keeps .rfl rfl
  | bemfCrossing => exact execBemfCrossing_keeps .rfl rfl
  | retryWaitExpiry => exact execRetryWaitExpiry_keeps .rfl rfl
  | retryCountReset => exact execRetryCountReset_keeps .rfl rfl
  | fanPiStep => exact execFanPiStep_keeps .rfl rfl
  | stallCrossingTimeout => exact execStallCrossingTimeout_keeps .rfl rfl
  | stallSpeedTimeout => exact execStallSpeedTimeout_keeps .rfl rfl
  | read => exact execRead_keeps .rfl rfl
  | write => exact execWrite_keeps .rfl rfl
  | doorbell => exact execDoorbell_keeps .rfl rfl
  | requestFrameError => exact execRequestFrameError_keeps .rfl rfl
  | fetch => exact execFetch_keeps .rfl rfl
  | unknownFrame => exact execUnknownFrame_keeps .rfl rfl
  | remoteTimeout => exact execRemoteTimeout_keeps .rfl rfl
  | unreachTimeout => exact execUnreachTimeout_keeps .rfl rfl
  | shfResetPulseEnd => exact execShfResetPulseEnd_keeps .rfl rfl
  | jtagBypass => exact execJtagBypass_keeps .rfl rfl
  | jtagIdcode => exact execJtagIdcode_keeps .rfl rfl
  | jtagSamplePreload => exact execJtagSamplePreload_keeps .rfl rfl
  | jtagExtest => exact execJtagExtest_keeps .rfl rfl
  | trstNAssert => exact execTrstNAssert_keeps .rfl rfl
  | readClear => exact execReadClear_keeps .rfl rfl
  | registerWrite => exact execRegisterWrite_keeps .rfl rfl
  | reservedOpcode => exact execReservedOpcode_keeps .rfl rfl
  | pwmEdge => exact execPwmEdge_keeps .rfl rfl
  | heartbeatReturn => exact execHeartbeatReturn_keeps .rfl rfl
  | referenceReturn => exact execReferenceReturn_keeps .rfl rfl
  | vddAonLoss => exact execVddAonLoss_keeps .rfl rfl
  | trestleFrameSend => exact execTrestleFrameSend_keeps .rfl rfl
  | diagFirstConversion => exact execDiagFirstConversion_keeps .rfl rfl
  | openLoopCommutation => exact execOpenLoopCommutation_keeps .rfl rfl

/-! ### From the mask to the components -/

theorem Comp.getElem?_all_idx (x : Comp) : all[x.idx]? = some x := by cases x <;> rfl

/-- No two components share a place in a mask. -/
theorem Comp.idx_inj {x y : Comp} (h : x.idx = y.idx) : x = y :=
  Option.some.inj (by rw [← x.getElem?_all_idx, h, y.getElem?_all_idx])

theorem Comp.testBit_foldl_mask (x : Comp) (l : List Comp) (m : Nat) :
    (l.foldl (fun m y => m ||| 2 ^ y.idx) m).testBit x.idx = (m.testBit x.idx || l.contains x) := by
  induction l generalizing m with
  | nil => simp
  | cons y l ih =>
    have hxy : decide (y.idx = x.idx) = (x == y) := by
      rw [Bool.eq_iff_iff, decide_eq_true_iff, beq_iff_eq]
      exact ⟨fun h => (Comp.idx_inj h).symm, fun h => congrArg Comp.idx h.symm⟩
    rw [List.foldl_cons, ih, Nat.testBit_or, Nat.testBit_two_pow, hxy, List.contains_cons, Bool.or_assoc]

/-- The mask of a list holds the places of its members and no other. -/
theorem Comp.testBit_mask (l : List Comp) (x : Comp) : (mask l).testBit x.idx = l.contains x := by
  rw [mask, testBit_foldl_mask, Nat.zero_testBit, Bool.false_or]

/-- A command agrees with the state before it on every component that the table does not name for it. -/
theorem exec_same {c : Instr} {s t : State} {x : Comp} (h : exec c s = .next t) (hx : (touched c).contains x = false) :
    x.same s t := by
  obtain ⟨u, hu, hk⟩ := exec_answers c s
  obtain rfl : u = t := Host.Outcome.next.inj (hu.symm.trans h)
  exact hk.agree x (by rw [Comp.testBit_mask, hx])

end Sys2Proof.Machine
end

section
/-!
The fuses of the Cabinet (R45, R46): only the completion of a BURN writes them at large; a LOCK, sent as a command or
through a host write of IMG_CAB_CMD, adds the two LOCK bits.
-/

namespace Sys2Proof.Machine

/-! ### The LOCK bits -/

/-- The two LOCK bits among the 1,024 fuses. -/
def lockBits : BitVec 1024 := BitVec.ofNat 1024 (3 * 2 ^ 975)

/-- Of the number with the two bits from `k` on, those two are set. -/
theorem getLsbD_ofNat_three_mul_two_pow {w i : Nat} (k : Nat) (hi : i < w) :
    (BitVec.ofNat w (3 * 2 ^ k)).getLsbD i = decide (i = k ∨ i = k + 1) := by
  have h3 : Nat.testBit 3 (i - k) = decide (i - k < 2) := Nat.testBit_two_pow_sub_one 2 (i - k)
  rw [BitVec.getLsbD_ofNat, Nat.testBit_mul_two_pow, h3, ← Bool.decide_and, ← Bool.decide_and, decide_eq_decide]
  omega

theorem getLsbD_lockBits {i : Nat} (hi : i < 1024) : lockBits.getLsbD i = decide (i = 975 ∨ i = 976) :=
  getLsbD_ofNat_three_mul_two_pow 975 hi

theorem getLsbD_or_lockBits (f : BitVec 1024) {i : Nat} (h5 : i ≠ 975) (h6 : i ≠ 976) :
    (f ||| lockBits).getLsbD i = f.getLsbD i := by
  by_cases hi : i < 1024
  · rw [BitVec.getLsbD_or, getLsbD_lockBits hi, decide_eq_false (not_or.mpr ⟨h5, h6⟩), Bool.or_false]
  · rw [BitVec.getLsbD_of_ge _ _ (Nat.le_of_not_lt hi), BitVec.getLsbD_of_ge _ _ (Nat.le_of_not_lt hi)]

/-! ### Burning at most the LOCK bits -/

/-- Between the two states no fuse has changed, or the LOCK bits have been burned and no other fuse has changed. -/
def BurnsAtMostLock (s t : State) : Prop := t.fuses = s.fuses ∨ t.fuses = s.fuses ||| lockBits

theorem BurnsAtMostLock.rfl {s : State} : BurnsAtMostLock s s := .inl (Eq.refl _)

theorem BurnsAtMostLock.trans {s t u : State} (h : BurnsAtMostLock s t) (h' : BurnsAtMostLock t u) :
    BurnsAtMostLock s u := by
  rcases h with h | h <;> rcases h' with h' | h'
  · exact .inl (h'.trans h)
  · exact .inr (by rw [h', h])
  · exact .inr (h'.trans h)
  · exact .inr (by rw [h', h, BitVec.or_assoc, BitVec.or_self])

theorem BurnsAtMostLock.ite {s a b : State} {p : Prop} [Decidable p] (ha : BurnsAtMostLock s a)
    (hb : BurnsAtMostLock s b) : BurnsAtMostLock s (if p then a else b) := by
  split
  · exact ha
  · exact hb

theorem BurnsAtMostLock.getLsbD_eq {s t : State} (h : BurnsAtMostLock s t) {i : Nat} (h5 : i ≠ 975) (h6 : i ≠ 976) :
    t.fuses.getLsbD i = s.fuses.getLsbD i := by
  rcases h with h | h
  · rw [h]
  · rw [h, getLsbD_or_lockBits s.fuses h5 h6]

/-- A burned fuse stays burned. -/
theorem BurnsAtMostLock.getLsbD_mono {s t : State} (h : BurnsAtMostLock s t) {i : Nat}
    (hs : s.fuses.getLsbD i = true) : t.fuses.getLsbD i = true := by
  rcases h with h | h
  · rw [h, hs]
  · rw [h, BitVec.getLsbD_or, hs, Bool.true_or]

/-- The mask of every component but the fuses. -/
abbrev allButFuses : Nat := 0xfffffffffdf

theorem Keeps.burnsAtMostLock {s t : State} (h : Keeps allButFuses s t) : BurnsAtMostLock s t :=
  .inl (h.agree .fuses (Eq.refl _))

/-! ### LOCK and the registers -/

/-- A LOCK burns the LOCK bits where it is accepted, and no fuse where it is refused. -/
theorem execLock_burnsAtMostLock (key : BitVec 16) (s : State) : ∃ t, execLock key s = .next t ∧ BurnsAtMostLock s t :=
  have hrefused {x : Img} : BurnsAtMostLock s (s.setImg x) := (State.setImg_keeps .rfl rfl).burnsAtMostLock
  have hfree {x : Img} : BurnsAtMostLock s (s.takeFree.2.setImg x) :=
    (State.setImg_keeps (State.takeFree_keeps .rfl rfl) rfl).burnsAtMostLock
  ⟨_, rfl, .ite .rfl (.ite hrefused (.ite hrefused (.ite hfree (.inr rfl))))⟩

/-- A write of IMG_CAB_CMD is a BURN, which changes no fuse before its completion, or a LOCK, or nothing. -/
theorem State.cabCmd_burnsAtMostLock (s : State) (v : Word) : BurnsAtMostLock s (s.cabCmd v) := by
  unfold State.cabCmd
  split
  · exact (stateOf_keeps (execBurn_keeps .rfl rfl)).burnsAtMostLock
  · obtain ⟨t, ht, hl⟩ := execLock_burnsAtMostLock (upperHalf v) s
    rw [ht]
    exact hl
  · exact .rfl

/-- Every command register but IMG_CAB_CMD leaves the fuses alone: the law of its command, in the order of
`State.regCommand`. -/
theorem State.regCommand_keeps_allButFuses (s : State) {a : Nat} (v : Word) (ha : a ≠ rIMG_CAB_CMD) :
    OptKeeps allButFuses s (s.regCommand a v) :=
  opt_ite (fun _ => .some (keeps_ite (fun _ => State.softReset_keeps .rfl rfl) fun _ => .rfl)) fun _ =>
  opt_ite (fun _ => .some (keeps_ite (fun _ => State.setSys_keeps .rfl rfl) fun _ => .rfl)) fun _ =>
  opt_ite (fun _ => .some (State.imgCmd_keeps .rfl rfl)) fun _ =>
  opt_ite (fun h => absurd h ha) fun _ =>
  opt_ite (fun _ => .some (stateOf_keeps (execAngSrcWrite_keeps .rfl rfl))) fun _ =>
  opt_ite (fun _ => .some (State.evtCmd_keeps .rfl rfl)) fun _ =>
  opt_ite (fun _ => .some (State.leCmd_keeps .rfl rfl)) fun _ =>
  opt_ite (fun _ => .some (keeps_ite (fun _ => stateOf_keeps (execPlbClear_keeps .rfl rfl)) fun _ => .rfl)) fun _ =>
  opt_ite (fun _ => .some (State.pwmStart_keeps .rfl rfl)) fun _ =>
  opt_ite (fun _ => .some (State.pwmStop_keeps .rfl rfl)) fun _ =>
  opt_ite (fun _ => .some (State.groupCmd_keeps .rfl rfl)) fun _ =>
  opt_ite (fun _ => .some (keeps_ite (fun _ => State.cmtRequest_keeps .rfl rfl) fun _ => .rfl)) fun _ =>
  opt_ite (fun _ => .some (State.adcCmd_keeps .rfl rfl)) fun _ =>
  opt_ite (fun _ => .some (stateOf_keeps (execSdmCtlWrite_keeps .rfl rfl))) fun _ =>
  opt_ite (fun _ => .some (stateOf_keeps (execTrpClr_keeps .rfl rfl))) fun _ =>
  opt_ite (fun _ => .some (State.trpCmd_keeps .rfl rfl)) fun _ =>
  opt_ite (fun _ => .some (State.gdsCmd_keeps .rfl rfl)) fun _ =>
  opt_ite (fun _ => .some (keeps_ite (fun _ => stateOf_keeps (execChpClear_keeps .rfl rfl)) fun _ => .rfl)) fun _ =>
  opt_ite (fun _ => .some (State.grdCmd_keeps .rfl rfl)) fun _ =>
  opt_ite (fun _ => .some (State.mtrCmd_keeps .rfl rfl)) fun _ =>
  opt_ite (fun _ => .some (State.recCmd_keeps .rfl rfl)) fun _ =>
  opt_ite (fun _ => .some (State.shfCmd_keeps .rfl rfl)) fun _ =>
  opt_ite (fun _ => .some (State.timCmd_keeps .rfl rfl)) fun _ =>
  opt_ite (fun _ => .some (State.ttWrite_keeps .rfl rfl)) fun _ =>
  opt_ite (fun _ => .some (stateOf_keeps (execTxqDoorbell_keeps .rfl rfl))) fun _ =>
  opt_ite (fun _ => .some (stateOf_keeps (execSafConfirm_keeps .rfl rfl))) fun _ =>
  opt_ite (fun _ => .some (State.retier_keeps (State.confirmInv_keeps .rfl rfl) rfl)) fun _ =>
  opt_ite (fun _ => .some (keeps_ite (fun _ => stateOf_keeps (execEnumerate_keeps .rfl rfl)) fun _ => .rfl)) fun _ =>
  opt_ite (fun _ => .some (stateOf_keeps (execRoleAssign_keeps .rfl rfl))) fun _ =>
  opt_ite (fun _ => .some (State.pairCmd_keeps .rfl rfl)) fun _ =>
  opt_ite (fun _ => .some (keeps_ite (fun _ => State.grantEnd_keeps .rfl rfl) fun _ =>
    State.grantRequest_keeps .rfl rfl)) fun _ =>
  opt_ite (fun _ => .some (State.lifCmd_keeps .rfl rfl)) fun _ =>
  opt_ite (fun _ => .some (State.fanCmd_keeps .rfl rfl)) fun _ =>
  opt_ite (fun _ => .some (State.fanCmd_keeps .rfl rfl)) fun _ =>
  opt_ite (fun _ => .some (State.fanSet_keeps .rfl rfl)) fun _ =>
  opt_ite (fun _ => .some (State.fanSet_keeps .rfl rfl)) fun _ => .none

theorem State.regWrite_burnsAtMostLock (s : State) (a : Nat) (v : Word) : BurnsAtMostLock s (s.regWrite a v) := by
  by_cases ha : a = rIMG_CAB_CMD
  · subst ha
    exact s.cabCmd_burnsAtMostLock v
  · exact ((s.regCommand_keeps_allButFuses v ha).getD (State.regStore_keeps .rfl rfl)).burnsAtMostLock

/-! ### Host requests (R425 to R427) -/

theorem State.writeWord_burnsAtMostLock (s : State) (a : Nat) (v : Word) : BurnsAtMostLock s (s.writeWord a v) :=
  .ite (s.regWrite_burnsAtMostLock a v) (State.setMemWord_keeps .rfl rfl).burnsAtMostLock

theorem State.writeWords_burnsAtMostLock (s : State) (l : List (Nat × Word)) : BurnsAtMostLock s (s.writeWords l) := by
  induction l generalizing s with
  | nil => exact .rfl
  | cons x l ih => exact (s.writeWord_burnsAtMostLock x.1 x.2).trans (ih _)

/-- A READ and a DOORBELL leave the fuses alone; a WRITE writes its words one after the other. -/
theorem State.hostExec_burnsAtMostLock (s : State) (q : HostReq) : BurnsAtMostLock s (s.hostExec q).2 := by
  unfold State.hostExec
  split
  · split
    · exact .rfl
    · exact (State.readWords_keeps .rfl rfl).burnsAtMostLock
  · split
    · exact .rfl
    · exact s.writeWords_burnsAtMostLock _
  · exact (State.doorbell_keeps .rfl rfl).burnsAtMostLock
  · exact .rfl

theorem State.hostHere_burnsAtMostLock (s : State) (q : HostReq) : BurnsAtMostLock s (s.hostHere q).2 := by
  unfold State.hostHere
  split
  · exact (State.stale_keeps .rfl rfl).burnsAtMostLock
  · exact s.hostExec_burnsAtMostLock q

theorem State.hostRequest_burnsAtMostLock (s : State) (q : HostReq) : BurnsAtMostLock s (s.hostRequest q) := by
  unfold State.hostRequest
  extract_lets tag hst tagged
  have htag : BurnsAtMostLock s tagged := (State.setHost_keeps .rfl rfl).burnsAtMostLock
  refine .ite .rfl (.ite ?reused (htag.trans ?accepted))
  case reused => exact (State.irq_keeps (State.inc_keeps (State.setBit_keeps .rfl rfl) rfl) rfl).burnsAtMostLock
  case accepted =>
    split
    · exact (State.respond_keeps .rfl rfl).burnsAtMostLock
    · refine .ite ?here ?carried
      case here => exact (tagged.hostHere_burnsAtMostLock q).trans (State.respond_keeps .rfl rfl).burnsAtMostLock
      case carried =>
        exact (keeps_ite (fun _ => State.carry_keeps (State.setHost_keeps .rfl rfl) rfl)
          fun _ => State.setHost_keeps .rfl rfl).burnsAtMostLock

/-! ### Requests that come through the Trestle -/

theorem State.remoteExec_burnsAtMostLock (s : State) (src : Nat) (q : HostReq) :
    BurnsAtMostLock s (s.remoteExec src q) :=
  (s.hostHere_burnsAtMostLock q).trans (State.sendAnswer_keeps .rfl rfl).burnsAtMostLock

theorem State.inboundData_burnsAtMostLock (s : State) (f : TrsFrame) : BurnsAtMostLock s (s.inboundData f) := by
  have hinbound {x : Hst} : BurnsAtMostLock s (s.setHost x) := (State.setHost_keeps .rfl rfl).burnsAtMostLock
  unfold State.inboundData
  split
  · exact .rfl
  · dsimp only
    split
    · exact hinbound.trans (State.remoteExec_burnsAtMostLock _ _ _)
    · exact hinbound

/-! ### Every command -/

/-- The commands whose frame names the fuses: the Cabinet's own, and those that may carry a host write. -/
def mayBurn : Instr → Bool
  | .burnComplete _ | .lock _ | .registerWrite _ _ | .read _ | .write _ | .doorbell _ | .hreqFrame _ | .hdataFrame _ => true
  | _ => false

theorem contains_fuses_touched (c : Instr) : (touched c).contains .fuses = mayBurn c := by cases c <;> rfl

theorem exec_burnsAtMostLock {c : Instr} {s t : State} (h : exec c s = .next t) (hb : ∀ b, c ≠ .burnComplete b) :
    BurnsAtMostLock s t := by
  have of_next {u : State} (hu : exec c s = .next u) (hl : BurnsAtMostLock s u) : BurnsAtMostLock s t := by
    obtain rfl : u = t := Host.Outcome.next.inj (hu.symm.trans h)
    exact hl
  cases hm : mayBurn c with
  | false => exact .inl (exec_same h ((contains_fuses_touched c).trans hm))
  | true =>
    unfold mayBurn at hm
    split at hm
    · next b => exact absurd rfl (hb b)
    · next key =>
      obtain ⟨u, hu, hl⟩ := execLock_burnsAtMostLock key s
      exact of_next hu hl
    · next a v => exact of_next rfl (s.regWrite_burnsAtMostLock a.toNat v)
    · next q => exact of_next rfl (.ite .rfl (s.hostRequest_burnsAtMostLock q))
    · next q => exact of_next rfl (.ite (s.hostRequest_burnsAtMostLock q) .rfl)
    · next q => exact of_next rfl (.ite (s.hostRequest_burnsAtMostLock q) .rfl)
    · next f =>
      exact of_next rfl (.ite .rfl (.ite (State.setHost_keeps .rfl rfl).burnsAtMostLock
        (s.remoteExec_burnsAtMostLock f.src (reqOf f.payload))))
    · next f =>
      exact of_next rfl (.ite .rfl (.ite (State.remoteData_keeps .rfl rfl).burnsAtMostLock
        (s.inboundData_burnsAtMostLock f)))
    · contradiction

/-- Settles O58: a command whose frame leaves out the fuses changes none, and every other one but BURN_COMPLETE comes down
to a LOCK or to writes of registers, of which IMG_CAB_CMD alone can burn, and that the LOCK bits. -/
theorem onlyABurnChangesTheCabinetFuses : Obligations.OnlyABurnChangesTheCabinetFuses := by
  unfold Obligations.OnlyABurnChangesTheCabinetFuses
  intro c s t h hb i _
  have hl : BurnsAtMostLock s t := exec_burnsAtMostLock h hb
  exact ⟨hl.getLsbD_eq, hl.getLsbD_mono⟩

end Sys2Proof.Machine
end

section
/-!
The configuration image (R35 to R41, R47): what a commit leaves, refused or not, and what each command of IMG answers.
-/

namespace Sys2Proof.Machine

/-! ### What the steps of a commit leave of the configuration and of IMG -/

@[simp] theorem State.retier_cfg (s : State) : s.retier.cfg = s.cfg :=
  (State.retier_keeps (fr := 0x20000059d0c) .rfl rfl).agree .cfg rfl

@[simp] theorem State.retier_img (s : State) : s.retier.img = s.img :=
  (State.retier_keeps (fr := 0x20000059d0c) .rfl rfl).agree .img rfl

@[simp] theorem State.evtFlush_cfg (s : State) : s.evtFlush.cfg = s.cfg :=
  (State.evtFlush_keeps (fr := 0xc98448806) .rfl rfl).agree .cfg rfl

/-- The notes are of the configuration that the image would give; they put nothing in force. -/
@[simp] theorem State.noteClamps_cfg (s : State) (x : Staged) : (s.noteClamps x).cfg = s.cfg :=
  have hk : Keeps 0x1000000004 s (s.noteClamps x) := keeps_foldl .rfl fun _ _ h => State.imgNote_keeps h rfl
  hk.agree .cfg rfl

@[simp] theorem State.applyImage_cfg (s old : State) (x : Staged) : (s.applyImage old x).cfg = s.cfg :=
  (State.applyImage_keeps (fr := 0xe0fbb5f9c0e) .rfl rfl).agree .cfg rfl

theorem State.withImage_cfg_congr {s t : State} (h : t.cfg = s.cfg) (x : Staged) :
    (t.withImage x).cfg = (s.withImage x).cfg := by
  simp only [State.withImage, h]

/-! ### A commit is all or nothing (R40) -/

/-- A refused commit leaves the configuration, and of IMG it withdraws the request and stores the reason. -/
theorem State.commitImage_of_refused {s : State} {x : Staged} {r t d : Nat}
    (h : (s.setImg { s.img with pend := none, structPend := 0 }).commitRefusal x = some (r, t, d)) :
    (s.commitImage x).cfg = s.cfg ∧
      (s.commitImage x).img = { s.img with
        pend := none, structPend := 0, rej := word (r + 256 * t + 65536 * (d % 65536)) } := by
  simp only [State.commitImage, h, State.retier_cfg, State.retier_img]
  exact ⟨rfl, rfl⟩

/-- A commit that is not refused puts the image in force, and IMG holds nothing staged. -/
theorem State.commitImage_of_accepted {s : State} {x : Staged}
    (h : (s.setImg { s.img with pend := none, structPend := 0 }).commitRefusal x = none) :
    (s.commitImage x).cfg = (s.withImage x).cfg ∧ (s.commitImage x).img.staged = none ∧
      (s.commitImage x).img.gen = x.gen := by
  simp only [State.commitImage, h, State.retier_cfg, State.retier_img, State.setImg_fields, State.applyImage_cfg,
    and_self, and_true]
  refine State.withImage_cfg_congr ?_ x
  rw [State.noteClamps_cfg]
  split
  · simp only [State.evtFlush_cfg, State.setImg_fields]
  · simp only [State.setImg_fields]

/-- Settles O7: `commitImage_of_refused` and `commitImage_of_accepted`. That a refused image stays staged is the model's
choice (log 28). -/
theorem commitIsAllOrNothing : Obligations.CommitIsAllOrNothing := by
  unfold Obligations.CommitIsAllOrNothing
  refine ⟨fun s x r t d h => ?refused, fun s x => State.commitImage_of_accepted⟩
  case refused =>
    obtain ⟨hcfg, himg⟩ := State.commitImage_of_refused h
    rw [himg]
    exact ⟨hcfg, rfl, rfl⟩

/-! ### LOAD (R37) -/

theorem exec_load_of_shelf {s : State} (hstaged : s.img.staged = none) (hloading : s.img.loading = none)
    (hpend : s.img.pend = none) (hlo : shelfBase ≤ (s.reg rIMG_SRC).toNat)
    (hhi : (s.reg rIMG_SRC).toNat < shelfBase + s.shf.mb * 2 ^ 20) :
    exec .load s = .next (s.setImg { s.img with loading := some (s.reg rIMG_SRC).toNat }) := by
  have hfree : ¬(s.img.staged.isSome || s.img.loading.isSome || s.img.pend.isSome) = true := by
    simp [hstaged, hloading, hpend]
  refine congrArg Host.Outcome.next ((if_neg hfree).trans (if_neg ?_))
  rw [decide_eq_true hlo, decide_eq_true hhi]
  exact Bool.false_ne_true

/-- A good image, in a room that it fits, passes the checks of LOAD_COMPLETE one after the other and is staged. -/
theorem exec_loadComplete_of_good {s u : State} {x y : Staged} {a : Nat} (hloading : s.img.loading = some a)
    (hu : u = s.setImg { s.img with loading := none }) (hres : imageResult (u.loadBytes a) = 0)
    (hx : x = stagedOf (u.loadBytes a)) (hgen : x.part = false ∨ genAhead x.gen s.img.gen = true)
    (hfit : partitionsFit (u.withImage x).partitions (field ((u.withImage x).sec secRecorder) 8 4) = true)
    (hplace : u.placeStaged x = some y) :
    exec .loadComplete s = .next (((u.writeStaged y).setImg { u.img with staged := some y }).noteClamps y) := by
  have hvalid : ¬imageResult (u.loadBytes a) ≠ 0 := not_not_intro hres
  have hahead : ¬(x.part && !genAhead x.gen u.img.gen) = true := by
    have hgen' : x.part = false ∨ genAhead x.gen u.img.gen = true := hu ▸ hgen
    rcases hgen' with h | h <;> simp [h]
  have hroom : ¬(!partitionsFit (u.withImage x).partitions (field ((u.withImage x).sec secRecorder) 8 4)) = true := by
    simp [hfit]
  subst hu hx
  refine congrArg Host.Outcome.next ?_
  simp only [hloading]
  refine (if_neg hvalid).trans ((if_neg hahead).trans ((if_neg hroom).trans ?_))
  rw [hplace]

/-! ### The commit commands (R41) -/

theorem exec_commitAt_of_ahead {s : State} {x : Staged} (hpend : s.img.pend = none) (hstaged : s.img.staged = some x)
    (hahead : aheadMod (2 ^ 80) (angWord s.ang.sch) s.commitAngle = true) :
    exec .commitAt s = .next (s.setImg { s.img with pend := some s.commitAngle, structPend := x.mask }) := by
  show execCommitAt s = _
  simp only [execCommitAt, hpend, hstaged, hahead, Option.isSome_none, Bool.not_true, Bool.false_eq_true, if_false]

theorem exec_commitNow_of_staged {s : State} {x : Staged} (hpend : s.img.pend = none)
    (hstaged : s.img.staged = some x) : exec .commitNow s = .next (s.commitImage x) := by
  show execCommitNow s = _
  simp only [execCommitNow, hpend, hstaged, Option.isSome_none, Bool.false_eq_true, if_false]

theorem exec_commitInstant_of_reached {s : State} {x : Staged} {a : Nat} (hpend : s.img.pend = some a)
    (hstaged : s.img.staged = some x) (hreached : aheadMod (2 ^ 80) (angWord s.ang.sch) a = false) :
    exec .commitInstant s = .next (s.commitImage x) := by
  show execCommitInstant s = _
  simp only [execCommitInstant, hpend, hstaged, hreached, Bool.false_eq_true, if_false]

/-- Settles O6: one rule for each command; CANCEL, DISCARD and IMG_NOTE_READ have one case each. What DISCARD withdraws
besides the staging sides and where an image is placed are the model's choices (log 28, log 6). -/
theorem imageCommandsComplete : Obligations.ImageCommandsComplete := by
  unfold Obligations.ImageCommandsComplete
  exact ⟨fun _ => exec_load_of_shelf, fun _ _ _ _ _ => exec_loadComplete_of_good, fun _ _ => exec_commitAt_of_ahead,
    fun _ _ => exec_commitNow_of_staged, fun _ _ _ => exec_commitInstant_of_reached,
    fun _ => rfl, fun _ => rfl, fun _ => rfl⟩

end Sys2Proof.Machine
end

section
/-!
The commands of the Cabinet (R44 to R46): what BURN, its completion and LOCK answer.
-/

namespace Sys2Proof.Machine

theorem exec_burn_of_accepted {s : State} {key : BitVec 16} {vdd : Bool} (hidle : s.img.burning = false)
    (hok : s.burnRefuse key vdd = 0) :
    exec (.burn key vdd) s = .next (s.setImg { s.img with burning := true, cabRefusal := 0 }) :=
  congrArg Host.Outcome.next ((if_neg (Bool.eq_false_iff.mp hidle)).trans (if_pos hok))

theorem exec_burn_of_refused {s : State} {key : BitVec 16} {vdd : Bool} (hidle : s.img.burning = false)
    (hrefuse : s.burnRefuse key vdd ≠ 0) :
    exec (.burn key vdd) s = .next (s.setImg { s.img with cabRefusal := s.burnRefuse key vdd }) :=
  congrArg Host.Outcome.next ((if_neg (Bool.eq_false_iff.mp hidle)).trans (if_neg hrefuse))

theorem exec_burnComplete_of_burning {s : State} {back : BitVec 1024} (hburning : s.img.burning = true) :
    exec (.burnComplete back) s = .next { s with
      fuses := back, img := { s.img with
        burning := false, burned := back == s.burnWhole, verifyFail := !(back == s.burnWhole) } } := by
  refine congrArg Host.Outcome.next (if_neg ?_)
  rw [hburning]
  exact Bool.false_ne_true

/-- A LOCK with the KEY, after a verified BURN of a Cabinet that is not locked, burns the LOCK bits. -/
theorem exec_lock_of_burned {s : State} (hidle : s.img.burning = false) (hburned : s.img.burned = true)
    (hopen : s.cabLocked = false) :
    exec (.lock 0xC4B1) s =
      .next { s with fuses := s.fuses ||| lockBits, img := { s.img with cabRefusal := 0 } } := by
  have hverified : ¬(!s.img.burned) = true := by simp [hburned]
  exact congrArg Host.Outcome.next ((if_neg (Bool.eq_false_iff.mp hidle)).trans
    ((if_neg (Bool.eq_false_iff.mp hopen)).trans ((if_neg (not_not_intro rfl)).trans (if_neg hverified))))

/-- A two-bit field whose low bit is set is not 0. -/
theorem bits_two_ne_zero {x lo : Nat} (h : x.testBit lo = true) : bits x lo 2 ≠ 0 := by
  rw [Nat.testBit_eq_decide_div_mod_eq, decide_eq_true_iff] at h
  rw [bits]
  omega

/-- A Cabinet with its first LOCK bit burned is locked. -/
theorem State.cabLocked_of_getLsbD {s : State} (h : s.fuses.getLsbD 975 = true) : s.cabLocked = true :=
  bne_iff_ne.mpr (bits_two_ne_zero h)

theorem getLsbD_or_lockBits_first (f : BitVec 1024) : (f ||| lockBits).getLsbD 975 = true := by
  rw [BitVec.getLsbD_or, getLsbD_lockBits (by decide), decide_eq_true (.inl rfl), Bool.or_true]

/-- Settles O8: one rule for each case; after LOCK `cabLocked_of_getLsbD` and `getLsbD_or_lockBits` read the fuses. What a
burn is compared with, the two LOCK bits and the source of the VDD operand are the model's choices (log 28, 34, 41). -/
theorem cabinetCommandsComplete : Obligations.CabinetCommandsComplete := by
  unfold Obligations.CabinetCommandsComplete
  refine ⟨fun _ => exec_burn_of_accepted, fun _ _ _ => exec_burn_of_refused, fun _ _ => exec_burnComplete_of_burning,
    fun s hidle hburned hopen => ?lock⟩
  case lock =>
    refine ⟨_, exec_lock_of_burned hidle hburned hopen, ?locked, rfl, fun i hi => ?kept⟩
    case locked => exact State.cabLocked_of_getLsbD (getLsbD_or_lockBits_first s.fuses)
    case kept => exact getLsbD_or_lockBits s.fuses (by omega) (by omega)

end Sys2Proof.Machine
end

section
/-!
The steps of boot (Table 16.1, R378, R379): what TIER0_GUARD, PLL_BOOT_LOCK, BOOT_ROM_DONE and BOOT_IMAGE_COMMIT answer where
they are due.
-/

namespace Sys2Proof.Machine

/-! ### TIER0_GUARD and PLL_BOOT_LOCK -/

/-- The comparators begin and DC_OV3 is active; DC_OV3 acts as a source where the Cabinet is valid and gives it a
threshold. -/
theorem exec_tier0Guard_of_due {s u : State} (hout : s.inReset = false) (hguard : s.sys.guard = false)
    (hu : u = (s.setSys { s.sys with guard := true }).each (List.range 18) State.cmpBegin) :
    exec .tier0Guard s = .next (if u.cabValid && u.fuse 961 12 != 0 then
      ({ u with trp := { u.trp with dcov3 := true } } : State).sourceOn 0x33
      else { u with trp := { u.trp with dcov3 := true } }).retier := by
  have hdue : ¬(s.inReset || s.sys.guard) = true := by simp [hout, hguard]
  show execTier0Guard s = _
  rw [execTier0Guard, if_neg hdue]
  dsimp only
  rw [← hu]
  rfl

theorem exec_pllBootLock_of_due {s : State} (hguard : s.sys.guard = true) (hpll : s.sys.pllBoot = false) :
    exec .pllBootLock s = .next ((s.setSys { s.sys with pllBoot := true }).setClk { s.clk with
      sysLock := true, ptcLock := true, ethLock := true, refOk := true, fallback := false
      learned := [(0, s.thm.tdie)] }).retier := by
  have hdue : ¬(!s.sys.guard || s.sys.pllBoot) = true := by simp [hguard, hpll]
  exact congrArg Host.Outcome.next (if_neg hdue)

/-! ### BOOT_ROM_DONE -/

/-- What the boot ROM leaves before the service tier follows: the lanes, the remaps and tables, the image selected, the
metering restored, and the blocks that begin with Tier 1. -/
def State.romBooted (s : State) (lanes retried : BitVec 18) (aErr bErr : Bool) (table : Option Nat) : State :=
  let s := (s.each ((List.range 18).filter fun i => lanes.getLsbD i) State.laneFail).laneRemap
  let s := { s with le := { s.le with
    passes := 1, retry := min 255 (s.le.retry + laneCount (retried &&& ~~~lanes).toNat) } }
  let s := ((((s.remapBoot).recBoot).shelfTable table).lifRestore).bootSelect aErr bErr
  let s := s.bootSaveInt.2.mtrRestore s.bootSaveInt.1
  (((s.setSys { s.sys with romDone := true }).timBegin).angBegin).monBegin

theorem exec_bootRomDone_of_due {s : State} (lanes retried : BitVec 18) (aErr bErr : Bool) (table : Option Nat)
    (hpll : s.sys.pllBoot = true) (hrom : s.sys.romDone = false) :
    exec (.bootRomDone lanes retried aErr bErr table) s = .next (s.romBooted lanes retried aErr bErr table).retier := by
  have hdue : ¬(!s.sys.pllBoot || s.sys.romDone) = true := by simp [hpll, hrom]
  show execBootRomDone lanes retried aErr bErr table s = _
  rw [execBootRomDone, if_neg hdue, State.romBooted]

/-- The boot ROM stays within the frame of BOOT_ROM_DONE. -/
theorem State.romBooted_keeps (s : State) (lanes retried : BitVec 18) (aErr bErr : Bool) (table : Option Nat) :
    Keeps 0xe32ba659d1e s (s.romBooted lanes retried aErr bErr table) := by
  have hlanes (l : List Nat) : Keeps 0xe32ba659d1e s (s.each l State.laneFail).laneRemap :=
    State.laneRemap_keeps (State.each_keeps .rfl rfl fun _ _ h => State.laneFail_keeps h rfl) rfl
  have hselect {t : State} (h : Keeps 0xe32ba659d1e s t) :
      Keeps 0xe32ba659d1e s (((((t.remapBoot).recBoot).shelfTable table).lifRestore).bootSelect aErr bErr) :=
    State.bootSelect_keeps (State.lifRestore_keeps (State.shelfTable_keeps (State.recBoot_keeps
      (State.remapBoot_keeps h rfl) rfl) rfl) rfl) rfl
  have hbegin {t : State} (h : Keeps 0xe32ba659d1e s t) :
      Keeps 0xe32ba659d1e s (((t.timBegin).angBegin).monBegin) :=
    State.monBegin_keeps (State.angBegin_keeps (State.timBegin_keeps h rfl) rfl) rfl
  exact hbegin (State.setSys_keeps (State.mtrRestore_keeps (State.bootSaveInt_keeps
    (hselect (keeps_le (hlanes _) rfl)) rfl) rfl) rfl)

/-- The blocks that begin with Tier 1 leave the boot flags. -/
theorem State.tier1Begin_sys (s : State) : (((s.timBegin).angBegin).monBegin).sys = s.sys :=
  have hk : Keeps 0x200618804 s (((s.timBegin).angBegin).monBegin) :=
    State.monBegin_keeps (State.angBegin_keeps (State.timBegin_keeps .rfl rfl) rfl) rfl
  hk.agree .sys rfl

theorem State.romBooted_romDone (s : State) (lanes retried : BitVec 18) (aErr bErr : Bool) (table : Option Nat) :
    (s.romBooted lanes retried aErr bErr table).sys.romDone = true := by
  rw [State.romBooted, State.tier1Begin_sys]
  rfl

/-! ### BOOT_IMAGE_COMMIT -/

@[simp] theorem State.copyBytes_setImg (s : State) (x : Img) (k : Nat) : (s.setImg x).copyBytes k = s.copyBytes k := by
  simp only [State.copyBytes, State.bytes, State.byte, State.setImg_fields]

/-- The selected copy is read as it stands on the Shelf: written and committed where it fits, else refused. -/
theorem exec_bootImageCommit_of_due {s : State} (hrom : s.sys.romDone = true) (himg : s.img.bootDue = true) :
    exec .bootImageCommit s = .next (
      ((s.setImg { s.img with bootDue := false }).placeStaged (stagedOf (s.copyBytes (s.img.copy - 1)))).elim
        ((s.setImg { s.img with bootDue := false }).imgRefuse false 7 0 0)
        fun x => ((s.setImg { s.img with bootDue := false }).writeStaged x).commitImage x) := by
  have hdue : ¬(!s.sys.romDone || !s.img.bootDue) = true := by simp [hrom, himg]
  show execBootImageCommit s = _
  rw [execBootImageCommit, if_neg hdue]
  simp only [State.copyBytes_setImg, State.setImg_fields]
  split
  · next x h => rw [h, Option.elim]
  · next h => rw [h, Option.elim]

/-! ### The statement -/

/-- Settles O3: each step answers as its rule says; that the boot ROM burns no fuse and accepts no Monitor program is
its frame. DC_OV3 active at a threshold of 0 is the model's choice (log 29). -/
theorem bootStepsComplete : Obligations.BootStepsComplete := by
  unfold Obligations.BootStepsComplete
  refine ⟨?fused, ?unfused, ?pll, ?rom, ?placed, ?full⟩
  case fused =>
    intro s u hout hguard hu hcab hlevel
    rw [exec_tier0Guard_of_due hout hguard hu, if_pos (by simp [hcab, hlevel])]
  case unfused =>
    intro s u hout hguard hu hnone
    have hoff : ¬(u.cabValid && u.fuse 961 12 != 0) = true := by rcases hnone with h | h <;> simp [h]
    rw [exec_tier0Guard_of_due hout hguard hu, if_neg hoff]
  case pll =>
    exact fun s hguard hpll => ⟨_, exec_pllBootLock_of_due hguard hpll, rfl, rfl, rfl, rfl, rfl, rfl, rfl⟩
  case rom =>
    intro s lanes retried aErr bErr table hpll hrom
    have hk := s.romBooted_keeps lanes retried aErr bErr table
    exact ⟨_, exec_bootRomDone_of_due lanes retried aErr bErr table hpll hrom,
      s.romBooted_romDone lanes retried aErr bErr table, congrArg Mon.accepted (hk.agree .mon rfl), hk.agree .fuses rfl⟩
  case placed =>
    intro s x hrom himg hplace
    rw [exec_bootImageCommit_of_due hrom himg, hplace, Option.elim]
  case full =>
    intro s hrom himg hplace
    rw [exec_bootImageCommit_of_due hrom himg, hplace, Option.elim]

end Sys2Proof.Machine
end

section
/-!
The grid angle (R48 to R59, R71): what an update, the begin of tracking, the choice of a source, the losses of a source and
the snapshots of the three angles answer.
-/

namespace Sys2Proof.Machine

/-- Out of reset the edges up to the update's instant pass; ANG takes the instant and updates, and GRD after it. -/
theorem exec_angUpdate_of_released {s : State} (hout : s.inReset = false) :
    exec .angUpdate s = .next (({ s.edges s.edgesToUpdate with
      ang := { (s.edges s.edgesToUpdate).ang with updAt := (s.edges s.edgesToUpdate).clk.t } } :
      State).angUpdate).grdAngUpdate :=
  congrArg Host.Outcome.next (if_neg (Bool.eq_false_iff.mp hout))

/-! ### Tracking (R49, R57, R59) -/

/-- The nominal frequency that a lock leaves: a first lock without a SCHED section settles it, every other keeps it. -/
def State.lockFnom (s : State) : Nat :=
  if s.ang.seen || s.hasSec secSched then s.ang.fnom
  else if s.ang.tracked > 55 * 2 ^ 24 then 60 * 2 ^ 24 else 50 * 2 ^ 24

theorem State.lockFnom_of_kept {s : State} (h : s.ang.seen = true ∨ s.hasSec secSched = true) :
    s.lockFnom = s.ang.fnom :=
  if_pos (Bool.or_eq_true_iff.mpr h)

theorem State.lockFnom_of_first {s : State} (hseen : s.ang.seen = false) (hsec : s.hasSec secSched = false) :
    s.lockFnom = if s.ang.tracked > 55 * 2 ^ 24 then 60 * 2 ^ 24 else 50 * 2 ^ 24 :=
  if_neg (by simp [hseen, hsec])

/-- After 100 passing updates the measured angle takes the tracked one, and the source is chosen anew. -/
theorem exec_trackingValid_of_passed {s : State} (hvalid : s.ang.valid = false) (hpass : 100 ≤ s.ang.pass) :
    exec .trackingValid s = .next ({ s with
      ang := { s.ang with
        valid := true, seen := true, validAt := s.ang.sch, freq := s.ang.tracked, meas := s.ang.trkTh
        fnom := s.lockFnom } } : State).angSelect.angJump := by
  have hdue : ¬(s.ang.valid || decide (s.ang.pass < 100)) = true := by simp [hvalid, hpass]
  exact congrArg Host.Outcome.next (if_neg hdue)

/-! ### A source that is lost (R55, R56) -/

theorem exec_genStale_of_generated {s : State} (hsrc : s.ang.src = 1) :
    exec .genStale s = .next (s.setBit rANG_STAT 11) :=
  congrArg Host.Outcome.next (if_pos hsrc)

theorem exec_masterMiss_of_missed {s : State} (hok : s.ang.masOk = true)
    (hmissed : s.ang.masAt + 400 * s.masterMiss ≤ s.clk.t) :
    exec .masterMiss s = .next ((({ s with ang := { s.ang with masOk := false } } : State).setBit rANG_STAT
      5).angSelect.angJump) := by
  have hdue : (s.ang.masOk && decide (s.ang.masAt + 400 * s.masterMiss ≤ s.clk.t)) = true := by simp [hok, hmissed]
  exact congrArg Host.Outcome.next (if_pos hdue)

/-- Settles O9: one rule for each command; of a lock, `lockFnom_of_kept` and `lockFnom_of_first` say which nominal frequency
it leaves. That time passes before an update, and 50 Hz at exactly 55 Hz, are the model's choices (log 1, log 37). -/
theorem angleCommandsComplete : Obligations.AngleCommandsComplete := by
  unfold Obligations.AngleCommandsComplete
  refine ⟨?update, ?locked, ?firstLock, fun _ _ => rfl, fun _ => exec_genStale_of_generated,
    fun _ => exec_masterMiss_of_missed, fun _ => ⟨rfl, rfl, rfl⟩⟩
  case update =>
    rintro s u hout rfl
    exact exec_angUpdate_of_released hout
  case locked =>
    intro s hvalid hpass hkept
    rw [exec_trackingValid_of_passed hvalid hpass, State.lockFnom_of_kept hkept]
  case firstLock =>
    intro s hvalid hpass hseen hsec
    rw [exec_trackingValid_of_passed hvalid hpass, State.lockFnom_of_first hseen hsec]

end Sys2Proof.Machine
end

section
/-!
The event scheduler (R64 to R70, R262): what a firing, a dispatch, a command for a host entry and a read of the HOST_IRQ
queue answer.
-/

namespace Sys2Proof.Machine

/-! ### The entries that fire (R64 to R66) -/

theorem State.dueOf_singleton_of_due {s : State} {i : Nat} (hi : i < s.nEntries) (hdue : s.entryDue i = true) :
    s.dueOf [i] = [i] := by
  simp [State.dueOf, hi, hdue, State.insertEntry]

theorem State.dueOf_singleton_of_not_due {s : State} {i : Nat} (hdue : s.entryDue i = false) : s.dueOf [i] = [] := by
  simp [State.dueOf, hdue]

@[simp] theorem State.setBit_evt (s : State) (a n : Nat) : (s.setBit a n).evt = s.evt := rfl

@[simp] theorem State.inc_evt (s : State) (a : Nat) : (s.inc a).evt = s.evt := rfl

@[simp] theorem State.setEvtEntry_deferred (s : State) (i : Nat) (x : EvtEntry) :
    (s.setEvtEntry i x).evt.deferred = s.evt.deferred := rfl

/-- A firing moves the entry on and leaves the queue of those that wait for dispatch. -/
@[simp] theorem State.fireEntry_deferred (s : State) (i : Nat) : (s.fireEntry i).evt.deferred = s.evt.deferred := by
  simp only [State.fireEntry, State.setEvtEntry_deferred, apply_ite State.evt, State.setBit_evt, State.inc_evt, ite_self]

theorem State.fireAll_nil_of_none_waiting {s : State} (hwait : s.evt.deferred = []) :
    s.fireAll [] = (s.setEvt { s.evt with deferred := [] }).dispatchUpTo 4 := by
  simp [State.fireAll, State.each, hwait]

/-- One entry alone fits the 4 actions of an edge, so none is late. -/
theorem State.fireAll_singleton_of_none_waiting {s : State} (hwait : s.evt.deferred = []) (i : Nat) :
    s.fireAll [i] = ((s.fireEntry i).setEvt {
      (s.fireEntry i).evt with deferred := [(i, (s.evtEntry i).due)] }).dispatchUpTo 4 := by
  simp [State.fireAll, State.each, hwait]

theorem exec_evtEntryFire (s : State) (l : List Nat) : exec (.evtEntryFire l) s = .next (s.fireAll (s.dueOf l)) := rfl

/-! ### Dispatch on a later edge (R67) -/

theorem State.dispatchUpTo_succ_of_cons {s : State} {i due : Nat} {rest : List (Nat × Nat)}
    (h : s.evt.deferred = (i, due) :: rest) (n : Nat) :
    s.dispatchUpTo (n + 1) = ((s.setEvt { s.evt with deferred := rest }).dispatch i due).dispatchUpTo n := by
  rw [State.dispatchUpTo, h]

theorem exec_evtDeferredDispatch (s : State) : exec .evtDeferredDispatch s = .next (s.dispatchUpTo 4) := rfl

theorem exec_builtinStrobe_of_no_schedule {s : State} (hsec : s.hasSec secSched = false) :
    exec .builtinStrobe s = .next s.mtrStrobe :=
  congrArg Host.Outcome.next (if_neg (Bool.eq_false_iff.mp hsec))

/-! ### Host-controlled entries (R69) -/

/-- A due time in the future arms the entry, which fires on its old time first where it is due. -/
theorem State.armAbs_of_ahead {s : State} {i t : Nat} (hhost : s.hostEntry i = true)
    (hrun : s.entryTb i ≠ 1 ∨ (s.grp (s.entryGroup i)).st = .running)
    (hahead : aheadMod (s.entryNow i).2 (s.entryNow i).1 (timeOf (s.entryTb i) t) = true) :
    s.armAbs i t = (s.fireFirst i).setEvtEntry i {
      armed := true, due := timeOf (s.entryTb i) t, left := if s.entryPeriodic i then s.entryCount i else 1
      absolute := true } := by
  have hstands : (s.entryTb i = 1 && (s.grp (s.entryGroup i)).st != .running) = false := by
    obtain htb | hst := hrun
    · simp [htb]
    · simp [hst]
  simp [State.armAbs, hhost, hstands, hahead]

theorem exec_armAbs (s : State) (i : Nat) (t : BitVec 96) : exec (.armAbs i t) s = .next (s.armAbs i t.toNat) := rfl

theorem exec_armRel_of_host {s : State} {i : Nat} (hhost : s.hostEntry i = true) :
    exec (.armRel i) s = .next ((s.fireFirst i).armRel i) :=
  congrArg Host.Outcome.next (if_pos hhost)

theorem exec_disarm_of_host {s : State} {i : Nat} (hhost : s.hostEntry i = true) :
    exec (.disarm i) s = .next (s.setEvtEntry i {}) :=
  congrArg Host.Outcome.next (if_pos hhost)

theorem State.fireFirst_of_not_due {s : State} {i : Nat} (hdue : s.entryDue i = false) : s.fireFirst i = s :=
  if_neg (Bool.eq_false_iff.mp hdue)

/-- An entry that is not the host's is refused with bit 6 of EVT_STAT, whatever the command. -/
theorem exec_hostCommand_of_foreign {s : State} {i : Nat} (t : BitVec 96) (hhost : s.hostEntry i = false) :
    exec (.armAbs i t) s = .next (s.setBit rEVT_STAT 6) ∧ exec (.armRel i) s = .next (s.setBit rEVT_STAT 6) ∧
      exec (.disarm i) s = .next (s.setBit rEVT_STAT 6) := by
  have hforeign : ¬s.hostEntry i = true := Bool.eq_false_iff.mp hhost
  have hnot : (!s.hostEntry i) = true := by rw [hhost]; rfl
  exact ⟨congrArg Host.Outcome.next (if_pos hnot), congrArg Host.Outcome.next (if_neg hforeign),
    congrArg Host.Outcome.next (if_neg hforeign)⟩

/-- Settles O11: a firing is `dueOf`, then `fireAll` on what it answers; a deferred entry is the head that `dispatchUpTo`
takes; one rule for each command of the host. -/
theorem eventCommandsComplete : Obligations.EventCommandsComplete := by
  unfold Obligations.EventCommandsComplete
  refine ⟨?fires, ?stands, ?deferred, fun _ => exec_builtinStrobe_of_no_schedule, ?armAbs,
    fun _ _ => exec_armRel_of_host, fun _ _ => State.fireFirst_of_not_due, fun _ _ => exec_disarm_of_host,
    fun _ _ => exec_hostCommand_of_foreign, fun _ => rfl⟩
  case fires =>
    intro s i hwait hi hdue
    rw [exec_evtEntryFire, State.dueOf_singleton_of_due hi hdue, State.fireAll_singleton_of_none_waiting hwait]
  case stands =>
    intro s i hwait hdue
    rw [exec_evtEntryFire, State.dueOf_singleton_of_not_due hdue, State.fireAll_nil_of_none_waiting hwait]
  case deferred =>
    intro s i due rest hwait
    rw [exec_evtDeferredDispatch, State.dispatchUpTo_succ_of_cons hwait]
  case armAbs =>
    intro s i t hhost hrun hahead
    rw [exec_armAbs, State.armAbs_of_ahead hhost hrun hahead]

end Sys2Proof.Machine
end

section
/-!
The instruction words of the two programs (R103, R110, R330): a word is the mixed-radix numeral of its fields, so the
fields read back from it are those it was made of; and each opcode that the tables list is that of an instruction.
-/

namespace Sys2Proof

theorem toNat_append_eq_add {n m : Nat} (x : BitVec n) (y : BitVec m) :
    (x ++ y).toNat = x.toNat * 2 ^ m + y.toNat := by
  rw [BitVec.toNat_append, ← Nat.shiftLeft_add_eq_or_of_lt y.isLt, Nat.shiftLeft_eq]

theorem ofBool_getLsbD_eq_extractLsb' {n : Nat} (x : BitVec n) (i : Nat) :
    BitVec.ofBool (x.getLsbD i) = x.extractLsb' i 1 := by
  apply BitVec.eq_of_toNat_eq
  rw [BitVec.toNat_ofBool, BitVec.getLsbD, Nat.toNat_testBit, BitVec.extractLsb'_toNat, Nat.shiftRight_eq_div_pow]

/-! ### Loop Engine words (Table 5.1) -/

theorem toNat_leBits (op : Byte) (w : LeWord) :
    (leBits op w).toNat = op.toNat * 2 ^ 56 + w.d.toNat * 2 ^ 51 + w.a.toNat * 2 ^ 46 + w.b.toNat * 2 ^ 41 +
      w.c.toNat * 2 ^ 36 + w.s.toNat * 2 ^ 35 + w.n.toNat * 2 ^ 34 + w.v.toNat * 2 ^ 33 + w.p.toNat * 2 ^ 32 +
      w.imm.toNat := by
  rw [leBits]
  repeat rw [toNat_append_eq_add]
  simp only [BitVec.toNat_ofBool]
  omega

theorem opcode_leBits (op : Byte) (w : LeWord) : (leBits op w).extractLsb' 56 8 = op := by
  apply BitVec.eq_of_toNat_eq
  rw [BitVec.extractLsb'_toNat, toNat_leBits, Nat.shiftRight_eq_div_pow]
  have := w.s.toNat_le; have := w.n.toNat_le; have := w.v.toNat_le; have := w.p.toNat_le
  omega

theorem leFields_leBits (op : Byte) (w : LeWord) : leFields (leBits op w) = w := by
  obtain ⟨d, a, b, c, s, n, v, p, imm⟩ := w
  have := s.toNat_le; have := n.toNat_le; have := v.toNat_le; have := p.toNat_le
  rw [leFields, LeWord.mk.injEq]
  refine ⟨?_, ?_, ?_, ?_, ?_, ?_, ?_, ?_, ?_⟩
  case refine_5 | refine_6 | refine_7 | refine_8 =>
    apply BitVec.ofBool_eq_iff_eq.mp
    apply BitVec.eq_of_toNat_eq
    rw [ofBool_getLsbD_eq_extractLsb', BitVec.extractLsb'_toNat, toNat_leBits, Nat.shiftRight_eq_div_pow,
      BitVec.toNat_ofBool]
    dsimp only
    omega
  all_goals
    apply BitVec.eq_of_toNat_eq
    rw [BitVec.extractLsb'_toNat, toNat_leBits, Nat.shiftRight_eq_div_pow]
    dsimp only
    omega

theorem leBits_leFields (x : BitVec 64) : leBits (x.extractLsb' 56 8) (leFields x) = x := by
  simp only [leBits, leFields, ofBool_getLsbD_eq_extractLsb']
  repeat rw [BitVec.extractLsb'_append_extractLsb'_eq_extractLsb' (by rfl)]
  exact BitVec.extractLsb'_eq_self

/-- The Loop Engine's instructions in the order of Table 5.3. -/
def leInstrs (w : LeWord) (ecc : Ecc) : List Instr :=
  [.leNop w ecc, .leEnd w ecc, .leYield w ecc, .leBr w ecc, .leBeqz w ecc, .leBnez w ecc, .leBltz w ecc, .leBgez w ecc,
    .leDbnz w ecc, .leBpany w ecc, .leBpall w ecc, .leJal w ecc, .leJr w ecc,
    .leAdd w ecc, .leSub w ecc, .leNeg w ecc, .leAbs w ecc, .leMin w ecc, .leMax w ecc, .leClamp w ecc, .leMul w ecc,
    .leMac w ecc, .leMsu w ecc, .leAccset w ecc, .leAccrd w ecc, .leAddi w ecc,
    .leAnd w ecc, .leOr w ecc, .leXor w ecc, .leNot w ecc, .leShl w ecc, .leShr w ecc, .leSra w ecc,
    .leCmpeq w ecc, .leCmplt w ecc, .leCmple w ecc, .leCmpltu w ecc, .leFcmpeq w ecc, .leFcmplt w ecc, .leFcmple w ecc,
    .lePand w ecc, .lePor w ecc, .lePxor w ecc, .lePnot w ecc, .lePset w ecc, .leSel w ecc, .lePtos w ecc, .leStop w ecc,
    .leFadd w ecc, .leFsub w ecc, .leFmul w ecc, .leFma w ecc, .leFmin w ecc, .leFmax w ecc, .leFabs w ecc,
    .leFneg w ecc, .leFcvtf w ecc, .leFcvtx w ecc,
    .leLd w ecc, .leSt w ecc, .leLi w ecc, .leMov w ecc, .leVext w ecc, .leVins w ecc, .leRsum w ecc, .leVidx w ecc,
    .leGetf w ecc, .leClrf w ecc,
    .leClarke w ecc, .lePark w ecc, .leIpark w ecc, .leSincos w ecc, .leAtan2 w ecc, .leSqrt w ecc, .leRecip w ecc,
    .lePistep w ecc, .lePibump w ecc, .leBqstep w ecc,
    .leCandset w ecc, .leCandeval w ecc 0, .leCandsel w ecc 0,
    .leRdres w ecc 0, .leStage w ecc, .leIost w ecc, .leCommit w ecc, .leTrc w ecc, .leSig w ecc]

theorem map_leParts_leInstrs (w : LeWord) (ecc : Ecc) :
    (leInstrs w ecc).map leParts = leOpcodes.map fun op => some (op, w) := rfl

/-- Every opcode that Table 5.3 lists is that of an instruction. -/
theorem exists_leParts_of_mem {op : Byte} (h : op ∈ leOpcodes) (w : LeWord) (ecc : Ecc) :
    ∃ i, leParts i = some (op, w) := by
  have hmem : some (op, w) ∈ (leInstrs w ecc).map leParts := by
    rw [map_leParts_leInstrs]
    exact List.mem_map.mpr ⟨op, h, rfl⟩
  obtain ⟨i, _, hi⟩ := List.mem_map.mp hmem
  exact ⟨i, hi⟩

theorem leParts_opcode_mem {i : Instr} {op : Byte} {w : LeWord} (h : leParts i = some (op, w)) : op ∈ leOpcodes := by
  have hlisted : (leParts i).all (fun p => leOpcodes.contains p.1) = true := by cases i <;> rfl
  rw [h] at hlisted
  exact List.contains_iff_mem.mp hlisted

theorem leSpells_of_leParts {i : Instr} {op : Byte} {w : LeWord} (h : leParts i = some (op, w)) :
    leSpells (leBits op w) i = true := by
  unfold leSpells
  split
  case h_1 => exact absurd h.symm (Option.some_ne_none _)
  case h_2 => simp only [h, beq_self_eq_true]

/-- A reserved opcode spells the command that raises ILLEGAL (R110). -/
theorem leSpells_reservedOpcode {x : BitVec 64} (h : x.extractLsb' 56 8 ∉ leOpcodes) (ecc : Ecc) :
    leSpells x (.reservedOpcode (leFields x) ecc) = true := by
  simp [leSpells, h]

theorem exists_leSpells (x : BitVec 64) (ecc : Ecc) : ∃ i, leSpells x i = true ∧
    (leParts i = some (x.extractLsb' 56 8, leFields x) ∨ i = .reservedOpcode (leFields x) ecc) := by
  by_cases hop : x.extractLsb' 56 8 ∈ leOpcodes
  · obtain ⟨i, hi⟩ := exists_leParts_of_mem hop (leFields x) ecc
    have hx := leSpells_of_leParts hi
    rw [leBits_leFields] at hx
    exact ⟨i, hx, .inl hi⟩
  · exact ⟨_, leSpells_reservedOpcode hop ecc, .inr rfl⟩

/-! ### Monitor words (R330) -/

theorem toNat_monBits (op : BitVec 5) (w : MonWord) :
    (monBits op w).toNat = op.toNat * 2 ^ 27 + w.d.toNat * 2 ^ 23 + w.a.toNat * 2 ^ 19 + w.b.toNat * 2 ^ 15 +
      w.imm.toNat := by
  rw [monBits]
  repeat rw [toNat_append_eq_add]
  omega

theorem opcode_monBits (op : BitVec 5) (w : MonWord) : (monBits op w).extractLsb' 27 5 = op := by
  apply BitVec.eq_of_toNat_eq
  rw [BitVec.extractLsb'_toNat, toNat_monBits, Nat.shiftRight_eq_div_pow]
  omega

theorem monFields_monBits (op : BitVec 5) (w : MonWord) : monFields (monBits op w) w.ecc = w := by
  obtain ⟨d, a, b, imm, ecc⟩ := w
  rw [monFields, MonWord.mk.injEq]
  refine ⟨?_, ?_, ?_, ?_, rfl⟩
  all_goals
    apply BitVec.eq_of_toNat_eq
    rw [BitVec.extractLsb'_toNat, toNat_monBits, Nat.shiftRight_eq_div_pow]
    dsimp only
    omega

theorem monBits_monFields (x : Word) (ecc : Bool) : monBits (x.extractLsb' 27 5) (monFields x ecc) = x := by
  simp only [monBits, monFields]
  repeat rw [BitVec.extractLsb'_append_extractLsb'_eq_extractLsb' (by rfl)]
  exact BitVec.extractLsb'_eq_self

theorem monSpells_of_monParts {i : Instr} {op : BitVec 5} {w : MonWord} (h : monParts i = some (op, w)) :
    monSpells (monBits op w) i = true := by
  simp [monSpells, h]

theorem monParts_opcode_lt {i : Instr} {op : BitVec 5} {w : MonWord} (h : monParts i = some (op, w)) :
    op.toNat < 28 := by
  revert h
  unfold monParts
  split
  all_goals simp +contextual [eq_comm (b := op)]

/-- The Monitor's instructions but OUT, in the order of Table 14.3; noncomputable, since the compiler cannot number
constructors this far down `Instr`. -/
noncomputable def monInstrs (w : MonWord) : List Instr :=
  [.monNop 0 w, .monAdd 0 w, .monSub 0 w, .monAnd 0 w, .monOr 0 w, .monXor 0 w, .monAddi 0 w, .monShl 0 w, .monShr 0 w,
    .monSra 0 w, .monLi 0 w, .monAbsd 0 w, .monCmpeq 0 w, .monCmplt 0 w, .monCmpltu 0 w, .monLd 0 w, .monSt 0 w,
    .monBr 0 w, .monBeqz 0 w, .monBnez 0 w, .monJal 0 w, .monJr 0 w, .monIn 0 w,
    .monPub 0 w, .monXchg 0 w, .monWait 0 w, .monSafe 0 w]

/-- Their opcodes. -/
def monOpcodes : List (BitVec 5) :=
  [0x00, 0x01, 0x02, 0x03, 0x04, 0x05, 0x06, 0x07, 0x08, 0x09, 0x0A, 0x0B, 0x0C, 0x0D, 0x0E, 0x0F, 0x10, 0x11, 0x12, 0x13,
    0x14, 0x15, 0x16, 0x18, 0x19, 0x1A, 0x1B]

theorem map_monParts_monInstrs (w : MonWord) :
    (monInstrs w).map monParts = monOpcodes.map fun op => some (op, w) := rfl

theorem mem_monOpcodes : ∀ {op : BitVec 5}, op.toNat < 28 → op.toNat ≠ 0x17 → op ∈ monOpcodes := by decide

theorem exists_monParts_of_not_out {op : BitVec 5} (hlt : op.toNat < 28) (hout : op.toNat ≠ 0x17) (w : MonWord) :
    ∃ i, monParts i = some (op, w) := by
  have hmem : some (op, w) ∈ (monInstrs w).map monParts := by
    rw [map_monParts_monInstrs]
    exact List.mem_map.mpr ⟨op, mem_monOpcodes hlt hout, rfl⟩
  obtain ⟨i, _, hi⟩ := List.mem_map.mp hmem
  exact ⟨i, hi⟩

/-- Every port that Table 14.4 lists has its own OUT. -/
theorem exists_monParts_out {w : MonWord}
    (h : w.imm.toNat < 7 ∨ (0x10 ≤ w.imm.toNat ∧ w.imm.toNat < 0x18)) : ∃ i, monParts i = some (0x17, w) := by
  have hport : w.imm.toNat < 2 ∨ (w.imm.toNat = 2 ∨ w.imm.toNat = 3) ∨ w.imm.toNat = 4 ∨ w.imm.toNat = 5 ∨
      w.imm.toNat = 6 ∨ (0x10 ≤ w.imm.toNat ∧ w.imm.toNat ≤ 0x17) := by omega
  rcases hport with hgen | hrly | hoff | huser | hsplit | hstl
  · exact ⟨.monOutGen 0 w, if_pos hgen⟩
  · exact ⟨.monOutRly 0 w, if_pos hrly⟩
  · exact ⟨.monOutMonOff 0 w, if_pos hoff⟩
  · exact ⟨.monOutUser 0 w, if_pos huser⟩
  · exact ⟨.monOutSplit 0 w, if_pos hsplit⟩
  · rcases Nat.mod_two_eq_zero_or_one w.imm.toNat with heven | hodd
    · exact ⟨.monOutStlData 0 w, if_pos (by simp [stlPort, hstl, heven])⟩
    · exact ⟨.monOutStlSend 0 w, if_pos (by simp [stlPort, hstl, hodd])⟩

theorem exists_monParts {op : BitVec 5} {w : MonWord} (hlt : op.toNat < 28)
    (hport : op.toNat = 0x17 → w.imm.toNat < 7 ∨ (0x10 ≤ w.imm.toNat ∧ w.imm.toNat < 0x18)) :
    ∃ i, monParts i = some (op, w) := by
  by_cases hout : op.toNat = 0x17
  · obtain rfl : op = 0x17 := BitVec.eq_of_toNat_eq hout
    exact exists_monParts_out (hport rfl)
  · exact exists_monParts_of_not_out hlt hout w

/-- Settles O60: a word and its fields determine each other (`leFields_leBits`, `leBits_leFields` and the Monitor's two),
and every opcode that the tables list, with a listed port where it is OUT, has its instruction. -/
theorem programWordsSpellTheirInstructions : Obligations.ProgramWordsSpellTheirInstructions := by
  unfold Obligations.ProgramWordsSpellTheirInstructions
  refine ⟨?le, exists_leSpells, ?mon, ?monWord, fun _ => rfl, fun _ => rfl, fun _ => rfl⟩
  case le =>
    exact fun i op w h => ⟨leParts_opcode_mem h, opcode_leBits op w, leFields_leBits op w, leSpells_of_leParts h⟩
  case mon =>
    exact fun i op w h => ⟨monParts_opcode_lt h, opcode_monBits op w, monFields_monBits op w, monSpells_of_monParts h⟩
  case monWord =>
    intro x ecc hlt hport
    obtain ⟨i, hi⟩ := exists_monParts (w := monFields x ecc) hlt hport
    have hx := monSpells_of_monParts hi
    rw [monBits_monFields] at hx
    exact ⟨i, hx, hi⟩

end Sys2Proof
end

section
/-!
The instructions on data registers (Tables 5.6 and 5.8 to 5.11): one rule for what an instruction over the lanes that take
part completes with, and the statements as uses of it.
-/

namespace Sys2Proof.Machine

/-! ### An instruction over the lanes completes -/

section Completes

variable {s : State} {w : LeWord} {f : Form} {cmd : Instr} {body : State → Nat → LeRes}

theorem exec_of_issues_ok {t : State} (h : Issues s f w) (hexec : exec cmd s = .next (s.leIssue f w .clean body))
    (hbody : body s s.le.running = .ok t) : exec cmd s = .next (t.setPc s.le.running (s.cur.pc + 1)) := by
  rw [hexec, leIssue_ok s t f w body h hbody]

theorem exec_of_issues_setCtx {c : Ctx} (h : Issues s f w) (hexec : exec cmd s = .next (s.leIssue f w .clean body))
    (hbody : body s s.le.running = .ok (s.setCtx s.le.running c)) :
    exec cmd s = .next (s.afterLe c (s.cur.pc + 1)) :=
  exec_of_issues_ok h hexec hbody

theorem does_laneResult {r : Nat → Word × Word} (h : Issues s f w)
    (hexec : exec cmd s = .next (s.leIssue f w .clean body))
    (hbody : body s s.le.running = .ok (s.setCtx s.le.running (s.cur.mapLanes w r))) :
    Does cmd s fun t => LaneResult s t w r :=
  ⟨_, exec_of_issues_setCtx h hexec hbody, laneResult_of_map s w r⟩

theorem does_pairResult {r : Nat → (Word × Word) × Word} (h : Issues s f w)
    (hexec : exec cmd s = .next (s.leIssue f w .clean body))
    (hbody : body s s.le.running = .ok (s.setCtx s.le.running (s.cur.mapPair w r))) :
    Does cmd s fun t => PairResult s t w r :=
  ⟨_, exec_of_issues_setCtx h hexec hbody, pairResult_of_map s w r⟩

/-- Where each lane makes several writes, the last one to a register stands. -/
theorem does_dataResult {wr : Nat → List (Nat × Word)} {fl : Nat → Word} {g : Nat → Nat → Option Word}
    (h : Issues s f w) (hexec : exec cmd s = .next (s.leIssue f w .clean body))
    (hbody : body s s.le.running = .ok (s.setCtx s.le.running
      ((s.cur.taking w).foldl (fun c i => (c.laneWrites w (wr i) i).addFlags (fl i)) s.cur)))
    (hlast : ∀ k i, lastWrite k (wr i) = g k i) :
    Does cmd s fun t => DataResult s t w (fun k i => if i ∈ s.cur.taking w then g k i else none) (laneFlags s w fl) := by
  obtain rfl : (fun k i => lastWrite k (wr i)) = g := funext fun k => funext fun i => hlast k i
  exact ⟨_, exec_of_issues_setCtx h hexec hbody, dataResult_of_lanes s w wr fl _ rfl⟩

end Completes

/-! ### The last of several writes -/

theorem lastWrite_pair (k m n : Nat) (x y : Word) :
    lastWrite k [(m, x), (n, y)] = if k = n then some y else if k = m then some x else none := by
  by_cases hn : k = n <;> simp [lastWrite, hn]

theorem lastWrite_triple (k l m n : Nat) (x y z : Word) :
    lastWrite k [(l, x), (m, y), (n, z)] =
      if k = n then some z else if k = m then some y else if k = l then some x else none := by
  rw [lastWrite, lastWrite_pair]
  by_cases hn : k = n
  · simp [hn]
  · rw [if_neg hn, if_neg hn]
    by_cases hm : k = m <;> simp [hm]

/-! ### The statements -/

/-- Settles O14: each instruction maps the lanes that take part, without a flag. -/
theorem bitwiseAndMoveInstructions : Obligations.BitwiseAndMoveInstructions := by
  unfold Obligations.BitwiseAndMoveInstructions
  and_intros
  all_goals exact fun _ _ h => does_laneResult h rfl rfl

/-- Settles O15: each instruction maps the lanes that take part, with the flags of its result. -/
theorem floatInstructions : Obligations.FloatInstructions := by
  unfold Obligations.FloatInstructions
  and_intros
  all_goals exact fun _ _ h => does_laneResult h rfl rfl

/-- Settles O16: CLARKE, SINCOS, PARK and IPARK map the lanes to pairs, PIBUMP to a word; of the writes of PISTEP and
BQSTEP, `lastWrite_pair` and `lastWrite_triple` say which stand. D = B of PISTEP is the model's choice (log 37). -/
theorem fusedInstructions : Obligations.FusedInstructions := by
  unfold Obligations.FusedInstructions
  refine ⟨fun _ _ h => does_pairResult h rfl rfl, fun _ _ h => does_pairResult h rfl rfl,
    fun _ _ h => does_pairResult h rfl rfl, fun _ _ h => does_pairResult h rfl rfl,
    fun _ _ h => does_laneResult h rfl rfl, ?pistep, ?bqstep⟩
  case pistep =>
    intro s w r h hr
    obtain rfl := funext hr
    exact does_dataResult (wr := fun i => [(w.b.toNat, _), (w.d.toNat, _)]) h rfl rfl
      fun k _ => lastWrite_pair k _ _ _ _
  case bqstep =>
    intro s w z r h hz hr
    obtain rfl := funext hz
    obtain rfl := funext hr
    exact does_dataResult (wr := fun i => [(w.d.toNat, _), (w.b.toNat, _), (w.b.toNat + 1, _)]) h rfl rfl
      fun k _ => lastWrite_triple k _ _ _ _ _ _

end Sys2Proof.Machine
end

section
/-!
The branch instructions (Table 5.5): where a taken branch goes, and what one out of the code block raises (R109).
-/

namespace Sys2Proof.Machine

/-- A jump out of the code block raises PC_RANGE. -/
theorem leIssue_jump_out {s t : State} {f : Form} {w : LeWord} {body : State → Nat → LeRes} {k : Int}
    (h : Issues s f w) (hbody : body s s.le.running = .jump t k) (hout : k < 0 ∨ (s.cur.codeWords : Int) ≤ k) :
    s.leIssue f w .clean body = s.raise s.le.running .pcRange := by
  obtain ⟨hrun, hopen, hlegal, hpc⟩ := h
  have hin : ¬(s.ctx s.le.running).codeWords ≤ (s.ctx s.le.running).pc := Nat.not_le.mpr hpc
  have hout' : k < 0 ∨ ((s.ctx s.le.running).codeWords : Int) ≤ k := hout
  simp [State.leIssue, hrun, hopen, hlegal, hin, hbody, hout']

/-- A branch goes to pc + imm where its condition holds, else on. -/
theorem exec_branch {s : State} {f : Form} {w : LeWord} {cmd : Instr} {cond : Ctx → Bool} {p : Prop} [Decidable p]
    (h : Issues s f w) (hexec : exec cmd s = .next (s.leIssue f w .clean (LeRes.branch w cond)))
    (hcond : cond s.cur = true ↔ p)
    (htarget : p → 0 ≤ (s.cur.pc : Int) + w.imm.toInt ∧ (s.cur.pc : Int) + w.imm.toInt < s.cur.codeWords) :
    exec cmd s = .next (s.setPc s.le.running (if p then ((s.cur.pc : Int) + w.imm.toInt).toNat else s.cur.pc + 1)) := by
  rw [hexec]
  by_cases hp : p
  · obtain ⟨hlo, hhi⟩ := htarget hp
    rw [if_pos hp, leIssue_jump s s f w _ _ h (if_pos (hcond.mpr hp)) hlo hhi]
  · rw [if_neg hp, leIssue_ok s s f w _ h (if_neg (mt hcond.mp hp))]

theorem exec_leDbnz {s : State} {w : LeWord} (h : Issues s { v := .zero, a := .scalar } w)
    (htarget : s.cur.sReg w.a.toNat ≠ 1 →
      0 ≤ (s.cur.pc : Int) + w.imm.toInt ∧ (s.cur.pc : Int) + w.imm.toInt < s.cur.codeWords) :
    exec (.leDbnz w .clean) s = .next (s.afterLe (s.cur.setS w.a.toNat (s.cur.sReg w.a.toNat - 1))
      (if s.cur.sReg w.a.toNat ≠ 1 then ((s.cur.pc : Int) + w.imm.toInt).toNat else s.cur.pc + 1)) := by
  have hcond : ((s.cur.setS w.a.toNat (s.cur.sReg w.a.toNat - 1)).sReg w.a.toNat != 0) = true ↔
      s.cur.sReg w.a.toNat ≠ 1 := by
    rw [Ctx.sReg_setS, if_pos rfl, bne_iff_ne]
    exact not_congr (BitVec.sub_eq_iff_eq_add (z := 0))
  refine congrArg Host.Outcome.next ?_
  by_cases hne : s.cur.sReg w.a.toNat ≠ 1
  · obtain ⟨hlo, hhi⟩ := htarget hne
    rw [if_pos hne]
    exact leIssue_jump s _ _ w _ _ h (if_pos (hcond.mpr hne)) hlo hhi
  · rw [if_neg hne]
    exact leIssue_ok s _ _ w _ h (if_neg (mt hcond.mp hne))

/-- Settles O17: the conditional branches are `exec_branch` with their conditions; BR, JAL and JR jump, or raise
PC_RANGE by `leIssue_jump_out`. -/
theorem branchInstructions : Obligations.BranchInstructions := by
  unfold Obligations.BranchInstructions
  refine ⟨fun s w h => exec_of_issues_setCtx h rfl rfl, ?br, ?beqz, ?bnez, ?bltz, ?bgez, ?bpany, ?bpall, ?brOut,
    fun _ _ => exec_leDbnz, ?jal, ?jr⟩
  case br => exact fun s w h hlo hhi => congrArg _ (leIssue_jump s s _ w _ _ h rfl hlo hhi)
  case beqz => exact fun s w h ht => exec_branch h rfl beq_iff_eq ht
  case bnez => exact fun s w h ht => exec_branch h rfl bne_iff_ne ht
  case bltz => exact fun s w h ht => exec_branch h rfl decide_eq_true_iff ht
  case bgez => exact fun s w h ht => exec_branch h rfl decide_eq_true_iff ht
  case bpany => exact fun s w h ht => exec_branch h rfl bne_iff_ne ht
  case bpall => exact fun s w h ht => exec_branch h rfl beq_iff_eq ht
  case brOut => exact fun s w h hout => congrArg _ (leIssue_jump_out h rfl hout.symm)
  case jal => exact fun s w h hlo hhi => congrArg _ (leIssue_jump s _ _ w _ _ h rfl hlo hhi)
  case jr => exact fun s w h hlo hhi => congrArg _ (leIssue_jump s s _ w _ _ h rfl hlo hhi)

end Sys2Proof.Machine
end

section
/-!
Memory bytes and words: what a write of a word leaves of every other byte, and what a word reads after it (R5).
-/

namespace Sys2Proof

@[simp] theorem length_leBytes (n x : Nat) : (leBytes n x).length = n := by
  induction n generalizing x with
  | zero => rfl
  | succ n ih => rw [leBytes, List.length_cons, ih]

/-- `n` bytes of a number spell it modulo 256 to the power `n`. -/
theorem leNat_leBytes (n x : Nat) : leNat (leBytes n x) = x % 256 ^ n := by
  induction n generalizing x with
  | zero => rw [leBytes, leNat, Nat.pow_zero, Nat.mod_one]
  | succ n ih =>
    have hbyte : (BitVec.ofNat 8 (x % 256)).toNat = x % 256 := by rw [BitVec.toNat_ofNat, Nat.mod_mod]
    rw [leBytes, leNat, ih, hbyte, Nat.pow_succ', Nat.mod_mul]

theorem word_leNat_leBytes (v : Word) : word (leNat (leBytes 4 v.toNat)) = v := by
  rw [leNat_leBytes, Nat.mod_eq_of_lt (show v.toNat < 256 ^ 4 from v.isLt), word, BitVec.ofNat_toNat, BitVec.setWidth_eq]

namespace Machine

theorem State.byte_setByte (s : State) (a k : Nat) (b : Byte) :
    (s.setByte a b).byte k = if k = a then b else s.byte k := SMap.get_set _ _ _ _ _

theorem State.byte_setBytes_of_outside {a k : Nat} {l : List Byte} (s : State) (h : k < a ∨ a + l.length ≤ k) :
    (s.setBytes a l).byte k = s.byte k := by
  induction l generalizing s a with
  | nil => rfl
  | cons b l ih =>
    rw [List.length_cons] at h
    rw [State.setBytes, ih _ (by omega), State.byte_setByte, if_neg (by omega)]

/-- The bytes at an address, the first taken apart. -/
theorem State.bytes_succ (s : State) (a n : Nat) : s.bytes a (n + 1) = s.byte a :: s.bytes (a + 1) n := by
  simp [State.bytes, List.range_succ_eq_map, Nat.add_assoc, Nat.add_comm 1]

theorem State.bytes_setBytes (s : State) (a : Nat) (l : List Byte) : (s.setBytes a l).bytes a l.length = l := by
  induction l generalizing s a with
  | nil => rfl
  | cons b l ih =>
    rw [List.length_cons, State.bytes_succ, State.setBytes, ih,
      State.byte_setBytes_of_outside _ (.inl (Nat.lt_succ_self a)), State.byte_setByte, if_pos rfl]

theorem State.byte_setMemWord_of_outside {a k : Nat} (s : State) (v : Word) (h : k < a ∨ a + 4 ≤ k) :
    (s.setMemWord a v).byte k = s.byte k :=
  s.byte_setBytes_of_outside (by rwa [length_leBytes])

theorem State.memWord_setMemWord_same (s : State) (a : Nat) (v : Word) : (s.setMemWord a v).memWord a = v := by
  have hbytes := s.bytes_setBytes a (leBytes 4 v.toNat)
  rw [length_leBytes] at hbytes
  rw [State.memWord, State.setMemWord, hbytes, word_leNat_leBytes]

theorem State.memWord_setMemWord_of_disjoint {a k : Nat} (s : State) (v : Word) (h : k + 4 ≤ a ∨ a + 4 ≤ k) :
    (s.setMemWord a v).memWord k = s.memWord k := by
  have hbytes : (s.setMemWord a v).bytes k 4 = s.bytes k 4 :=
    List.map_congr_left fun i hi => s.byte_setMemWord_of_outside v (by rw [List.mem_range] at hi; omega)
  rw [State.memWord, hbytes, State.memWord]

end Machine

end Sys2Proof
end

section
/-!
ST (R118, R119): what the stores of the lanes that take part leave, and what each word of the LDM reads after them.
-/

namespace Sys2Proof.Machine

/-- The stores of some lanes, in their order. -/
def State.storeLanes (s : State) (c : Ctx) (w : LeWord) (l : List Nat) : State :=
  l.foldl (fun t i => t.setMemWord (ldmBase + c.ldmAddr w i) (c.src w w.d i)) s

theorem State.storeLanes_cons (s : State) (c : Ctx) (w : LeWord) (i : Nat) (l : List Nat) :
    s.storeLanes c w (i :: l) = (s.setMemWord (ldmBase + c.ldmAddr w i) (c.src w w.d i)).storeLanes c w l := rfl

theorem State.storeLanes_append (s : State) (c : Ctx) (w : LeWord) (l l' : List Nat) :
    s.storeLanes c w (l ++ l') = (s.storeLanes c w l).storeLanes c w l' := List.foldl_append

/-- Stores change memory alone. -/
theorem State.storeLanes_keeps (s : State) (c : Ctx) (w : LeWord) (l : List Nat) : Keeps 0x8 s (s.storeLanes c w l) :=
  keeps_foldl .rfl fun _ _ h => State.setMemWord_keeps h rfl

theorem State.byte_storeLanes_of_outside {c : Ctx} {w : LeWord} {l : List Nat} {a : Nat} (s : State)
    (h : ∀ i ∈ l, a < ldmBase + c.ldmAddr w i ∨ ldmBase + c.ldmAddr w i + 4 ≤ a) :
    (s.storeLanes c w l).byte a = s.byte a := by
  induction l generalizing s with
  | nil => rfl
  | cons i l ih =>
    rw [State.storeLanes_cons, ih _ fun j hj => h j (List.mem_cons_of_mem _ hj),
      s.byte_setMemWord_of_outside _ (h i List.mem_cons_self)]

theorem State.memWord_storeLanes_of_disjoint {c : Ctx} {w : LeWord} {l : List Nat} {k : Nat} (s : State)
    (h : ∀ i ∈ l, k + 4 ≤ ldmBase + c.ldmAddr w i ∨ ldmBase + c.ldmAddr w i + 4 ≤ k) :
    (s.storeLanes c w l).memWord k = s.memWord k := by
  induction l generalizing s with
  | nil => rfl
  | cons i l ih =>
    rw [State.storeLanes_cons, ih _ fun j hj => h j (List.mem_cons_of_mem _ hj),
      s.memWord_setMemWord_of_disjoint _ (h i List.mem_cons_self)]

/-- The lanes that take part come in rising order. -/
theorem Ctx.taking_sorted (c : Ctx) (w : LeWord) : (c.taking w).Pairwise (· < ·) := by
  refine List.Pairwise.filter _ ?_
  unfold leLanes
  split
  · exact List.pairwise_lt_range
  · exact List.pairwise_singleton _ _

theorem Ctx.ldmAddr_mod_four {c : Ctx} {w : LeWord} (h : c.leMisaligned w = false) {i : Nat} (hi : i ∈ c.taking w) :
    c.ldmAddr w i % 4 = 0 := by
  have haddr : c.leAddr w i % 4 = 0 := by
    rw [Ctx.leMisaligned, Bool.or_eq_false_iff] at h
    simpa using List.any_eq_false.mp h.1 i hi
  rw [Ctx.ldmAddr]
  omega

/-- Of the lanes that store to one word, the highest stands. -/
theorem State.memWord_storeLanes_of_last {c : Ctx} {w : LeWord} {i : Nat} (s : State) (halign : c.leMisaligned w = false)
    (hi : i ∈ c.taking w) (hlast : ∀ j ∈ c.taking w, i < j → c.ldmAddr w j ≠ c.ldmAddr w i) :
    (s.storeLanes c w (c.taking w)).memWord (ldmBase + c.ldmAddr w i) = c.src w w.d i := by
  obtain ⟨before, after, hsplit⟩ := List.append_of_mem hi
  have hlater : ∀ j ∈ after, i < j := by
    have hsorted := c.taking_sorted w
    rw [hsplit, List.pairwise_append, List.pairwise_cons] at hsorted
    exact hsorted.2.1.1
  have hafter : ∀ j ∈ after, ldmBase + c.ldmAddr w i + 4 ≤ ldmBase + c.ldmAddr w j ∨
      ldmBase + c.ldmAddr w j + 4 ≤ ldmBase + c.ldmAddr w i := by
    intro j hj
    have hmem : j ∈ c.taking w := by simp [hsplit, hj]
    have hne := hlast j hmem (hlater j hj)
    have hi4 := Ctx.ldmAddr_mod_four halign hi
    have hj4 := Ctx.ldmAddr_mod_four halign hmem
    omega
  rw [hsplit, State.storeLanes_append, State.storeLanes_cons, State.memWord_storeLanes_of_disjoint _ hafter,
    State.memWord_setMemWord_same]

theorem State.ctx_congr {s t : State} (h : t.le = s.le) (n : Nat) : t.ctx n = s.ctx n := by
  rw [State.ctx, h, State.ctx]

theorem State.ctx_setPc_self (s : State) (n pc : Nat) : (s.setPc n pc).ctx n = { s.ctx n with pc := pc } :=
  SMap.get_set_same ..

theorem exec_leSt_of_stores {s : State} {w : LeWord}
    (h : Issues s { p := true, d := .src, a := .scalar, bad := leSpace w == 3 } w)
    (halign : s.cur.leMisaligned w = false) (hspace : leSpace w = 0)
    (hwindow : (s.cur.taking w).all (fun i => s.cur.inWindow (s.cur.ldmAddr w i)) = true) :
    exec (.leSt w .clean) s =
      .next ((s.storeLanes s.cur w (s.cur.taking w)).setPc s.le.running (s.cur.pc + 1)) := by
  have hin : ¬((s.cur.taking w).any fun i => !s.cur.inWindow (s.cur.ldmAddr w i)) = true := by
    simpa using hwindow
  exact exec_of_issues_ok h rfl ((if_neg (Bool.eq_false_iff.mp halign)).trans
    ((if_neg (not_not_intro hspace)).trans (if_neg hin)))

/-- Settles O21: `byte_storeLanes_of_outside` and `storeLanes_keeps` say what a store leaves, `memWord_storeLanes_of_last`
what each word holds. -/
theorem storeWritesItsWordsOnly : Obligations.StoreWritesItsWordsOnly := by
  unfold Obligations.StoreWritesItsWordsOnly
  refine ⟨?outside, ?last⟩
  case outside =>
    intro s w a h halign hspace hwindow hout
    have hk := s.storeLanes_keeps s.cur w (s.cur.taking w)
    have hcur : (s.storeLanes s.cur w (s.cur.taking w)).ctx s.le.running = s.cur :=
      State.ctx_congr (hk.agree .le rfl) s.le.running
    refine ⟨_, exec_leSt_of_stores h halign hspace hwindow, s.byte_storeLanes_of_outside hout, hk.agree .regs rfl,
      hk.agree .pwm rfl, ?_⟩
    rw [State.ctx_setPc_self, hcur]
    exact ⟨rfl, rfl, rfl⟩
  case last =>
    intro s w i h halign hspace hwindow hi hlast
    exact ⟨_, exec_leSt_of_stores h halign hspace hwindow, s.memWord_storeLanes_of_last halign hi hlast⟩

end Sys2Proof.Machine
end

section
/-!
STAGE over a word that an evaluation's result holds (R127, R152): besides the word it marks the stored prediction, which
the statement about the memory and staging instructions leaves out.
-/

namespace Sys2Proof.Machine

/-- What became of the stored predictions of context 1 in the state that a command answers. -/
def predictionUses : Out → List EvalUse
  | .next t => (t.ctx 1).preds.map Prediction.use
  | _ => []

/-- Context 1 holds the lanes in a run of eight words; it may stage group 0, whose word 0 holds the result of its last
evaluation. -/
def resultStaged : State :=
  { le := { run := true, running := 1, ctx := [(1, {
      st := .running, begun := true, codeWords := 8, desc := { stageGroups := 1 }
      preds := [{ group := 0, x := [], use := .staged, words := 1 }] })] } }

/-- STAGE of s0 to word 0 of group 0, at I/O word 0x200. -/
def stageWordZero : LeWord :=
  { d := 0, a := 0, b := 0, c := 0, s := false, n := false, v := false, p := false, imm := 0x200 }

theorem resultStaged_issues_stage : Issues resultStaged { p := true, a := .src, b := .scalar } stageWordZero :=
  ⟨Nat.one_ne_zero, rfl, rfl, by decide⟩

theorem predictionUses_exec_leStage :
    predictionUses (exec (.leStage stageWordZero .clean) resultStaged) = [.spoiled] := rfl

theorem predictionUses_stageWord :
    predictionUses (.next ((resultStaged.stageWord 0 0 0).setPc 1 1)) = [.staged] := rfl

/-- Refutes O20: its STAGE clause gives the next state as the staging words and the program counter alone, but a STAGE
over a word that an evaluation's result holds also marks the context's prediction spoiled (R152, `Ctx.overStage`), as it
does from `resultStaged`. -/
theorem not_memoryAndStagingInstructions : ¬ Obligations.MemoryAndStagingInstructions := by
  unfold Obligations.MemoryAndStagingInstructions
  rintro ⟨-, -, -, hstage, -⟩
  have hclaim : exec (.leStage stageWordZero .clean) resultStaged =
      .next ((resultStaged.stageWord 0 0 0).setPc 1 1) :=
    hstage resultStaged stageWordZero [(0, 0x200)] resultStaged_issues_stage rfl nofun rfl
  have huses := congrArg predictionUses hclaim
  rw [predictionUses_exec_leStage, predictionUses_stageWord] at huses
  exact absurd huses (by decide)

end Sys2Proof.Machine
end

section
/-!
PLB_CMD CLEAR (R154): what the release of a source leaves of the latches and of the other sources, and what CLEAR leaves of
the bucket, the flag and the PLB_FAULT sources of the selected context.
-/

namespace Sys2Proof.Machine

/-! ### A group whose trips may all have gone (R219) -/

@[simp] theorem State.grp_groupSafe (s : State) (g h : Nat) : (s.groupSafe g).grp h = s.grp h := by
  obtain ⟨-, -, -, hgrp, -⟩ := s.groupSafe_spec g
  exact hgrp h

/-- A TRIPPED group that no source holds is STOPPED; every other group is as it was. -/
theorem State.grp_groupUntrip (s : State) (g h : Nat) : (s.groupUntrip g).grp h =
    if h = g ∧ (s.grp g).st = .tripped ∧ (s.grp g).latches = [] ∧ (s.grp g).pulses = [] then
      { s.grp g with st := .stopped, act := 0 }
    else s.grp h := by
  by_cases hheld : (s.grp g).st = .tripped ∧ (s.grp g).latches = [] ∧ (s.grp g).pulses = []
  · obtain ⟨hst, hlatches, hpulses⟩ := hheld
    simp [State.groupUntrip, hst, hlatches, hpulses, apply_ite (State.grp · h)]
  · have hstays : ¬((s.grp g).st == .tripped && (s.grp g).latches.isEmpty && (s.grp g).pulses.isEmpty) = true := by
      simpa [and_assoc] using hheld
    rw [State.groupUntrip, if_neg hstays, if_neg fun h => hheld h.2]

theorem State.latches_groupUntrip (s : State) (g h : Nat) :
    ((s.groupUntrip g).grp h).latches = (s.grp h).latches := by
  rw [State.grp_groupUntrip]
  split
  · next hg => rw [hg.1]
  · rfl

/-! ### The release of a source -/

/-- A release takes no latch from a group. -/
theorem State.latches_sourceOff (s : State) (src h : Nat) : ((s.sourceOff src).grp h).latches = (s.grp h).latches := by
  refine List.foldlRecOn (motive := fun t : State => (t.grp h).latches = (s.grp h).latches) _ _ rfl
    fun t ht g _ => ?_
  rw [State.latches_groupUntrip, State.grp_setGrp, ← ht]
  split
  · next hg => rw [hg]
  · rfl

/-- What a release makes of the groups leaves the sources alone. -/
theorem State.sourceOff_active (s : State) (src : Nat) :
    (s.sourceOff src).trp.active = s.trp.active &&& ~~~ BitVec.ofNat 128 (2 ^ src) :=
  have hk : Keeps 0x8000 { s with trp := { s.trp with active := s.trp.active &&& ~~~ BitVec.ofNat 128 (2 ^ src) } }
      (s.sourceOff src) :=
    State.each_keeps .rfl rfl fun _ _ h => State.groupUntrip_keeps (State.setGrp_keeps h rfl) rfl
  congrArg Trp.active (hk.agree .trp rfl)

/-- A source that is active after a release was so before, and is not the one released. -/
theorem State.srcActive_of_sourceOff {s : State} {src k : Nat} (h : (s.sourceOff src).srcActive k = true) :
    s.srcActive k = true ∧ k ≠ src := by
  rw [State.srcActive, State.sourceOff_active, BitVec.getLsbD_and, BitVec.getLsbD_not, BitVec.getLsbD_ofNat,
    Nat.testBit_two_pow] at h
  simp only [Bool.and_eq_true, Bool.not_eq_true', Bool.and_eq_false_iff, decide_eq_true_eq, decide_eq_false_iff_not] at h
  obtain ⟨hactive, hlt, hge | hne⟩ := h
  · exact absurd hlt hge
  · exact ⟨hactive, Ne.symm hne⟩

/-! ### The PLB_FAULT sources of some groups -/

/-- The PLB_FAULT sources of some groups release. -/
def State.plbFaultsOff (s : State) (l : List Nat) : State := s.each l fun t g => t.sourceOff (0x48 + g)

theorem State.plbFaultsOff_cons (s : State) (g : Nat) (l : List Nat) :
    s.plbFaultsOff (g :: l) = (s.sourceOff (0x48 + g)).plbFaultsOff l := by
  rw [State.plbFaultsOff, State.each, List.foldl_cons, State.plbFaultsOff, State.each]

theorem State.plbFaultsOff_keeps (s : State) (l : List Nat) : Keeps 0x18000 s (s.plbFaultsOff l) :=
  State.each_keeps .rfl rfl fun _ _ h => State.sourceOff_keeps h rfl

theorem State.latches_plbFaultsOff (s : State) (l : List Nat) (h : Nat) :
    ((s.plbFaultsOff l).grp h).latches = (s.grp h).latches :=
  List.foldlRecOn (motive := fun t : State => (t.grp h).latches = (s.grp h).latches) _ _ rfl
    fun t ht g _ => (t.latches_sourceOff (0x48 + g) h).trans ht

/-- Where the list names a group if its source is active, the source is inactive in the end. -/
theorem State.srcActive_plbFaultsOff {s : State} {l : List Nat} {g : Nat} (h : s.srcActive (0x48 + g) = true → g ∈ l) :
    (s.plbFaultsOff l).srcActive (0x48 + g) = false := by
  induction l generalizing s with
  | nil => exact Bool.eq_false_iff.mpr fun hactive => List.not_mem_nil (h hactive)
  | cons k l ih =>
    rw [State.plbFaultsOff_cons]
    refine ih fun hactive => ?_
    obtain ⟨hbefore, hne⟩ := State.srcActive_of_sourceOff hactive
    exact List.mem_of_ne_of_mem (fun hk => hne (by rw [hk])) (h hbefore)

/-! ### PLB_ACT -/

theorem State.regBit_clrBit_same (s : State) (a : Nat) {n : Nat} (hn : n < 32) : (s.clrBit a n).regBit a n = false := by
  have hreg : (s.clrBit a n).reg a = s.reg a &&& ~~~ word (2 ^ n) := SMap.get_set_same _ _ _ _
  rw [State.regBit, hreg, BitVec.getLsbD_and, BitVec.getLsbD_not, word, BitVec.getLsbD_ofNat,
    Nat.testBit_two_pow_self, decide_eq_true hn]
  simp

theorem State.reg_congr {s t : State} (h : t.regs = s.regs) (a : Nat) : t.reg a = s.reg a := by
  rw [State.reg, h, State.reg]

theorem State.plbAct_congr {s t : State} (h : t.regs = s.regs) (n : Nat) : t.plbAct n = s.plbAct n := by
  simp only [State.plbAct, State.regBit, State.reg_congr h]

/-- The PLB_ACT bit of a context, cleared. -/
def State.plbActOff (s : State) (n : Nat) : State := if n < 32 then s.clrBit rPLB_ACT_LO n else s.clrBit rPLB_ACT_HI (n - 32)

theorem State.plbAct_plbActOff (s : State) {n : Nat} (hn : n < 64) : (s.plbActOff n).plbAct n = false := by
  unfold State.plbAct State.plbActOff
  split
  · next hlo => exact s.regBit_clrBit_same _ hlo
  · exact s.regBit_clrBit_same _ (by omega)

theorem State.plbActOff_keeps (s : State) (n : Nat) : Keeps 0x4 s (s.plbActOff n) :=
  keeps_ite (fun _ => State.clrBit_keeps .rfl rfl) fun _ => State.clrBit_keeps .rfl rfl

/-! ### The command -/

/-- The groups of a context whose PLB_FAULT source is active. -/
def State.plbFaulted (s : State) (n : Nat) : List Nat :=
  (List.range 8).filter fun g => bit (s.ctx n).desc.stageGroups g && s.srcActive (0x48 + g)

theorem exec_plbClear_of_epoch {s : State} {n : Nat} {e : BitVec 16} (hsel : n = bits (s.reg rPLB_CTX_SEL).toNat 0 6)
    (hn : n ≠ 0) (hepoch : (s.ctx n).epoch = e.toNat) :
    exec (.plbClear e) s =
      .next (((s.setCtx n { s.ctx n with bucket := 0 }).plbActOff n).plbFaultsOff (s.plbFaulted n)) := by
  subst hsel
  refine congrArg Host.Outcome.next ((if_neg hn).trans ((if_neg (not_not_intro hepoch)).trans ?_))
  unfold State.plbFaulted State.plbActOff
  split <;> rfl

theorem exec_plbClear_of_stale {s : State} {n : Nat} {e : BitVec 16} (hsel : n = bits (s.reg rPLB_CTX_SEL).toNat 0 6)
    (hn : n ≠ 0) (hepoch : (s.ctx n).epoch ≠ e.toNat) :
    exec (.plbClear e) s = .next (((s.setCtx n { s.ctx n with cntStale := satInc (s.ctx n).cntStale }).setBit
      rLE_STAT 6).setBit rPLB_STAT 2) := by
  subst hsel
  exact congrArg Host.Outcome.next ((if_neg hn).trans (if_pos hepoch))

/-- Settles O24: under the epoch CLEAR is `plbActOff`, then `plbFaultsOff` of the groups that `plbFaulted` lists, whose frame
leaves the context and PLB_ACT; `latches_plbFaultsOff` keeps the latches. -/
theorem plausibilityClearDoesThreeThings : Obligations.PlausibilityClearDoesThreeThings := by
  unfold Obligations.PlausibilityClearDoesThreeThings
  refine ⟨?cleared, fun s n e => exec_plbClear_of_stale⟩
  case cleared =>
    intro s n g e hsel hn hepoch hg
    refine ⟨_, exec_plbClear_of_epoch hsel hn hepoch, ?_⟩
    generalize hu : (s.setCtx n { s.ctx n with bucket := 0 }).plbActOff n = u
    have hku : Keeps 0x4 (s.setCtx n { s.ctx n with bucket := 0 }) u := hu ▸ State.plbActOff_keeps _ n
    have hk := u.plbFaultsOff_keeps (s.plbFaulted n)
    refine ⟨?bucket, ?act, fun hstage => ?source, ?latches⟩
    case bucket =>
      rw [State.ctx_congr (hk.agree .le rfl), State.ctx_congr (hku.agree .le rfl), State.ctx, State.setCtx,
        SMap.get_set_same]
    case act =>
      have hlt : n < 64 := hsel ▸ Nat.mod_lt _ (by decide)
      exact (State.plbAct_congr (hk.agree .regs rfl) n).trans (hu ▸ State.plbAct_plbActOff _ hlt)
    case source =>
      refine State.srcActive_plbFaultsOff fun hactive => ?_
      have hbefore : s.srcActive (0x48 + g) = true := by
        rwa [State.srcActive, hku.agree .trp rfl] at hactive
      exact List.mem_filter.mpr ⟨List.mem_range.mpr hg, by rw [hstage, hbefore]; rfl⟩
    case latches =>
      have hpwm : u.pwm = s.pwm := hku.agree .pwm rfl
      rw [State.latches_plbFaultsOff, State.grp, hpwm, State.grp]

end Sys2Proof.Machine
end

section
/-!
The Candidate Evaluator and the set-point inputs (R88, R143, R144, R155 to R158): which waiting request the evaluator takes,
and what each of their commands answers.
-/

namespace Sys2Proof.Machine

/-! ### The request that is served first (R88) -/

/-- Of the request found so far and the next of the queue, the one to serve first: a later one only where its priority is
higher. -/
def servedFirst (b : Option EvalReq) (e : EvalReq) : Option EvalReq :=
  match b with
  | none => some e
  | some x => if e.prio > x.prio then some e else b

theorem servedFirst_of_lower {b : Option EvalReq} {e : EvalReq} (h : ∀ x ∈ b, x.prio < e.prio) :
    servedFirst b e = some e := by
  cases b with
  | none => rfl
  | some x => exact if_pos (h x rfl)

theorem foldl_servedFirst_prio_lt {p : Nat} {l : List EvalReq} (h : ∀ x ∈ l, x.prio < p) :
    ∀ x ∈ l.foldl servedFirst none, x.prio < p := by
  have hnone : ∀ x ∈ (none : Option EvalReq), x.prio < p := fun _ hx => absurd hx (Option.not_mem_none _)
  refine List.foldlRecOn (motive := fun b => ∀ x ∈ b, x.prio < p) l servedFirst hnone fun b hb e he => ?_
  have hnew : ∀ x ∈ some e, x.prio < p := fun _ hx => Option.some.inj hx ▸ h e he
  unfold servedFirst
  split
  · exact hnew
  · split
    · exact hnew
    · exact hb

theorem foldl_servedFirst_of_le {e : EvalReq} {m : List EvalReq} (h : ∀ x ∈ m, x.prio ≤ e.prio) :
    m.foldl servedFirst (some e) = some e := by
  refine List.foldlRecOn (motive := fun b => b = some e) m servedFirst rfl fun b hb x hx => ?_
  rw [hb]
  exact if_neg (Nat.not_lt.mpr (h x hx))

/-- A request above all that came before it, and below none that came after it, is served first. -/
theorem foldl_servedFirst_of_highest {l m : List EvalReq} {e : EvalReq} (hbefore : ∀ x ∈ l, x.prio < e.prio)
    (hafter : ∀ x ∈ m, x.prio ≤ e.prio) : (l ++ e :: m).foldl servedFirst none = some e := by
  rw [List.foldl_append, List.foldl_cons, servedFirst_of_lower (foldl_servedFirst_prio_lt hbefore),
    foldl_servedFirst_of_le hafter]

/-! ### The commands of the evaluator -/

theorem exec_ceServiceStart_of_highest {s : State} {l m : List EvalReq} {e : EvalReq} (hfree : s.ce.service = none)
    (hqueue : s.ce.queue = l ++ e :: m) (hbefore : ∀ x ∈ l, x.prio < e.prio) (hafter : ∀ x ∈ m, x.prio ≤ e.prio) :
    exec .ceServiceStart s = .next (({ s with ce := { queue := l ++ m, service := some e } } : State).maxReg
      rCE_MAXWAIT (s.le.cyc - e.issued)) := by
  have hidle : ¬s.ce.service.isSome = true := by rw [hfree]; exact Bool.false_ne_true
  have hbest : s.ce.queue.foldl servedFirst none = some e := by
    rw [hqueue, foldl_servedFirst_of_highest hbefore hafter]
  have herase : (l ++ e :: m).erase e = l ++ m := by
    rw [List.erase_append_right _ fun he => Nat.lt_irrefl _ (hbefore e he), List.erase_cons_head]
  refine congrArg Host.Outcome.next ((if_neg hidle).trans ?_)
  dsimp only
  split
  · next hnone => exact absurd (hnone.symm.trans hbest) (Option.some_ne_none e).symm
  · next x hx =>
    obtain rfl : x = e := Option.some.inj (hx.symm.trans hbest)
    rw [hqueue, herase]

theorem exec_ceEvaluationEnd_of_service {s u : State} {e : EvalReq} {o : EvalOut} (hservice : s.ce.service = some e)
    (ho : o = (s.modelOf e).evaluate (s.takeFrees 19).1)
    (hu : u = ({ (s.takeFrees 19).2 with ce := { s.ce with service := none } } : State).ceCount e.ctx o) :
    exec .ceEvaluationEnd s = .next (u.setCtx e.ctx ((u.ctx e.ctx).takeEval e o)) := by
  subst ho hu
  show execCeEvaluationEnd s = _
  rw [execCeEvaluationEnd, hservice]
  rfl

/-! ### The commands of the set-point inputs -/

/-- An update counts the edges without a pulse, then evaluates SETP_A, then SETP_P, each where its mode is on. -/
theorem exec_setpointUpdate {s u : State} {v : BitVec 12}
    (hu : u = if s.sptMode 0 = 0 then { s with spt := { s.spt with quiet := s.spt.quiet + 1 } }
      else ({ s with spt := { s.spt with quiet := s.spt.quiet + 1 } } : State).sptUpdate 0 (setpVolts v)) :
    exec (.setpointUpdate v) s = .next (if u.sptMode 1 = 0 then u else u.sptUpdate 1 u.sptPulseRaw) := by
  subst hu
  rfl

/-- A rising edge after another completes a period: the high time before the last falling edge, and the time since. -/
theorem exec_setpPEdge_of_rose {s : State} (d : Nat) (hrose : s.spt.rose = true) :
    exec (.setpPEdge true d) s = .next ({ s with
      spt := { s.spt with
        level := true, rose := true, quiet := 0, period := s.spt.highNow + d, high := s.spt.highNow } }) := by
  show execSetpPEdge true d s = _
  simp only [execSetpPEdge, hrose, if_true]

theorem exec_setpointLos_of_outside {s : State} {b : Bool} (hmode : s.sptMode (b2n b) ≠ 0)
    (hlos : (s.spt.ch (b2n b)).los = false) (hout : s.sptInWindow (b2n b) = false) :
    exec (.setpointLos b) s = .next (((s.setSpt (b2n b) { s.spt.ch (b2n b) with los := true }).setBit rSPT_STAT
      (2 + b2n b)).inc (if b then rSPT_CNT_LOS_P else rSPT_CNT_LOS_A)) := by
  have hdue : (s.sptMode (b2n b) != 0 && !(s.spt.ch (b2n b)).los && !s.sptInWindow (b2n b)) = true := by
    simp [hmode, hlos, hout]
  exact congrArg Host.Outcome.next (if_pos hdue)

/-- Settles O23: `exec_ceServiceStart_of_highest` finds the request to serve; every other command is one branch of its
meaning. That a step of SETP_A is 3.0 V / 4,096 is the model's choice (log 44). -/
theorem evaluatorAndSetPointCommandsComplete : Obligations.EvaluatorAndSetPointCommandsComplete := by
  unfold Obligations.EvaluatorAndSetPointCommandsComplete
  refine ⟨fun _ _ _ _ => exec_ceServiceStart_of_highest, fun _ _ _ _ => exec_ceEvaluationEnd_of_service, ?off, ?on,
    fun _ => exec_setpPEdge_of_rose, fun _ _ => rfl, fun _ _ => exec_setpointLos_of_outside, ?recover⟩
  case off =>
    intro s v hoffA hoffP
    rw [exec_setpointUpdate (if_pos hoffA).symm]
    exact congrArg Host.Outcome.next (if_pos hoffP)
  case on =>
    intro s u v honA hu honP
    rw [exec_setpointUpdate (hu.trans (if_neg honA).symm), if_neg honP]
  case recover =>
    exact fun s b hin => congrArg Host.Outcome.next (if_pos hin)

end Sys2Proof.Machine
end

section
/-!
The hops of the PTC PLL and the alignment of the carriers (R150, R180, R183, R185): what a sweep over the groups makes of
each group, and what each of the commands answers.
-/

namespace Sys2Proof.Machine

/-! ### A sweep over the groups -/

/-- Where each step leaves every group but its own, a sweep leaves every group that its list does not name. -/
theorem State.grp_each_of_notMem {f : State → Nat → State} (hother : ∀ t h k, k ≠ h → (f t h).grp k = t.grp k)
    {l : List Nat} {g : Nat} (hg : g ∉ l) (s : State) : (s.each l f).grp g = s.grp g :=
  List.foldlRecOn (motive := fun t : State => t.grp g = s.grp g) _ _ rfl fun t ht h hh =>
    (hother t h g fun hgh => hg (hgh ▸ hh)).trans ht

/-- A sweep makes of a group that its list names once what the group's own step makes of it. `I` is what the steps may
rely on of the rest of the state. -/
theorem State.grp_each_of_mem {f : State → Nat → State} {I : State → Prop} {R : Group → Group → Prop} {g : Nat}
    (hother : ∀ t h k, k ≠ h → (f t h).grp k = t.grp k) (hinv : ∀ t h, I t → I (f t h))
    (hself : ∀ t, I t → R (t.grp g) ((f t g).grp g)) {l : List Nat} (hl : l.Nodup) (hg : g ∈ l) {s : State} (hs : I s) :
    R (s.grp g) ((s.each l f).grp g) := by
  induction l generalizing s with
  | nil => exact absurd hg List.not_mem_nil
  | cons h l ih =>
    obtain ⟨hnotMem, hnodup⟩ := List.nodup_cons.mp hl
    show R (s.grp g) (((f s h).each l f).grp g)
    by_cases hgh : g = h
    · subst hgh
      rw [State.grp_each_of_notMem hother hnotMem]
      exact hself s hs
    · rw [← hother s h g hgh]
      exact ih hnodup (List.mem_of_ne_of_mem hgh hg) (hinv s h hs)

/-! ### What the configuration alone gives -/

theorem State.groupOuts_of_cfg {s t : State} (h : t.cfg = s.cfg) (g : Nat) : t.groupOuts g = s.groupOuts g :=
  show ({ cfg := t.cfg } : State).groupOuts g = ({ cfg := s.cfg } : State).groupOuts g by rw [h]

theorem State.grpHopFree_of_cfg {s t : State} (h : t.cfg = s.cfg) (g : Nat) : t.grpHopFree g = s.grpHopFree g :=
  show ({ cfg := t.cfg } : State).grpHopFree g = ({ cfg := s.cfg } : State).grpHopFree g by rw [h]

/-! ### The freeze at a hop -/

/-- What a hop makes of one group. -/
def State.freezeGroup (s : State) (g : Nat) : State :=
  if (s.grp g).st == .running then
    let s := s.setGrp g { s.grp g with st := .frozen }
    if s.grpHopFree g then s.each (s.groupOuts g) fun s o => s.setDrive o .off else s
  else s

theorem State.freezeAll_eq (s : State) : s.freezeAll = s.each (List.range 8) State.freezeGroup := rfl

theorem State.freezeGroup_of_running {s : State} {g : Nat} (h : (s.grp g).st = .running) :
    s.freezeGroup g = if s.grpHopFree g then
        (s.setGrp g { s.grp g with st := .frozen }).each (s.groupOuts g) fun s o => s.setDrive o .off
      else s.setGrp g { s.grp g with st := .frozen } :=
  if_pos (beq_iff_eq.mpr h)

theorem State.freezeGroup_of_not_running {s : State} {g : Nat} (h : (s.grp g).st ≠ .running) : s.freezeGroup g = s :=
  if_neg (mt beq_iff_eq.mp h)

theorem State.grp_freezeGroup (s : State) (g h : Nat) : (s.freezeGroup g).grp h =
    if h = g ∧ (s.grp g).st = .running then { s.grp g with st := .frozen } else s.grp h := by
  by_cases hrun : (s.grp g).st = .running
  · obtain ⟨-, hgrp, -⟩ := State.each_setDrive .off (s.groupOuts g) (s.setGrp g { s.grp g with st := .frozen })
    rw [State.freezeGroup_of_running hrun, apply_ite (State.grp · h), hgrp, ite_self, State.grp_setGrp]
    simp only [hrun, and_true]
  · rw [State.freezeGroup_of_not_running hrun, if_neg fun h => hrun h.2]

theorem State.drive_freezeGroup (s : State) (g o : Nat) : (s.freezeGroup g).drive o =
    if (s.grp g).st = .running ∧ s.grpHopFree g = true ∧ o ∈ s.groupOuts g then .off else s.drive o := by
  by_cases hrun : (s.grp g).st = .running
  · obtain ⟨hdrive, -⟩ := State.each_setDrive .off (s.groupOuts g) (s.setGrp g { s.grp g with st := .frozen })
    rw [State.freezeGroup_of_running hrun, apply_ite (State.drive · o), hdrive, State.drive_setGrp]
    by_cases hfree : s.grpHopFree g = true <;> simp [hrun, hfree]
  · rw [State.freezeGroup_of_not_running hrun, if_neg fun h => hrun h.1]

theorem State.cfg_freezeGroup (s : State) (g : Nat) : (s.freezeGroup g).cfg = s.cfg := by
  by_cases hrun : (s.grp g).st = .running
  · obtain ⟨-, -, -, hcfg, -⟩ := State.each_setDrive .off (s.groupOuts g) (s.setGrp g { s.grp g with st := .frozen })
    rw [State.freezeGroup_of_running hrun, apply_ite State.cfg, hcfg, ite_self]
    rfl
  · rw [State.freezeGroup_of_not_running hrun]

theorem State.grp_freezeAll (s : State) {g : Nat} (hg : g < 8) : s.freezeAll.grp g =
    if (s.grp g).st = .running then { s.grp g with st := .frozen } else s.grp g := by
  rw [State.freezeAll_eq]
  refine State.grp_each_of_mem (f := State.freezeGroup) (I := fun _ => True)
    (R := fun x y => y = if x.st = .running then { x with st := .frozen } else x)
    (fun t h k hk => ?_) (fun _ _ _ => trivial) (fun t _ => ?_) List.nodup_range (List.mem_range.mpr hg) trivial
  · rw [State.grp_freezeGroup, if_neg fun h => hk h.1]
  · simp only [State.grp_freezeGroup, true_and]

/-- The output is off, as one of a RUNNING group with HOP_FREE. -/
def State.HopFreed (s t : State) (o : Nat) : Prop :=
  t.drive o = .off ∧ ∃ g, g < 8 ∧ (s.grp g).st = .running ∧ s.grpHopFree g = true ∧ o ∈ s.groupOuts g

/-- A freeze under way: the configuration stands, no group has begun to run, and an output that moved is one that the
freeze sets free. -/
structure FreezeFrom (s t : State) : Prop where
  cfg : t.cfg = s.cfg
  running : ∀ g, (t.grp g).st = .running → (s.grp g).st = .running
  drive : ∀ o, s.HopFreed t o ∨ t.drive o = s.drive o

theorem FreezeFrom.freezeGroup {s t : State} {g : Nat} (h : FreezeFrom s t) (hg : g < 8) :
    FreezeFrom s (t.freezeGroup g) where
  cfg := (t.cfg_freezeGroup g).trans h.cfg
  running k hk := by
    rw [State.grp_freezeGroup] at hk
    split at hk
    · exact absurd hk nofun
    · exact h.running k hk
  drive o := by
    have hdrive := t.drive_freezeGroup g o
    split at hdrive
    · next hfreed =>
      obtain ⟨hrun, hfree, ho⟩ := hfreed
      rw [State.grpHopFree_of_cfg h.cfg] at hfree
      rw [State.groupOuts_of_cfg h.cfg] at ho
      exact .inl ⟨hdrive, g, hg, h.running g hrun, hfree, ho⟩
    · rw [State.HopFreed, hdrive]
      exact h.drive o

theorem State.freezeAll_from (s : State) : FreezeFrom s s.freezeAll := by
  rw [State.freezeAll_eq]
  exact List.foldlRecOn _ _ ⟨rfl, fun _ => id, fun _ => .inr rfl⟩ fun _ h _ hg => h.freezeGroup (List.mem_range.mp hg)

theorem exec_ptcHop_of_locked {s : State} {op : Nat} (hhop : s.gs.hop = some op) (hlock : s.clk.ptcLock = true)
    (hlearned : s.clk.learning = false) (hidle : s.clk.hopTo = none)
    (hrun : (s.grp (field (s.sec secRegions) 2 1 % 8)).st = .running) :
    exec .ptcHop s = .next (({ s with gs := { s.gs with hop := none } } : State).setClk
      { s.clk with hopTo := some op }).freezeAll := by
  have hready : ¬(!s.clk.ptcLock || s.clk.learning || s.clk.hopTo.isSome ||
      (s.grp (field (s.sec secRegions) 2 1 % 8)).st != .running) = true := by simp [hlock, hlearned, hidle, hrun]
  show execPtcHop s = _
  rw [execPtcHop, hhop]
  exact congrArg Host.Outcome.next (if_neg hready)

/-! ### Register words -/

theorem State.reg_setReg_same (s : State) (a : Nat) (v : Word) : (s.setReg a v).reg a = v := SMap.get_set_same ..

theorem State.reg_setBit_of_ne (s : State) {a b : Nat} (n : Nat) (h : b ≠ a) : (s.setBit a n).reg b = s.reg b :=
  SMap.get_set_ne _ _ _ _ _ h

theorem State.toNat_reg_inc_same (s : State) (a : Nat) : ((s.inc a).reg a).toNat = satInc (s.reg a).toNat := by
  rw [State.inc, State.count, State.reg_setReg_same, word, BitVec.toNat_ofNat, satInc]
  omega

/-! ### The resume after a hop -/

theorem State.grp_each_setLeg (x : State → Nat → Leg) (l : List Nat) (s : State) (g : Nat) :
    (s.each l fun t k => t.setLeg k (x t k)).grp g = s.grp g :=
  List.foldlRecOn (motive := fun t : State => t.grp g = s.grp g) _ _ rfl fun _ ht _ _ =>
    (State.grp_setLeg ..).trans ht

theorem State.regs_each_setLeg (x : State → Nat → Leg) (l : List Nat) (s : State) :
    (s.each l fun t k => t.setLeg k (x t k)).regs = s.regs :=
  List.foldlRecOn (motive := fun t : State => t.regs = s.regs) _ _ rfl fun _ ht _ _ => ht

/-- What a resume leaves of a FROZEN group: it runs on in its period, or, where it tripped meanwhile, it neither runs nor
stands frozen. -/
def ResumedFrom (x y : Group) : Prop :=
  (x.tripHop = false → y.st = .running ∧ y.resume = true ∧ y.pidx = x.pidx) ∧
    (x.tripHop = true → y.st ≠ .frozen ∧ y.st ≠ .running)

theorem State.resumeGroup_of_tripped {s : State} {g : Nat} (h : (s.grp g).tripHop = true) :
    s.resumeGroup g = (s.setGrp g { s.grp g with st := .tripped, tripHop := false }).groupUntrip g :=
  if_pos h

/-- A group that no trip met resumes: of the groups its own alone moves, and of the registers its status alone. -/
theorem State.resumeGroup_of_frozen {s : State} {g : Nat} (h : (s.grp g).tripHop = false) :
    (∃ y : Group, (y.st = .running ∧ y.resume = true ∧ y.pidx = (s.grp g).pidx) ∧
      ∀ k, (s.resumeGroup g).grp k = if k = g then y else s.grp k) ∧
    ∀ a, a ≠ rPWM_Gn_STAT g → (s.resumeGroup g).reg a = s.reg a := by
  have htrip : ¬(s.grp g).tripHop = true := Bool.eq_false_iff.mp h
  unfold State.resumeGroup
  extract_lets x plan scale rejoined moved flagged
  rw [if_neg htrip]
  have hrejoined : (∀ k, rejoined.grp k = s.grp k) ∧ rejoined.regs = s.regs := by
    unfold rejoined
    split
    · exact ⟨State.grp_each_setLeg _ _ s, State.regs_each_setLeg _ _ s⟩
    · exact ⟨fun _ => rfl, rfl⟩
  obtain ⟨hgrp, hregs⟩ := hrejoined
  refine ⟨⟨moved.grp g, ?moved, fun k => ?grp⟩, fun a ha => ?reg⟩
  case moved =>
    rw [State.grp_setGrp, if_pos rfl]
    exact ⟨rfl, rfl, rfl⟩
  case grp =>
    have hflagged : flagged.grp k = moved.grp k := (apply_ite (State.grp · k) ..).trans (ite_self _)
    rw [State.grp_each_setLeg, hflagged]
    split
    · next hk => rw [hk]
    · next hk => rw [State.grp_setGrp, if_neg hk, hgrp]
  case reg =>
    have hflagged : flagged.reg a = moved.reg a := by
      unfold flagged
      split
      · exact State.reg_setBit_of_ne _ _ ha
      · rfl
    rw [State.reg_congr (State.regs_each_setLeg ..), hflagged]
    exact State.reg_congr hregs a

theorem State.grp_resumeGroup_of_ne (s : State) {g k : Nat} (hk : k ≠ g) : (s.resumeGroup g).grp k = s.grp k := by
  cases htrip : (s.grp g).tripHop with
  | true =>
    rw [State.resumeGroup_of_tripped htrip, State.grp_groupUntrip, if_neg fun h => hk h.1, State.grp_setGrp, if_neg hk]
  | false =>
    obtain ⟨⟨y, -, hgrp⟩, -⟩ := State.resumeGroup_of_frozen htrip
    rw [hgrp, if_neg hk]

theorem State.resumedFrom_resumeGroup (s : State) (g : Nat) : ResumedFrom (s.grp g) ((s.resumeGroup g).grp g) := by
  cases htrip : (s.grp g).tripHop with
  | true =>
    refine ⟨fun h => absurd (htrip.symm.trans h) (by decide), fun _ => ?_⟩
    rw [State.resumeGroup_of_tripped htrip, State.grp_groupUntrip]
    simp only [State.grp_setGrp, if_true]
    split <;> exact ⟨nofun, nofun⟩
  | false =>
    obtain ⟨⟨y, hy, hgrp⟩, -⟩ := State.resumeGroup_of_frozen htrip
    rw [hgrp, if_pos rfl]
    exact ⟨fun _ => hy, fun h => absurd (htrip.symm.trans h) (by decide)⟩

theorem State.reg_resumeGroup_of_ne (s : State) {g a : Nat} (ha : a ≠ rPWM_Gn_STAT g) :
    (s.resumeGroup g).reg a = s.reg a := by
  cases htrip : (s.grp g).tripHop with
  | true =>
    have hk : Keeps 0x8000 s (s.resumeGroup g) := by
      rw [State.resumeGroup_of_tripped htrip]
      exact State.groupUntrip_keeps (State.setGrp_keeps .rfl rfl) rfl
    exact State.reg_congr (hk.agree .regs rfl) a
  | false =>
    obtain ⟨-, hreg⟩ := State.resumeGroup_of_frozen htrip
    exact hreg a ha

/-- The state from which the groups resume. -/
def State.reclocked (s : State) (ndiv rdiv : Nat) : State :=
  { s with clk := { s.clk with ndiv := ndiv, rdiv := rdiv }, pwm := { s.pwm with alignOk := false } }

theorem State.resumeAll_eq (s : State) (ndiv rdiv : Nat) : s.resumeAll ndiv rdiv =
    (s.reclocked ndiv rdiv).each ((List.range 8).filter fun g => (s.grp g).st == .frozen) State.resumeGroup := rfl

theorem State.clk_resumeAll (s : State) (ndiv rdiv : Nat) :
    (s.resumeAll ndiv rdiv).clk = { s.clk with ndiv := ndiv, rdiv := rdiv } := by
  have hk : Keeps 0x8004 (s.reclocked ndiv rdiv) (s.resumeAll ndiv rdiv) := by
    rw [State.resumeAll_eq]
    exact State.each_keeps .rfl rfl fun _ _ h => State.resumeGroup_keeps h rfl
  exact hk.agree .clk rfl

theorem State.reg_resumeAll (s : State) (ndiv rdiv : Nat) {a : Nat} (ha : ∀ g, g < 8 → a ≠ rPWM_Gn_STAT g) :
    (s.resumeAll ndiv rdiv).reg a = s.reg a := by
  rw [State.resumeAll_eq]
  exact List.foldlRecOn (motive := fun t : State => t.reg a = s.reg a) _ _ rfl fun t ht g hg =>
    (t.reg_resumeGroup_of_ne (ha g (List.mem_range.mp (List.mem_filter.mp hg).1))).trans ht

theorem State.resumedFrom_resumeAll (s : State) (ndiv rdiv : Nat) {g : Nat} (hg : g < 8) (hst : (s.grp g).st = .frozen) :
    ResumedFrom (s.grp g) ((s.resumeAll ndiv rdiv).grp g) := by
  have hmem : g ∈ (List.range 8).filter fun g => (s.grp g).st == .frozen :=
    List.mem_filter.mpr ⟨List.mem_range.mpr hg, beq_iff_eq.mpr hst⟩
  rw [State.resumeAll_eq]
  exact State.grp_each_of_mem (f := State.resumeGroup) (I := fun _ => True) (s := s.reclocked ndiv rdiv)
    (fun t _ _ hk => t.grp_resumeGroup_of_ne hk) (fun _ _ _ => trivial) (fun t _ => t.resumedFrom_resumeGroup g)
    (List.nodup_range.filter _) hmem trivial

/-- The state at the end of a hop, before its groups resume: the operating point taken and the hop counted. -/
def State.hopEnded (s : State) (op ns : Nat) : State :=
  ((s.setClk { s.clk with op := op, hopTo := none, hopLast := min 0xFFFFFFFF ns }).inc rCLK_CNT_HOP).setBit rGS_STAT 4

theorem exec_ptcHopResume_of_usable {s : State} {op : Nat} (ns : Nat) (hhop : s.clk.hopTo = some op)
    (husable : s.codeUsable op = true) : exec (.ptcHopResume ns) s =
      .next ((s.hopEnded op ns).resumeAll (s.opPoint op).1 (max 1 (s.opPoint op).2)) := by
  show execPtcHopResume ns s = _
  simp only [execPtcHopResume, hhop, if_pos husable, State.hopEnded]

theorem rGS_STAT_ne_rPWM_Gn_STAT (g : Nat) : rGS_STAT ≠ rPWM_Gn_STAT g := by
  unfold rGS_STAT rPWM_Gn_STAT
  omega

theorem rCLK_CNT_HOP_ne_rPWM_Gn_STAT (g : Nat) : rCLK_CNT_HOP ≠ rPWM_Gn_STAT g := by
  unfold rCLK_CNT_HOP rPWM_Gn_STAT
  omega

/-! ### The alignment -/

theorem exec_alignPhaseStep_of_off {s : State} (hact : s.pwm.alignAct = true) (hoff : 500000 < s.pwm.alignErr.natAbs) :
    exec .alignPhaseStep s = .next ((({ s with
      pwm := { s.pwm with
        alignErr := if s.pwm.alignErr > 0 then s.pwm.alignErr - s.phaseStep else s.pwm.alignErr + s.phaseStep } }
      : State).inc rPWM_PHSTEP_CNT).alignEval) := by
  have hdue : (s.pwm.alignAct && decide (s.pwm.alignErr.natAbs > 500000)) = true := by simp [hact, hoff]
  exact congrArg Host.Outcome.next (if_pos hdue)

theorem exec_alignPhaseStep_of_aligned {s : State} (h : s.pwm.alignAct = false ∨ s.pwm.alignErr.natAbs ≤ 500000) :
    exec .alignPhaseStep s = .next s := by
  have hidle : ¬(s.pwm.alignAct && decide (s.pwm.alignErr.natAbs > 500000)) = true := by
    rcases h with h | h <;> simp [h]
  exact congrArg Host.Outcome.next (if_neg hidle)

/-- The state with a mark measured, before the ARMED groups note it. -/
def State.markTaken (s : State) (pidx : Nat) (err : Int) : State :=
  ({ s with pwm := { s.pwm with alignErr := err, alignAct := true, marksMissed := 0, markPidx := pidx } } : State).alignEval

/-- What a mark makes of one group. -/
def State.markGroup (s : State) (g : Nat) : State :=
  if (s.grp g).st == .armed && s.grpSync g == 2 then s.setGrp g { s.grp g with marked := true } else s

theorem State.markFrame_eq (s : State) (pidx : Nat) (err : Int) :
    s.markFrame pidx err = (s.markTaken pidx err).each (List.range 8) State.markGroup := rfl

theorem exec_markFrame_of_accepted {s : State} {f : TrsFrame} (e : Int) (htype : f.type = 2)
    (hrole : s.roleAccepts 2 f = true) : exec (.markFrame f e) s =
      .next (s.markFrame (field f.payload 0 4) (e + ((f.accd + s.linkDelay f.ringB) * 15625 : Nat))) :=
  congrArg Host.Outcome.next ((if_neg (not_not_intro htype)).trans (if_pos hrole))

/-- The two states differ in their groups at most. -/
def SameButGroups (s t : State) : Prop := ∃ m, t = { s with pwm := { s.pwm with group := m } }

theorem SameButGroups.rfl {s : State} : SameButGroups s s := ⟨s.pwm.group, Eq.refl _⟩

theorem SameButGroups.markGroup {s t : State} (h : SameButGroups s t) (g : Nat) : SameButGroups s (t.markGroup g) := by
  obtain ⟨m, rfl⟩ := h
  unfold State.markGroup
  split
  · exact ⟨_, Eq.refl _⟩
  · exact ⟨m, Eq.refl _⟩

theorem State.markFrame_sameButGroups (s : State) (pidx : Nat) (err : Int) :
    SameButGroups (s.markTaken pidx err) (s.markFrame pidx err) := by
  rw [State.markFrame_eq]
  exact List.foldlRecOn _ _ SameButGroups.rfl fun _ h g _ => h.markGroup g

theorem State.grp_markGroup (s : State) (g h : Nat) : (s.markGroup g).grp h =
    if h = g ∧ (s.grp g).st = .armed ∧ s.grpSync g = 2 then { s.grp g with marked := true } else s.grp h := by
  by_cases hdue : (s.grp g).st = .armed ∧ s.grpSync g = 2
  · simp [State.markGroup, hdue]
  · rw [State.markGroup, if_neg (by simpa using hdue), if_neg fun h => hdue h.2]

/-- A mark reaches every ARMED group that starts on it. -/
theorem State.marked_markFrame {s : State} (pidx : Nat) (err : Int) {g : Nat} (hg : g < 8) (hst : (s.grp g).st = .armed)
    (hsync : s.grpSync g = 2) : ((s.markFrame pidx err).grp g).marked = true := by
  rw [State.markFrame_eq]
  refine State.grp_each_of_mem (f := State.markGroup) (I := fun t => t.grpSync g = 2) (s := s.markTaken pidx err)
    (R := fun x y => x.st = .armed → y.marked = true) (fun t h k hk => ?_) (fun t h ht => ?_) (fun t ht hx => ?_)
    List.nodup_range (List.mem_range.mpr hg) hsync hst
  · rw [State.grp_markGroup, if_neg fun h => hk h.1]
  · obtain ⟨m, hm⟩ := (SameButGroups.rfl (s := t)).markGroup h
    rw [hm]
    exact ht
  · rw [State.grp_markGroup, if_pos ⟨rfl, hx, ht⟩]

/-! ### The statement -/

/-- Settles O26: a hop is `freezeAll`, its end `resumeAll`, and a mark `markFrame`, each a sweep over the groups; the rest is
one branch each. What becomes of the period in progress at a resume is the model's choice (log 13). -/
theorem carrierClockCommandsComplete : Obligations.CarrierClockCommandsComplete := by
  unfold Obligations.CarrierClockCommandsComplete
  refine ⟨?hop, ?resume, fun _ => exec_alignPhaseStep_of_off, fun _ => exec_alignPhaseStep_of_aligned, fun _ => rfl,
    ?mark, fun _ _ => rfl⟩
  case hop =>
    intro s op hhop hlock hlearned hidle hrun
    generalize hu : ({ s with gs := { s.gs with hop := none } } : State).setClk { s.clk with hopTo := some op } = u
    have hk : Keeps 0x8000 u u.freezeAll := State.freezeAll_keeps .rfl rfl
    refine ⟨u.freezeAll, hu ▸ exec_ptcHop_of_locked hhop hlock hlearned hidle hrun, ?_, ?_, fun g hg => ?_, fun o => ?_⟩
    · rw [hk.agree .gs rfl, ← hu]
      rfl
    · rw [hk.agree .clk rfl, ← hu]
      rfl
    · rw [State.grp_freezeAll u hg, ← hu]
      rfl
    · have hdrive := u.freezeAll_from.drive o
      subst hu
      exact hdrive
  case resume =>
    intro s op ns hhop husable
    refine ⟨_, exec_ptcHopResume_of_usable ns hhop husable, ?_, ?_, ?_, fun g hg hst => ?_⟩
    · rw [State.clk_resumeAll]
      rfl
    · rw [State.regBit, State.reg_resumeAll _ _ _ fun g _ => rGS_STAT_ne_rPWM_Gn_STAT g]
      exact State.regBit_setBit_same _ _ (by decide)
    · rw [State.reg_resumeAll _ _ _ fun g _ => rCLK_CNT_HOP_ne_rPWM_Gn_STAT g, State.hopEnded,
        State.reg_setBit_of_ne _ _ (by decide), State.toNat_reg_inc_same]
      rfl
    · exact State.resumedFrom_resumeAll (s.hopEnded op ns) _ _ hg hst
  case mark =>
    intro s f e htype hrole
    refine ⟨_, exec_markFrame_of_accepted e htype hrole, ?_⟩
    generalize e + ((f.accd + s.linkDelay f.ringB) * 15625 : Nat) = err
    obtain ⟨m, hm⟩ := s.markFrame_sameButGroups (field f.payload 0 4) err
    refine ⟨?_, ?_, ?_, ?_, ?_, fun g hg hst hsync => State.marked_markFrame _ _ hg hst hsync⟩ <;> rw [hm] <;> rfl

end Sys2Proof.Machine
end

section
/-!
SHOOT_BLOCK beyond SHOOT_MAX in a group that carries the note of a trip during a hop (R177, R181, R216): the trip takes the
group as TRIPPED already, and leaves its state.
-/

namespace Sys2Proof.Machine

/-- The state of a group in the state that a command answers. -/
def groupStateOf (g : Nat) : Out → Option GSt
  | .next t => some (t.grp g).st
  | _ => none

/-- A LEGS section (Table 7.2) of one leg: leg 0, in group 0, of type HB2 with outputs 0 and 1; SHOOT_MAX is 0. -/
def oneHalfBridge : List Byte :=
  1 :: List.replicate 0xE9 0 ++ [1, 0, 0, 1] ++ List.replicate 6 0xFF ++ List.replicate 4 0

/-- Outputs 0 and 1 are a fused pair and both on; their group runs, with the note of a trip during a hop. -/
def overlapUnderTripNote : State :=
  { cfg := [(secLegs, some oneHalfBridge)], cab := (2#1024 <<< 8) ||| (1#1024 <<< 14), cabRes := 0
    pwm := { group := [(0, { st := .running, tripHop := true })], out := [(0, .on), (1, .on)] } }

/-- What the clause asks of the state: the overlap is one beyond SHOOT_MAX, in a RUNNING group without NPC_SEQ. -/
theorem overlapUnderTripNote_exceeds_shootMax :
    overlapUnderTripNote.overlap 0 = true ∧ overlapUnderTripNote.outGroup 0 = some 0 ∧
      (overlapUnderTripNote.grp 0).shoot = overlapUnderTripNote.shootMax 0 ∧
      (overlapUnderTripNote.grp 0).st = .running ∧ overlapUnderTripNote.npcSeq 0 = false := by
  decide +kernel

theorem groupStateOf_exec_shootBlock :
    groupStateOf 0 (exec (.shootBlock 0) overlapUnderTripNote) = some .running := by
  decide +kernel

/-- Refutes O25: its clause of the overlap beyond SHOOT_MAX has the group TRIPPED, but does not exclude the note of a trip
during a hop (`tripHop`), as its clauses of STOP do. Under the note the group counts as TRIPPED already (`isTripped`, R181),
a further trip moves no state, and the group stays RUNNING, as it does from `overlapUnderTripNote`. -/
theorem not_groupCommandsComplete : ¬ Obligations.GroupCommandsComplete := by
  unfold Obligations.GroupCommandsComplete
  rintro ⟨-, -, -, -, -, -, -, -, -, -, -, -, -, htrips, -⟩
  obtain ⟨hoverlap, hgroup, hcount, hrunning, hnpc⟩ := overlapUnderTripNote_exceeds_shootMax
  obtain ⟨t, hexec, htripped, -⟩ := htrips overlapUnderTripNote 0 0 hoverlap hgroup hcount (by decide) hrunning hnpc
  have hstays : some (t.grp 0).st = some .running :=
    (congrArg (groupStateOf 0) hexec).symm.trans groupStateOf_exec_shootBlock
  rw [htripped] at hstays
  exact absurd hstays (by decide)

end Sys2Proof.Machine
end

section
/-!
Sources that become active on a group under a hop (R181, R216): a trip leaves a FROZEN group FROZEN until the hop ends, and it
takes a group that carries the note of such a trip as TRIPPED already; in neither case does the state of the group move.
-/

namespace Sys2Proof.Machine

/-! ### A trip while FROZEN -/

/-- Group 0 is FROZEN by a hop of the PTC PLL. -/
def frozenAtHop : State := { pwm := { group := [(0, { st := .frozen })] } }

/-- Source 0x40 acts on group 0 by its built-in action (Table 9.1), and a FROZEN group is live. -/
theorem frozenAtHop_live_and_acted_on :
    (frozenAtHop.grp 0).st.live = true ∧ (frozenAtHop.sourceAction 0x40 0).1 ≠ 0 := by
  decide +kernel

theorem st_grp_sourceOn_frozenAtHop : ((frozenAtHop.sourceOn 0x40).grp 0).st = .frozen := by
  decide +kernel

/-- Refutes O30: it has every live group on which the source acts TRIPPED at once, but a FROZEN group is live, and a trip
leaves it FROZEN until the hop ends (R181, `tripHop`), as source 0x40 leaves group 0 of `frozenAtHop`. -/
theorem not_activeSourceLatchesItsGroups : ¬ Obligations.ActiveSourceLatchesItsGroups := by
  unfold Obligations.ActiveSourceLatchesItsGroups
  rintro ⟨hactive, -⟩
  obtain ⟨-, htrips⟩ := hactive frozenAtHop 0x40 0 (by decide) (by decide)
  obtain ⟨hlive, haction⟩ := frozenAtHop_live_and_acted_on
  obtain ⟨htripped, -⟩ := htrips hlive haction
  exact absurd (st_grp_sourceOn_frozenAtHop.symm.trans htripped) (by decide)

/-! ### What a command leaves of a group -/

theorem st_grp_of_groupStateOf_exec {i : Instr} {s t : State} {g : Nat} {x : GSt}
    (hstate : groupStateOf g (exec i s) = some x) (hexec : exec i s = .next t) : (t.grp g).st = x :=
  Option.some.inj ((congrArg (groupStateOf g) hexec).symm.trans hstate)

/-! ### A second leg-local response under the note of a trip -/

/-- A LEGS section (Table 7.2) of two legs: `oneHalfBridge` and leg 1, in group 0, of type HB2 with outputs 2 and 3. -/
def twoHalfBridges : List Byte :=
  oneHalfBridge.set 0 2 ++ [1, 0, 1, 0, 2, 3] ++ List.replicate 6 0xFF ++ List.replicate 4 0

/-- FLT_N of leg 0 is asserted, with the leg-local response enabled by bit 0 of the TRIP section's byte 4; leg 1 is held by
its own response; their group runs, with the note of a trip during a hop. -/
def secondFaultUnderTripNote : State :=
  { cfg := [(secLegs, some twoHalfBridges), (secTrip, some [0, 0, 0, 0, 1])]
    pwm := { group := [(0, { st := .running, tripHop := true })], leg := [(0, { pin := true }), (1, { freed := true })] } }

/-- What the clause asks of the pin of leg 0. -/
theorem secondFaultUnderTripNote_passes_filter :
    (secondFaultUnderTripNote.leg 0).filtered = false ∧ (secondFaultUnderTripNote.leg 0).pin = true ∧
      secondFaultUnderTripNote.fltHeld 0 = true ∧ (secondFaultUnderTripNote.leg 0).blanking = false := by
  decide +kernel

/-- What the clause asks of the group: the leg-local response answers, in a RUNNING group with another leg held. -/
theorem secondFaultUnderTripNote_second_response :
    secondFaultUnderTripNote.legLocalOn 0 = true ∧ secondFaultUnderTripNote.rowed 0x12 = false ∧
      secondFaultUnderTripNote.legGroup 0 = some 0 ∧ (secondFaultUnderTripNote.grp 0).st = .running ∧
      (secondFaultUnderTripNote.leg 0).freed = false ∧ 1 ∈ secondFaultUnderTripNote.groupLegs 0 ∧
      (secondFaultUnderTripNote.leg 1).freed = true := by
  decide +kernel

theorem groupStateOf_exec_fltFilterPass :
    groupStateOf 0 (exec (.fltFilterPass 0 false) secondFaultUnderTripNote) = some .running := by
  decide +kernel

/-- Refutes O29: its clause of the second leg-local response has the group TRIPPED, but does not exclude the note of a trip
during a hop, as its clause of TRIP_SOURCE_ACTIVE does by `isTripped`. Under the note TWO_LEG finds the group TRIPPED already
and moves no state: the group stays RUNNING, as it does from `secondFaultUnderTripNote`. -/
theorem not_tripCommandsComplete : ¬ Obligations.TripCommandsComplete := by
  unfold Obligations.TripCommandsComplete
  rintro ⟨-, -, -, -, -, -, -, -, -, -, -, -, -, hsecond, -⟩
  obtain ⟨hfiltered, hpin, hheld, hblanking⟩ := secondFaultUnderTripNote_passes_filter
  obtain ⟨hlocal, hrowed, hgroup, hrunning, hfreed, hother, hotherFreed⟩ := secondFaultUnderTripNote_second_response
  obtain ⟨t, hexec, -, -, htripped⟩ := hsecond secondFaultUnderTripNote 0 0 1 (by decide) hfiltered hpin hheld hblanking
    hlocal hrowed hgroup (by decide) hrunning hfreed hother hotherFreed
  have hstays : (t.grp 0).st = .running := st_grp_of_groupStateOf_exec groupStateOf_exec_fltFilterPass hexec
  exact absurd (hstays.symm.trans htripped) (by decide)

/-! ### DC_OV3 under the note of a trip -/

/-- A valid Cabinet whose fused DC_OV3 threshold is 1 step; group 0 runs, with the note of a trip during a hop. -/
def dcOv3UnderTripNote : State :=
  { cab := 1#1024 <<< 961, cabRes := 0, pwm := { group := [(0, { st := .running, tripHop := true })] } }

/-- What the clause asks of the state: at 1 mV, with VDDA at 3.3 V, the enabled comparator becomes active. -/
theorem dcOv3UnderTripNote_exceeds_threshold :
    dcOv3UnderTripNote.cabValid = true ∧ dcOv3UnderTripNote.fuse 961 12 ≠ 0 ∧
      0 < (1000000 : Int) * 4096 - (dcOv3UnderTripNote.dcov3Level : Int) * 3300000000 ∧
      dcOv3UnderTripNote.srcActive 0x33 = false ∧ (dcOv3UnderTripNote.grp 0).st = .running := by
  decide +kernel

theorem groupStateOf_exec_dcOv3Transition :
    groupStateOf 0 (exec (.dcOv3Transition 1000000 3300000000) dcOv3UnderTripNote) = some .running := by
  decide +kernel

/-- Refutes O31: its clause of DC_OV3 on a RUNNING group has the group TRIPPED, but does not exclude the note of a trip during
a hop, as its clause of the ordered stop does. Under the note DC_OV3 finds the group TRIPPED already and moves no state: the
group stays RUNNING, as it does from `dcOv3UnderTripNote`. -/
theorem not_diagnosticsAndChopperCommandsComplete : ¬ Obligations.DiagnosticsAndChopperCommandsComplete := by
  unfold Obligations.DiagnosticsAndChopperCommandsComplete
  rintro ⟨-, -, -, -, -, -, -, -, -, -, -, -, -, -, htrips, -⟩
  obtain ⟨hvalid, hfused, habove, hinactive, hrunning⟩ := dcOv3UnderTripNote_exceeds_threshold
  obtain ⟨t, hexec, htripped, -⟩ := htrips dcOv3UnderTripNote 1000000 3300000000 0 hvalid hfused habove hinactive
    (by decide) hrunning
  have hstays : (t.grp 0).st = .running := st_grp_of_groupStateOf_exec groupStateOf_exec_dcOv3Transition hexec
  exact absurd (hstays.symm.trans htripped) (by decide)

end Sys2Proof.Machine
end

section
/-!
STOP of a group (R179), and of the groups that GRD stops as it ceases (R259): what becomes of each group, and of the
registers.
-/

namespace Sys2Proof.Machine

theorem State.grp_congr {s t : State} (h : t.pwm = s.pwm) (g : Nat) : t.grp g = s.grp g := by
  rw [State.grp, h, State.grp]

theorem State.reg_inc_of_ne (s : State) {a b : Nat} (h : b ≠ a) : (s.inc a).reg b = s.reg b :=
  SMap.get_set_ne _ _ _ _ _ h

/-! ### The shutdown of a group -/

theorem State.grp_outerOff (s : State) (outs : List Nat) (h : Nat) : (s.outerOff outs).grp h = s.grp h := by
  refine List.foldlRecOn (motive := fun t : State => t.grp h = s.grp h) _ _ rfl fun t ht o _ => ?_
  split
  · exact (State.grp_setDrive ..).trans ht
  · exact ht

/-- An ordered sequence moves of the groups its own alone, and of it the note that the sequence runs. -/
theorem State.grp_groupOrdered (s : State) (g : Nat) : ∃ q, ∀ h, (s.groupOrdered g).grp h =
    if h = g then { s.grp g with seqRun := q } else s.grp h := by
  unfold State.groupOrdered
  extract_lets +onlyGivenNames off quiet
  have hquiet : ∀ h, quiet.grp h = s.grp h := fun h => by
    obtain ⟨-, -, -, hgrp, -⟩ := State.each_quietLeg (off.groupLegs g) off
    exact (hgrp h).trans (s.grp_outerOff _ h)
  split
  · refine ⟨(s.grp g).seqRun, fun h => (hquiet h).trans ?_⟩
    split
    · next hg => rw [hg]
    · rfl
  · exact ⟨true, fun h => by rw [State.grp_setGrp, hquiet, hquiet]⟩

theorem State.grp_groupDown (s : State) (g : Nat) : ∃ q, ∀ h, (s.groupDown g).grp h =
    if h = g then { s.grp g with seqRun := q } else s.grp h := by
  unfold State.groupDown
  split
  · exact s.grp_groupOrdered g
  · refine ⟨(s.grp g).seqRun, fun h => (s.grp_groupSafe g h).trans ?_⟩
    split
    · next hg => rw [hg]
    · rfl

/-! ### STOP -/

/-- A group in a state that STOP moves, as STOPPED with the cause; a START on the same edge is refused. -/
def State.stopNoted (s : State) (g cause : Nat) : State :=
  let t := s.setGrp g { s.grp g with st := .stopped, cause := cause, cmtReq := false, stopAt := some s.clk.t }
  if (s.grp g).st == .armed && (s.grp g).armedAt == s.clk.t then t.noteRefuse g 8 else t

theorem State.grp_stopNoted (s : State) (g cause h : Nat) : (s.stopNoted g cause).grp h = if h = g then
    { s.grp g with st := .stopped, cause := cause, cmtReq := false, stopAt := some s.clk.t } else s.grp h := by
  rw [← State.grp_setGrp]
  exact (apply_ite (State.grp · h) ..).trans (ite_self _)

theorem State.reg_stopNoted_of_ne (s : State) {a g : Nat} (cause : Nat) (ha : a ≠ rPWM_Gn_STAT g) :
    (s.stopNoted g cause).reg a = s.reg a := by
  unfold State.stopNoted
  extract_lets t
  split
  · exact SMap.get_set_ne _ _ _ _ _ ha
  · rfl

theorem State.groupStop_of_live {s : State} {g : Nat} (cause : Nat) (hlive : (s.grp g).st.live = true)
    (htrip : (s.grp g).tripHop = false) :
    s.groupStop g cause = ((s.stopNoted g cause).carrierStopped g).groupDown g :=
  if_pos (by rw [hlive, htrip]; rfl)

theorem State.groupStop_of_not_live {s : State} {g : Nat} (cause : Nat)
    (h : ¬((s.grp g).st.live = true ∧ (s.grp g).tripHop = false)) :
    s.groupStop g cause = s.setGrp g { s.grp g with stopAt := some s.clk.t } :=
  if_neg (by simpa using h)

theorem State.grp_carrierStopped (s : State) (g h : Nat) : (s.carrierStopped g).grp h = s.grp h := by
  have hk : Keeps 0x400000 s (s.carrierStopped g) := State.carrierStopped_keeps .rfl rfl
  exact State.grp_congr (hk.agree .pwm rfl) h

theorem State.grp_groupStop_of_ne (s : State) {g h : Nat} (cause : Nat) (hne : h ≠ g) :
    (s.groupStop g cause).grp h = s.grp h := by
  by_cases hlive : (s.grp g).st.live = true ∧ (s.grp g).tripHop = false
  · obtain ⟨q, hgrp⟩ := ((s.stopNoted g cause).carrierStopped g).grp_groupDown g
    rw [State.groupStop_of_live cause hlive.1 hlive.2, hgrp, if_neg hne, State.grp_carrierStopped, State.grp_stopNoted,
      if_neg hne]
  · rw [State.groupStop_of_not_live cause hlive, State.grp_setGrp, if_neg hne]

theorem State.stopped_groupStop {s : State} {g : Nat} (cause : Nat) (hlive : (s.grp g).st.live = true)
    (htrip : (s.grp g).tripHop = false) :
    ((s.groupStop g cause).grp g).st = .stopped ∧ ((s.groupStop g cause).grp g).cause = cause := by
  obtain ⟨q, hgrp⟩ := ((s.stopNoted g cause).carrierStopped g).grp_groupDown g
  rw [State.groupStop_of_live cause hlive htrip, hgrp, if_pos rfl, State.grp_carrierStopped, State.grp_stopNoted,
    if_pos rfl]
  exact ⟨rfl, rfl⟩

/-- Of the registers STOP writes the status of its group alone. -/
theorem State.reg_groupStop_of_ne (s : State) {a g : Nat} (cause : Nat) (ha : a ≠ rPWM_Gn_STAT g) :
    (s.groupStop g cause).reg a = s.reg a := by
  by_cases hlive : (s.grp g).st.live = true ∧ (s.grp g).tripHop = false
  · have hk : Keeps 0x408000 (s.stopNoted g cause) (((s.stopNoted g cause).carrierStopped g).groupDown g) :=
      State.groupDown_keeps (State.carrierStopped_keeps .rfl rfl) rfl
    rw [State.groupStop_of_live cause hlive.1 hlive.2, State.reg_congr (hk.agree .regs rfl),
      State.reg_stopNoted_of_ne s cause ha]
  · rw [State.groupStop_of_not_live cause hlive]
    rfl

/-! ### The stops of GRD -/

/-- STOP to every group of CEASE_GROUPS. -/
def State.ceaseStops (s : State) : State :=
  s.each ((List.range 8).filter fun g => bit s.ceaseGroups g) fun t g => t.groupStop g 1

theorem State.ceaseStops_keeps (s : State) : Keeps 0x408004 s s.ceaseStops :=
  State.each_keeps .rfl rfl fun _ _ h => State.groupStop_keeps h rfl

/-- The stops leave every component but the registers, the power stage and the schedule. -/
theorem State.ceaseStops_eq (s : State) : ∃ r p e, s.ceaseStops = { s with regs := r, pwm := p, evt := e } := by
  have hk := s.ceaseStops_keeps.agree
  generalize s.ceaseStops = t at hk
  refine ⟨t.regs, t.pwm, t.evt, ?_⟩
  cases t
  simp only [State.mk.injEq, true_and]
  exact ⟨hk .pending rfl, hk .free rfl, hk .mem rfl, hk .cfg rfl, hk .fuses rfl, hk .cab rfl, hk .cabRes rfl,
    hk .tier rfl, hk .inReset rfl, hk .clk rfl, hk .le rfl, hk .ce rfl, hk .gs rfl, hk .spt rfl, hk .trp rfl,
    hk .chp rfl, hk .adc rfl, hk .sdm rfl, hk .cmps rfl, hk .ang rfl, hk .grd rfl, hk .isl rfl, hk .lif rfl,
    hk .thm rfl, hk .mtr rfl, hk .recd rfl, hk .shf rfl, hk .trs rfl, hk .pair rfl, hk .mon rfl, hk .tim rfl,
    hk .eth rfl, hk .pins rfl, hk .img rfl, hk .sys rfl, hk .hu rfl, hk .host rfl, hk .jtag rfl, hk .fan rfl,
    hk .spareLog rfl, hk .evq rfl⟩

theorem State.reg_ceaseStops (s : State) {a : Nat} (ha : ∀ g, g < 8 → a ≠ rPWM_Gn_STAT g) :
    s.ceaseStops.reg a = s.reg a :=
  List.foldlRecOn (motive := fun t : State => t.reg a = s.reg a) _ _ rfl fun t ht g hg =>
    (t.reg_groupStop_of_ne 1 (ha g (List.mem_range.mp (List.mem_filter.mp hg).1))).trans ht

theorem State.stopped_ceaseStops {s : State} {g : Nat} (hg : g < 8) (hcease : bit s.ceaseGroups g = true)
    (hlive : (s.grp g).st.live = true) (htrip : (s.grp g).tripHop = false) :
    (s.ceaseStops.grp g).st = .stopped ∧ (s.ceaseStops.grp g).cause = 1 :=
  State.grp_each_of_mem (f := fun t g => t.groupStop g 1) (I := fun _ => True)
    (R := fun x y => x.st.live = true → x.tripHop = false → y.st = .stopped ∧ y.cause = 1)
    (fun t _ _ hk => t.grp_groupStop_of_ne 1 hk) (fun _ _ _ => trivial) (fun _ _ => State.stopped_groupStop 1)
    (List.nodup_range.filter _) (List.mem_filter.mpr ⟨List.mem_range.mpr hg, hcease⟩) trivial hlive htrip

end Sys2Proof.Machine
end

section
/-!
The operations of grid support and island detection (chapter 10): what each makes of GRD and ISL, and what it leaves. Where
an operation stops groups, `State.ceaseStops_eq` says what it leaves of the rest.
-/

namespace Sys2Proof.Machine

theorem State.regBit_setBit_of_set {s : State} {a m : Nat} (n : Nat) (h : s.regBit a m = true) :
    (s.setBit a n).regBit a m = true := by
  have hreg : (s.setBit a n).reg a = s.reg a ||| word (2 ^ n) := s.reg_setReg_same a _
  rw [State.regBit] at h
  rw [State.regBit, hreg, BitVec.getLsbD_or, h, Bool.true_or]

theorem bit_eq_testBit (x n : Nat) : bit x n = x.testBit n := Nat.testBit_eq_decide_div_mod_eq.symm

theorem bit_or_two_pow (x k n : Nat) : bit (x ||| 2 ^ k) n = (bit x n || decide (k = n)) := by
  rw [bit_eq_testBit, bit_eq_testBit, Nat.testBit_or, Nat.testBit_two_pow]

/-! ### The ride-through window and the entry to CEASED (R258, R259) -/

theorem State.rtClose_of_open {s : State} (b : Bool) (h : s.grd.rt = true) : s.rtClose b = { s with
    grd := { s.grd with rt := false, rtBlocked := b }, isl := { s.isl with tail := true } } := if_pos h

theorem State.rtClose_of_closed {s : State} (b : Bool) (h : s.grd.rt = false) : s.rtClose b = s :=
  if_neg (Bool.eq_false_iff.mp h)

theorem State.rtClose_eq (s : State) (b : Bool) : s.rtClose b = { s with
    grd := { s.grd with rt := false, rtBlocked := if s.grd.rt then b else s.grd.rtBlocked }
    isl := { s.isl with tail := s.grd.rt || s.isl.tail } } := by
  cases hrt : s.grd.rt with
  | true => exact State.rtClose_of_open b hrt
  | false =>
    rw [State.rtClose_of_closed b hrt]
    show s = { s with grd := { s.grd with rt := false } }
    rw [← hrt]

/-- GRD at its entry to CEASED. -/
def Grd.ceased (g : Grd) (cause : Nat) : Grd :=
  { g with
    st := 3, cause := cause, rt := false, rtBlocked := if g.rt then false else g.rtBlocked
    xfer := false, phNew := false, reconOk := false, reconMs := 0, iq := 0, i2 := 0, thI2 := 0, idMax := 0, qvv := 0 }

/-- The entry to CEASED as it stands in GRD, ISL and the registers, before the stops. -/
def State.ceaseNoted (s : State) (cause : Nat) : State :=
  ((({ s with grd := s.grd.ceased cause, isl := { s.isl with tail := s.grd.rt || s.isl.tail } } : State).setBit
    rGRD_STAT 8).inc rGRD_CNT_CEASE).irq 4

theorem State.ceaseNoted_eq (s : State) (cause : Nat) : ∃ r, s.ceaseNoted cause = { s with
    regs := r, grd := s.grd.ceased cause, isl := { s.isl with tail := s.grd.rt || s.isl.tail } } := by
  simp only [State.ceaseNoted, State.irq, State.inc, State.count, State.setBit, State.setReg]
  exact ⟨_, rfl⟩

theorem State.grdCeased_of_ceased {s : State} (cause : Nat) (h : s.grd.st = 3) : s.grdCeased cause = s := if_pos h

theorem State.grdCeased_of_not_ceased {s : State} (cause : Nat) (h : s.grd.st ≠ 3) :
    s.grdCeased cause = (s.ceaseNoted cause).ceaseStops := by
  rw [State.grdCeased, if_neg h, State.rtClose_eq]
  rfl

theorem State.grdCeased_eq {s : State} (cause : Nat) (h : s.grd.st ≠ 3) : ∃ r p e, s.grdCeased cause = { s with
    regs := r, pwm := p, evt := e, grd := s.grd.ceased cause, isl := { s.isl with tail := s.grd.rt || s.isl.tail } } := by
  obtain ⟨r, p, e, hstops⟩ := (s.ceaseNoted cause).ceaseStops_eq
  obtain ⟨_, hnoted⟩ := s.ceaseNoted_eq cause
  rw [State.grdCeased_of_not_ceased cause h, hstops, hnoted]
  exact ⟨r, p, e, rfl⟩

theorem State.reg_grdCeased {s : State} {a : Nat} (cause : Nat) (h : s.grd.st ≠ 3)
    (ha : ∀ g, g < 8 → a ≠ rPWM_Gn_STAT g) : (s.grdCeased cause).reg a = (s.ceaseNoted cause).reg a := by
  rw [State.grdCeased_of_not_ceased cause h, State.reg_ceaseStops _ ha]

theorem State.reg_grdCeased_of_ne {s : State} {a : Nat} (cause : Nat) (ha : ∀ g, g < 8 → a ≠ rPWM_Gn_STAT g)
    (hstat : a ≠ rGRD_STAT) (hcnt : a ≠ rGRD_CNT_CEASE) (hirq : a ≠ rHST_IRQ_SRC) :
    (s.grdCeased cause).reg a = s.reg a := by
  by_cases h : s.grd.st = 3
  · rw [State.grdCeased_of_ceased cause h]
  · rw [State.reg_grdCeased cause h ha, State.ceaseNoted, State.irq, State.reg_setBit_of_ne _ _ hirq,
      State.reg_inc_of_ne _ hcnt, State.reg_setBit_of_ne _ _ hstat]
    rfl

theorem State.reg_grdStat_grdCeased {s : State} (cause : Nat) (h : s.grd.st ≠ 3) :
    (s.grdCeased cause).reg rGRD_STAT = (s.setBit rGRD_STAT 8).reg rGRD_STAT := by
  rw [State.reg_grdCeased cause h (by decide), State.ceaseNoted, State.irq, State.reg_setBit_of_ne _ _ (by decide),
    State.reg_inc_of_ne _ (by decide)]
  rfl

/-- An entry to CEASED sets its event bit and its interrupt, and is counted. -/
theorem State.grdCeased_noted {s : State} (cause : Nat) (h : s.grd.st ≠ 3) :
    (s.grdCeased cause).regBit rGRD_STAT 8 = true ∧ (s.grdCeased cause).regBit rHST_IRQ_SRC 4 = true ∧
      ((s.grdCeased cause).reg rGRD_CNT_CEASE).toNat = satInc (s.reg rGRD_CNT_CEASE).toNat := by
  refine ⟨?stat, ?irq, ?count⟩
  case stat =>
    rw [State.regBit, State.reg_grdStat_grdCeased cause h]
    exact s.regBit_setBit_same _ (by decide)
  case irq =>
    rw [State.regBit, State.reg_grdCeased cause h (by decide)]
    exact State.regBit_setBit_same _ _ (by decide)
  case count =>
    rw [State.reg_grdCeased cause h (by decide), State.ceaseNoted, State.irq, State.reg_setBit_of_ne _ _ (by decide),
      State.toNat_reg_inc_same, State.reg_setBit_of_ne _ _ (by decide)]
    rfl

theorem State.stopped_grdCeased {s : State} {g : Nat} (cause : Nat) (h : s.grd.st ≠ 3) (hg : g < 8)
    (hcease : bit s.ceaseGroups g = true) (hlive : (s.grp g).st.live = true) (htrip : (s.grp g).tripHop = false) :
    ((s.grdCeased cause).grp g).st = .stopped ∧ ((s.grdCeased cause).grp g).cause = 1 := by
  rw [State.grdCeased_of_not_ceased cause h]
  exact State.stopped_ceaseStops (s := s.ceaseNoted cause) hg hcease hlive htrip

/-! ### The states of ride-through (Table 10.2) -/

theorem State.grd_rtOpen (s : State) : s.rtOpen.grd = { s.grd with rt := s.grd.rt || !s.grd.rtBlocked } := by
  unfold State.rtOpen
  split
  · next h =>
    have hkept : (s.grd.rt || !s.grd.rtBlocked) = s.grd.rt := by cases hrt : s.grd.rt <;> simp_all
    rw [hkept]
  · next h =>
    have hopens : (s.grd.rt || !s.grd.rtBlocked) = true := by cases hrt : s.grd.rt <;> simp_all
    rw [hopens]
    rfl

theorem State.grd_grdRide (s : State) (st : Nat) : (s.grdRide st).grd =
    { s.grd with st := st, rt := if s.grd.st = st then s.grd.rt else s.grd.rt || !s.grd.rtBlocked } := by
  unfold State.grdRide
  split
  · next h => simp [← h]
  · exact State.grd_rtOpen _

/-- The state of Table 10.2 where no envelope trips. -/
def State.rideState (s : State) : Nat :=
  if s.grd.st = 3 then 3 else if s.gridPu 9 ≠ 0 ∧ s.grd.vmin < s.gridPu 9 then 2
  else if s.grd.tv.isSome || s.grd.tf.isSome then 1 else 0

/-- A move between the states of ride-through takes the state, and opens the ride-through window where it enters RIDE or
MC. -/
theorem State.grd_grdMove (s : State) : ∃ rt blocked, s.grdMove.grd =
      { s.grd with st := s.rideState, rt := rt, rtBlocked := blocked } ∧
    (s.rideState ≠ 0 → s.rideState ≠ s.grd.st → s.grd.rtBlocked = false → rt = true) := by
  unfold State.grdMove State.rideState
  split
  · next hst => exact ⟨s.grd.rt, s.grd.rtBlocked, by rw [← hst], fun _ hne => absurd hst.symm hne⟩
  · split
    · exact ⟨_, _, s.grd_grdRide 2, fun _ hne hfree => by simp [hne.symm, hfree]⟩
    · split
      · exact ⟨_, _, s.grd_grdRide 1, fun _ hne hfree => by simp [hne.symm, hfree]⟩
      · exact ⟨s.grd.rt, false, rfl, fun hne => absurd rfl hne⟩

theorem State.grdMove_of_ceased {s : State} (h : s.grd.st = 3) : s.grdMove = s := if_pos h

/-! ### Transfers (R248) and island decisions (R256) -/

/-- A transfer to grid forming is asked for. -/
def State.gfAsked (s : State) (island : Bool) : State :=
  { s with grd := { s.grd with
      waitGfl := false, w := s.omegaGrid, p := s.instP, q := s.instQ
      delta := wordOfInt (angDiff s.ang.meas s.ang.gen), xfer := true, phNew := true, fromIsland := island } }

/-- A request for the transfer to grid forming is refused. -/
def State.gfRefused (s : State) : State :=
  ({ s with grd := { s.grd with waitGfl := false } } : State).setBit rGRD_STAT 10

theorem State.gfRefused_eq (s : State) : ∃ r, s.gfRefused = { s with
    regs := r, grd := { s.grd with waitGfl := false } } := by
  simp only [State.gfRefused, State.setBit, State.setReg]
  exact ⟨_, rfl⟩

theorem State.gfRequest_of_accepted {s : State} (island : Bool) (hon : s.gridOn = true) (hflag : s.gridFlag 3 = true)
    (hvalid : s.ang.valid = true) : s.gfRequest island = (s.gfAsked island, false) := by
  have hgiven : ¬(!s.gridOn || !s.gridFlag 3 || !s.ang.valid) = true := by simp [hon, hflag, hvalid]
  exact if_neg hgiven

theorem State.gfRequest_of_refused {s : State} (island : Bool)
    (h : s.gridOn = false ∨ s.gridFlag 3 = false ∨ s.ang.valid = false) : s.gfRequest island = (s.gfRefused, true) := by
  have hrefused : (!s.gridOn || !s.gridFlag 3 || !s.ang.valid) = true := by rcases h with h | h | h <;> simp [h]
  exact if_pos hrefused

/-- An island decision as it stands in ISL and the registers, with GRID SUPPORT enabled. -/
def State.islandNoted (s : State) : State :=
  { (s.setBit rISL_STAT 5).inc rISL_CNT_ISLAND with isl := { s.isl with island := true } }

theorem State.islandNoted_eq (s : State) : ∃ r, s.islandNoted = { s with
    regs := r, isl := { s.isl with island := true } } := by
  simp only [State.islandNoted, State.inc, State.count, State.setBit, State.setReg]
  exact ⟨_, rfl⟩

/-- The cause of an island decision that asks for grid forming. -/
def State.islandAsked (s : State) (cause : Nat) : State :=
  { s.islandNoted with grd := { (s.islandNoted.gfAsked true).grd with cause := cause } }

theorem State.islandDecision_of_off {s : State} (cause : Nat) (h : s.gridOn = false) :
    s.islandDecision cause = s.setBit rISL_STAT 5 := if_pos (by rw [h]; rfl)

theorem State.islandDecision_of_on {s : State} (cause : Nat) (h : s.gridOn = true) : s.islandDecision cause =
    if s.grd.st = 3 then s.islandNoted
    else if s.gridFlag 4 then
      let r := s.islandNoted.gfRequest true
      if r.2 then r.1.grdCeased cause else { r.1 with grd := { r.1.grd with cause := cause } }
    else s.islandNoted.grdCeased cause := if_neg (by rw [h]; decide)

theorem State.islandDecision_of_ceased {s : State} (cause : Nat) (hon : s.gridOn = true) (hst : s.grd.st = 3) :
    s.islandDecision cause = s.islandNoted := by rw [State.islandDecision_of_on cause hon, if_pos hst]

theorem State.islandDecision_ceases {s : State} (cause : Nat) (hon : s.gridOn = true) (hst : s.grd.st ≠ 3)
    (hflag : s.gridFlag 4 = false) : s.islandDecision cause = s.islandNoted.grdCeased cause := by
  rw [State.islandDecision_of_on cause hon, if_neg hst, if_neg (Bool.eq_false_iff.mp hflag)]

theorem State.islandDecision_asks {s : State} (cause : Nat) (hon : s.gridOn = true) (hst : s.grd.st ≠ 3)
    (hauto : s.gridFlag 4 = true) (hflag : s.gridFlag 3 = true) (hvalid : s.ang.valid = true) :
    s.islandDecision cause = s.islandAsked cause := by
  rw [State.islandDecision_of_on cause hon, if_neg hst, if_pos hauto,
    State.gfRequest_of_accepted (s := s.islandNoted) true hon hflag hvalid]
  simp only [Bool.false_eq_true, if_false]
  rfl

theorem State.islandDecision_refused {s : State} (cause : Nat) (hon : s.gridOn = true) (hst : s.grd.st ≠ 3)
    (hauto : s.gridFlag 4 = true) (h : s.gridFlag 3 = false ∨ s.ang.valid = false) :
    s.islandDecision cause = s.islandNoted.gfRefused.grdCeased cause := by
  rw [State.islandDecision_of_on cause hon, if_neg hst, if_pos hauto,
    State.gfRequest_of_refused (s := s.islandNoted) true (.inr h)]
  exact if_pos rfl

theorem State.gfAsked_keeps_window (s : State) (island : Bool) :
    (s.gfAsked island).grd.rt = s.grd.rt ∧ (s.gfAsked island).grd.gf = s.grd.gf := by
  simp only [State.gfAsked, and_self]

/-- The two states agree on what the windows read, but for ISLAND, and no ride-through window is open in the second. -/
def State.IslandFrom (s t : State) (island : Bool) : Prop :=
  ∃ r p e g, t = { s with regs := r, pwm := p, evt := e, grd := g, isl := { s.isl with island := island } } ∧
    g.rt = false ∧ g.gf = s.grd.gf

theorem State.IslandFrom.grdCeased {s t : State} {b : Bool} (cause : Nat) (h : s.IslandFrom t b) (hst : t.grd.st ≠ 3) :
    s.IslandFrom (t.grdCeased cause) b := by
  obtain ⟨r, p, e, g, rfl, hrt, hgf⟩ := h
  obtain ⟨r', p', e', heq⟩ := State.grdCeased_eq cause hst
  refine ⟨r', p', e', g.ceased cause, heq.trans ?_, rfl, hgf⟩
  simp only [hrt, Bool.false_or]

/-- Where no ride-through window is open, an island decision makes ISLAND of ISL, and leaves all that the windows read. -/
theorem State.islandDecision_from {s : State} (cause : Nat) (hrt : s.grd.rt = false) :
    s.IslandFrom (s.islandDecision cause) (s.gridOn || s.isl.island) := by
  cases hon : s.gridOn with
  | false =>
    rw [State.islandDecision_of_off cause hon]
    exact ⟨_, _, _, s.grd, rfl, hrt, rfl⟩
  | true =>
    obtain ⟨r, hnoted⟩ := s.islandNoted_eq
    have hgrd : s.islandNoted.grd = s.grd := by rw [hnoted]
    have hfrom : ∀ g : Grd, g.rt = false → g.gf = s.grd.gf → s.IslandFrom { s.islandNoted with grd := g } true :=
      fun g hg hgf => ⟨r, s.pwm, s.evt, g, by rw [hnoted], hg, hgf⟩
    have hrefused : s.IslandFrom s.islandNoted.gfRefused true := by
      obtain ⟨r', heq⟩ := s.islandNoted.gfRefused_eq
      rw [heq, hnoted]
      exact ⟨r', s.pwm, s.evt, { s.grd with waitGfl := false }, rfl, hrt, rfl⟩
    obtain ⟨haskedRt, haskedGf⟩ := s.islandNoted.gfAsked_keeps_window true
    rw [hgrd] at haskedRt haskedGf
    rw [Bool.true_or]
    by_cases hst : s.grd.st = 3
    · rw [State.islandDecision_of_ceased cause hon hst]
      exact hfrom s.grd hrt rfl
    cases hauto : s.gridFlag 4 with
    | false =>
      rw [State.islandDecision_ceases cause hon hst hauto]
      exact (hfrom s.grd hrt rfl).grdCeased cause hst
    | true =>
      by_cases hgiven : s.gridFlag 3 = true ∧ s.ang.valid = true
      · rw [State.islandDecision_asks cause hon hst hauto hgiven.1 hgiven.2]
        exact hfrom _ (haskedRt.trans hrt) haskedGf
      · have hlacks : s.gridFlag 3 = false ∨ s.ang.valid = false := by
          simpa [Decidable.or_iff_not_imp_left] using hgiven
        rw [State.islandDecision_refused cause hon hst hauto hlacks]
        exact hrefused.grdCeased cause hst

/-- A source that has decided already is left, and one that has not decides. -/
theorem State.islDecideOnce_of_decided {s : State} {k : Nat} (cause : Nat) (h : bit s.isl.decided k = true) :
    s.islDecideOnce k cause = s := if_pos h

theorem State.islDecideOnce_of_undecided {s : State} {k : Nat} (cause : Nat) (h : bit s.isl.decided k = false) :
    s.islDecideOnce k cause =
      ({ s with isl := { s.isl with decided := s.isl.decided ||| 2 ^ k } } : State).islandDecision cause :=
  if_neg (Bool.eq_false_iff.mp h)

theorem State.islDecide_of_due {s : State} {k : Nat} (hdue : s.islDue k = true) (hheld : s.islHeld = false)
    (hgf : s.grd.gf = false) : s.islDecide k = s.islDecideOnce k (6 + k) := if_pos (by rw [hdue, hheld, hgf]; rfl)

theorem State.islDecide_of_idle {s : State} {k : Nat} (h : s.islDue k = false ∨ s.islHeld = true ∨ s.grd.gf = true) :
    s.islDecide k = s := by
  have hidle : ¬(s.islDue k && !s.islHeld && !s.grd.gf) = true := by rcases h with h | h | h <;> simp [h]
  exact if_neg hidle

end Sys2Proof.Machine
end

section
/-!
GRD_UPDATE (R239, R241, R242, R250, R260): the metric, the move between the states of ride-through, the conditions of the
passive windows and the time of reconnection, in the order of the command.
-/

namespace Sys2Proof.Machine

/-! ### The metric -/

theorem State.grdMetric_of_sound {s : State} (h : ∀ k, k < 3 → s.halfPeriod k ≠ [] ∧ ∀ e ∈ s.halfPeriod k, e.reason = 0) :
    s.grdMetric = { s with grd := { s.grd with
      vmin := min (s.phasePu 0) (min (s.phasePu 1) (s.phasePu 2))
      vmax := max (s.phasePu 0) (max (s.phasePu 1) (s.phasePu 2)) } } := by
  refine if_pos (List.all_eq_true.mpr fun k hk => ?_)
  obtain ⟨hne, hsound⟩ := h k (List.mem_range.mp hk)
  rw [Bool.and_eq_true, Bool.not_eq_true', List.isEmpty_eq_false_iff, List.all_eq_true]
  exact ⟨hne, fun e he => beq_iff_eq.mpr (hsound e he)⟩

theorem State.grdMetric_of_unsound {s : State} {k : Nat} (hk : k < 3)
    (h : s.halfPeriod k = [] ∨ (s.halfPeriod k).any (fun e => e.reason != 0) = true) : s.grdMetric = s := by
  refine if_neg fun hall => ?_
  have hsound := List.all_eq_true.mp hall k (List.mem_range.mpr hk)
  rw [Bool.and_eq_true, Bool.not_eq_true', List.isEmpty_eq_false_iff, List.all_eq_true] at hsound
  obtain ⟨hne, hreason⟩ := hsound
  rcases h with h | h
  · exact hne h
  · obtain ⟨e, he, hbad⟩ := List.any_eq_true.mp h
    exact bne_iff_ne.mp hbad (beq_iff_eq.mp (hreason e he))

theorem State.grdMetric_eq (s : State) : ∃ a b, s.grdMetric = { s with grd := { s.grd with vmin := a, vmax := b } } := by
  unfold State.grdMetric
  split
  · exact ⟨_, _, rfl⟩
  · exact ⟨s.grd.vmin, s.grd.vmax, rfl⟩

/-! ### The timers and the move between the states -/

/-- The timers of ride-through on an update. -/
def State.rideTicked (s : State) : State :=
  { s with grd := { s.grd with tv := tickTimer s.grd.tv s.vInBand, tf := tickTimer s.grd.tf s.fInBand } }

/-- The move of an update: to CEASED where an envelope trips, else by Table 10.2. -/
def State.rideMoved (s : State) : State :=
  match s.envTrip with
  | some cause => s.grdCeased cause
  | none => s.grdMove

/-- The state of an update whose metric, timers and move are done. -/
def State.ridden (s : State) : State := if s.gridOn then s.grdMetric.rideTicked.rideMoved else s.grdMetric

theorem State.rideTicked_grdMetric_eq (s : State) : ∃ g, s.grdMetric.rideTicked = { s with grd := g } ∧
    g.st = s.grd.st ∧ g.rtBlocked = s.grd.rtBlocked := by
  obtain ⟨a, b, hmetric⟩ := s.grdMetric_eq
  rw [hmetric]
  exact ⟨_, rfl, rfl, rfl⟩

theorem State.rideMoved_of_trip {s : State} {cause : Nat} (h : s.envTrip = some cause) :
    s.rideMoved = s.grdCeased cause := by rw [State.rideMoved, h]

theorem State.rideMoved_of_none {s : State} (h : s.envTrip = none) : s.rideMoved = s.grdMove := by rw [State.rideMoved, h]

theorem State.rideMoved_of_ceased {s : State} (h : s.grd.st = 3) : s.rideMoved = s := by
  cases htrip : s.envTrip with
  | none => rw [State.rideMoved_of_none htrip, State.grdMove_of_ceased h]
  | some cause => rw [State.rideMoved_of_trip htrip, State.grdCeased_of_ceased cause h]

theorem State.grd_grdCeased {s : State} (cause : Nat) (h : s.grd.st ≠ 3) : (s.grdCeased cause).grd = s.grd.ceased cause := by
  obtain ⟨r, p, e, heq⟩ := State.grdCeased_eq cause h
  rw [heq]

/-- What a move between the states of ride-through leaves of GRD: the metric, the timers and the mode. -/
structure Grd.Rides (g h : Grd) : Prop where
  vmin : h.vmin = g.vmin
  vmax : h.vmax = g.vmax
  tv : h.tv = g.tv
  tf : h.tf = g.tf
  gf : h.gf = g.gf

theorem State.rideMoved_rides (s : State) : s.grd.Rides s.rideMoved.grd := by
  cases htrip : s.envTrip with
  | none =>
    obtain ⟨rt, blocked, hgrd, -⟩ := s.grd_grdMove
    rw [State.rideMoved_of_none htrip, hgrd]
    exact ⟨rfl, rfl, rfl, rfl, rfl⟩
  | some cause =>
    rw [State.rideMoved_of_trip htrip]
    by_cases hst : s.grd.st = 3
    · rw [State.grdCeased_of_ceased cause hst]
      exact ⟨rfl, rfl, rfl, rfl, rfl⟩
    · rw [State.grd_grdCeased cause hst]
      exact ⟨rfl, rfl, rfl, rfl, rfl⟩

theorem State.ridden_of_on {s : State} (h : s.gridOn = true) : s.ridden = s.grdMetric.rideTicked.rideMoved := if_pos h

theorem State.ridden_of_off {s : State} (h : s.gridOn = false) : s.ridden = s.grdMetric := if_neg (Bool.eq_false_iff.mp h)

theorem State.ridden_metric (s : State) : s.ridden.grd.vmin = s.grdMetric.grd.vmin ∧
    s.ridden.grd.vmax = s.grdMetric.grd.vmax ∧ s.ridden.grd.gf = s.grd.gf := by
  have hgf : s.grdMetric.grd.gf = s.grd.gf := by
    obtain ⟨a, b, hmetric⟩ := s.grdMetric_eq
    rw [hmetric]
  cases hon : s.gridOn with
  | false =>
    rw [State.ridden_of_off hon]
    exact ⟨rfl, rfl, hgf⟩
  | true =>
    rw [State.ridden_of_on hon]
    have hrides := s.grdMetric.rideTicked.rideMoved_rides
    exact ⟨hrides.vmin, hrides.vmax, hrides.gf.trans hgf⟩

/-! ### The conditions of the passive windows -/

/-- A sum of distinct powers of two spells the set that it is over. -/
theorem bit_foldl_two_pow (p : Nat → Bool) (n k : Nat) :
    bit ((((List.range n).filter p).map fun j => 2 ^ j).foldl (· + ·) 0) k = (decide (k < n) && p k) ∧
      (((List.range n).filter p).map fun j => 2 ^ j).foldl (· + ·) 0 < 2 ^ n := by
  induction n with
  | zero => simp [bit]
  | succ n ih =>
    rw [List.range_succ, List.filter_append, List.map_append, List.foldl_append]
    generalize (((List.range n).filter p).map fun j => 2 ^ j).foldl (· + ·) 0 = x at ih
    obtain ⟨hbit, hlt⟩ := ih
    rw [bit_eq_testBit] at hbit ⊢
    cases hp : p n with
    | false =>
      have hskip : (([n].filter p).map fun j => 2 ^ j).foldl (· + ·) x = x := by simp [hp]
      rw [hskip, hbit, Nat.pow_succ]
      refine ⟨?_, by omega⟩
      by_cases hk : k = n
      · simp [hk, hp]
      · have hiff : k < n + 1 ↔ k < n := by omega
        simp only [hiff]
    | true =>
      have htake : (([n].filter p).map fun j => 2 ^ j).foldl (· + ·) x = 2 ^ n + x := by simp [hp, Nat.add_comm]
      rw [htake, Nat.pow_succ]
      refine ⟨?_, by omega⟩
      rcases Nat.lt_trichotomy k n with hk | hk | hk
      · rw [Nat.testBit_two_pow_add_gt hk, hbit]
        simp [hk, Nat.lt_succ_of_lt hk]
      · subst hk
        simp [Nat.testBit_two_pow_add_eq, hbit, hp]
      · have hzero : (2 ^ n + x).testBit k = false :=
          Nat.testBit_lt_two_pow (Nat.lt_of_lt_of_le (by rw [Nat.pow_succ]; omega) (Nat.pow_le_pow_right (by decide) hk))
        simp [hzero, Nat.not_lt.mpr hk]

theorem State.passive_islUpdate_of_gf {s : State} (h : s.grd.gf = true) : s.islUpdate.isl.passive = 0 := by
  rw [State.islUpdate, if_pos h]

theorem State.passive_islUpdate {s : State} (h : s.grd.gf = false) : s.islUpdate.isl.passive =
    (((List.range 6).filter fun k => s.islCondition k).map fun k => 2 ^ k).foldl (· + ·) 0 := by
  rw [State.islUpdate, if_neg (Bool.eq_false_iff.mp h)]
  extract_lets cond was since passive isl t
  split <;> rfl

theorem State.bit_passive_islUpdate {s : State} {k : Nat} (h : s.grd.gf = false) (hk : k < 6) :
    bit s.islUpdate.isl.passive k = s.islCondition k := by
  rw [State.passive_islUpdate h, (bit_foldl_two_pow ..).1, decide_eq_true hk, Bool.true_and]

theorem State.islUpdate_eq (s : State) : ∃ r i, s.islUpdate = { s with regs := r, isl := i } ∧
    ∀ a, a ≠ rISL_CNT_HOLD → SMap.get regReset r a = s.reg a := by
  unfold State.islUpdate
  split
  · exact ⟨_, _, rfl, fun _ _ => rfl⟩
  · extract_lets cond was since passive isl t
    split
    · exact ⟨_, _, rfl, fun a ha => t.reg_inc_of_ne ha⟩
    · exact ⟨_, _, rfl, fun _ _ => rfl⟩

theorem State.grd_islUpdate (s : State) : s.islUpdate.grd = s.grd := by
  obtain ⟨r, i, heq, -⟩ := s.islUpdate_eq
  rw [heq]

theorem State.grp_islUpdate (s : State) (g : Nat) : s.islUpdate.grp g = s.grp g := by
  obtain ⟨r, i, heq, -⟩ := s.islUpdate_eq
  rw [heq]
  rfl

theorem State.reg_islUpdate_of_ne (s : State) {a : Nat} (ha : a ≠ rISL_CNT_HOLD) : s.islUpdate.reg a = s.reg a := by
  obtain ⟨r, i, heq, hreg⟩ := s.islUpdate_eq
  rw [heq]
  exact hreg a ha

/-! ### The time of reconnection -/

theorem State.grdRecon_eq (s : State) :
    ∃ ms ok, s.grdRecon = { s with grd := { s.grd with reconMs := ms, reconOk := ok } } := by
  unfold State.grdRecon
  split
  · split <;> exact ⟨_, _, rfl⟩
  · exact ⟨s.grd.reconMs, s.grd.reconOk, rfl⟩

theorem State.reconMs_grdRecon {s : State} (h : s.grd.st = 3) : s.grdRecon.grd.reconMs =
    if s.grdRecon.reconCond then satInc s.grd.reconMs else 0 := by
  obtain ⟨ms, ok, heq⟩ := s.grdRecon_eq
  have hcond : s.grdRecon.reconCond = s.reconCond := by rw [heq]; rfl
  rw [hcond, State.grdRecon, if_pos h]
  split <;> rfl

/-! ### The command -/

theorem State.gridOn_grdMetric (s : State) : s.grdMetric.gridOn = s.gridOn := by
  obtain ⟨a, b, hmetric⟩ := s.grdMetric_eq
  rw [hmetric]
  rfl

theorem exec_grdUpdate_of_on {s : State} (h : s.gridOn = true) :
    exec .grdUpdate s = .next s.ridden.islUpdate.grdRecon := by
  rw [State.ridden_of_on h]
  exact congrArg Host.Outcome.next (if_pos (s.gridOn_grdMetric.trans h))

theorem exec_grdUpdate_of_off {s : State} (h : s.gridOn = false) : exec .grdUpdate s = .next s.ridden.islUpdate := by
  rw [State.ridden_of_off h]
  exact congrArg Host.Outcome.next (if_neg (Bool.eq_false_iff.mp (s.gridOn_grdMetric.trans h)))

/-- After the metric, the timers and the move, an update changes ISL, one register and what GRD keeps of reconnection. -/
theorem exec_grdUpdate_eq (s : State) : ∃ ms ok, exec .grdUpdate s = .next ({ s.ridden.islUpdate with
    grd := { s.ridden.grd with reconMs := ms, reconOk := ok } } : State) := by
  rw [← s.ridden.grd_islUpdate]
  cases hon : s.gridOn with
  | false => exact ⟨_, _, exec_grdUpdate_of_off hon⟩
  | true =>
    obtain ⟨ms, ok, heq⟩ := s.ridden.islUpdate.grdRecon_eq
    exact ⟨ms, ok, (exec_grdUpdate_of_on hon).trans (by rw [heq])⟩

/-- Settles O32: the command is `exec_grdUpdate_eq`; the metric is `grdMetric`, the move `grdCeased` or `grdMove`, the
conditions `bit_passive_islUpdate` and the time of reconnection `reconMs_grdRecon`. -/
theorem gridUpdateCompletes : Obligations.GridUpdateCompletes := by
  unfold Obligations.GridUpdateCompletes
  refine ⟨?sound, ?unsound, ?timers, ?trips, ?moves, ?ceased, ?passive, ?off⟩
  case sound =>
    intro s h
    obtain ⟨ms, ok, hexec⟩ := exec_grdUpdate_eq s
    obtain ⟨hmin, hmax, -⟩ := s.ridden_metric
    rw [State.grdMetric_of_sound h] at hmin hmax
    exact ⟨_, hexec, hmin, hmax⟩
  case unsound =>
    intro s k hk h
    obtain ⟨ms, ok, hexec⟩ := exec_grdUpdate_eq s
    obtain ⟨hmin, hmax, -⟩ := s.ridden_metric
    rw [State.grdMetric_of_unsound hk h] at hmin hmax
    exact ⟨_, hexec, hmin, hmax⟩
  case timers =>
    rintro s r rfl hon
    obtain ⟨ms, ok, hexec⟩ := exec_grdUpdate_eq s
    obtain ⟨a, b, hmetric⟩ := s.grdMetric_eq
    have hrides := s.grdMetric.rideTicked.rideMoved_rides
    rw [← State.ridden_of_on hon] at hrides
    refine ⟨_, hexec, hrides.tv.trans ?_, hrides.tf.trans ?_⟩ <;> rw [hmetric] <;> rfl
  case trips =>
    rintro s r u k rfl hon hst rfl htrip
    obtain ⟨ms, ok, hexec⟩ := exec_grdUpdate_eq s
    rw [State.ridden_of_on hon, State.rideMoved_of_trip (s := s.grdMetric.rideTicked) htrip] at hexec
    obtain ⟨g, hticked, hsame, -⟩ := s.rideTicked_grdMetric_eq
    rw [hticked] at hexec
    generalize hu : ({ s with grd := g } : State) = u at hexec
    have hopen : u.grd.st ≠ 3 := by
      rw [← hu]
      exact fun h => hst (hsame.symm.trans h)
    obtain ⟨hstat, hirq, hcount⟩ := State.grdCeased_noted k hopen
    have hgrd := State.grd_grdCeased k hopen
    have hreg : ∀ a, a ≠ rISL_CNT_HOLD → (u.grdCeased k).islUpdate.reg a = (u.grdCeased k).reg a :=
      fun _ => State.reg_islUpdate_of_ne _
    refine ⟨_, hexec, congrArg Grd.st hgrd, congrArg Grd.cause hgrd, congrArg Grd.rt hgrd,
      (congrArg (·.getLsbD 8) (hreg rGRD_STAT (by decide))).trans hstat,
      (congrArg (·.getLsbD 4) (hreg rHST_IRQ_SRC (by decide))).trans hirq,
      (congrArg BitVec.toNat (hreg rGRD_CNT_CEASE (by decide))).trans (hcount.trans ?_),
      fun h hh hcease hlive htripHop => (congrArg Group.st (State.grp_islUpdate _ h)).trans ?_⟩ <;> subst hu
    · rfl
    · exact (State.stopped_grdCeased k hopen hh hcease hlive htripHop).1
  case moves =>
    rintro s r u rfl hon hst rfl htrip
    obtain ⟨ms, ok, hexec⟩ := exec_grdUpdate_eq s
    rw [State.ridden_of_on hon, State.rideMoved_of_none (s := s.grdMetric.rideTicked) htrip] at hexec
    obtain ⟨g, hticked, hsame, hblocked⟩ := s.rideTicked_grdMetric_eq
    obtain ⟨rt, blocked, hgrd, hopens⟩ := s.grdMetric.rideTicked.grd_grdMove
    have hst' : s.grdMetric.rideTicked.grd.st = s.grd.st := by rw [hticked]; exact hsame
    have hblocked' : s.grdMetric.rideTicked.grd.rtBlocked = s.grd.rtBlocked := by rw [hticked]; exact hblocked
    have hlevel : s.grdMetric.rideTicked.gridPu 9 = s.gridPu 9 := by rw [hticked]; rfl
    have hstate : s.grdMetric.rideTicked.grdMove.grd.st = s.grdMetric.rideTicked.rideState := congrArg Grd.st hgrd
    rw [hst', hblocked', ← hstate] at hopens
    refine ⟨_, hexec, hstate.trans ?_, fun hne hmoved hfree => (congrArg Grd.rt hgrd).trans (hopens hne hmoved hfree)⟩
    rw [State.rideState, hst', if_neg hst, hlevel]
    rfl
  case ceased =>
    intro s hon hst
    obtain ⟨a, b, hmetric⟩ := s.grdMetric_eq
    have hridden : s.ridden = s.grdMetric.rideTicked := by
      rw [State.ridden_of_on hon, hmetric]
      exact State.rideMoved_of_ceased hst
    have hgrd : s.ridden.islUpdate.grd.st = 3 ∧ s.ridden.islUpdate.grd.reconMs = s.grd.reconMs := by
      rw [State.grd_islUpdate, hridden, hmetric]
      exact ⟨hst, rfl⟩
    refine ⟨_, exec_grdUpdate_of_on hon, ?_, ?_⟩
    · obtain ⟨ms, ok, heq⟩ := s.ridden.islUpdate.grdRecon_eq
      rw [heq]
      exact hgrd.1
    · rw [State.reconMs_grdRecon hgrd.1, hgrd.2]
  case passive =>
    intro s
    obtain ⟨ms, ok, hexec⟩ := exec_grdUpdate_eq s
    obtain ⟨-, -, hgf⟩ := s.ridden_metric
    refine ⟨_, hexec, fun h => State.passive_islUpdate_of_gf (hgf.trans h), fun h k hk => ?_⟩
    refine (State.bit_passive_islUpdate (hgf.trans h) hk).trans ?_
    obtain ⟨r, i, heq, -⟩ := s.ridden.islUpdate_eq
    rw [heq]
    rfl
  case off =>
    intro s hon
    obtain ⟨ms, ok, hexec⟩ := exec_grdUpdate_eq s
    obtain ⟨a, b, hmetric⟩ := s.grdMetric_eq
    rw [State.ridden_of_off hon, hmetric] at hexec
    exact ⟨_, hexec, rfl, rfl, rfl⟩

end Sys2Proof.Machine
end

section
/-!
The commands of grid support (R241 to R249, R258 to R260): what each answers, and the sweep of THOLD_EXPIRY over the passive
windows.
-/

namespace Sys2Proof.Machine

/-! ### The timers and the windows of ride-through -/

theorem exec_rideTimerStop_frequency {s : State} (hband : s.fInBand = true) (hruns : s.grd.tf.isSome = true) :
    exec (.rideTimerStop true) s = .next ({ s with grd := { s.grd with tf := none } } : State).grdMove := by
  have hdue : (s.fInBand && s.grd.tf.isSome) = true := by rw [hband, hruns]; rfl
  exact congrArg Host.Outcome.next ((if_pos rfl).trans (if_pos hdue))

theorem exec_rideTimerStop_voltage {s : State} (hband : s.vInBand = true) (hruns : s.grd.tv.isSome = true) :
    exec (.rideTimerStop false) s = .next ({ s with grd := { s.grd with tv := none } } : State).grdMove := by
  have hdue : (s.vInBand && s.grd.tv.isSome) = true := by rw [hband, hruns]; rfl
  exact congrArg Host.Outcome.next ((if_neg Bool.false_ne_true).trans (if_pos hdue))

theorem exec_rtTailExpiry_of_normal {s : State} (hst : s.grd.st = 0) :
    exec .rtTailExpiry s = .next (s.rtClose false) := congrArg Host.Outcome.next (if_pos hst)

theorem exec_rtTailExpiry_of_idle {s : State} (h : s.grd.st ≠ 0 ∨ s.grd.rt = false) : exec .rtTailExpiry s = .next s := by
  by_cases hst : s.grd.st = 0
  · rw [exec_rtTailExpiry_of_normal hst, State.rtClose_of_closed false (h.resolve_left (not_not_intro hst))]
  · exact congrArg Host.Outcome.next (if_neg hst)

theorem exec_rtMaxExpiry (s : State) : exec .rtMaxExpiry s = .next (s.rtClose (decide (s.grd.st ≠ 0))) := rfl

/-! ### A sweep of decisions (R250, R258) -/

/-- What decisions leave of all that a later decision reads, and what they set: a source that has decided meanwhile has made
ISLAND where GRID SUPPORT is enabled. -/
structure State.Decides (s t : State) : Prop where
  gridOn : t.gridOn = s.gridOn
  gf : t.grd.gf = s.grd.gf
  held : s.islHeld = false → t.islHeld = false
  tail : t.isl.tail = s.isl.tail
  due : ∀ k, t.islDue k = s.islDue k
  decided : ∀ k, bit s.isl.decided k = true → bit t.isl.decided k = true
  island : s.isl.island = true → t.isl.island = true
  makes : s.gridOn = true → ∀ k, bit s.isl.decided k = false → bit t.isl.decided k = true → t.isl.island = true

theorem State.Decides.rfl {s : State} : s.Decides s :=
  ⟨.refl _, .refl _, id, .refl _, fun _ => .refl _, fun _ => id, id, fun _ _ h h' => absurd (h.symm.trans h') (by decide)⟩

theorem State.Decides.trans {s t u : State} (h : s.Decides t) (h' : t.Decides u) : s.Decides u where
  gridOn := h'.gridOn.trans h.gridOn
  gf := h'.gf.trans h.gf
  held hs := h'.held (h.held hs)
  tail := h'.tail.trans h.tail
  due k := (h'.due k).trans (h.due k)
  decided k hk := h'.decided k (h.decided k hk)
  island hs := h'.island (h.island hs)
  makes hon k hs hu := by
    cases ht : bit t.isl.decided k with
    | true => exact h'.island (h.makes hon k hs ht)
    | false => exact h'.makes (h.gridOn.trans hon) k ht hu

theorem State.islHeld_eq_false_iff {s : State} : s.islHeld = false ↔ s.grd.rt = false ∧ s.isl.tail = false :=
  Bool.or_eq_false_iff

/-- A source that has not decided yet decides, and is noted. -/
theorem State.islDecideOnce_from {s : State} {k : Nat} (cause : Nat) (hrt : s.grd.rt = false)
    (h : bit s.isl.decided k = false) : ∃ r p e g, s.islDecideOnce k cause = { s with
      regs := r, pwm := p, evt := e, grd := g
      isl := { s.isl with decided := s.isl.decided ||| 2 ^ k, island := s.gridOn || s.isl.island } } ∧
      g.rt = false ∧ g.gf = s.grd.gf := by
  rw [State.islDecideOnce_of_undecided cause h]
  exact State.islandDecision_from (s := { s with isl := { s.isl with decided := s.isl.decided ||| 2 ^ k } }) cause hrt

theorem State.islDecideOnce_decides {s : State} {k : Nat} (cause : Nat) (hrt : s.grd.rt = false) :
    s.Decides (s.islDecideOnce k cause) ∧ bit (s.islDecideOnce k cause).isl.decided k = true := by
  cases hk : bit s.isl.decided k with
  | true =>
    rw [State.islDecideOnce_of_decided cause hk]
    exact ⟨.rfl, hk⟩
  | false =>
    obtain ⟨r, p, e, g, heq, hg, hgf⟩ := State.islDecideOnce_from cause hrt hk
    rw [heq]
    refine ⟨⟨rfl, hgf, fun hs => ?_, rfl, fun _ => rfl, fun j hj => ?_, fun hi => ?_, fun hon _ _ _ => ?_⟩, ?_⟩
    · exact State.islHeld_eq_false_iff.mpr ⟨hg, (State.islHeld_eq_false_iff.mp hs).2⟩
    · rw [bit_or_two_pow, hj, Bool.true_or]
    · rw [hi, Bool.or_true]
    · rw [hon, Bool.true_or]
    · rw [bit_or_two_pow, decide_eq_true rfl, Bool.or_true]

theorem State.islDecide_decides {s : State} (k : Nat) (hheld : s.islHeld = false) (hgf : s.grd.gf = false) :
    s.Decides (s.islDecide k) ∧ (s.islDue k = true → bit (s.islDecide k).isl.decided k = true) := by
  cases hdue : s.islDue k with
  | false =>
    rw [State.islDecide_of_idle (.inl hdue)]
    exact ⟨.rfl, nofun⟩
  | true =>
    rw [State.islDecide_of_due hdue hheld hgf]
    obtain ⟨hdecides, hnoted⟩ := State.islDecideOnce_decides (k := k) (6 + k) (State.islHeld_eq_false_iff.mp hheld).1
    exact ⟨hdecides, fun _ => hnoted⟩

theorem State.each_islDecide {s : State} (l : List Nat) (hheld : s.islHeld = false) (hgf : s.grd.gf = false) :
    s.Decides (s.each l State.islDecide) ∧
      ∀ k ∈ l, s.islDue k = true → bit (s.each l State.islDecide).isl.decided k = true := by
  induction l generalizing s with
  | nil => exact ⟨.rfl, nofun⟩
  | cons j l ih =>
    obtain ⟨hstep, hnoted⟩ := State.islDecide_decides j hheld hgf
    obtain ⟨hrest, hall⟩ := ih (hstep.held hheld) (hstep.gf.trans hgf)
    refine ⟨hstep.trans hrest, fun k hk hdue => ?_⟩
    rcases List.mem_cons.mp hk with rfl | hk
    · exact hrest.decided k (hnoted hdue)
    · exact hall k hk ((hstep.due k).trans hdue)

theorem State.each_islDecide_of_none_due {s : State} {l : List Nat} (h : ∀ k ∈ l, s.islDue k = false) :
    s.each l State.islDecide = s :=
  List.foldlRecOn (motive := fun t : State => t = s) _ _ rfl fun _ ht k hk => by
    rw [ht]
    exact State.islDecide_of_idle (.inl (h k hk))

/-- THOLD has run out. -/
def State.tholdEnded (s : State) : State := { s with isl := { s.isl with tail := false } }

theorem State.islDue_tholdEnded (s : State) (k : Nat) : s.tholdEnded.islDue k = s.islDue k := rfl

theorem State.islHeld_tholdEnded {s : State} (hrt : s.grd.rt = false) : s.tholdEnded.islHeld = false :=
  State.islHeld_eq_false_iff.mpr ⟨hrt, rfl⟩

theorem exec_tholdExpiry_of_tail {s : State} (htail : s.isl.tail = true) (hrt : s.grd.rt = false) :
    exec .tholdExpiry s = .next (s.tholdEnded.each (List.range 6) State.islDecide) :=
  congrArg Host.Outcome.next (if_pos (by rw [htail, hrt]; rfl))

/-! ### Limiting and the transfers (R247 to R249) -/

theorem exec_limitingClear_of_below {s : State} (hlim : s.grd.limiting = true) (hpeak : 20 * s.grd.peak < 19 * s.gridPu 224) :
    exec .limitingClear s = .next ({ s with grd := { s.grd with limiting := false } } : State) :=
  congrArg Host.Outcome.next (if_pos (by rw [hlim, decide_eq_true hpeak]; rfl))

theorem exec_limitingClear_of_above {s : State} (hpeak : 19 * s.gridPu 224 ≤ 20 * s.grd.peak) :
    exec .limitingClear s = .next s :=
  congrArg Host.Outcome.next (if_neg (by rw [decide_eq_false (Int.not_lt.mpr hpeak), Bool.and_false]; decide))

theorem exec_grdGf (s : State) : exec .grdGf s = .next (s.gfRequest false).1 := rfl

/-- A transfer that has run out of time, given up. -/
def State.gfGivenUp (s : State) : State :=
  ({ s with grd := { s.grd with xfer := false, phNew := false, fromIsland := false } } : State).setBit rGRD_STAT 10

theorem exec_gfTransferTimeout_of_xfer {s : State} (h : s.grd.xfer = true) : exec .gfTransferTimeout s =
    .next (if s.grd.fromIsland then s.gfGivenUp.grdCeased s.grd.cause else s.gfGivenUp) :=
  congrArg Host.Outcome.next (if_pos h)

theorem exec_gflTransfer_of_tracked {s : State} (hwait : s.grd.waitGfl = true) (hvalid : s.ang.valid = true)
    (hturns : 20 * turnUnits ≤ (s.ang.sch + 2 ^ 96 - s.ang.validAt) % 2 ^ 96) : exec .gflTransfer s =
      .next (({ s.setReg rANG_SRC 0 with grd := { s.grd with waitGfl := false, gf := false } } : State).inc
        rGRD_CNT_GFXFER) :=
  congrArg Host.Outcome.next (if_pos (by rw [hwait, hvalid, decide_eq_true hturns]; rfl))

theorem exec_gflTransfer_of_idle {s : State} (h : s.grd.waitGfl = false ∨ s.ang.valid = false) :
    exec .gflTransfer s = .next s :=
  congrArg Host.Outcome.next (if_neg (by rcases h with h | h <;> simp [h]))

/-! ### CEASE, RESUME and RECON_OK (R259, R260) -/

theorem exec_grdCease_of_on {s : State} (h : s.gridOn = true) : exec .grdCease s = .next (s.grdCeased 12) :=
  congrArg Host.Outcome.next (if_pos h)

theorem exec_grdCease_of_idle {s : State} (h : s.gridOn = false ∨ s.grd.st = 3) : exec .grdCease s = .next s := by
  rcases h with hoff | hst
  · exact congrArg Host.Outcome.next (if_neg (Bool.eq_false_iff.mp hoff))
  · exact congrArg Host.Outcome.next (by rw [State.grdCeased_of_ceased 12 hst, ite_self])

theorem exec_grdResume_of_ok {s : State} (hst : s.grd.st = 3) (hok : s.grd.reconOk = true) :
    exec .grdResume s = .next { s with
      grd := { s.grd with
        st := 0, rtBlocked := false, reconOk := false, reconMs := 0, tv := none, tf := none, ramp := 0 }
      isl := { s.isl with island := false } } :=
  congrArg Host.Outcome.next (if_pos (by rw [hst, hok]; rfl))

theorem exec_grdResume_of_refused {s : State} (h : s.grd.st ≠ 3 ∨ s.grd.reconOk = false) :
    exec .grdResume s = .next (s.setBit rGRD_STAT 11) :=
  congrArg Host.Outcome.next (if_neg (by rcases h with h | h <;> simp [h]))

theorem exec_reconOk_of_held {s : State} (hst : s.grd.st = 3) (hcond : s.reconCond = true) :
    exec .reconOk s = .next { s with grd := { s.grd with reconOk := true } } :=
  congrArg Host.Outcome.next (if_pos (by rw [hst, hcond]; rfl))

/-! ### The statement -/

/-- Settles O33: the timers move GRD by `grd_grdMove`, THOLD_EXPIRY decides by `each_islDecide`, and CEASE and the timeout of
an island decision's transfer enter CEASED by `grdCeased_noted`; the rest is one branch each. -/
theorem gridCommandsComplete : Obligations.GridCommandsComplete := by
  unfold Obligations.GridCommandsComplete
  refine ⟨?stopF, ?stopV, ?tail, fun _ => exec_rtTailExpiry_of_idle, ?max, ?maxIdle, ?noneDue, ?due,
    fun _ => exec_limitingClear_of_below, fun _ => exec_limitingClear_of_above, ?gf, ?gfRefused, ?timeout,
    ?timeoutCeases, fun _ => rfl, fun _ => exec_gflTransfer_of_tracked, fun _ => exec_gflTransfer_of_idle, ?cease,
    fun _ => exec_grdCease_of_idle, fun _ => exec_grdResume_of_ok, fun _ => exec_grdResume_of_refused,
    fun _ => exec_reconOk_of_held⟩
  case stopF =>
    intro s hband hruns
    obtain ⟨rt, blocked, hgrd, -⟩ := ({ s with grd := { s.grd with tf := none } } : State).grd_grdMove
    refine ⟨_, exec_rideTimerStop_frequency hband hruns, by rw [hgrd], by rw [hgrd],
      (congrArg Grd.st hgrd).trans ?_⟩
    simp only [State.rideState, Option.isSome_none, Bool.or_false]
    rfl
  case stopV =>
    intro s hband hruns
    obtain ⟨rt, blocked, hgrd, -⟩ := ({ s with grd := { s.grd with tv := none } } : State).grd_grdMove
    refine ⟨_, exec_rideTimerStop_voltage hband hruns, by rw [hgrd], by rw [hgrd],
      (congrArg Grd.st hgrd).trans ?_⟩
    simp only [State.rideState, Option.isSome_none, Bool.false_or]
    rfl
  case tail => exact fun s hst hrt => by rw [exec_rtTailExpiry_of_normal hst, State.rtClose_of_open false hrt]
  case max => exact fun s hrt => by rw [exec_rtMaxExpiry, State.rtClose_of_open _ hrt]
  case maxIdle => exact fun s hrt => by rw [exec_rtMaxExpiry, State.rtClose_of_closed _ hrt]
  case noneDue =>
    intro s htail hrt hdue
    rw [exec_tholdExpiry_of_tail htail hrt, State.each_islDecide_of_none_due fun k hk =>
      (s.islDue_tholdEnded k).trans (hdue k (List.mem_range.mp hk))]
    rfl
  case due =>
    intro s htail hrt hgf
    have hgf' : s.tholdEnded.grd.gf = false := hgf
    obtain ⟨hdecides, hall⟩ := State.each_islDecide (List.range 6) (State.islHeld_tholdEnded hrt) hgf'
    refine ⟨_, exec_tholdExpiry_of_tail htail hrt, hdecides.tail, fun k hk hdue => ?_⟩
    have hnoted := hall k (List.mem_range.mpr hk) ((s.islDue_tholdEnded k).trans hdue)
    exact ⟨hnoted, fun hnew hon => hdecides.makes hon k hnew hnoted⟩
  case gf =>
    intro s hon hflag hvalid
    refine ⟨s.gfAsked false, ?_, ?_⟩
    · rw [exec_grdGf, State.gfRequest_of_accepted false hon hflag hvalid]
    · simp only [State.gfAsked, and_self]
  case gfRefused =>
    intro s h
    rw [exec_grdGf, State.gfRequest_of_refused false h]
    rfl
  case timeout =>
    intro s hxfer hfrom
    rw [exec_gfTransferTimeout_of_xfer hxfer, if_neg (Bool.eq_false_iff.mp hfrom)]
    rfl
  case timeoutCeases =>
    intro s hxfer hfrom hst
    have hopen : s.gfGivenUp.grd.st ≠ 3 := hst
    have hgrd := State.grd_grdCeased s.grd.cause hopen
    have hgaveUp : s.gfGivenUp.regBit rGRD_STAT 10 = true := State.regBit_setBit_same _ _ (by decide)
    refine ⟨_, (exec_gfTransferTimeout_of_xfer hxfer).trans (by rw [if_pos hfrom]), congrArg Grd.xfer hgrd,
      congrArg Grd.phNew hgrd, congrArg Grd.st hgrd, by rw [hgrd]; rfl, ?_, (State.grdCeased_noted _ hopen).1⟩
    rw [State.regBit, State.reg_grdStat_grdCeased _ hopen]
    exact State.regBit_setBit_of_set 8 hgaveUp
  case cease =>
    intro s hon hst
    have hgrd := State.grd_grdCeased 12 hst
    obtain ⟨hstat, hirq, hcount⟩ := State.grdCeased_noted 12 hst
    exact ⟨_, exec_grdCease_of_on hon, congrArg Grd.st hgrd, congrArg Grd.cause hgrd, congrArg Grd.rt hgrd,
      congrArg Grd.xfer hgrd, hstat, hirq, hcount, fun _ => State.stopped_grdCeased 12 hst⟩

end Sys2Proof.Machine
end

section
/-!
The commands of island detection (R250 to R257): the decision of a passive window, and the cycle that ends, the degraded
mode and the chip at an angle zero.
-/

namespace Sys2Proof.Machine

/-! ### The decision of a passive window -/

theorem exec_passiveWindowDecision (w : Nat) (s : State) : exec (.passiveWindowDecision w) s = .next (s.islDecide w) := rfl

/-- A source noted as one that has decided while its condition lasts. -/
def State.islMarked (s : State) (k : Nat) : State := { s with isl := { s.isl with decided := s.isl.decided ||| 2 ^ k } }

theorem exec_passiveWindowDecision_of_due {s : State} {w : Nat} (hdue : s.islDue w = true) (hheld : s.islHeld = false)
    (hgf : s.grd.gf = false) (hnew : bit s.isl.decided w = false) :
    exec (.passiveWindowDecision w) s = .next ((s.islMarked w).islandDecision (6 + w)) := by
  rw [exec_passiveWindowDecision, State.islDecide_of_due hdue hheld hgf, State.islDecideOnce_of_undecided _ hnew]
  rfl

theorem exec_passiveWindowDecision_of_idle {s : State} {w : Nat}
    (h : s.islDue w = false ∨ s.islHeld = true ∨ s.grd.gf = true ∨ bit s.isl.decided w = true) :
    exec (.passiveWindowDecision w) s = .next s := by
  rw [exec_passiveWindowDecision]
  by_cases hready : s.islDue w = true ∧ s.islHeld = false ∧ s.grd.gf = false
  · obtain ⟨hdue, hheld, hgf⟩ := hready
    rw [State.islDecide_of_due hdue hheld hgf, State.islDecideOnce_of_decided _ (by simpa [hdue, hheld, hgf] using h)]
  · have hidle : s.islDue w = false ∨ s.islHeld = true ∨ s.grd.gf = true := by
      simpa [Decidable.or_iff_not_imp_left] using hready
    rw [State.islDecide_of_idle hidle]

theorem State.reg_islandNoted (s : State) : s.islandNoted.regBit rISL_STAT 5 = true ∧
    (s.islandNoted.reg rISL_CNT_ISLAND).toNat = satInc (s.reg rISL_CNT_ISLAND).toNat := by
  have hreg : ∀ a, s.islandNoted.reg a = ((s.setBit rISL_STAT 5).inc rISL_CNT_ISLAND).reg a := fun _ => rfl
  refine ⟨?stat, ?count⟩
  case stat =>
    rw [State.regBit, hreg, State.reg_inc_of_ne _ (by decide)]
    exact s.regBit_setBit_same _ (by decide)
  case count => rw [hreg, State.toNat_reg_inc_same, State.reg_setBit_of_ne _ _ (by decide)]

/-- An island decision that ceases makes ISLAND, sets its event bit and is counted. -/
theorem State.islandNoted_grdCeased (s : State) (cause : Nat) (hst : s.grd.st ≠ 3) :
    (s.islandNoted.grdCeased cause).isl = { s.isl with island := true, tail := s.grd.rt || s.isl.tail } ∧
      (s.islandNoted.grdCeased cause).grd = s.grd.ceased cause ∧
      (s.islandNoted.grdCeased cause).regBit rISL_STAT 5 = true ∧
      ((s.islandNoted.grdCeased cause).reg rISL_CNT_ISLAND).toNat = satInc (s.reg rISL_CNT_ISLAND).toNat := by
  obtain ⟨r, hnoted⟩ := s.islandNoted_eq
  have hopen : s.islandNoted.grd.st ≠ 3 := by rw [hnoted]; exact hst
  obtain ⟨hstat, hcount⟩ := s.reg_islandNoted
  obtain ⟨_, _, _, hceased⟩ := State.grdCeased_eq cause hopen
  refine ⟨?isl, ?grd, ?stat, ?count⟩
  case isl => rw [hceased, hnoted]
  case grd => rw [hceased, hnoted]
  case stat => rwa [State.regBit, State.reg_grdCeased_of_ne cause (by decide) (by decide) (by decide) (by decide)]
  case count => rwa [State.reg_grdCeased_of_ne cause (by decide) (by decide) (by decide) (by decide)]

/-! ### The cycle that ends (R253, R254) -/

/-- The cycle in progress begins again. -/
def State.islBegun (s : State) : State := { s with isl := { s.isl with sumV := 0, sumI := 0, nSum := 0 } }

theorem State.islCycle_of_not_injecting {s : State} (h : s.isl.inj = false) : s.islCycle = s.islBegun :=
  if_pos (by rw [h]; rfl)

theorem State.codeLen_ne_zero (s : State) : s.codeLen ≠ 0 := by
  unfold State.codeLen
  split <;> decide

/-- A cycle with the chip heads the window of the second state, with the sums of the next at zero; the time is as it was. -/
structure State.CycleEnded (s : State) (chip : Bool) (t : State) : Prop where
  tim : t.tim = s.tim
  head : t.isl.window.head?.map (·.chip) = some chip
  sums : t.isl.nSum = 0 ∧ t.isl.sumV = 0 ∧ t.isl.sumI = 0

theorem State.CycleEnded.congr {s t u : State} {chip : Bool} (h : s.CycleEnded chip t) (htim : u.tim = t.tim)
    (hwindow : u.isl.window = t.isl.window)
    (hsums : u.isl.nSum = t.isl.nSum ∧ u.isl.sumV = t.isl.sumV ∧ u.isl.sumI = t.isl.sumI) : s.CycleEnded chip u where
  tim := htim.trans h.tim
  head := by rw [hwindow, h.head]
  sums := by
    obtain ⟨hn, hv, hi⟩ := hsums
    rw [hn, hv, hi]
    exact h.sums

theorem State.CycleEnded.islDecideOnce {s t : State} {chip : Bool} (k cause : Nat) (h : s.CycleEnded chip t)
    (hrt : t.grd.rt = false) : s.CycleEnded chip (t.islDecideOnce k cause) := by
  cases hk : bit t.isl.decided k with
  | true => rwa [State.islDecideOnce_of_decided cause hk]
  | false =>
    obtain ⟨r, p, e, g, heq, -, -⟩ := State.islDecideOnce_from cause hrt hk
    rw [heq]
    exact h.congr rfl rfl ⟨rfl, rfl, rfl⟩

/-- The cycle of a chip that was injected enters the window, whatever the perturbation then decides. -/
theorem State.islCycle_ended {s : State} (hinj : s.isl.inj = true) (hsum : s.isl.nSum ≠ 0) :
    s.CycleEnded s.isl.chipPos s.islCycle := by
  have hruns : ¬(!s.isl.inj || decide (s.isl.nSum = 0)) = true := by simp [hinj, hsum]
  unfold State.islCycle
  extract_lets i begun k isl ended
  rw [if_neg hruns]
  have hended : s.CycleEnded s.isl.chipPos ended :=
    ⟨rfl, by simp [ended, k, i, List.head?_take, State.codeLen_ne_zero], rfl, rfl, rfl⟩
  split
  · exact hended.congr rfl rfl ⟨rfl, rfl, rfl⟩
  · next z _ =>
    extract_lets run estimated
    have hestimated : s.CycleEnded s.isl.chipPos estimated := hended.congr rfl rfl ⟨rfl, rfl, rfl⟩
    split
    · exact hestimated.congr rfl rfl ⟨rfl, rfl, rfl⟩
    · split
      · exact hestimated
      · next hfree => exact hestimated.islDecideOnce 6 5 (State.islHeld_eq_false_iff.mp (Bool.eq_false_iff.mpr hfree)).1

/-! ### The degraded mode (R255) -/

/-- With valid time: not DEGRADED, and no frequency shift. -/
def State.timeSound (s : State) : State := { s with isl := { s.isl with degraded := false, thFs := 0 } }

theorem State.islDegrade_of_valid {s : State} (h : s.tim.valid = true) : s.islDegrade = s.timeSound := if_pos h

/-- DEGRADED, counted on entry. -/
def State.degradedNoted (s : State) : State :=
  if s.isl.degraded then s
  else (({ s with isl := { s.isl with degraded := true } } : State).inc rISL_CNT_DEGR).setBit rISL_STAT 6

theorem State.islDegrade_of_invalid {s : State} (h : s.tim.valid = false) : s.islDegrade = s.degradedNoted.islClear :=
  if_neg (Bool.eq_false_iff.mp h)

theorem State.degradedNoted_eq (s : State) : ∃ r, s.degradedNoted = { s with
      regs := r, isl := { s.isl with degraded := true } } ∧
    (SMap.get regReset r rISL_CNT_DEGR).toNat =
      if s.isl.degraded then (s.reg rISL_CNT_DEGR).toNat else satInc (s.reg rISL_CNT_DEGR).toNat := by
  unfold State.degradedNoted
  cases hdeg : s.isl.degraded with
  | true => exact ⟨s.regs, by rw [if_pos rfl, ← hdeg], by rw [if_pos rfl]; rfl⟩
  | false =>
    rw [if_neg Bool.false_ne_true, if_neg Bool.false_ne_true]
    refine ⟨_, rfl, ?_⟩
    exact (congrArg BitVec.toNat (State.reg_setBit_of_ne _ 6 (by decide))).trans (State.toNat_reg_inc_same _ _)

theorem State.degraded_islDegrade (s : State) : s.islDegrade.isl.degraded = !s.tim.valid := by
  cases hvalid : s.tim.valid with
  | true => rw [State.islDegrade_of_valid hvalid]; rfl
  | false =>
    obtain ⟨r, heq, -⟩ := s.degradedNoted_eq
    rw [State.islDegrade_of_invalid hvalid, heq]
    rfl

/-! ### The chip (R252) -/

/-- The chip that time gives, injected where injection is enabled and ISL not held. -/
def State.chipChosen (s : State) : State :=
  if s.gridFlag 5 && !s.islHeld then
    { s with isl := { s.isl with inj := true, chipIdx := s.chipNow, chipPos := mlsChip (s.gridFlag 8) s.chipNow } }
  else { s with isl := { s.isl with inj := false } }

theorem State.chipChosen_of_enabled {s : State} (h : (s.gridFlag 5 && !s.islHeld) = true) : s.chipChosen =
    { s with isl := { s.isl with inj := true, chipIdx := s.chipNow, chipPos := mlsChip (s.gridFlag 8) s.chipNow } } :=
  if_pos h

theorem State.chipChosen_of_disabled {s : State} (h : ¬(s.gridFlag 5 && !s.islHeld) = true) :
    s.chipChosen = { s with isl := { s.isl with inj := false } } := if_neg h

/-- The frequency shift, delivered where it is enabled and ISL not held. -/
def State.shiftSet (s : State) : State :=
  { s with isl := { s.isl with thFs := if s.gridFlag 6 && !s.islHeld then s.freqShift else 0 } }

theorem exec_chipApply_of_off {s : State} (hon : s.gridOn = false) : exec .chipApply s = .next s :=
  congrArg Host.Outcome.next (if_pos (by rw [hon]; rfl))

theorem exec_chipApply_of_gf {s : State} (hon : s.gridOn = true) (hgf : s.grd.gf = true) : exec .chipApply s =
    .next { s.islDegrade with isl := { s.islDegrade.isl with inj := false, thFs := 0, zValid := false } } :=
  congrArg Host.Outcome.next ((if_neg (by rw [hon]; decide)).trans (if_pos hgf))

theorem exec_chipApply_of_gfl {s : State} (hon : s.gridOn = true) (hgf : s.grd.gf = false) : exec .chipApply s =
    .next (if !s.islCycle.islDegrade.tim.valid then s.islCycle.islDegrade.shiftSet
      else s.islCycle.islDegrade.chipChosen) :=
  congrArg Host.Outcome.next ((if_neg (by rw [hon]; decide)).trans (if_neg (Bool.eq_false_iff.mp hgf)))

theorem exec_chipApply_of_valid {s t : State} (hon : s.gridOn = true) (hgf : s.grd.gf = false) (hcycle : s.islCycle = t)
    (hvalid : t.tim.valid = true) : exec .chipApply s = .next t.timeSound.chipChosen := by
  have htim : t.timeSound.tim.valid = true := hvalid
  rw [exec_chipApply_of_gfl hon hgf, hcycle, State.islDegrade_of_valid hvalid]
  exact congrArg Host.Outcome.next (if_neg (by rw [htim]; decide))

theorem exec_chipApply_of_invalid {s t : State} (hon : s.gridOn = true) (hgf : s.grd.gf = false) (hcycle : s.islCycle = t)
    (hvalid : t.tim.valid = false) : exec .chipApply s = .next t.degradedNoted.islClear.shiftSet := by
  have htim : t.degradedNoted.islClear.tim.valid = false := by
    obtain ⟨r, heq, -⟩ := t.degradedNoted_eq
    rw [heq]
    exact hvalid
  rw [exec_chipApply_of_gfl hon hgf, hcycle, State.islDegrade_of_invalid hvalid]
  exact congrArg Host.Outcome.next (if_pos (by rw [htim]; rfl))

/-! ### The statement -/

/-- Settles O34: a window that is due decides by `islandDecision`, ceasing (`islandNoted_grdCeased`) or asking for grid
forming; an angle zero is `exec_chipApply_of_valid` or `exec_chipApply_of_invalid`, after the cycle that ends
(`islCycle_ended`). -/
theorem islandCommandsComplete : Obligations.IslandCommandsComplete := by
  unfold Obligations.IslandCommandsComplete
  refine ⟨?ceases, ?asks, ?off, fun _ _ => exec_passiveWindowDecision_of_idle, ?gf, ?chip, ?degraded, ?cycle,
    fun _ => exec_chipApply_of_off⟩
  case ceases =>
    intro s w hw hdue hheld hgf hnew hon hauto hst
    obtain ⟨hisl, hgrd, hstat, hcount⟩ := (s.islMarked w).islandNoted_grdCeased (6 + w) hst
    refine ⟨_, (exec_passiveWindowDecision_of_due hdue hheld hgf hnew).trans
      (congrArg _ (State.islandDecision_ceases _ hon hst hauto)), congrArg Isl.island hisl, hstat, hcount,
      congrArg Grd.st hgrd, congrArg Grd.cause hgrd, ?_⟩
    rw [hisl]
    exact (bit_or_two_pow ..).trans (by rw [decide_eq_true rfl, Bool.or_true])
  case asks =>
    intro s w hw hdue hheld hgf hnew hon hauto hflag hvalid hst
    refine ⟨_, (exec_passiveWindowDecision_of_due hdue hheld hgf hnew).trans
      (congrArg _ (State.islandDecision_asks _ hon hst hauto hflag hvalid)), ?_⟩
    simp only [State.islandAsked, State.gfAsked, and_true]
    exact ⟨rfl, rfl⟩
  case off =>
    intro s w hw hdue hheld hgf hnew hon
    rw [exec_passiveWindowDecision_of_due hdue hheld hgf hnew, State.islandDecision_of_off (s := s.islMarked w) _ hon]
    rfl
  case gf =>
    exact fun s hon hgf => ⟨_, exec_chipApply_of_gf hon hgf, rfl, rfl, rfl, s.degraded_islDegrade⟩
  case chip =>
    intro s hon hgf hinj hvalid
    have hexec := exec_chipApply_of_valid hon hgf (State.islCycle_of_not_injecting hinj) hvalid
    by_cases henabled : (s.gridFlag 5 && !s.islHeld) = true
    · rw [State.chipChosen_of_enabled (s := s.islBegun.timeSound) henabled] at hexec
      refine ⟨_, hexec, rfl, rfl, ?_⟩
      rw [if_pos henabled]
      exact ⟨rfl, rfl, rfl⟩
    · rw [State.chipChosen_of_disabled (s := s.islBegun.timeSound) henabled] at hexec
      refine ⟨_, hexec, rfl, rfl, ?_⟩
      rw [if_neg henabled]
  case degraded =>
    intro s hon hgf hinj hvalid
    refine ⟨_, exec_chipApply_of_invalid hon hgf (State.islCycle_of_not_injecting hinj) hvalid, ?_⟩
    obtain ⟨r, heq, hcount⟩ := s.islBegun.degradedNoted_eq
    rw [heq]
    exact ⟨rfl, rfl, rfl, rfl, hcount⟩
  case cycle =>
    intro s hon hgf hinj hsum hvalid
    have hended := State.islCycle_ended hinj hsum
    refine ⟨_, exec_chipApply_of_valid hon hgf rfl (hended.tim ▸ hvalid), ?_⟩
    unfold State.chipChosen
    split <;> exact ⟨hended.head, hended.sums⟩

end Sys2Proof.Machine
end

section
/-!
The chip sequences (R251) as shift registers: the register holds the next chips, the oldest in bit 0, and each step shifts in
the sum of its two taps at the top.
-/

namespace Sys2Proof.Machine

/-- The number of chips that the register holds. -/
def mlsDegree (long : Bool) : Nat := if long then 6 else 5

/-- The tap beside bit 0. -/
def mlsTap (long : Bool) : Nat := if long then 5 else 3

/-- The register with all ones. -/
def mlsOnes (long : Bool) : Nat := if long then 63 else 31

/-- The chip that a step shifts in. -/
def mlsFeed (long : Bool) (r : Nat) : Bool := bit r 0 != bit r (mlsTap long)

/-- One step of the register. -/
def mlsStep (long : Bool) (r : Nat) : Nat := r / 2 + 2 ^ (mlsDegree long - 1) * b2n (mlsFeed long r)

/-- The register after some steps. -/
def mlsAfter (long : Bool) : Nat → Nat → Nat
  | 0, r => r
  | n + 1, r => mlsAfter long n (mlsStep long r)

theorem mlsAfter_succ (long : Bool) (n r : Nat) : mlsAfter long (n + 1) r = mlsStep long (mlsAfter long n r) := by
  induction n generalizing r with
  | zero => rfl
  | succ n ih => exact ih (mlsStep long r)

theorem mlsAfter_add (long : Bool) (m n r : Nat) : mlsAfter long (n + m) r = mlsAfter long m (mlsAfter long n r) := by
  induction m with
  | zero => rfl
  | succ m ih => rw [← Nat.add_assoc, mlsAfter_succ, mlsAfter_succ, ih]

theorem mlsFrom_succ (long : Bool) (n r : Nat) : mlsFrom long (n + 1) r = bit r 0 :: mlsFrom long n (mlsStep long r) := by
  cases long <;> rfl

theorem getD_mlsFrom (long : Bool) {n m : Nat} (h : n < m) (r : Nat) :
    (mlsFrom long m r).getD n false = bit (mlsAfter long n r) 0 := by
  induction m generalizing n r with
  | zero => exact absurd h (Nat.not_lt_zero n)
  | succ m ih =>
    rw [mlsFrom_succ]
    cases n with
    | zero => rfl
    | succ n => exact ih (Nat.lt_of_succ_lt_succ h) (mlsStep long r)

/-- Chip `n` is bit 0 of the register after `n` steps. -/
theorem mlsChip_eq (long : Bool) (n : Nat) : mlsChip long n = bit (mlsAfter long n (mlsOnes long)) 0 :=
  getD_mlsFrom long (Nat.lt_succ_self n) _

/-! ### The register -/

theorem mlsDegree_eq_succ (long : Bool) : mlsDegree long = mlsDegree long - 1 + 1 := by cases long <;> rfl

theorem testBit_mlsStep {long : Bool} {r : Nat} (h : r < 2 ^ mlsDegree long) (j : Nat) :
    (mlsStep long r).testBit j = if j < mlsDegree long - 1 then r.testBit (j + 1)
      else (b2n (mlsFeed long r)).testBit (j - (mlsDegree long - 1)) := by
  rw [mlsDegree_eq_succ, Nat.pow_succ] at h
  rw [mlsStep, Nat.add_comm, Nat.testBit_two_pow_mul_add _ (by omega), Nat.testBit_succ]

theorem mlsStep_lt {long : Bool} {r : Nat} (h : r < 2 ^ mlsDegree long) : mlsStep long r < 2 ^ mlsDegree long := by
  have hfeed : b2n (mlsFeed long r) ≤ 1 := by cases mlsFeed long r <;> decide
  have htop := Nat.mul_le_mul_left (2 ^ (mlsDegree long - 1)) hfeed
  rw [mlsDegree_eq_succ, Nat.pow_succ] at h ⊢
  rw [mlsStep]
  omega

theorem bit_mlsStep_of_lt {long : Bool} {r j : Nat} (h : r < 2 ^ mlsDegree long) (hj : j + 1 < mlsDegree long) :
    bit (mlsStep long r) j = bit r (j + 1) := by
  rw [bit_eq_testBit, bit_eq_testBit, testBit_mlsStep h, if_pos (Nat.lt_sub_of_add_lt hj)]

theorem bit_mlsStep_top {long : Bool} {r : Nat} (h : r < 2 ^ mlsDegree long) :
    bit (mlsStep long r) (mlsDegree long - 1) = mlsFeed long r := by
  rw [bit_eq_testBit, testBit_mlsStep h, if_neg (Nat.lt_irrefl _), Nat.sub_self]
  cases mlsFeed long r <;> rfl

theorem mlsAfter_lt {long : Bool} {r : Nat} (h : r < 2 ^ mlsDegree long) (n : Nat) :
    mlsAfter long n r < 2 ^ mlsDegree long := by
  induction n with
  | zero => exact h
  | succ n ih =>
    rw [mlsAfter_succ]
    exact mlsStep_lt ih

/-- What the register holds comes out of it in turn. -/
theorem bit_mlsAfter {long : Bool} {r n : Nat} (h : r < 2 ^ mlsDegree long) (hn : n < mlsDegree long) :
    bit (mlsAfter long n r) 0 = bit r n := by
  induction n generalizing r with
  | zero => rfl
  | succ n ih =>
    rw [mlsAfter, ih (mlsStep_lt h) (Nat.lt_of_succ_lt hn), bit_mlsStep_of_lt h hn]

/-! ### The recurrence -/

theorem mlsChip_add {long : Bool} {n k : Nat} (hk : k < mlsDegree long) :
    mlsChip long (n + k) = bit (mlsAfter long n (mlsOnes long)) k := by
  have hones : mlsOnes long < 2 ^ mlsDegree long := by cases long <;> decide
  rw [mlsChip_eq, mlsAfter_add, bit_mlsAfter (mlsAfter_lt hones n) hk]

theorem mlsChip_recurrence (long : Bool) (n : Nat) :
    mlsChip long (n + mlsDegree long) = xor (mlsChip long (n + mlsTap long)) (mlsChip long n) := by
  have hones : mlsOnes long < 2 ^ mlsDegree long := by cases long <;> decide
  have htap : mlsTap long < mlsDegree long := by cases long <;> decide
  have hlast : mlsDegree long - 1 < mlsDegree long := by cases long <;> decide
  have hshift : n + mlsDegree long = n + 1 + (mlsDegree long - 1) := by
    have := mlsDegree_eq_succ long
    omega
  rw [hshift, mlsChip_add hlast, mlsAfter_succ, bit_mlsStep_top (mlsAfter_lt hones n), mlsFeed,
    mlsChip_add htap, mlsChip_eq, Bool.xor_comm]

/-- Where injection is on outside grid-forming mode, I/O word 0x37B is IPERT with the sign of the chip in use. -/
theorem State.grdWord_eleven {s : State} (hon : s.gridOn = true) (hinj : s.isl.inj = true) (hgf : s.grd.gf = false) :
    s.grdWord 11 = if s.isl.chipPos then s.gridWord 228 else -(s.gridWord 228) := by
  have hinjected : (s.isl.inj && !s.grd.gf) = true := by rw [hinj, hgf]; rfl
  rw [State.grdWord, if_neg (by decide), if_neg (by rw [hon]; decide)]
  exact if_pos hinjected

/-- Settles O35: both recurrences are `mlsChip_recurrence`, and the sign is `grdWord_eleven`. -/
theorem chipSequencesAreTheStatedOnes : Obligations.ChipSequencesAreTheStatedOnes := by
  unfold Obligations.ChipSequencesAreTheStatedOnes
  refine ⟨mlsChip_recurrence false, mlsChip_recurrence true, by decide, fun s => State.grdWord_eleven, fun n =>
    ⟨fun hn => ?_, fun hn => ?_⟩⟩
  · rw [← n.zero_add, mlsChip_add (long := false) hn]
    revert n
    decide
  · rw [← n.zero_add, mlsChip_add (long := true) hn]
    revert n
    decide

end Sys2Proof.Machine
end
